-- ==== Sys2Proof/Word.lean ====
section
/-! DEFINITION. The word types of the LN2430 model and their plainest constants: bytes, wheel positions (R5), and the
association table used for every indexed group of like things. What computes with them stands in Machine/Bits.lean. -/

namespace Sys2Proof

/-- One byte (R4). -/
abbrev Byte := BitVec 8

/-- A visible wheel position: bits [63:32] whole revolutions, bits [31:0] the fraction (R5). -/
abbrev WheelPos := BitVec 64

/-- A wheel position with its 32 hidden fraction bits below the visible ones (R24). -/
abbrev WheelAcc := BitVec 96

/-- A text of characters, one byte each. -/
abbrev Text := List Byte

/-- Fabric cycles in one second: 400 MHz, 2.5 ns each (R8, R24). -/
abbrev cyclesPerSec : Nat := 400000000

/-- Fabric cycles in one millisecond. -/
abbrev cyclesPerMs : Nat := 400000

/-- Fabric cycles in one microsecond. -/
abbrev cyclesPerUs : Nat := 400

/-- A table of like things keyed by number: keys strictly rising, an unlisted key reads as the default. -/
abbrev Tbl (α : Type) := List (Nat × α)

end Sys2Proof
end

