-- ==== Sys2Proof/Syntax.lean ====
section
/-! DEFINITION. The commands of the LN2430 block: one constructor of `Instr` per row of the operation and event
table. Every command's first operand `dt` is the number of fabric cycles (2.5 ns, R24) that have passed since the
command before it; the other operands are what the outside gives the step (levels, bytes, frames, results). -/

namespace Sys2Proof

/-- What the check bits say of the words that a read of a packet, or of the record that it refers to, meets (R232, R233):
no error, a single-bit error, a double-bit error in one of the packet's later words, one in its first word, one in the
record store. -/
inductive Ecc where
  | clean | single | double | doubleFirst | store
  deriving DecidableEq, Repr

/-- One frame on a CAN bus (R201): extended or base, remote or data, identifier, data bytes. -/
structure CanFrame where
  ext : Bool
  remote : Bool
  id : Nat
  data : List Byte
  deriving DecidableEq, Repr

/-- What the line monitor gathered for one pair in one classification window (R162): the number of samples of each
side, sums and extremes of the pin codes, extremes of the code difference A − B, edges counted, and the longest high
and low runs of SER_RXD in serial clock cycles. -/
structure WindowObs where
  count : Nat
  sumA : Nat
  sumB : Nat
  minA : Nat
  maxA : Nat
  minB : Nat
  maxB : Nat
  minD : Int
  maxD : Int
  rises : Nat
  falls : Nat
  longHigh : Nat
  longLow : Nat
  deriving DecidableEq, Repr

/-- A stretch of time on the lines of a serial port, as at its balls: the levels of SER_RXD and SER_AUX, and for how many
serial clock cycles of 73.728 MHz they stand (R132, R146). -/
structure WireRun where
  rxd : Bool
  aux : Bool
  cycles : Nat
  deriving DecidableEq, Repr

/-- The line of a frame port at a response deadline: the port, and whether a start bit had come since the header
(Table 6.8). -/
structure FrameDeadline where
  port : Fin 4
  started : Bool
  deriving DecidableEq, Repr

/-- The PHY registers one poll reads (R177): register 1 twice, then 4, 5, 9 and 10, and the SGMII in-band speed code
(0 10, 1 100, 2 1000 Mbit/s). -/
structure PhyRegs where
  r1a : BitVec 16
  r1b : BitVec 16
  r4 : BitVec 16
  r5 : BitVec 16
  r9 : BitVec 16
  r10 : BitVec 16
  sgmii : BitVec 2
  deriving DecidableEq, Repr

/-- A dictionary client (R269): the SDO server, the SPI target, or one LAP peer by key slot, address and port. -/
inductive ClientId where
  | sdo
  | spi
  | lap (key : Fin 4) (ip : BitVec 32) (port : BitVec 16)
  deriving DecidableEq, Repr

/-- What a bus error of ISO 11898-1 does to the counters (R205): the amounts by which they rise. -/
structure CanErr where
  txUp : Nat
  rxUp : Nat
  deriving DecidableEq, Repr

/-- A HELLO payload (Table 14.2). -/
structure Hello where
  product : Nat
  revision : Nat
  firmware : Nat
  serial : Nat
  identity : Nat
  mode : Nat
  role : Nat
  generation : Nat
  deriving DecidableEq, Repr

/-- A HEARTBEAT (Table 14.2) with the frame fields of Table 14.1 that the receiver uses: frame sequence and sender's
position, the payload, the echo, and the receiver's own position at the start delimiter. -/
structure Heartbeat where
  frameSeq : Nat
  sentAt : WheelPos
  rxAt : WheelPos
  role : Nat
  mode : Nat
  generation : Nat
  alerts : Nat
  wheelStates : Nat
  errBound : Nat
  echoSeq : Nat
  echoSent : WheelPos
  echoRx : WheelPos
  deriving DecidableEq, Repr

/-- One item of a MIRROR frame (Table 14.3). -/
inductive MirrorItem where
  | source (row score health : Nat)
  | group (g chosen : Nat) (holdRunning : Bool) (holdElapsed : Nat) (disagree : Bool)
  | cascade (c state reason : Nat) (outerI innerI outer inner heldOuter heldInner : Rat) (overruns : Nat)
  | tank (t weight : Nat) (anchorSounding anchorContribution : Rat)
  | mark (listener cls source : Nat) (pip : WheelPos) (crc : Nat)
  | counters (listener lastSeq lineCount ipId : Nat) (sids fast : List (Nat × Nat))
  | bnd (index sub row : Nat) (data : List Byte)
  deriving DecidableEq, Repr

/-- One check failure as window 0x5001 holds it (R280). -/
structure CheckEntry where
  index : Nat
  sub : Nat
  row : Nat
  reason : Nat
  deriving DecidableEq, Repr

/-- One journal record (Tables 11.1, 11.2): type, class, sequence, delivery sequence, taken-at position, and the bytes
from byte 32 on. -/
structure JRecord where
  type : Nat
  cls : Nat
  seq : Nat
  dseq : Nat
  taken : WheelPos
  body : List Byte
  deriving DecidableEq, Repr

/-- One programmed page of the journal (R253): its page sequence, its block and its records. -/
structure JPage where
  seq : Nat
  block : Nat
  recs : List JRecord
  deriving DecidableEq, Repr

/-- What mounting finds on the NAND (R258): whether it answers, the geometry of its parameter page, a valid block table
with the blocks it retires, or the factory bad-block marks, and the valid pages in page order. -/
structure MountFound where
  answered : Bool
  tableValid : Bool
  capacity : Nat
  pageSize : Nat
  blocks : Nat
  bad : List Nat
  retired : Nat
  tableGen : Nat
  formatId : Nat
  pages : List JPage
  deriving DecidableEq, Repr

/-- A NAND operation that can time out (R252, R256), a read with the block that it is of. -/
inductive NandOp where
  | read (block : Nat) | program | erase
  deriving DecidableEq, Repr

/-- What one firmware slot holds when the boot ROM or a verification judges it (R331, R332): the header fields and,
for each signature, whether ECDSA P-256 accepts it. -/
structure ImageFacts where
  magicOk : Bool
  product : Nat
  revision : Nat
  version : Nat
  security : Nat
  length : Nat
  bodyHashOk : Bool
  vendorKeyHash : Nat
  vendorSigOk : Bool
  customerKeyHash : Option Nat
  customerSigOk : Bool
  deriving DecidableEq, Repr

/-- A supply rail (Table 18.5). -/
inductive Rail where
  | vddAo | vddCore | vddSram | vddJl | vdd2Lp | vddqLp | vddio18 | vddio33 | vddaAfe
  deriving DecidableEq, Repr

/-- A clock that arrives from outside the chip (R224, R239). -/
inductive ExtClock where
  | rx0 | rx1 | spi | joile
  deriving DecidableEq, Repr

/-- The side of a queue (R240). -/
inductive Side where
  | producer | consumer
  deriving DecidableEq, Repr

/-- The commands of the block: one per row of the operation and event table, in its order. -/
inductive Instr where
  -- position wheels (02)
  | ppsEdge (dt : Nat) (rising : Bool)
  | zdaReceived (dt : Nat)
  | ppsLossTimeout (dt : Nat)
  | timeSourceRevert (dt : Nat)
  | ptpLossTimeout (dt : Nat) (port : Fin 2)
  | shaftQuadratureEdge (dt : Nat) (a b : Bool)
  | shaftIndex (dt : Nat)
  | shaftLockTimer (dt : Nat)
  | shaftStandstill (dt : Nat)
  | mainsZeroCrossing (dt : Nat) (rising : Bool)
  | mainsLossTimeout (dt : Nat)
  | seaWheelLossTimeout (dt : Nat)
  | appointmentDue (dt : Nat) (row : Fin 1024)
  | ppsOutPulseStart (dt : Nat)
  | ppsOutPulseEnd (dt : Nat)
  | whlEvtDispatch (dt : Nat) (n : Fin 8)
  | whlEvtPulseEnd (dt : Nat) (n : Fin 8)
  -- carding (03)
  | cardSerialCharacter (dt : Nat) (port : Fin 24)
  | cardDatagram (dt : Nat) (port : Fin 2) (engineB : Bool)
  | cardCanMessage (dt : Nat) (port : Fin 2)
  | cardReceivedPdo (dt : Nat)
  | sourceLate (dt : Nat) (row : Fin 512)
  | sourceStale (dt : Nat) (row : Fin 512)
  | voteCountingRecord (dt : Nat) (ce9 : Bool)
  | groupHoldExpiry (dt : Nat) (g : Fin 64)
  | clearDiscoveryList (dt : Nat)
  -- Bramble (04)
  | brambleMatch (dt : Nat) (q : Fin 11) (ecc : Ecc)
  | shaperEmission (dt : Nat) (n : Fin 256)
  | composeEntry (dt : Nat) (fe1 : Bool) (ecc : Ecc)
  -- tank model and control (05)
  | controlTakeRecord (dt : Nat)
  | modelRecompute (dt : Nat)
  | tankStaleTimeout (dt : Nat) (t : Fin 96)
  | readingMeanInterval (dt : Nat) (t : Fin 96)
  | gaugeSampleSet (dt : Nat) (n : Fin 32)
  | fallbackSample (dt : Nat) (n : Fin 32)
  | freeReportSample (dt : Nat) (ch : Fin 16)
  | cascadeInnerStep (dt : Nat) (c : Fin 16)
  | cascadeStepComplete (dt : Nat) (c : Fin 16)
  | cascadeRelease (dt : Nat) (c : Fin 16)
  | cascadeHoldCommand (dt : Nat) (c : Fin 16)
  | rebase (dt : Nat)
  | readmit (dt : Nat) (t : Fin 96)
  | syncDispatch (dt : Nat)
  -- serial ports (06)
  | serialCharacterReceived (dt : Nat) (port : Fin 24) (line : List WireRun)
  | falseStart (dt : Nat) (port : Fin 24) (line : List WireRun)
  | breakEnd (dt : Nat) (port : Fin 24)
  | stuckLow (dt : Nat) (port : Fin 24)
  | stuckProbe (dt : Nat) (port : Fin 24)
  | lineRecovered (dt : Nat) (port : Fin 24)
  | serialTxStart (dt : Nat) (port : Fin 24)
  | serialTxDone (dt : Nat) (port : Fin 24)
  | driverLagExpiry (dt : Nat) (port : Fin 24)
  | dividerWrite (dt : Nat) (who : ClientId) (port : Fin 24) (d : BitVec 16)
  | serialStartEdgeWake (dt : Nat) (port : Fin 24)
  | autobaudMeasurement (dt : Nat) (port : Fin 24) (l1 h1 l2 h2 : Nat)
  | frameSlotStart (dt : Nat) (p : Fin 4)
  | frameResponseDeadline (dt : Nat) (at_ : FrameDeadline)
  | frameHeaderObserved (dt : Nat) (p : Fin 4) (dominantBits : Nat) (sync pid : Byte)
  | busShort (dt : Nat) (p : Fin 4)
  -- analogue inputs (07)
  | classificationWindowEnd (dt : Nat) (pair : Fin 24) (obs : WindowObs)
  | loopConversion (dt : Nat) (ch : Fin 16) (code : BitVec 24) (refMv : Nat)
  -- Ethernet (08)
  | phyPoll (dt : Nat) (port : Fin 2) (regs : PhyRegs)
  | ethFrameReceived (dt : Nat) (port : Fin 2) (bytes : List Byte) (rxEr : Bool)
  | arpFrame (dt : Nat) (port : Fin 2)
  | arpRetry (dt : Nat) (port : Fin 2)
  | arpResolutionTimeout (dt : Nat) (port : Fin 2)
  | arpEntryExpiry (dt : Nat) (port : Fin 2)
  | icmpEchoRequest (dt : Nat) (port : Fin 2)
  | igmpQuery (dt : Nat) (port : Fin 2) (delay : Nat)
  | igmpReportDelay (dt : Nat) (port : Fin 2) (group : BitVec 32)
  | macFrameStart (dt : Nat) (port : Fin 2) (bytesInMac : Nat)
  | macFrameEnd (dt : Nat) (port : Fin 2)
  | txUnderrun (dt : Nat) (port : Fin 2)
  | pauseTimerExpiry (dt : Nat) (port : Fin 2)
  | pauseWatchdog (dt : Nat) (port : Fin 2)
  | pauseHoldoffEnd (dt : Nat) (port : Fin 2)
  | removeStampHead (dt : Nat) (port : Fin 2)
  | ptpAnnounce (dt : Nat) (port : Fin 2)
  | ptpAnnounceTimeout (dt : Nat) (port : Fin 2)
  | ptpSync (dt : Nat) (port : Fin 2)
  | ptpFollowUp (dt : Nat) (port : Fin 2)
  | ptpDelayResp (dt : Nat) (port : Fin 2)
  | ptpExchangeTimeout (dt : Nat) (port : Fin 2)
  | macCounterSample (dt : Nat) (port : Fin 2)
  | clearCaptureRing (dt : Nat) (port : Fin 2)
  | phyRegisterRead (dt : Nat) (who : ClientId) (fromPhy : BitVec 16)
  | phyRegisterWrite (dt : Nat) (who : ClientId) (value : BitVec 16)
  -- CAN (09)
  | canFrameReceived (dt : Nat) (c : Fin 3) (frame : CanFrame)
  | canFrameSent (dt : Nat) (c : Fin 3)
  | canBusError (dt : Nat) (c : Fin 3) (err : CanErr)
  | busOffDelay (dt : Nat) (c : Fin 3)
  | busOffRecovered (dt : Nat) (c : Fin 3)
  | addressClaim (dt : Nat) (c : Fin 2)
  | addressClaimComplete (dt : Nat) (c : Fin 2)
  | pgnRequest (dt : Nat) (c : Fin 2)
  | fastPacketTimeout (dt : Nat) (c : Fin 2)
  | bamTimeout (dt : Nat) (c : Fin 2)
  | nmtStart (dt : Nat) (node : Byte)
  | nmtStop (dt : Nat) (node : Byte)
  | nmtEnterPreOperational (dt : Nat) (node : Byte)
  | nmtResetNode (dt : Nat) (node : Byte)
  | nmtResetCommunication (dt : Nat) (node : Byte)
  | sdoExpeditedDownload (dt : Nat) (index : BitVec 16) (sub : Byte) (sized : Bool) (data : List Byte)
  | sdoExpeditedUpload (dt : Nat) (index : BitVec 16) (sub : Byte)
  | sdoDownloadInitiate (dt : Nat) (index : BitVec 16) (sub : Byte) (size : Option Nat)
  | sdoDownloadSegment (dt : Nat) (toggle last : Bool) (data : List Byte)
  | sdoUploadInitiate (dt : Nat) (index : BitVec 16) (sub : Byte)
  | sdoUploadSegment (dt : Nat) (toggle : Bool)
  | sdoAbort (dt : Nat)
  | sdoSegmentTimeout (dt : Nat)
  | canopenHeartbeat (dt : Nat)
  | emcyInhibitExpiry (dt : Nat)
  -- queue fabric (10)
  | queueStall (dt : Nat) (q : Fin 512)
  | scrubRead (dt : Nat) (addr : BitVec 24) (ecc : Ecc) (live : Bool)
  | unsettled (dt : Nat) (crossing : BitVec 16)
  | realignRequest (dt : Nat) (q : Fin 512) (side : Side)
  | realignAcknowledge (dt : Nat) (q : Fin 512)
  | realignAccept (dt : Nat) (q : Fin 512)
  | realignResume (dt : Nat) (q : Fin 512)
  -- felt journal (11)
  | journalTakeRecord (dt : Nat)
  | journalFlush (dt : Nat)
  | flushNow (dt : Nat)
  | pageProgrammed (dt : Nat) (ok : Bool)
  | blockErased (dt : Nat) (ok : Bool)
  | nandTimeout (dt : Nat) (op : NandOp)
  | mountComplete (dt : Nat) (found : MountFound)
  | formatComplete (dt : Nat)
  | journalFormat (dt : Nat) (who : ClientId) (value : Byte)
  | journalSeek (dt : Nat) (who : ClientId)
  | journalDataRead (dt : Nat) (who : ClientId) (unreadable : List Nat)
  -- dictionary and blocking cycle (12)
  | cycleOpen (dt : Nat) (who : ClientId)
  | cycleCheck (dt : Nat) (who : ClientId)
  | cycleSet (dt : Nat) (who : ClientId)
  | cycleAbandon (dt : Nat) (who : ClientId)
  | loadFactoryDefaults (dt : Nat) (who : ClientId)
  | checkComplete (dt : Nat)
  | cycleCommit (dt : Nat)
  | blockingSetPoint (dt : Nat)
  | copyWriteComplete (dt : Nat) (ok : Bool)
  | cycleTimeout (dt : Nat)
  | stgWrite (dt : Nat) (who : ClientId) (index : BitVec 16) (sub : Byte) (data : List Byte)
  | bndWrite (dt : Nat) (who : ClientId) (index : BitVec 16) (sub : Byte) (data : List Byte)
  | registerWrite (dt : Nat) (who : ClientId) (index : BitVec 16) (sub : Byte) (data : List Byte)
  | flagClear (dt : Nat) (who : ClientId) (index : BitVec 16) (sub : Byte) (mask : BitVec 16)
  | statisticRead (dt : Nat) (who : ClientId) (index : BitVec 16) (sub : Byte)
  | clientReleaseTimeout (dt : Nat) (slot : Fin 4)
  | clientRelease (dt : Nat) (slot : Fin 4)
  | lapRead (dt : Nat) (port : Fin 2) (ip : BitVec 32) (udp : BitVec 16) (bytes : List Byte)
  | lapWrite (dt : Nat) (port : Fin 2) (ip : BitVec 32) (udp : BitVec 16) (bytes : List Byte)
  | lapClose (dt : Nat) (port : Fin 2) (ip : BitVec 32) (udp : BitVec 16) (bytes : List Byte)
  | lapEcho (dt : Nat) (port : Fin 2) (ip : BitVec 32) (udp : BitVec 16) (bytes : List Byte)
  | spiReadRequest (dt : Nat) (bytes : List Byte)
  | spiWriteRequest (dt : Nat) (bytes : List Byte)
  | spiFetch (dt : Nat) (clocked : Nat)
  -- events, alerts, reports (13)
  | eventLogWrite (dt : Nat)
  | alertAcknowledge (dt : Nat) (row : Fin 64)
  | acknowledgeAll (dt : Nat)
  | acnAcknowledge (dt : Nat)
  | acnRepeatRequest (dt : Nat)
  | alfRepeat (dt : Nat) (row : Fin 64)
  | alcEmission (dt : Nat)
  | eventLogSeek (dt : Nat) (who : ClientId)
  | eventLogDataRead (dt : Nat) (who : ClientId)
  | clearLog (dt : Nat) (who : ClientId) (value : Byte)
  | phlxStatus (dt : Nat)
  | phlxWheelReport (dt : Nat)
  -- twin operation (14)
  | laneUp (dt : Nat) (lane : Fin 2)
  | laneLost (dt : Nat) (lane : Fin 2)
  | helloSend (dt : Nat)
  | helloReceived (dt : Nat) (hello : Hello)
  | heartbeatSend (dt : Nat)
  | heartbeatReceived (dt : Nat) (hb : Heartbeat)
  | heartbeatLost (dt : Nat)
  | beatOutToggle (dt : Nat)
  | beatInEdge (dt : Nat)
  | beatInAbsent (dt : Nat)
  | mirrorReceived (dt : Nat) (items : List MirrorItem)
  | arbNFall (dt : Nat)
  | arbNRise (dt : Nat)
  | takingEntry (dt : Nat)
  | takingConfirm (dt : Nat)
  | claimTimerExpiry (dt : Nat)
  | witnessDatagram (dt : Nat) (port : Fin 2)
  | witnessHoldExpiry (dt : Nat)
  | revertHoldExpiry (dt : Nat)
  | handoverCommand (dt : Nat) (who : ClientId)
  | handoverRequest (dt : Nat) (reason : Byte)
  | handoverAgree (dt : Nat) (setPoint : WheelPos)
  | handoverSetPoint (dt : Nat)
  | portRelease (dt : Nat) (port : Byte) (items : List MirrorItem)
  | serialOverlapExpiry (dt : Nat) (port : Fin 24)
  | incomingStartDelay (dt : Nat) (port : Fin 24)
  | shadow (dt : Nat) (resync : Bool) (offset : Nat) (data : List Byte) (last : Bool)
  | checkResult (dt : Nat) (pass : Bool) (count : Nat) (entries : List CheckEntry)
  | set (dt : Nat) (setPoint : WheelPos) (generation : Nat)
  | setAck (dt : Nat) (setPoint : WheelPos)
  | resyncTimer (dt : Nat)
  -- start-up, images, integrity (15, 18)
  | powerOn (dt : Nat)
  | resetNAssert (dt : Nat)
  | resetNRelease (dt : Nat) (unitSel prefN testEn : Bool) (imageA imageB : ImageFacts) (trained : Bool)
  | brownOut (dt : Nat) (rail : Rail)
  | bootWatchdog (dt : Nat)
  | restart (dt : Nat) (who : ClientId)
  | restartIntoRecovery (dt : Nat) (who : ClientId)
  | imageOpen (dt : Nat) (who : ClientId)
  | imageDataWrite (dt : Nat) (who : ClientId) (data : List Byte)
  | imageVerify (dt : Nat) (who : ClientId)
  | verifyComplete (dt : Nat) (facts : ImageFacts)
  | imageActivate (dt : Nat) (who : ClientId)
  | imageConfirm (dt : Nat) (who : ClientId)
  | imagePrevious (dt : Nat) (who : ClientId)
  | raiseFloor (dt : Nat) (who : ClientId)
  | confirmTimeExpiry (dt : Nat)
  | startFailuresClear (dt : Nat)
  | burnCustomerHash (dt : Nat) (who : ClientId) (value : Byte)
  | copyRewrite (dt : Nat)
  | domainResetEnter (dt : Nat) (d : Fin 15)
  | domainResetExit (dt : Nat) (d : Fin 15)
  | domainResetCommand (dt : Nat) (who : ClientId) (d : Fin 15)
  | supLockstep (dt : Nat)
  | ctrlLockstep (dt : Nat)
  -- power (16)
  | dozeRequest (dt : Nat) (who : ClientId)
  | listenRequest (dt : Nat) (who : ClientId)
  | deepStandbyRequest (dt : Nat) (who : ClientId)
  | wakeIn (dt : Nat) (n : Fin 4) (level : Bool)
  | wakeTimer (dt : Nat)
  | surgeEntry (dt : Nat)
  | surgeSettleCheck (dt : Nat) (coreMv : Nat)
  | surgeLoadEvaluation (dt : Nat) (busiest : Nat)
  | temperatureSample (dt : Nat) (s0 s1 s2 s3 : Int) (coreMa : Nat)
  | coreOvercurrent (dt : Nat) (coreMa : Nat)
  | surgeSecond (dt : Nat)
  | rearmWaitExpiry (dt : Nat)
  | thermalShutdown (dt : Nat) (tenths : Int)
  | shutdownRelease (dt : Nat) (aoTenths : Int)
  | receiveMarkIdle (dt : Nat) (port : Fin 24)
  | driverLeadExpiry (dt : Nat) (port : Fin 24)
  | internalResetRelease (dt : Nat)
  | externalClockStop (dt : Nat) (clk : ExtClock)
  | externalClockResume (dt : Nat) (clk : ExtClock)
  | imageActivationStart (dt : Nat)
  | ledgerHourBurned (dt : Nat)
  deriving DecidableEq, Repr

end Sys2Proof
end

