-- ==== Sys2Proof/Config.lean ====
section
/-! DEFINITION. What the manual leaves open: constants without a body, so that nothing can be proved of their values.
Each is named in a log entry (notes/assumptions). -/

namespace Sys2Proof.Config

/-- Whether a rate that is no whole number of increment units is rounded up (R24, R34, R388 state no rounding). -/
opaque roundsUp : Rat → Bool

/-- Whether a reported value that is no whole number of its units is rounded up, where the manual states no rounding. -/
opaque reportsUp : Rat → Bool

/-- The square root as the carding and control engines compute it (R69). -/
opaque sqrt : Rat → Rat

/-- The cosine of an angle in radians as the engines compute it (R69). -/
opaque cos : Rat → Rat

/-- The sine of an angle in radians as the control pair computes it (R108, R110). -/
opaque sin : Rat → Rat

/-- The tangent of an angle in radians as the control pair computes it. -/
opaque tan : Rat → Rat

/-- The arctangent in radians as the control pair computes it (R110). -/
opaque atan : Rat → Rat

/-- The number pi in the precision of the engine that uses it (R69, R96, R110). -/
opaque pi : Rat

/-- The result of a division by zero, which the manual does not state (R108: no displacement at all). -/
opaque divZero : Rat → Rat

/-- A bit pattern the manual leaves open, fresh for each use of the state's free counter. -/
opaque freeBits : Nat → Nat

/-- The silicon stepping of the part (0x5F00:01: per part, any value with [7:4] not 0). -/
opaque stepping : Nat

/-- The build number that the boot ROM reports while no image runs (0x5F00:02). -/
opaque romVersion : Nat

/-- What a byte of an erased image slot holds until it is written. -/
opaque erasedByte : BitVec 8

/-- The payload bytes of a Joile frame (Table 14.2 names the fields and gives no layout). -/
opaque joilePayload : Nat → List Byte

/-- The size of each packet queue, above 4, as a power of two of its words (0x5818:04). -/
opaque queueBits : Nat → Nat

/-- The words, above one, of a packet that carries a number of bytes in a queue (R226: the layout belongs to the
family). -/
opaque packetWords : Nat → Nat → Nat

/-- The longest packet of a queue in words (0x5818:09). -/
opaque longestPacket : Nat → Nat

end Sys2Proof.Config
end

