-- ==== Sys2Proof/Machine/State.lean ====
section
/-! DEFINITION. The state of the LN2430 block, as plain data: every register, queue, buffer, counter, timer and pin
that the manual gives it, block by block in the order of the chapters, the queue of waiting commands, and the state
right after a power-on start. -/

namespace Sys2Proof.Machine

open Sys2Proof

/-- Why a command ends the run with a fault. The manual gives every command an effect, so there is no such reason: no
meaning raises a fault, and the type has no constructor. -/
inductive Fault where
  deriving DecidableEq, Repr

/-- Why a command has no meaning. -/
inductive Refusal where
  /-- The command of this mnemonic is not modelled yet; raised by the dispatcher only. Safe: the run stops. -/
  | notModelled (mnemonic : String)
  deriving DecidableEq, Repr

/-! ### Dictionary values and configurations (12) -/

/-- The address of one value: index, subindex, window row (0 where the object is no window) (R264, R268). -/
structure Key where
  index : Nat
  sub : Nat
  row : Nat
  deriving DecidableEq, Repr

/-- A dictionary value (R265): a number (also the bit pattern of a REAL), or a string of bytes. -/
inductive Val where
  | num (v : Int)
  | bytes (b : List Byte)
  deriving DecidableEq, Repr

/-- A configuration: the values that differ from their defaults, in index, subindex and row order (R337). -/
abbrev Cfg := List (Key × Val)

/-! ### Pips and fibre records (02, 03) -/

/-- A pip: the four wheel positions and the fabric cycle count, captured in one cycle (R42). -/
structure Pip where
  time : WheelPos := 0
  shaft : WheelPos := 0
  mains : WheelPos := 0
  sea : WheelPos := 0
  cycle : BitVec 64 := 0
  deriving DecidableEq, Repr

/-- A fibre record (R60, Table 3.6), with its raw text and TAG block in place of the raw handle. -/
structure FibreRecord where
  pip : Pip := {}
  source : Nat := 0xFFFF
  chosenFrom : Nat := 0xFFFF
  kind : Nat := 0
  port : Nat := 0xFF
  group : Nat := 0xFF
  gen : Nat := 0
  cls : Nat := 0
  states : Nat := 0
  score : Nat := 0
  flags : BitVec 16 := 0
  seq : Nat := 0
  address : Text := []
  formatter : Nat := 0
  raw : Text := []
  tag : Text := []
  slots : List (Option Int) := []
  tagC : Nat := 0
  tagS : Text := []
  tagGn : Nat := 0
  tagGm : Nat := 0
  /-- PGN and priority of an IEC 61162-3 message, whose data bytes are `raw` (R53, R95) -/
  pgn : Option (Nat × Nat) := none
  deriving DecidableEq, Repr

/-! ### Position wheels (02) -/

/-- The four states of a wheel (Table 2.2). -/
inductive WState where
  | unref | acquiring | locked | afterLock
  deriving DecidableEq, Repr

/-- One position wheel (R24, R26, R34, R38): the accumulator, its increment per fabric cycle in 2^-64 revolution,
how far it may still move before it holds short of the next expected edge, a change of increment to come, and what
its status object reports. -/
structure Wheel where
  pos : WheelAcc := 0
  inc : Int := 0
  room : Option Nat := none
  turnIn : Nat := 0
  incAfter : Int := 0
  state : WState := .unref
  source : Nat := 0
  e0 : Rat := 0
  lastRef : Nat := 0
  everLocked : Bool := false
  steps : Nat := 0
  deriving DecidableEq, Repr

/-- One accepted PPS edge: its time in units of 0.5 ns of fabric time, less the cable delay; the label it carries; and
the position the wheel had there (R28). -/
structure PpsEdge where
  at_ : Int
  label : Option Nat
  pos : WheelPos
  deriving DecidableEq, Repr

/-- PPS with ZDA (R28, R29): the chain of accepted edges, the label carried on, and the ZDA association. Times are in
units of 0.5 ns of fabric time. -/
structure Pps where
  present : Bool := false
  /-- an edge has been accepted since reset or since the last loss -/
  seen : Bool := false
  lastEdge : Option Int := none
  rejected : Nat := 0
  rejectRun : Nat := 0
  good : Nat := 0
  zdaAgreed : Bool := false
  /-- the last labelled edge: its time and its time-wheel revolution -/
  label : Option (Int × Nat) := none
  /-- the latest accepted edges, newest first -/
  edges : List PpsEdge := []
  /-- association mode 1: pip time and label of each ZDA that waits for its edge, oldest first -/
  ahead : List (Int × Nat) := []
  disagreed : Nat := 0
  disagreeRun : Nat := 0
  qualifiedSince : Option Nat := none
  /-- the wheel's last measured offset from PPS, in seconds -/
  offset : Rat := 0
  deriving DecidableEq, Repr

/-- The discipline loop of R388. -/
structure Loop where
  y : Rat := 0
  c : Rat := 0
  ePrev : Option Rat := none
  deriving DecidableEq, Repr

/-- The shaft encoder (R33, R35). -/
structure Shaft where
  a : Bool := false
  b : Bool := false
  lastEdge : Option Nat := none
  /-- the last transition that the glitch filter let through, legal or not (R33) -/
  edgeAt : Option Nat := none
  interval : Option Nat := none
  /-- position at the last edge, in counts from revolution zero -/
  count : Int := 0
  ahead : Bool := true
  travelled : Nat := 0
  /-- the count at the last index -/
  indexAt : Option Int := none
  illegal : Nat := 0
  illegalAt : List Nat := []
  indexErrors : Nat := 0
  corrections : Nat := 0
  faulted : Bool := false
  legalSince : Option Nat := none
  standstill : Bool := false
  deriving DecidableEq, Repr

/-- The mains input (R36). -/
structure Mains where
  lastEdge : Option Nat := none
  lastPeriod : Option Nat := none
  good : Nat := 0
  bad : Nat := 0
  deriving DecidableEq, Repr

/-- The sea-wheel estimator (R37). -/
structure Sea where
  mean : Rat := 0
  lastX : Rat := 0
  lastT : Option Rat := none
  lastTc : Option Rat := none
  amplitude : Rat := 0
  periods : List Rat := []
  good : Nat := 0
  lowAmp : Nat := 0
  period : Option Rat := none
  phaseErr : Rat := 0
  lastCross : Option Nat := none
  deriving DecidableEq, Repr

/-- The wheels block: four wheels, the sources of the time wheel, the encoders and the estimator. -/
structure Wheels where
  time : Wheel := {}
  shaft : Wheel := {}
  mains : Wheel := {}
  sea : Wheel := {}
  pps : Pps := {}
  loop : Loop := {}
  enc : Shaft := {}
  mns : Mains := {}
  est : Sea := {}
  zdaIn : List FibreRecord := []
  disagreeing : Bool := false
  /-- the leap counts that were in force before, newest first, each with the position at which it ended (R93) -/
  leaps : List (Int × WheelPos) := []
  supPos : WheelPos := 0
  supAt : Nat := 0
  deriving DecidableEq, Repr

/-- One row of the appointment table while it runs (R39): the next grid positions it is due at, and its counts. -/
structure ApptRow where
  next : Option WheelPos := none
  /-- the next grid position while the shaft runs astern (directions 1 and 2) -/
  back : Option WheelPos := none
  /-- the runs of neighbouring grid positions, first to last, that have been dispatched, newest first (R31) -/
  done : List (WheelPos × WheelPos) := []
  fired : Bool := false
  dispatches : BitVec 32 := 0
  late : BitVec 32 := 0
  deriving DecidableEq, Repr

/-- A dispatch in the line (R40). -/
structure Dispatch where
  row : Nat
  consumer : Nat
  due : WheelPos
  dueCycle : Nat
  /-- the time-wheel position by which R20 chooses the configuration: the due position of a row of the time wheel, the
  position at which the row fell due for one of another wheel -/
  dueTime : WheelPos
  late : Bool
  /-- its delivery slot: four to a fabric cycle -/
  slot : Nat
  deriving DecidableEq, Repr

/-- One WHL_EVT output (R45). -/
structure Evt where
  level : Bool := false
  pulseEnd : Option Nat := none
  deriving DecidableEq, Repr

/-- The appointment table, the dispatch line and the wheel outputs. -/
structure Appts where
  rows : Tbl ApptRow := []
  line : List Dispatch := []
  /-- the first delivery slot not yet given out -/
  cursor : Nat := 0
  ppsOut : Bool := false
  ppsEnd : Option Nat := none
  ppsLast : Option WheelPos := none
  evt : Tbl Evt := []
  /-- phases that the LN2430 keeps in rows 1016 and 1017 (Table 2.8) -/
  setRow : Option WheelPos := none
  handRow : Option WheelPos := none
  deriving DecidableEq, Repr

/-! ### Carding (03) -/

/-- Where a serial intake stands in a sentence (R51). -/
inductive Phase where
  | idle | tag | afterTag | sentence | discard
  deriving DecidableEq, Repr

/-- The framer of one serial intake: characters taken for TAG blocks and for the sentence, the offset of the opening
delimiter of the last TAG block, and the framing fault so far with its offset. -/
structure Framer where
  phase : Phase := .idle
  tag : Text := []
  text : Text := []
  tags : Nat := 0
  fault : Option (Nat × Nat) := none
  deriving DecidableEq, Repr

/-- The status of one source row (R66, R67, R74, Table 3.14). `ref` is the fabric time of the last accepted record,
or of the enabling or restart while there is none. -/
structure SrcRow where
  score : Nat := 96
  health : Nat := 3
  had : Bool := false
  ref : Nat := 0
  lateSteps : Nat := 0
  accepted : BitVec 32 := 0
  rejected : BitVec 32 := 0
  lastReject : Nat := 0
  seq : BitVec 32 := 0
  lastAccepted : WheelPos := 0
  gaps : BitVec 32 := 0
  lastN : Option Nat := none
  tokens : Rat := 16
  refill : Nat := 0
  latest : Option FibreRecord := none
  deriving DecidableEq, Repr

/-- The status of one quantity group (R70 to R72). -/
structure GroupRow where
  chosen : Nat := 0xFFFF
  /-- it has had a chosen candidate since reset (R107) -/
  seen : Bool := false
  hold : Option Nat := none
  full : Option Nat := none
  values : Tbl FibreRecord := []
  disagreeing : Bool := false
  noChoice : Bool := false
  lastPip : Option WheelPos := none
  seq : BitVec 32 := 0
  switches : BitVec 32 := 0
  disagrees : BitVec 32 := 0
  drops : BitVec 32 := 0
  deriving DecidableEq, Repr

/-- One entry of the discovery list (R58). -/
structure Discovery where
  port : Nat
  kind : Nat
  text : Text
  number : Nat
  sightings : Nat
  seen : WheelPos
  deriving DecidableEq, Repr

/-- The carding block: framers, source and group status, the discovery list, and the counting records for
CE4 and CE9, each with its queue (0x070 to 0x07F). -/
structure Carding where
  framers : Tbl Framer := []
  sources : Tbl SrcRow := []
  groups : Tbl GroupRow := []
  discovery : List Discovery := []
  toVote4 : List (Nat × FibreRecord) := []
  toVote9 : List (Nat × FibreRecord) := []
  deriving DecidableEq, Repr

/-! ### Bramble (04) -/

/-- An entry of a listener queue (R85): the record, its delivery sequence number, the class in which it is queued,
and its place in the order of queueing. -/
structure Entry where
  rcd : FibreRecord
  seq : BitVec 32
  cls : Nat
  order : Nat
  deriving DecidableEq, Repr

/-- An item composed for a serial listener (R86): its entry, its characters, how many of them have been handed over to the
port's transmit queue (R129), and the listener's n: count before it. -/
structure Item where
  entry : Entry
  chars : List (BitVec 9)
  sent : Nat
  line : Nat
  deriving DecidableEq, Repr

/-- Counters of a listener as the active unit mirrors them, held until takeover (R308): last delivery sequence, n:
counter, IPv4 identification, SIDs and fast-packet counters by PGN. -/
structure Counters where
  lastSeq : Nat
  line : Nat
  ipId : Nat
  sids : List (Nat × Nat)
  fast : List (Nat × Nat)
  deriving DecidableEq, Repr

/-- One listener (R85 to R88): the queued entries in order of queueing, counters, and the composed item. -/
structure Listener where
  queue : List Entry := []
  seq : BitVec 32 := 0
  line : Nat := 0
  slot : Option Item := none
  inFlight : Option Item := none
  lastDiscard : Option Nat := none
  sids : Tbl Nat := []
  /-- latest mark mirrored by the peer per class: position on this unit's wheel, source, raw-text CRC (R308) -/
  marks : Tbl (WheelPos × Nat × Nat) := []
  /-- latest item that this unit sent, per class, in the same form -/
  own : Tbl (WheelPos × Nat × Nat) := []
  held : Option Counters := none
  deriving DecidableEq, Repr

/-- The state of one shaper towards one listener (R89). -/
structure ShaperState where
  lastPass : Option (BitVec 64) := none
  count : Nat := 0
  held : Option (FibreRecord × Nat) := none
  deriving DecidableEq, Repr

/-- Bramble: its input queues 0x060 to 0x06A, the listeners, the shapers (keyed 64 × shaper + listener), and the
order counter of queueing. -/
structure Bramble where
  inputs : Tbl (List FibreRecord) := []
  listeners : Tbl Listener := []
  shapers : Tbl ShaperState := []
  order : Nat := 0
  matchCounts : Tbl (BitVec 32) := []
  /-- passed, shaped and missed-slot counts, keyed 4 × shaper + 0, 1, 2 (Table 4.11) -/
  shaperCounts : Tbl (BitVec 32) := []
  deriving DecidableEq, Repr

/-! ### Tank model and control (05) -/

/-- One sounding a tank took: value, pip, basis and the fabric time. -/
structure Sounding where
  g : Int
  at_ : WheelPos
  sea : WheelPos
  basis : Nat
  fc : Nat
  deriving DecidableEq, Repr

/-- One tank row (R103 to R112). -/
structure Tank where
  code : Nat := 0
  clamped : Bool := false
  outOfTable : Bool := false
  assumed : Bool := false
  weight : Nat := 255
  reading : Option Rat := none
  corrected : Rat := 0
  volume : Rat := 0
  lcg : Rat := 0
  tcg : Rat := 0
  vcg : Rat := 0
  mass : Rat := 0
  rate : Rat := 0
  contribution : Rat := 0
  basis : Nat := 0
  prev : Option Sounding := none
  pending : List Sounding := []
  lastAt : Nat := 0
  history : List (WheelPos × Rat) := []
  /-- the time-wheel interval in which a mean was last formed (mode 2, R106) -/
  formed : Nat := 0
  /-- the sea-wheel revolution in which a mean was last formed -/
  formedSea : Nat := 0
  /-- the anchor has been set -/
  anchored : Bool := false
  anchorSounding : Rat := 0
  anchorContribution : Rat := 0
  recovery : Option Nat := none
  deriving DecidableEq, Repr

/-- One stage of a cascade (R114, R115, R121). -/
structure Stage where
  y : Rat := 0
  filtered : Bool := false
  i : Rat := 0
  v : Rat := 0
  held : Rat := 0
  reseat : Option Bool := none
  kpOld : Rat := 0
  eOld : Rat := 0
  setpoint : Rat := 0
  deriving DecidableEq, Repr

/-- The result of a cascade step that is running, to be issued when it completes (R115, R120). -/
structure StepResult where
  outer : Option Stage
  inner : Stage
  u : Rat
  outerOut : Rat
  startedAt : Nat
  /-- the re-seats that the step takes, outer and inner: an abandoned step leaves them to the next (R120, R121) -/
  reseats : Option Bool × Option Bool := (none, none)
  deriving DecidableEq, Repr

/-- One cascade (R113 to R121). -/
structure Cascade where
  state : Nat := 0
  reason : Nat := 0
  release : Bool := false
  holdCmd : Bool := false
  outerIn : Nat := 0
  outerOut : Rat := 0
  issued : Rat := 0
  overruns : BitVec 32 := 0
  consecutive : Nat := 0
  steps : BitVec 32 := 0
  running : Option StepResult := none
  deriving DecidableEq, Repr

/-- The ship model (R107 to R112) and the cascades. -/
structure Control where
  tanks : Tbl Tank := []
  cascades : Tbl Cascade := []
  stages : Tbl Stage := []
  sources : Tbl (FibreRecord × Nat) := []
  heel : Rat := 0
  predicted : Rat := 0
  predictedRaw : Rat := 0
  residual : Rat := 0
  trim : Rat := 0
  heelSeen : Bool := false
  trimSeen : Bool := false
  mass : Rat := 0
  trans : Rat := 0
  long : Rat := 0
  vert : Rat := 0
  lastHeel : Option Nat := none
  lastModel : Nat := 0
  persistence : Option Nat := none
  otherDisp : Rat := 0
  otherTrans : Rat := 0
  gm : Rat := 1
  /-- SUP's copy of the issued outputs and integrators (R119): cascades and stages as last issued -/
  supCascades : Tbl Cascade := []
  supStages : Tbl Stage := []
  deriving DecidableEq, Repr

/-! ### Serial ports (06) -/

/-- An entry of a receive queue (Table 6.3) with the fabric cycle of its stop bit (R230) and the pip carding builds
from it. -/
structure RxChar where
  data : BitVec 16
  pip : Pip
  states : Nat
  deriving DecidableEq, Repr

/-- What a commander or an observer waits for on a frame-mode bus (R153, R155). -/
structure Slot where
  entry : Nat
  id : Nat
  length : Nat
  deadline : Nat
  got : List Byte
  /-- a start bit has come by the deadline (Table 6.8) -/
  begun : Bool := false
  deriving DecidableEq, Repr

/-- What the receiver of a serial port had in force until some moment, under which a character that was then in progress
is completed (R20, R131, R143): divider, 8N1 of a measured divider, polarity. -/
structure RxForm where
  div : Nat
  eightN1 : Bool
  inverted : Bool
  deriving DecidableEq, Repr

/-- One serial port (R126 to R156, Table 6.10). At reset the device is in COMMISSIONING with every port in start-stop
mode and autobaud set, so each begins in AUTOBAUD (R148). -/
structure SPort where
  line : Nat := 5
  flags : BitVec 16 := 0
  txDiv : Nat := 960
  rxDiv : Nat := 960
  pendTx : Option Nat := none
  pendRx : Option Nat := none
  inverted : Bool := false
  stuckClass : Nat := 0
  autoRate : Nat := 0
  autoDiv : Option Nat := none
  autoPair : Option Nat := none
  autoFaults : Nat := 0
  rx : List RxChar := []
  tx : List (BitVec 9) := []
  busy : Option (BitVec 9) := none
  muted : Bool := true
  /-- driver enable raised in driver-enable mode 2 (R127) -/
  aux : Bool := false
  leadEnd : Option Nat := none
  lagEnd : Option Nat := none
  breakAt : Option Nat := none
  probeAt : Nat := 0
  wakeHunt : Bool := false
  slot : Option Slot := none
  sched : Nat := 0
  /-- the first time-base multiple at which the next slot may start (R150) -/
  nextSlot : Nat := 0
  overlapEnd : Option Nat := none
  startAfter : Option Nat := none
  /-- frame mode: characters sent and not yet read back (R153) -/
  sending : List Byte := []
  /-- the receiver hunts and the line has been at mark for 16 sample ticks (R131) -/
  markIdle : Bool := true
  /-- the pending dividers are measured ones; those in force are, so that characters are 8N1 (R148) -/
  pendAuto : Bool := false
  rxAuto : Bool := false
  txAuto : Bool := false
  /-- the receiver takes no character that began before (R143) -/
  huntFrom : Nat := 0
  /-- what the receiver had in force until the fabric time given -/
  rxWas : Option (RxForm × Nat) := none
  /-- frame mode is kept until the end of the schedule slot (R126) -/
  held : Bool := false
  /-- the levels, first to last, that the transmitter drives for the character or header it sends, one for a bit time, before
  0x2100:07 (R128, R150) -/
  wire : List Bool := []
  /-- the end of the commander's own break, not yet read back (R156) -/
  ownBreak : Option Nat := none
  deriving DecidableEq, Repr

/-! ### Line monitor and loop inputs (07) -/

/-- One monitored pair (R162 to R165). Window figures are kept as measured; `windowAt` is the boundary at which the window
that runs began. -/
structure Pair where
  cls : Nat := 0xFF
  cand : Nat := 0xFF
  count : Nat := 0
  a : Rat := 0
  b : Rat := 0
  least : Rat := 0
  greatest : Rat := 0
  longHigh : Nat := 0
  longLow : Nat := 0
  changes : BitVec 32 := 0
  lastRecord : Option Nat := none
  windowAt : Nat := 0
  complete : Bool := false
  deriving DecidableEq, Repr

/-- One loop channel (R166 to R171). -/
structure Chan where
  f : Rat := 0
  code : Nat := 6
  cand : Nat := 6
  candCount : Nat := 0
  changes : BitVec 32 := 0
  missed : BitVec 32 := 0
  /-- conversions ended since the converter last began to settle, up to 3 -/
  convs : Nat := 0
  deriving DecidableEq, Repr

/-- A grid of whole multiples of an interval on the time wheel, counted from revolution 0 (R105, R171). -/
structure SampleGrid where
  /-- the position from which the wheel comes to its multiples -/
  start : WheelPos := 0
  /-- the runs of multiples, by number, that have been sampled -/
  done : List (Nat × Nat) := []
  deriving DecidableEq, Repr

/-- The analogue front ends. -/
structure Analog where
  pairs : Tbl Pair := []
  chans : Tbl Chan := []
  /-- the fabric cycle at which the AFE domain last left reset: classification windows count from it (R162) -/
  afeAt : Nat := 0
  /-- where the time wheel last came to by a step or jump: multiples before it are passed over (R31, R171) -/
  gridFrom : WheelPos := 0
  /-- the time-wheel position at which the sea wheel last left LOCKED (R105) -/
  seaLeft : WheelPos := 0
  /-- the basis of each sample set's last sample: 0 time wheel, 1 sea wheel (R17) -/
  bases : Tbl Nat := []
  /-- the fallback grid of each sample set (R105) -/
  fallbacks : Tbl SampleGrid := []
  /-- the free-report grid of each channel (R171) -/
  reports : Tbl SampleGrid := []
  deriving DecidableEq, Repr

/-! ### Ethernet and IEEE 1588 (08) -/

/-- A received frame waiting for an engine or for SUP (R184): frame bytes after tag removal, status, pip, stamp. -/
structure RxFrame where
  bytes : List Byte
  pip : Pip
  states : Nat
  stamp : WheelPos
  errored : Bool
  status : BitVec 16
  length : Nat
  /-- the network witness receives it (R315) -/
  witness : Bool := false
  deriving DecidableEq, Repr

/-- What a transmitted frame stands for when it has been sent (R190, R308). -/
inductive TxKind where
  | datagram (listener : Nat) (entry : Entry)
  | delayReq (seqId : Nat)
  | other
  deriving DecidableEq, Repr

/-- A frame in a MAC transmit queue (R185). -/
structure TxFrame where
  bytes : List Byte
  kind : TxKind
  deriving DecidableEq, Repr

/-- One entry of the ARP cache (R179). -/
structure ArpEntry where
  ip : Nat
  mac : Nat
  at_ : Nat
  used : Nat
  deriving DecidableEq, Repr

/-- A unicast frame whose next hop is being resolved (R179). -/
structure ArpWait where
  hop : Nat
  frame : List Byte
  since : Nat
  lastReq : Nat
  deriving DecidableEq, Repr

/-- One foreign master (R193): its dataset in comparison order, the Announce times, and its UTC offset. -/
structure Master where
  dataset : List Nat
  clockId : Nat
  portId : Nat
  announces : List Nat
  interval : Rat
  qualified : Bool
  utc : Option Int
  deriving DecidableEq, Repr

/-- A pending exchange (R192, R194): a Sync with its Delay_Req, the four times as time-wheel positions, and the
corrections in nanoseconds. -/
structure Exchange where
  syncSeq : Nat
  syncAt : Nat
  t1 : Option WheelPos
  corr : Rat
  t2 : WheelPos
  reqSeq : Nat
  t3 : Option WheelPos
  t4 : Option (WheelPos × Rat)
  deriving DecidableEq, Repr

/-- IEEE 1588 on one port (R192 to R194). -/
structure Ptp where
  present : Bool := false
  good : Nat := 0
  masters : List Master := []
  selected : Option (Nat × Nat) := none
  /-- the exchanges that are open, oldest first (R192) -/
  exchs : List Exchange := []
  lastReq : Option Nat := none
  reqInterval : Rat := 1
  reqSeq : Nat := 0
  /-- wheel minus master as the wheel stands since the last exchange, in nanoseconds -/
  offsetNs : Rat := 0
  /-- the offset that the last exchange gave (0x2200:27), in nanoseconds -/
  lastNs : Rat := 0
  delayNs : Rat := 0
  exchanges : BitVec 32 := 0
  lastDone : Option Nat := none
  /-- the Sync of the last completed exchange of the selected master -/
  lastSync : Option Nat := none
  qualifiedSince : Option Nat := none
  deriving DecidableEq, Repr

/-- One Ethernet port (R177 to R198, Table 8.5). -/
structure EPort where
  link : Nat := 0
  badReads : Nat := 0
  /-- a set point has changed 0x2200:01 to 03, and the port takes that at the end of the frame in flight (R20) -/
  restart : Bool := false
  /-- the speeds in Mbit/s that PHY registers 4 and 9 were last written to advertise, in full duplex only (R177) -/
  advertised : List Nat := [10, 100, 1000]
  /-- how often the LN2430 has restarted auto-negotiation since the start -/
  negotiations : Nat := 1
  flags : BitVec 16 := 0
  step : Nat := 2
  clean : Nat := 0
  lostSeq : Nat := 0
  pauseState : Nat := 0
  pauseEnd : Nat := 0
  watchdog : Option Nat := none
  holdoffEnd : Nat := 0
  rxA : List RxFrame := []
  rxB : List RxFrame := []
  supIn : List RxFrame := []
  tx0 : List TxFrame := []
  tx1 : List TxFrame := []
  tx2 : List TxFrame := []
  tx3 : List TxFrame := []
  /-- frames that SUP holds until its part of their transmit queue has room (R185, R227) -/
  supWait : List (Nat × TxFrame) := []
  inFlight : Option TxFrame := none
  stamps : List (Nat × Nat × WheelPos) := []
  ring : List RxFrame := []
  arp : List ArpEntry := []
  waits : List ArpWait := []
  icmpTimes : List Nat := []
  igmpDue : List (Nat × Nat) := []
  ipId : BitVec 16 := 0
  mac : Tbl (BitVec 32) := []
  sampled : Tbl (BitVec 32) := []
  sampledAt : Nat := 0
  matches_ : Tbl (BitVec 32) := []
  groups : Tbl (BitVec 32) := []
  ptp : Ptp := {}
  covering : Option (Bool × Nat) := none
  deriving DecidableEq, Repr

/-! ### CAN (09) -/

/-- What a queued CAN frame is, for the rules that pick frames out of the queue. -/
inductive CanKind where
  | fe (listener : Nat) (entry : Option Entry) (last : Bool)
  | sync | loopPdo | sup | heartbeat
  deriving DecidableEq, Repr

/-- A frame in a transmit queue (R203). -/
structure CanTx where
  frame : CanFrame
  kind : CanKind
  deriving DecidableEq, Repr

/-- A complete IEC 61162-3 message, or a failed assembly, on its way to CE3 (R53). -/
structure CanMsg where
  ok : Bool
  src : Nat
  name : Option Nat
  pgn : Nat
  priority : Nat
  data : List Byte
  pip : Pip
  states : Nat
  deriving DecidableEq, Repr

/-- An open fast-packet or BAM assembly (R210, R211). -/
structure Assembly where
  src : Nat
  pgn : Nat
  seqCtr : Nat
  next : Nat
  total : Nat
  data : List Byte
  last : Nat
  priority : Nat
  /-- the NAME that holds the source address, as far as it is known, since the assembly was opened (R210) -/
  name : Option Nat
  deriving DecidableEq, Repr

/-- One CAN controller (R201 to R212). -/
structure CPort where
  state : Nat := 1
  txErr : Nat := 0
  rxErr : Nat := 0
  flags : BitVec 16 := 0
  /-- the transmit objects, the frame on offer first (R203) -/
  tx : List CanTx := []
  /-- packets in the transmit queues 0x050 to 0x056, which no object has taken yet, in order of arrival -/
  txq : List CanTx := []
  /-- frames that SUP holds until its transmit queue has room (R203, R227) -/
  supWait : List CanTx := []
  /-- fabric time at which the frame at the head of the queue was offered to the bus -/
  offeredAt : Nat := 0
  busOffAt : Nat := 0
  rxMsgs : List CanMsg := []
  supIn : List CanFrame := []
  pdos : List (Nat × List Byte × Pip × Nat) := []
  addr : Nat := 254
  addrState : Nat := 0
  addrLost : BitVec 32 := 0
  /-- addresses tried since the port last began from its preferred address -/
  tried : Nat := 0
  /-- when the address claim of the address being claimed was sent (R207) -/
  claimAt : Option Nat := none
  names : Tbl Nat := []
  fast : List Assembly := []
  bam : List Assembly := []
  fastSeq : Tbl Nat := []
  deriving DecidableEq, Repr

/-- CANopen on C2 (R213 to R221). -/
structure CanOpen where
  nmt : Nat := 127
  missed : BitVec 32 := 0
  discarded : BitVec 32 := 0
  emcyDropped : BitVec 32 := 0
  emcy : List (Nat × Nat × Nat) := []
  lastEmcy : Option Nat := none
  lastBeat : Nat := 0
  waiting : List CanTx := []
  errReg : Nat := 0
  deriving DecidableEq, Repr

/-! ### Queue fabric (10) -/

/-- One packet queue, apart from its packets (R225, R228, R231, R236, R240 to R243): its sticky flags, the side for whose
reset it still has to be realigned, where the exchange of Table 10.5 stands (0 none, 1 requested, 2 acknowledged,
3 accepted), the packet count presented, and since when it has held a visible packet with its read pointer at rest. -/
structure Queue where
  underrun : Bool := false
  tripped : Bool := false
  wasReset : Option Side := none
  /-- both sides were reset, so that the exchange waits for the later one (R243) -/
  both : Bool := false
  /-- the side that returned first waits with its request raised (R243) -/
  raised : Bool := false
  phase : Nat := 0
  presented : Nat := 0
  since : Option Nat := none
  /-- the read pointer, as words released since the queue was last emptied by FABRIC; the hardware keeps the low n + 1
  bits of it. The committed pointer stands past the words of the visible packets, the write pointer with it (R225) -/
  read : Nat := 0
  /-- while the queue is to be realigned: its packets that were committed before (R240) -/
  frozen : Nat := 0
  /-- packet notices sent and taken, as 16-bit running counts (R229, R236) -/
  notices : Nat := 0
  taken : Nat := 0
  deriving DecidableEq, Repr

/-- Queue memory errors and crossings (R232 to R236). -/
structure Fabric where
  queues : Tbl Queue := []
  corrected : BitVec 32 := 0
  uncorrectable : BitVec 32 := 0
  scrubPasses : BitVec 32 := 0
  lastAddr : Nat := 0
  lastKind : Nat := 0
  bankCorr : Tbl (BitVec 32) := []
  bankUnc : Tbl (BitVec 32) := []
  unsettled : BitVec 32 := 0
  lastUnsettled : Nat := 0xFFFF
  countOvf : Bool := false
  ovfCrossing : Nat := 0xFFFF
  stopped : List ExtClock := []
  /-- the word of 16 bytes that the scrubber reads next, and when its pass began (R234) -/
  scrubAt : Nat := 0
  scrubFrom : Option Nat := none
  /-- records of the store with an uncorrectable word (R233) -/
  badRecords : List FibreRecord := []
  deriving DecidableEq, Repr

/-! ### Felt journal (11) -/

/-- One record in the staging ring, with the page that holds it on the NAND once it is programmed. -/
structure RingRec where
  rcd : JRecord
  page : Option Nat
  deriving DecidableEq, Repr

/-- The felt journal (R245 to R263): queue 0x081, the staging ring, the NAND's pages in page order, the page being
programmed, the block being erased, and the write point. -/
structure Journal where
  state : Nat := 1
  capacity : Nat := 0
  pageSize : Nat := 0
  blocks : Nat := 0
  bad : List Nat := []
  retired : Nat := 0
  tableGen : Nat := 0
  formatId : Nat := 0
  nextSeq : Nat := 1
  supNext : Nat := 1
  inbox : List (FibreRecord × Nat × Nat) := []
  ring : List RingRec := []
  nand : List JPage := []
  /-- every record up to this sequence is to be flushed -/
  flushTo : Nat := 0
  /-- whole pages are to be programmed -/
  early : Bool := false
  programming : Option (List JRecord) := none
  /-- the data area of the page being programmed (Table 11.4), and when its program began -/
  load : List Byte := []
  progAt : Nat := 0
  erasing : Option Nat := none
  /-- when the erase of that block began -/
  eraseAt : Nat := 0
  /-- erased blocks at and ahead of the write point (R254) -/
  erased : List Nat := []
  blockNo : Nat := 2
  pageInBlock : Nat := 0
  pageSeq : Nat := 1
  passes : BitVec 32 := 0
  timeouts : Nat := 0
  /-- pages programmed in the last 24 hours: when, and how many bytes -/
  programmed : List (Nat × Nat) := []
  worn : Bool := false
  /-- the reason of the start marker that is still to be written -/
  startReason : Option Nat := some 0
  /-- records lost as DRAMIF was reset, to be reported after the start marker (R251) -/
  lostPending : Option Nat := none
  deriving DecidableEq, Repr

/-! ### Dictionary and blocking cycle (12) -/

/-- One client slot (R268, R269): the client, its last access, its selections and cursors. -/
structure Client where
  id : ClientId
  last : Nat
  sel : Cfg := []
  journal : Option Nat := none
  log : Option Nat := none
  logNewest : Bool := true
  deriving DecidableEq, Repr

/-- The answer to an access: done with the data read, or refused with an abort code (R266). -/
inductive Reply where
  | done (data : List Byte)
  | refused (code : Nat)
  deriving DecidableEq, Repr

/-- The segmented SDO transfer in progress (R271). -/
structure Transfer where
  index : Nat
  sub : Nat
  upload : Bool
  data : List Byte
  toggle : Bool
  last : Nat
  deriving DecidableEq, Repr

/-- A LAP key slot (R274): last accepted counter, the last accepted request and its reply. -/
structure LapSlot where
  counter : Nat := 0
  request : List Byte := []
  reply : List Byte := []
  deriving DecidableEq, Repr

/-- The dictionary's access paths. -/
structure Dict where
  clients : Tbl Client := []
  reply : Option (ClientId × Reply) := none
  transfer : Option Transfer := none
  laps : Tbl LapSlot := []
  /-- the reply that waits to be fetched, with the sequence of its request (R276) -/
  spiReply : Option (Nat × Reply) := none
  /-- when it was committed to queue 0x085 -/
  spiAt : Nat := 0
  /-- what SPI_T_MISO carried in the last fetch transaction -/
  spiOut : List Byte := []
  imm : Cfg := []
  startCount : Nat := 1
  /-- clients whose cycle was abandoned without their command (R284) -/
  gone : List ClientId := []
  deriving DecidableEq, Repr

/-- The blocking cycle (R278 to R284): states of Table 12.8. -/
structure Cycle where
  state : Nat := 0
  owner : Option Nat := none
  shadow : Cfg := []
  staged : Nat := 0
  failures : List CheckEntry := []
  failCount : Nat := 0
  result : Nat := 0
  generation : Nat := 0
  lastSet : WheelPos := 0
  copyWritten : Nat := 0xFF
  pending : Option WheelPos := none
  committed : Bool := false
  openedAt : Nat := 0
  writing : Option Nat := none
  /-- the shadow has gone to the standby, whose answer is awaited (R323) -/
  asked : Bool := false
  /-- the standby's answer: passed, how many failures, and those it named -/
  twinPass : Option Bool := none
  twinCount : Nat := 0
  twinFails : List CheckEntry := []
  /-- what the unit's own check found, while the standby's answer is awaited -/
  found : Option (List CheckEntry) := none
  acked : Bool := false
  /-- on a standby: the active unit's generation, with which it seals -/
  fromTwin : Option Nat := none
  /-- the shadow is the peer's sealed configuration, with its BND values (resync) -/
  whole : Bool := false
  /-- the configurations that were in force before, newest first, each with the set point that ended it (R20) -/
  old : List (Cfg × WheelPos) := []
  deriving DecidableEq, Repr

/-- One configuration copy of the config store (R337). -/
structure Copy where
  generation : Nat := 0
  sealed : Bool := false
  content : Cfg := []
  setPoint : WheelPos := 0
  deriving DecidableEq, Repr

/-! ### Events, alerts, reports (13) -/

/-- One record of the event log (Table 13.4). -/
structure LogRec where
  seq : BitVec 32
  at_ : WheelPos
  code : Nat
  wstate : Nat
  kind : Nat
  astate : Nat
  a : Nat
  b : Nat
  start : Nat
  deriving DecidableEq, Repr

/-- An event raised and not yet written (R292). -/
structure Event where
  code : Nat
  a : Nat
  b : Nat
  kind : Nat
  astate : Nat
  at_ : WheelPos
  wstate : Nat
  fc : Nat
  start : Nat
  deriving DecidableEq, Repr

/-- One standing alert (R294). -/
structure Alert where
  code : Nat
  instance_ : Nat
  state : Nat
  revision : Nat
  raised : WheelPos
  a : Nat
  b : Nat
  sentAt : Nat
  changed : WheelPos
  deriving DecidableEq, Repr

/-- Events, the log, the alert table and ALARM_N. -/
structure Health where
  waiting : List Event := []
  dropped : Nat := 0
  log : List LogRec := []
  nextSeq : BitVec 32 := 0
  suppressed : BitVec 32 := 0
  /-- per code, when its latest events were logged (R293) -/
  rates : Tbl (List Nat) := []
  /-- the alert table, by row -/
  alerts : Tbl Alert := []
  /-- the level of ALARM_N that AO holds in a low power state: asserted (R295) -/
  alarm : Bool := false
  lastAlc : Nat := 0
  alcId : Nat := 0
  /-- the multiples of the status and of the wheel interval that have been reported (R299) -/
  statusGrid : SampleGrid := {}
  wheelGrid : SampleGrid := {}
  aoEvents : List Event := []
  supReset : Bool := false
  acnIn : List FibreRecord := []
  deviceSeq : BitVec 32 := 0
  deriving DecidableEq, Repr

/-! ### Twin operation (14) -/

/-- A Joile frame sent by this unit, as far as its payload matters to the peer (Table 14.2). -/
inductive JFrame where
  | hello (h : Hello)
  | heartbeat (h : Heartbeat)
  | mirror (items : List MirrorItem)
  | shadow (resync : Bool) (content : Cfg)
  | checkResult (pass : Bool) (count : Nat) (entries : List CheckEntry)
  | set (setPoint : WheelPos) (generation : Nat)
  | setAck (setPoint : WheelPos)
  | handoverRequest (reason : Nat)
  | handoverAgree (setPoint : WheelPos)
  | portRelease (port : Nat) (items : List MirrorItem)
  deriving DecidableEq, Repr

/-- Twin operation (R301 to R325). Roles are the codes of Table 14.4. -/
structure Twin where
  role : Nat := 1
  unitSel : Bool := false
  prefN : Bool := false
  testEn : Bool := false
  lanes : Tbl Bool := []
  link : Nat := 0
  peerAccepted : Bool := false
  peerAccepts : Bool := false
  peer : Option Hello := none
  peerRole : Nat := 0xFF
  /-- the peer's generation as it last stated it, and as its last HEARTBEAT did (0x4001:0A) -/
  peerGen : Nat := 0
  beatGen : Nat := 0
  peerMode : Nat := 0xFF
  peerAlerts : Nat := 0
  peerStates : Nat := 0
  peerBound : Nat := 0xFFFFFFFF
  peerTime : WheelPos := 0
  lastBeat : Option Nat := none
  beatsInRow : Nat := 0
  heartbeat : Bool := false
  /-- since when the heartbeat has been present, in fabric time -/
  presentSince : Option Nat := none
  lostAt : Option Nat := none
  beatIn : Bool := false
  beatInAt : Nat := 0
  beatOut : Bool := false
  beatOutAt : Nat := 0
  arbOwn : Bool := false
  arbPeer : Bool := false
  arbSince : Nat := 0
  claimAt : Option Nat := none
  offsets : List Rat := []
  delays : List Rat := []
  mirrorAt : Option Nat := none
  /-- what the last MIRROR carried of the items that have a state, so that a change is seen (R308) -/
  mirrored : List MirrorItem := []
  takeover : Nat := 0
  handover : Option WheelPos := none
  handoverAsked : Option Nat := none
  witnessAt : Option Nat := none
  steppedDown : Bool := false
  formedAt : Option Nat := none
  txSeq : BitVec 32 := 0
  lastRxSeq : Nat := 0
  lastRxSent : WheelPos := 0
  lastRxAt : WheelPos := 0
  lastHello : Nat := 0
  /-- mode, role and generation of the last HELLO sent -/
  helloSent : Option (Nat × Nat × Nat) := none
  lastHb : Nat := 0
  out : List JFrame := []
  /-- the bytes of the last frame sent (Table 14.1) -/
  wire : List Byte := []
  dirty : List MirrorItem := []
  released : List Nat := []
  /-- the incoming unit of a handover, which takes ports as they are released (R320) -/
  handIn : Bool := false
  resyncSince : Option Nat := none
  resyncFailed : Option Nat := none
  inShadow : Cfg := []
  /-- the standby's candidate passed its check -/
  inReady : Bool := false
  inBytes : List Byte := []
  handAt : Nat := 0
  deriving DecidableEq, Repr

/-! ### Start-up and images (15) -/

/-- One firmware image slot (R331, Table 15.5): its slot record, the bytes written since it was opened, and what judging
its image finds (none where it holds no image that was judged). -/
structure Slot15 where
  state : Nat := 0
  failures : Nat := 0
  trialMade : Bool := false
  data : Tbl Byte := []
  facts : Option ImageFacts := none
  deriving DecidableEq, Repr

/-- Start-up, images, copies and fuses (R326 to R343). -/
structure Boot where
  mode : Nat := 0
  factory : Bool := true
  bootRom : Bool := false
  /-- the cause of the last start, or of the start to come -/
  cause : Nat := 1
  /-- the AO recovery request -/
  recovery : Bool := false
  reason : Nat := 0
  startTime : Nat := 0
  startedAt : Nat := 0
  resetN : Bool := true
  /-- the internal reset is released -/
  internal : Bool := true
  railsAt : Nat := 0
  slotA : Slot15 := {}
  slotB : Slot15 := {}
  /-- the slot whose image runs: 0, 1, or 2 with none -/
  running : Nat := 0
  bootSlot : Nat := 0
  target : Nat := 0xFF
  owner : Option Nat := none
  status : Nat := 0
  activateAt : Option Nat := none
  vendorHash : Nat := 0
  customerHash : Nat := 0
  floor : Nat := 0
  copies : Tbl Copy := []
  copyInForce : Option Nat := none
  /-- the copy that SUP is rewriting (R339) -/
  rewriting : Option Nat := none
  serial : Nat := 1
  /-- since when the image has run in COMMISSIONING or NORMAL -/
  confirmFrom : Nat := 0
  supRunning : Bool := true
  /-- LPDDR4X training passed -/
  trained : Bool := true
  deriving DecidableEq, Repr

/-- One power and reset domain (Table 16.9): 0 off, 1 retained, 2 in reset, 3 running. -/
structure Dom where
  state : Nat := 3
  resets : BitVec 32 := 0
  deriving DecidableEq, Repr

/-- Power, temperature, Surge and wake (R344 to R358). Temperatures in 0.1 °C, currents in mA. -/
structure Power where
  /-- Table 16.1 -/
  state : Nat := 0
  doms : Tbl Dom := []
  /-- 0 ARMED, 1 IN_SURGE, 2 REARM_WAIT, 3 WITHHELD -/
  surge : Nat := 0
  rearmFrom : Nat := 0
  lastStep : Nat := 0
  coreVsel : Bool := false
  /-- when the supply check of a Surge entry is due -/
  settleAt : Option Nat := none
  /-- an hour of the ledger is being burned, and Surge entry waits -/
  burning : Bool := false
  junction : Int := 250
  highest : Int := 250
  current : Nat := 0
  highCurrent : Nat := 0
  /-- samples above 105 °C, one each millisecond -/
  above : Nat := 0
  sum : Int := 0
  samples : Nat := 0
  stepDowns : BitVec 32 := 0
  burned : Nat := 0
  left : Nat := 0
  surgeTime : Nat := 0
  secondAt : Nat := 0
  /-- the part of a second in Surge that is not charged yet, in cycles -/
  surgePart : Nat := 0
  lowLoadSince : Option Nat := none
  wakeSource : Nat := 0
  wakeDetail : Nat := 0xFF
  wakes : BitVec 32 := 0
  enteredAt : Nat := 0
  /-- a thermal shutdown holds the other domains in reset since then -/
  shutdownAt : Option Nat := none
  deriving DecidableEq, Repr

/-- The whole block, and the queue of commands that wait, first in, first out. -/
structure State where
  /-- true time in fabric cycles; never stops -/
  now : Nat := 0
  /-- fabric cycles run so far; stands still while FABRIC has no clock -/
  fc : Nat := 0
  /-- `fc` when FABRIC last left reset: the fabric cycle count is `fc - fabricZero` (R42) -/
  fabricZero : Nat := 0
  /-- how many free values the run has used (the model's own counter) -/
  free : Nat := 0
  cfg : Cfg := []
  stats : Tbl Nat := []
  wheels : Wheels := {}
  appts : Appts := {}
  carding : Carding := {}
  bramble : Bramble := {}
  control : Control := {}
  serial : Tbl SPort := []
  analog : Analog := {}
  eth : Tbl EPort := []
  can : Tbl CPort := []
  canOpen : CanOpen := {}
  fabric : Fabric := {}
  journal : Journal := {}
  dict : Dict := {}
  cycle : Cycle := {}
  health : Health := {}
  twin : Twin := {}
  boot : Boot := {}
  power : Power := {}
  pending : List Instr := []
  deriving DecidableEq, Repr

/-- What the boot ROM finds in slot A: an image that passes, of the firmware version that 0x1018:03 names (R289). The body
length, the key hash and the build number are the model's choice (log entry 4). -/
def State.resetImage : ImageFacts :=
  { magicOk := true, product := 0x2430, revision := 0x00020001, version := 0x02010000, security := 0, length := 1048064
    bodyHashOk := true, vendorKeyHash := 1, vendorSigOk := true, customerKeyHash := none, customerSigOk := false }

/-- The four wheels at position zero, unreferenced, at their fixed rates (R15, R24, R26): the mains and sea rates are no
whole numbers of the increment and stand at the nearest one (log entry 3). -/
def State.resetWheels : Wheels :=
  { time := { inc := 0xABCC77118 }, mains := { inc := 2305843009214 }, sea := { inc := 4611686018 } }

/-- A port of IEC 61162-3 that has begun to claim its preferred address: its address claim and its request for the
claims of the others wait to be sent (R206, R207). -/
def State.resetBus (name : List Byte) : CPort :=
  { addr := 128, addrState := 1, tried := 1
    tx := [{ frame := { ext := true, remote := false, id := 0x18EEFF80, data := name }, kind := .sup },
           { frame := { ext := true, remote := false, id := 0x18EAFF80, data := [0x00, 0xEE, 0x00] }, kind := .sup }] }

/-- C2 with its boot-up message waiting (R213, R214). -/
def State.resetC2 : CPort :=
  { tx := [{ frame := { ext := false, remote := false, id := 0x710, data := [0x00] }, kind := .sup }] }

/-- The block right after the first power-on start (cause 1) on a blank config store, in COMMISSIONING under the factory
defaults, at the moment step 8 of Table 15.2 is done: every field at the value its structure names or stated here. -/
def State.reset : State :=
  { wheels := State.resetWheels
    appts := { rows := [(1018, { next := some 0x100000000 })] }
    serial := (List.range 24).map (fun p => (p, { nextSlot := 1 }))
    can := [(0, State.resetBus [0x01, 0x00, 0x40, 0xB6, 0x00, 0x82, 0x32, 0xC0]),
            (1, State.resetBus [0x01, 0x00, 0x40, 0xB6, 0x08, 0x82, 0x32, 0xC0]), (2, State.resetC2)]
    canOpen := { nmt := 5 }
    stats := [(310579843586, 2), (310579843842, 2), (310579844610, 1)]
    twin := { claimAt := some 800000 }
    boot := { vendorHash := 1, slotA := { state := 4, failures := 1, facts := some State.resetImage } } }

end Sys2Proof.Machine
end

