-- ==== Sys2Proof/Machine/Flags.lean ====
section
/-! DEFINITION. Codes and flag words of the manual: power domains (Table 10.1), wheel states (Table 2.2), record kinds
and flags (Tables 3.7, 3.8), rejection reasons (Table 3.2), receive tags (Table 6.3) and event codes (Table 13.6). -/

namespace Sys2Proof.Machine

open Sys2Proof

/-! ### Domain codes (Table 10.1) -/

/-- Always-on domain. -/
abbrev domAo : Nat := 0
/-- Wake detectors. -/
abbrev domWake : Nat := 1
/-- Fabric, Bramble, queue memory, wheels. -/
abbrev domFabric : Nat := 2
/-- CE0 to CE4. -/
abbrev domCardA : Nat := 3
/-- CE5 to CE9. -/
abbrev domCardB : Nat := 4
/-- FE0 and FE1. -/
abbrev domFull : Nat := 5
/-- CX pair. -/
abbrev domCtrl : Nat := 6
/-- SX pair. -/
abbrev domSup : Nat := 7
/-- E0; E1 is the next code. -/
abbrev domEth0 : Nat := 8
/-- Serial ports. -/
abbrev domSerial : Nat := 10
/-- CAN controllers. -/
abbrev domCan : Nat := 11
/-- Analogue front end. -/
abbrev domAfe : Nat := 12
/-- DRAM controller and journal port. -/
abbrev domDram : Nat := 13
/-- Joile link. -/
abbrev domJoile : Nat := 14

/-! ### Wheel states (Table 2.2) -/

/-- The 2-bit code of a wheel state. -/
def WState.code : WState → Nat
  | .unref => 0
  | .acquiring => 1
  | .locked => 2
  | .afterLock => 3

/-! ### Record flags (Table 3.8) -/

/-- Set or clear bit `n` of a 16-bit flag word. -/
def setBit (f : BitVec 16) (n : Nat) (v : Bool) : BitVec 16 :=
  if v then f ||| BitVec.ofNat 16 (2 ^ n) else f &&& ~~~(BitVec.ofNat 16 (2 ^ n))

/-- Checksum absent. -/
abbrev flNoSum : Nat := 0
/-- Status invalid. -/
abbrev flInvalid : Nat := 1
/-- Deviant. -/
abbrev flDeviant : Nat := 2
/-- TAG present. -/
abbrev flTag : Nat := 3
/-- Time-wheel fallback. -/
abbrev flFallback : Nat := 4
/-- Sea half. -/
abbrev flSeaHalf : Nat := 5
/-- Lone LF. -/
abbrev flLoneLf : Nat := 6
/-- Query. -/
abbrev flQuery : Nat := 7
/-- Encapsulation. -/
abbrev flEncap : Nat := 8
/-- Hex escape. -/
abbrev flHex : Nat := 9
/-- Input fault. -/
abbrev flInput : Nat := 10

/-! ### Rejection reasons (Table 3.2) -/

/-- The rank of a reason in Table 3.2: the lower stands first. -/
def reasonRank (r : Nat) : Nat :=
  match [0x12, 0x14, 0x01, 0x02, 0x03, 0x04, 0x05, 0x0C, 0x0A, 0x0B, 0x06, 0x07, 0x08, 0x09, 0x13, 0x0F, 0x10,
      0x11, 0x0D, 0x0E].findIdx? (fun c => c == r) with
  | some i => i
  | none => 99

/-! ### Event codes (Table 13.6) -/

/-- How the manual marks an event: an event only, an alert whose condition stands, an alert for an occurrence. -/
inductive EvKind where
  | event | condition | occurrence
  deriving DecidableEq, Repr

/-- The condition alerts of Table 13.6. -/
def conditionAlerts : List Nat :=
  [0x1004, 0x4004, 0x4006, 0x6003, 0xA001, 0xA002, 0xA003, 0xA004, 0xB101, 0xC002, 0xC003, 0xD002, 0xE0FF]

/-- The occurrence alerts of Table 13.6. -/
def occurrenceAlerts : List Nat :=
  [0x3002, 0x4008, 0x7003, 0x9001, 0x9002, 0xB002, 0xB102, 0xC004, 0xD003, 0xE001]

/-- The alerts of priority A in Table 13.6; the others are warnings. -/
def alarmAlerts : List Nat :=
  [0x3002, 0x4006, 0x4008, 0x6003, 0x9001, 0xA003, 0xB002, 0xB101, 0xC002, 0xC004, 0xD003, 0xE001]

/-- The kind of an event code. -/
def evKind (code : Nat) : EvKind :=
  if conditionAlerts.contains code then .condition else if occurrenceAlerts.contains code then .occurrence else .event

/-- The priority of an alert: 1 alarm, 2 warning (Table 13.8). -/
def evPriority (code : Nat) : Nat := if alarmAlerts.contains code then 1 else 2

end Sys2Proof.Machine
end

