-- ==== Sys2Proof/Machine/Bits.lean ====
section
/-! DEFINITION. Bit-field, byte-order and position helpers: the comparison of positions (R23), little-endian packing
(R4), and the operations of the association table. -/

namespace Sys2Proof

/-- R23: the position a is at or after the position b. -/
def posAtOrAfter (a b : WheelPos) : Bool := decide ((a - b).toNat < 2 ^ 63)

/-- R23: the position a is strictly after the position b. -/
def posAfter (a b : WheelPos) : Bool := posAtOrAfter a b && a != b

/-- R23: the difference of two positions as a signed 64-bit value. -/
def posDiff (a b : WheelPos) : Int := (a - b).toInt

/-- Whole revolutions of a position (R5). -/
def posRev (p : WheelPos) : Nat := p.toNat / 2 ^ 32

/-- The fraction of a position, in units of 2^-32 revolution (R5). -/
def posFrac (p : WheelPos) : Nat := p.toNat % 2 ^ 32

/-- The bytes of a number, least significant first (R4). -/
def leBytes : Nat → Nat → List Byte
  | 0, _ => []
  | n + 1, v => BitVec.ofNat 8 v :: leBytes n (v / 256)

/-- The number whose bytes, least significant first, are given (R4). -/
def leNat : List Byte → Nat
  | [] => 0
  | b :: bs => b.toNat + 256 * leNat bs

/-- The bytes of a number, most significant first (network order, R4). -/
def beBytes (n v : Nat) : List Byte := (leBytes n v).reverse

/-- The number whose bytes, most significant first, are given. -/
def beNat (bs : List Byte) : Nat := leNat bs.reverse

/-- A number read as two's complement of `w` bits. -/
def toSigned (w v : Nat) : Int := (BitVec.ofNat w v).toInt

/-- An integer written as two's complement of `w` bits. -/
def ofSigned (w : Nat) (v : Int) : Nat := (BitVec.ofInt w v).toNat

/-- The characters of a literal text. -/
def ascii (s : String) : Text := s.toList.map (fun c => BitVec.ofNat 8 c.toNat)

/-- Clamp an integer to bounds. -/
def clampInt (lo hi v : Int) : Int := if v < lo then lo else if hi < v then hi else v

/-- The entry of key `k`, or the default. -/
def Tbl.get {α : Type} (d : α) (k : Nat) : Tbl α → α
  | [] => d
  | (j, v) :: t => if j = k then v else if k < j then d else Tbl.get d k t

/-- Put `v` at key `k`, keeping the keys rising. -/
def Tbl.put {α : Type} (k : Nat) (v : α) : Tbl α → Tbl α
  | [] => [(k, v)]
  | (j, w) :: t => if j = k then (k, v) :: t else if k < j then (k, v) :: (j, w) :: t else (j, w) :: Tbl.put k v t

/-- Remove the entry of key `k`. -/
def Tbl.del {α : Type} (k : Nat) : Tbl α → Tbl α
  | [] => []
  | (j, w) :: t => if j = k then t else if k < j then (j, w) :: t else (j, w) :: Tbl.del k t

/-- Change the entry of key `k` (an unlisted key starts from the default). -/
def Tbl.mod {α : Type} (d : α) (k : Nat) (f : α → α) (t : Tbl α) : Tbl α := Tbl.put k (f (Tbl.get d k t)) t

/-- The keys of a table are strictly rising: its canonical form. -/
def Tbl.wf {α : Type} : Tbl α → Bool
  | [] => true
  | [_] => true
  | (j, _) :: (k, w) :: t => decide (j < k) && Tbl.wf ((k, w) :: t)

end Sys2Proof
end

