-- ==== Sys2Proof/Machine/Objects.lean ====
section
/-! DEFINITION. The object table (13 and the object tables of every chapter): for every index of Table 13.3 its
subindices with their type, access, effect class, default and range. A default that differs from row to row is in
`objDefault` (Machine/Operands.lean). -/

namespace Sys2Proof.Machine

open Sys2Proof

/-- The data types of Table 12.1. -/
inductive Ty where
  | uns (bytes : Nat) | int (bytes : Nat) | real32 | text (max : Nat) | octets (len : Nat) | domain
  deriving DecidableEq, Repr

/-- Access codes (12). -/
inductive Acc where
  | ro | rw | wo | const
  deriving DecidableEq, Repr

/-- Effect classes (R267). -/
inductive Eff where
  | non | imm | bnd | stg
  deriving DecidableEq, Repr

/-- What the Range column states about the value itself (R266): intervals with codes allowed beside them, a list of
allowed values, a lower bound and an upper bound of a REAL, a length, or one of the stated forms. -/
inductive Rng where
  | any
  | among (spans : List (Int × Int)) (codes : List Int)
  | oneOf (values : List Int)
  | real (lo : Rat) (hi : Option Rat)
  | length (lo hi : Nat)
  | sources | rows | tanks | sfi | talker | rawField
  deriving DecidableEq, Repr

/-- One line of an object table: subindices first to last, with the bits that are not reserved (0: all of them). -/
structure Obj where
  first : Nat
  last : Nat
  ty : Ty
  acc : Acc
  eff : Eff
  dflt : Int
  rng : Rng
  mask : Nat
  deriving DecidableEq, Repr

/-- One index, or a run of like indices, with the rows of its window (none: no window). -/
structure Group where
  first : Nat
  last : Nat
  rows : Option Nat
  objs : List Obj
  deriving DecidableEq, Repr

/-- Intervals, and codes allowed beside them. -/
def rg (spans : List (Int × Int)) (codes : List Int) : Rng := .among spans codes

/-- Object 0x1000. -/
def obj1000 : List Obj := [
  ⟨0, 0, .uns 4, .const, .non, 0, .any, 0⟩]

/-- Object 0x1001. -/
def obj1001 : List Obj := [
  ⟨0, 0, .uns 1, .ro, .non, 0, .any, 0⟩]

/-- Object 0x1005. -/
def obj1005 : List Obj := [
  ⟨0, 0, .uns 4, .rw, .stg, 128, rg [(1, 2047)] [], 2047⟩]

/-- Object 0x1006. -/
def obj1006 : List Obj := [
  ⟨0, 0, .uns 4, .ro, .non, 0, .any, 0⟩]

/-- Object 0x1014. -/
def obj1014 : List Obj := [
  ⟨0, 0, .uns 4, .rw, .stg, 0, .any, 0⟩]

/-- Object 0x1015. -/
def obj1015 : List Obj := [
  ⟨0, 0, .uns 2, .rw, .stg, 0, .any, 0⟩]

/-- Object 0x1017. -/
def obj1017 : List Obj := [
  ⟨0, 0, .uns 2, .rw, .stg, 1000, .any, 0⟩]

/-- Object 0x1018. -/
def obj1018 : List Obj := [
  ⟨0, 0, .uns 1, .const, .non, 4, .any, 0⟩,
  ⟨1, 1, .uns 4, .ro, .non, 1246710092, .any, 0⟩,
  ⟨2, 2, .uns 4, .ro, .non, 9264, .any, 0⟩,
  ⟨3, 3, .uns 4, .ro, .non, 131073, .any, 0⟩,
  ⟨4, 4, .uns 4, .ro, .non, 0, .any, 0⟩]

/-- Object 0x1200. -/
def obj1200 : List Obj := [
  ⟨1, 1, .uns 4, .ro, .non, 0, .any, 0⟩,
  ⟨2, 2, .uns 4, .ro, .non, 0, .any, 0⟩]

/-- Object 0x1800. -/
def obj1800 : List Obj := [
  ⟨1, 1, .uns 4, .rw, .stg, 0, .any, 0⟩,
  ⟨2, 2, .uns 1, .const, .non, 1, .any, 0⟩]

/-- Object 0x2000. -/
def obj2000 : List Obj := [
  ⟨1, 1, .uns 8, .ro, .non, 0, .any, 0⟩,
  ⟨2, 2, .uns 1, .ro, .non, 0, .any, 0⟩,
  ⟨3, 3, .uns 1, .ro, .non, 0, .any, 0⟩,
  ⟨4, 4, .uns 4, .ro, .non, 4294967295, .any, 0⟩,
  ⟨5, 5, .int 4, .ro, .non, 0, .any, 0⟩,
  ⟨6, 6, .uns 4, .ro, .non, 0, .any, 0⟩,
  ⟨7, 7, .int 4, .ro, .non, 0, .any, 0⟩]

/-- Object 0x2008. -/
def obj2008 : List Obj := [
  ⟨1, 1, .uns 4, .rw, .stg, 1, .sources, 0⟩,
  ⟨2, 2, .uns 2, .rw, .stg, 65535, rg [(0, 511)] [65535], 0⟩,
  ⟨3, 3, .uns 1, .rw, .stg, 0, rg [(0, 1)] [], 0⟩,
  ⟨4, 4, .uns 1, .rw, .stg, 0, rg [(0, 1)] [], 0⟩,
  ⟨5, 5, .int 4, .rw, .stg, 0, rg [(-100000, 100000)] [], 0⟩,
  ⟨6, 6, .uns 4, .rw, .stg, 1000000, .any, 0⟩,
  ⟨7, 7, .uns 4, .rw, .stg, 100000, rg [(1, 500000)] [], 0⟩,
  ⟨8, 8, .uns 2, .rw, .stg, 16, rg [(4, 1024)] [], 0⟩,
  ⟨9, 9, .uns 2, .rw, .stg, 30, rg [(0, 3600)] [], 0⟩,
  ⟨10, 10, .int 2, .rw, .stg, 5, .any, 0⟩,
  ⟨11, 11, .uns 4, .rw, .stg, 1000, .any, 0⟩,
  ⟨12, 12, .uns 4, .rw, .stg, 10, .any, 0⟩,
  ⟨13, 13, .uns 1, .rw, .stg, 0, rg [(0, 127)] [], 0⟩]

/-- Object 0x2009. -/
def obj2009 : List Obj := [
  ⟨1, 1, .uns 2, .rw, .stg, 1024, rg [(1, 16383)] [], 0⟩,
  ⟨2, 2, .uns 2, .rw, .stg, 100, rg [(0, 10000)] [], 0⟩,
  ⟨3, 3, .uns 1, .rw, .stg, 0, rg [(0, 1)] [], 0⟩,
  ⟨4, 4, .uns 2, .rw, .stg, 2000, rg [(100, 60000)] [], 0⟩,
  ⟨5, 5, .uns 4, .rw, .stg, 100, .any, 0⟩,
  ⟨6, 6, .uns 1, .rw, .stg, 1, rg [(0, 1)] [], 0⟩]

/-- Object 0x200A. -/
def obj200A : List Obj := [
  ⟨1, 1, .uns 1, .rw, .stg, 50, .oneOf [50, 60], 0⟩,
  ⟨2, 2, .uns 1, .rw, .stg, 0, rg [(0, 1)] [], 0⟩,
  ⟨3, 3, .uns 4, .rw, .stg, 500, .any, 0⟩]

/-- Object 0x200B. -/
def obj200B : List Obj := [
  ⟨1, 1, .uns 1, .rw, .stg, 255, rg [(0, 63)] [255], 0⟩,
  ⟨2, 2, .uns 4, .rw, .stg, 10000, rg [(2000, 60000)] [], 0⟩,
  ⟨3, 3, .uns 4, .rw, .stg, 4000, rg [(2000, 60000)] [], 0⟩,
  ⟨4, 4, .uns 4, .rw, .stg, 40000, rg [(0, 60000)] [], 0⟩,
  ⟨5, 5, .uns 2, .rw, .stg, 50, rg [(1, 1000)] [], 0⟩,
  ⟨6, 6, .uns 1, .rw, .stg, 4, rg [(2, 16)] [], 0⟩,
  ⟨7, 7, .uns 2, .rw, .stg, 120, rg [(10, 3600)] [], 0⟩,
  ⟨8, 8, .uns 2, .rw, .stg, 0, rg [(0, 1000)] [], 0⟩,
  ⟨9, 9, .uns 1, .rw, .stg, 2, rg [(0, 9)] [], 0⟩]

/-- Object 0x2010. -/
def obj2010 : List Obj := [
  ⟨1, 1, .uns 2, .rw, .imm, 0, rg [(0, 1023)] [], 0⟩,
  ⟨2, 2, .uns 1, .rw, .stg, 0, rg [(0, 3)] [], 0⟩,
  ⟨3, 3, .uns 1, .rw, .stg, 0, rg [(0, 2)] [], 0⟩,
  ⟨4, 4, .uns 8, .rw, .stg, 0, .any, 0⟩,
  ⟨5, 5, .uns 8, .rw, .stg, 0, rg [(65536, 18446744073709551615)] [0], 0⟩,
  ⟨6, 6, .uns 4, .rw, .stg, 0, rg [(0, 1000000)] [], 0⟩,
  ⟨7, 7, .uns 2, .rw, .stg, 0, .any, 0⟩,
  ⟨8, 8, .uns 1, .rw, .stg, 0, rg [(0, 2)] [], 0⟩,
  ⟨9, 9, .uns 4, .ro, .non, 0, .any, 0⟩,
  ⟨10, 10, .uns 4, .ro, .non, 0, .any, 0⟩]

/-- Object 0x2018. -/
def obj2018 : List Obj := [
  ⟨1, 1, .uns 1, .rw, .stg, 2, rg [(0, 2)] [], 0⟩,
  ⟨2, 2, .uns 2, .rw, .stg, 100, rg [(1, 900)] [], 0⟩,
  ⟨3, 3, .int 4, .rw, .stg, 0, rg [(-500000000, 500000000)] [], 0⟩,
  ⟨4, 4, .uns 4, .rw, .stg, 1000, .any, 0⟩]

/-- Object 0x2019. -/
def obj2019 : List Obj := [
  ⟨1, 8, .uns 1, .rw, .stg, 0, rg [(0, 2)] [], 0⟩,
  ⟨9, 16, .uns 4, .rw, .stg, 1000, rg [(10, 1000000000)] [], 0⟩]

/-- Object 0x2100. -/
def obj2100 : List Obj := [
  ⟨1, 1, .uns 1, .rw, .stg, 1, rg [(0, 3)] [], 0⟩,
  ⟨2, 2, .uns 2, .rw, .bnd, 960, rg [(5, 15360)] [], 0⟩,
  ⟨3, 3, .uns 1, .rw, .stg, 8, rg [(7, 8)] [], 0⟩,
  ⟨4, 4, .uns 1, .rw, .stg, 0, rg [(0, 5)] [], 0⟩,
  ⟨5, 5, .uns 1, .rw, .stg, 1, rg [(1, 2)] [], 0⟩,
  ⟨6, 6, .uns 1, .rw, .stg, 2, rg [(0, 2)] [], 0⟩,
  ⟨7, 7, .uns 1, .rw, .stg, 0, rg [(0, 1)] [], 0⟩,
  ⟨8, 8, .uns 1, .rw, .stg, 1, rg [(0, 2)] [], 0⟩,
  ⟨9, 9, .uns 1, .rw, .stg, 0, rg [(0, 64)] [], 0⟩,
  ⟨10, 10, .uns 1, .rw, .stg, 16, rg [(0, 64)] [], 0⟩,
  ⟨11, 11, .uns 1, .rw, .stg, 0, rg [(0, 15)] [], 0⟩,
  ⟨12, 12, .uns 2, .rw, .stg, 1000, rg [(100, 60000)] [], 0⟩,
  ⟨13, 13, .uns 1, .rw, .stg, 0, rg [(0, 1)] [], 0⟩,
  ⟨14, 14, .uns 1, .rw, .stg, 1, rg [(0, 1)] [], 0⟩,
  ⟨15, 15, .uns 2, .rw, .stg, 0, .any, 511⟩,
  ⟨16, 16, .uns 2, .rw, .stg, 0, .any, 511⟩,
  ⟨17, 17, .uns 2, .rw, .stg, 0, .any, 511⟩,
  ⟨18, 18, .uns 2, .rw, .stg, 0, .any, 511⟩,
  ⟨19, 19, .uns 2, .rw, .stg, 65535, rg [(0, 255)] [65535], 0⟩,
  ⟨20, 20, .uns 1, .rw, .stg, 0, rg [(0, 1)] [], 0⟩,
  ⟨21, 21, .uns 1, .rw, .stg, 13, rg [(13, 26)] [], 0⟩,
  ⟨22, 22, .uns 1, .rw, .stg, 5, rg [(1, 50)] [], 0⟩,
  ⟨23, 23, .uns 1, .rw, .stg, 40, rg [(10, 100)] [], 0⟩,
  ⟨32, 32, .uns 1, .ro, .non, 1, .any, 0⟩,
  ⟨33, 33, .uns 2, .rw, .imm, 0, .any, 0⟩,
  ⟨34, 34, .uns 2, .ro, .non, 960, .any, 0⟩,
  ⟨35, 35, .uns 2, .ro, .non, 960, .any, 0⟩,
  ⟨36, 36, .uns 1, .ro, .non, 0, .any, 0⟩,
  ⟨37, 37, .uns 1, .ro, .non, 0, .any, 0⟩,
  ⟨38, 38, .uns 4, .ro, .non, 0, .any, 0⟩,
  ⟨39, 39, .uns 1, .ro, .non, 0, .any, 0⟩,
  ⟨40, 40, .uns 1, .ro, .non, 0, .any, 0⟩]

/-- Object 0x2140. -/
def obj2140 : List Obj := [
  ⟨1, 1, .uns 1, .rw, .imm, 0, rg [(0, 127)] [], 0⟩,
  ⟨2, 2, .uns 1, .rw, .stg, 0, rg [(0, 2)] [], 0⟩,
  ⟨3, 3, .uns 1, .rw, .stg, 0, rg [(0, 60)] [], 0⟩,
  ⟨4, 4, .uns 1, .rw, .stg, 8, rg [(1, 8)] [], 0⟩,
  ⟨5, 5, .uns 1, .rw, .stg, 1, rg [(0, 1)] [], 0⟩,
  ⟨6, 6, .uns 1, .rw, .stg, 2, rg [(1, 255)] [], 0⟩,
  ⟨7, 7, .uns 8, .rw, .bnd, 0, .any, 0⟩]

/-- Object 0x2180. -/
def obj2180 : List Obj := [
  ⟨1, 1, .uns 1, .rw, .stg, 1, rg [(0, 1)] [], 0⟩,
  ⟨2, 2, .real32, .rw, .stg, 1094755287, .real 1 (some 100), 0⟩,
  ⟨3, 3, .uns 2, .rw, .stg, 1255, rg [(0, 2500)] [], 0⟩,
  ⟨4, 4, .uns 2, .rw, .stg, 1000, rg [(100, 10000)] [], 0⟩,
  ⟨5, 5, .uns 1, .rw, .stg, 2, rg [(1, 10)] [], 0⟩,
  ⟨6, 6, .uns 2, .rw, .stg, 150, rg [(50, 1000)] [], 0⟩,
  ⟨7, 7, .uns 2, .rw, .stg, 1000, rg [(200, 5000)] [], 0⟩,
  ⟨8, 8, .uns 2, .rw, .stg, 12000, rg [(1000, 15000)] [], 0⟩,
  ⟨9, 9, .uns 2, .rw, .stg, 1000, rg [(10, 60000)] [0], 0⟩]

/-- Object 0x2181. -/
def obj2181 : List Obj := [
  ⟨1, 1, .uns 1, .rw, .imm, 0, rg [(0, 23)] [], 0⟩,
  ⟨2, 2, .uns 1, .rw, .stg, 1, rg [(0, 3)] [], 0⟩,
  ⟨3, 3, .uns 1, .ro, .non, 255, .any, 0⟩,
  ⟨4, 4, .int 4, .ro, .non, 0, .any, 0⟩,
  ⟨5, 5, .int 4, .ro, .non, 0, .any, 0⟩,
  ⟨6, 6, .int 4, .ro, .non, 0, .any, 0⟩,
  ⟨7, 7, .int 4, .ro, .non, 0, .any, 0⟩,
  ⟨8, 8, .uns 4, .ro, .non, 0, .any, 0⟩,
  ⟨9, 9, .uns 4, .ro, .non, 0, .any, 0⟩,
  ⟨10, 10, .uns 4, .ro, .non, 0, .any, 0⟩]

/-- Object 0x2190. -/
def obj2190 : List Obj := [
  ⟨1, 1, .uns 1, .ro, .non, 0, .any, 0⟩]

/-- Object 0x2191. -/
def obj2191 : List Obj := [
  ⟨1, 1, .uns 1, .rw, .imm, 0, rg [(0, 15)] [], 0⟩,
  ⟨2, 2, .uns 1, .rw, .stg, 1, rg [(0, 1)] [], 0⟩,
  ⟨3, 3, .uns 1, .rw, .stg, 0, rg [(0, 1)] [], 0⟩,
  ⟨4, 4, .uns 1, .rw, .stg, 3, rg [(0, 5)] [], 0⟩,
  ⟨5, 5, .uns 4, .rw, .stg, 49900, rg [(10000, 100000)] [], 0⟩,
  ⟨6, 6, .real32, .rw, .stg, 1065353216, .real (9 / 10) (some (11 / 10)), 0⟩,
  ⟨7, 7, .int 4, .rw, .stg, 0, rg [(-100000, 100000)] [], 0⟩,
  ⟨8, 8, .uns 2, .rw, .stg, 0, rg [(0, 60000)] [], 0⟩,
  ⟨9, 9, .uns 2, .rw, .stg, 10, rg [(0, 10000)] [], 0⟩,
  ⟨10, 10, .uns 2, .rw, .stg, 1000, rg [(1, 60000)] [0], 0⟩,
  ⟨11, 11, .int 4, .ro, .non, 0, .any, 0⟩,
  ⟨12, 12, .uns 1, .ro, .non, 6, .any, 0⟩,
  ⟨13, 13, .uns 4, .ro, .non, 0, .any, 0⟩,
  ⟨14, 14, .uns 4, .ro, .non, 0, .any, 0⟩]

/-- Object 0x2200. -/
def obj2200 : List Obj := [
  ⟨1, 1, .uns 1, .rw, .stg, 1, rg [(0, 2)] [], 0⟩,
  ⟨2, 2, .uns 1, .rw, .stg, 0, rg [(0, 3)] [], 0⟩,
  ⟨3, 3, .uns 1, .rw, .stg, 0, rg [(0, 31)] [], 0⟩,
  ⟨4, 4, .uns 1, .rw, .stg, 3, .any, 3⟩,
  ⟨5, 5, .uns 8, .rw, .stg, 0, .any, 281474976710655⟩,
  ⟨6, 6, .uns 4, .rw, .stg, 0, .any, 0⟩,
  ⟨7, 7, .uns 1, .rw, .stg, 24, rg [(8, 30)] [], 0⟩,
  ⟨8, 8, .uns 4, .rw, .stg, 0, .any, 0⟩,
  ⟨9, 9, .uns 2, .rw, .stg, 60000, rg [(1, 65535)] [], 0⟩,
  ⟨10, 10, .uns 2, .rw, .stg, 1522, rg [(64, 2048)] [], 0⟩,
  ⟨11, 11, .uns 2, .rw, .stg, 0, rg [(0, 4094)] [], 0⟩,
  ⟨12, 12, .uns 1, .rw, .stg, 2, rg [(1, 32)] [], 0⟩,
  ⟨13, 13, .uns 1, .rw, .stg, 1, rg [(0, 1)] [], 0⟩,
  ⟨14, 14, .uns 2, .rw, .stg, 50, rg [(0, 10000)] [], 0⟩,
  ⟨15, 15, .uns 2, .rw, .stg, 1000, rg [(10, 60000)] [], 0⟩,
  ⟨16, 16, .uns 1, .rw, .imm, 0, rg [(0, 1)] [], 0⟩,
  ⟨18, 18, .uns 1, .rw, .stg, 0, rg [(0, 1)] [], 0⟩,
  ⟨19, 19, .int 2, .rw, .stg, 0, rg [(-10000, 10000)] [], 0⟩,
  ⟨20, 20, .int 2, .rw, .stg, 0, rg [(-10000, 10000)] [], 0⟩,
  ⟨21, 21, .uns 1, .rw, .stg, 0, .any, 15⟩,
  ⟨32, 32, .uns 1, .ro, .non, 0, .any, 0⟩,
  ⟨33, 33, .uns 2, .rw, .imm, 0, .any, 0⟩,
  ⟨34, 34, .uns 1, .ro, .non, 2, .any, 0⟩,
  ⟨35, 35, .uns 2, .ro, .non, 0, .any, 0⟩,
  ⟨36, 36, .uns 2, .ro, .non, 0, .any, 0⟩,
  ⟨37, 37, .uns 1, .ro, .non, 0, .any, 0⟩,
  ⟨38, 38, .uns 8, .ro, .non, 0, .any, 0⟩,
  ⟨39, 39, .int 4, .ro, .non, 0, .any, 0⟩,
  ⟨40, 40, .uns 4, .ro, .non, 0, .any, 0⟩,
  ⟨41, 41, .uns 4, .ro, .non, 0, .any, 0⟩,
  ⟨42, 42, .uns 2, .ro, .non, 0, .any, 0⟩]

/-- Object 0x2208. -/
def obj2208 : List Obj := [
  ⟨1, 1, .uns 4, .ro, .non, 0, .any, 0⟩,
  ⟨2, 2, .uns 4, .ro, .non, 0, .any, 0⟩,
  ⟨3, 3, .uns 4, .ro, .non, 0, .any, 0⟩,
  ⟨4, 4, .uns 4, .ro, .non, 0, .any, 0⟩,
  ⟨5, 5, .uns 4, .ro, .non, 0, .any, 0⟩,
  ⟨6, 6, .uns 4, .ro, .non, 0, .any, 0⟩,
  ⟨7, 7, .uns 4, .ro, .non, 0, .any, 0⟩,
  ⟨8, 8, .uns 4, .ro, .non, 0, .any, 0⟩,
  ⟨9, 9, .uns 4, .ro, .non, 0, .any, 0⟩,
  ⟨10, 10, .uns 4, .ro, .non, 0, .any, 0⟩,
  ⟨11, 11, .uns 4, .ro, .non, 0, .any, 0⟩,
  ⟨12, 12, .uns 4, .ro, .non, 0, .any, 0⟩,
  ⟨13, 13, .uns 4, .ro, .non, 0, .any, 0⟩,
  ⟨14, 14, .uns 4, .ro, .non, 0, .any, 0⟩,
  ⟨15, 15, .uns 4, .ro, .non, 0, .any, 0⟩,
  ⟨16, 16, .uns 4, .ro, .non, 0, .any, 0⟩,
  ⟨17, 17, .uns 4, .ro, .non, 0, .any, 0⟩,
  ⟨18, 18, .uns 4, .ro, .non, 0, .any, 0⟩]

/-- Object 0x2210. -/
def obj2210 : List Obj := [
  ⟨1, 1, .uns 1, .rw, .imm, 0, rg [(0, 15)] [], 0⟩,
  ⟨2, 2, .uns 1, .rw, .stg, 0, rg [(0, 1)] [], 0⟩,
  ⟨3, 3, .uns 4, .rw, .stg, 0, .any, 0⟩,
  ⟨4, 4, .uns 2, .rw, .stg, 0, rg [(1, 65535)] [], 0⟩,
  ⟨5, 5, .uns 4, .ro, .non, 0, .any, 0⟩]

/-- Object 0x2218. -/
def obj2218 : List Obj := [
  ⟨1, 1, .uns 1, .rw, .imm, 0, rg [(0, 7)] [], 0⟩,
  ⟨2, 2, .uns 1, .rw, .stg, 0, rg [(0, 1)] [], 0⟩,
  ⟨3, 3, .uns 2, .rw, .stg, 0, rg [(0, 1920)] [], 0⟩,
  ⟨4, 4, .octets 16, .rw, .stg, 0, .any, 0⟩,
  ⟨5, 5, .uns 2, .rw, .stg, 0, .any, 0⟩,
  ⟨6, 6, .uns 4, .ro, .non, 0, .any, 0⟩]

/-- Object 0x2220. -/
def obj2220 : List Obj := [
  ⟨1, 1, .uns 1, .ro, .non, 0, .any, 0⟩,
  ⟨2, 2, .uns 2, .ro, .non, 0, .any, 0⟩,
  ⟨3, 3, .uns 1, .ro, .non, 255, .any, 0⟩,
  ⟨4, 4, .uns 8, .ro, .non, 0, .any, 0⟩,
  ⟨5, 5, .uns 1, .ro, .non, 0, .any, 0⟩,
  ⟨6, 6, .uns 1, .wo, .imm, 0, rg [(1, 1)] [], 0⟩]

/-- Object 0x2228. -/
def obj2228 : List Obj := [
  ⟨1, 1, .uns 1, .rw, .imm, 0, rg [(0, 15)] [], 0⟩,
  ⟨2, 2, .uns 2, .ro, .non, 0, .any, 0⟩,
  ⟨3, 3, .uns 2, .ro, .non, 0, .any, 0⟩,
  ⟨4, 4, .uns 8, .ro, .non, 0, .any, 0⟩,
  ⟨5, 5, .domain, .ro, .non, 0, .any, 0⟩,
  ⟨6, 6, .uns 1, .wo, .imm, 0, rg [(1, 1)] [], 0⟩]

/-- Object 0x2230. -/
def obj2230 : List Obj := [
  ⟨1, 1, .uns 1, .rw, .stg, 0, rg [(0, 1)] [], 0⟩,
  ⟨2, 2, .uns 1, .rw, .stg, 3, rg [(2, 10)] [], 0⟩,
  ⟨3, 3, .uns 2, .rw, .imm, 0, .any, 1023⟩,
  ⟨4, 4, .uns 2, .rw, .imm, 0, .any, 0⟩]

/-- Object 0x2240. -/
def obj2240 : List Obj := [
  ⟨1, 1, .uns 1, .rw, .stg, 1, rg [(0, 1)] [], 0⟩,
  ⟨2, 2, .uns 2, .rw, .stg, 0, .oneOf [125, 250, 500, 1000], 0⟩,
  ⟨3, 3, .uns 2, .rw, .stg, 100, rg [(0, 10000)] [], 0⟩,
  ⟨32, 32, .uns 1, .ro, .non, 0, .any, 0⟩,
  ⟨33, 33, .uns 1, .ro, .non, 0, .any, 0⟩,
  ⟨34, 34, .uns 1, .ro, .non, 0, .any, 0⟩,
  ⟨35, 35, .uns 2, .rw, .imm, 0, .any, 0⟩]

/-- Object 0x2244. -/
def obj2244 : List Obj := [
  ⟨1, 1, .uns 8, .rw, .stg, 0, .any, 0⟩,
  ⟨2, 2, .uns 1, .rw, .stg, 128, rg [(0, 253)] [], 0⟩,
  ⟨3, 3, .uns 1, .ro, .non, 254, .any, 0⟩,
  ⟨4, 4, .uns 1, .ro, .non, 0, .any, 0⟩,
  ⟨5, 5, .uns 4, .ro, .non, 0, .any, 0⟩]

/-- Object 0x2246. -/
def obj2246 : List Obj := [
  ⟨1, 16, .uns 4, .rw, .stg, 0, .any, 0⟩]

/-- Object 0x2260. -/
def obj2260 : List Obj := [
  ⟨1, 1, .uns 1, .rw, .stg, 0, rg [(1, 127)] [], 0⟩,
  ⟨2, 2, .uns 1, .rw, .stg, 1, rg [(0, 1)] [], 0⟩,
  ⟨3, 3, .uns 1, .ro, .non, 0, .any, 0⟩,
  ⟨4, 4, .uns 4, .ro, .non, 0, .any, 0⟩,
  ⟨5, 5, .uns 4, .ro, .non, 0, .any, 0⟩,
  ⟨6, 6, .uns 4, .ro, .non, 0, .any, 0⟩]

/-- Object 0x2300. -/
def obj2300 : List Obj := [
  ⟨1, 1, .uns 1, .rw, .stg, 128, rg [(1, 255)] [], 0⟩,
  ⟨2, 2, .uns 1, .rw, .stg, 96, rg [(0, 255)] [], 0⟩,
  ⟨3, 3, .uns 1, .rw, .stg, 4, rg [(1, 64)] [], 0⟩,
  ⟨4, 4, .uns 1, .rw, .stg, 8, rg [(0, 255)] [], 0⟩,
  ⟨5, 5, .uns 1, .rw, .stg, 8, rg [(0, 255)] [], 0⟩,
  ⟨6, 6, .uns 1, .rw, .stg, 16, rg [(0, 255)] [], 0⟩,
  ⟨7, 7, .uns 1, .rw, .stg, 32, rg [(0, 255)] [], 0⟩,
  ⟨8, 8, .uns 1, .rw, .stg, 0, rg [(0, 1)] [], 0⟩]

/-- Object 0x2310. -/
def obj2310 : List Obj := [
  ⟨1, 1, .uns 2, .rw, .imm, 0, rg [(0, 511)] [], 0⟩,
  ⟨2, 2, .uns 1, .rw, .stg, 0, rg [(0, 1)] [], 0⟩,
  ⟨3, 3, .uns 1, .rw, .stg, 0, rg [(0, 23), (32, 33), (40, 42), (48, 63), (64, 64)] [255], 0⟩,
  ⟨4, 4, .uns 1, .rw, .stg, 0, rg [(0, 6)] [], 0⟩,
  ⟨5, 5, .text 15, .rw, .stg, 0, .length 1 15, 0⟩,
  ⟨6, 6, .uns 8, .rw, .stg, 0, .any, 0⟩,
  ⟨7, 7, .uns 1, .rw, .stg, 0, rg [(0, 1)] [], 0⟩,
  ⟨8, 8, .uns 1, .rw, .stg, 2, rg [(0, 3)] [], 0⟩,
  ⟨9, 9, .uns 4, .rw, .stg, 0, rg [(10, 600000)] [0], 0⟩,
  ⟨10, 10, .uns 4, .rw, .stg, 200, rg [(1, 650000)] [], 0⟩,
  ⟨11, 11, .uns 2, .rw, .stg, 16, rg [(1, 1024)] [], 0⟩,
  ⟨12, 12, .text 2, .rw, .stg, 0, .length 2 2, 0⟩,
  ⟨13, 13, .uns 1, .rw, .stg, 0, rg [(0, 1)] [], 0⟩,
  ⟨14, 14, .uns 1, .ro, .non, 0, .any, 0⟩,
  ⟨15, 15, .uns 1, .ro, .non, 0, .any, 0⟩,
  ⟨16, 16, .uns 4, .ro, .non, 0, .any, 0⟩,
  ⟨17, 17, .uns 4, .ro, .non, 0, .any, 0⟩,
  ⟨18, 18, .uns 1, .ro, .non, 0, .any, 0⟩,
  ⟨19, 19, .uns 4, .ro, .non, 0, .any, 0⟩,
  ⟨20, 20, .uns 8, .ro, .non, 0, .any, 0⟩,
  ⟨21, 21, .uns 4, .ro, .non, 0, .any, 0⟩]

/-- Object 0x2320. -/
def obj2320 : List Obj := [
  ⟨1, 1, .uns 1, .rw, .imm, 0, rg [(0, 63)] [], 0⟩,
  ⟨2, 2, .uns 1, .rw, .stg, 0, rg [(0, 1)] [], 0⟩,
  ⟨3, 3, .uns 8, .rw, .stg, 18446744073709551615, .rows, 0⟩,
  ⟨4, 4, .uns 8, .rw, .stg, 0, .any, 281474976710655⟩,
  ⟨5, 5, .text 16, .rw, .stg, 0, .any, 0⟩,
  ⟨6, 6, .uns 1, .rw, .stg, 0, rg [(0, 2)] [], 0⟩,
  ⟨7, 7, .uns 1, .rw, .stg, 0, rg [(0, 9)] [], 0⟩,
  ⟨8, 8, .uns 4, .rw, .stg, 0, .any, 0⟩,
  ⟨9, 9, .uns 1, .rw, .stg, 32, rg [(0, 255)] [], 0⟩,
  ⟨10, 10, .uns 2, .rw, .stg, 2000, rg [(0, 60000)] [], 0⟩,
  ⟨11, 11, .uns 1, .rw, .stg, 0, rg [(0, 1)] [], 0⟩,
  ⟨12, 12, .uns 1, .rw, .stg, 1, rg [(0, 3)] [], 0⟩,
  ⟨13, 13, .uns 2, .ro, .non, 65535, .any, 0⟩,
  ⟨14, 14, .uns 4, .ro, .non, 0, .any, 0⟩,
  ⟨15, 15, .uns 4, .ro, .non, 0, .any, 0⟩,
  ⟨16, 16, .uns 4, .ro, .non, 0, .any, 0⟩]

/-- Object 0x2330. -/
def obj2330 : List Obj := [
  ⟨1, 1, .uns 1, .rw, .imm, 0, rg [(0, 63)] [], 0⟩,
  ⟨2, 2, .uns 1, .ro, .non, 255, .any, 0⟩,
  ⟨3, 3, .uns 1, .ro, .non, 0, .any, 0⟩,
  ⟨4, 4, .text 15, .ro, .non, 0, .any, 0⟩,
  ⟨5, 5, .uns 8, .ro, .non, 0, .any, 0⟩,
  ⟨6, 6, .uns 4, .ro, .non, 0, .any, 0⟩,
  ⟨7, 7, .uns 8, .ro, .non, 0, .any, 0⟩,
  ⟨8, 8, .uns 1, .wo, .imm, 0, rg [(1, 1)] [], 0⟩]

/-- Object 0x2500. -/
def obj2500 : List Obj := [
  ⟨1, 1, .text 6, .rw, .stg, 0, .sfi, 0⟩,
  ⟨2, 2, .uns 2, .rw, .stg, 4096, rg [(0, 16384)] [], 0⟩,
  ⟨3, 3, .uns 2, .ro, .non, 32768, .any, 0⟩]

/-- Object 0x2510. -/
def obj2510 : List Obj := [
  ⟨1, 1, .uns 2, .rw, .imm, 0, rg [(0, 4095)] [], 0⟩,
  ⟨2, 2, .uns 1, .rw, .stg, 0, rg [(0, 1)] [], 0⟩,
  ⟨3, 3, .uns 2, .rw, .stg, 65535, rg [(0, 576)] [65535], 0⟩,
  ⟨4, 4, .uns 2, .rw, .stg, 65535, rg [(0, 19), (252, 254)] [65535], 0⟩,
  ⟨5, 5, .uns 1, .rw, .stg, 255, rg [(1, 8), (15, 15)] [255], 0⟩,
  ⟨6, 6, .uns 1, .rw, .stg, 255, rg [(0, 23), (32, 33), (40, 42), (48, 63), (64, 64)] [255], 0⟩,
  ⟨7, 7, .text 2, .rw, .stg, 0, .talker, 0⟩,
  ⟨8, 8, .uns 2, .rw, .stg, 0, .any, 2047⟩,
  ⟨9, 9, .uns 2, .rw, .stg, 0, .any, 2047⟩,
  ⟨10, 10, .uns 1, .rw, .stg, 0, rg [(0, 3)] [], 0⟩,
  ⟨11, 11, .uns 8, .rw, .stg, 0, .any, 0⟩,
  ⟨12, 12, .uns 1, .rw, .stg, 255, rg [(0, 3)] [255], 0⟩,
  ⟨13, 13, .uns 2, .rw, .stg, 65535, rg [(0, 255)] [65535], 0⟩,
  ⟨14, 14, .uns 4, .ro, .non, 0, .any, 0⟩]

/-- Object 0x2520. -/
def obj2520 : List Obj := [
  ⟨1, 1, .uns 1, .rw, .imm, 0, rg [(0, 63)] [], 0⟩,
  ⟨2, 2, .uns 1, .rw, .stg, 0, rg [(0, 1)] [], 0⟩,
  ⟨3, 3, .uns 1, .rw, .stg, 0, rg [(0, 23), (32, 33), (40, 41)] [255], 0⟩,
  ⟨4, 4, .uns 2, .rw, .stg, 256, rg [(16, 4096)] [], 0⟩,
  ⟨5, 5, .uns 1, .rw, .stg, 0, .any, 7⟩,
  ⟨6, 6, .uns 1, .rw, .stg, 0, rg [(0, 1)] [], 0⟩,
  ⟨7, 7, .uns 1, .rw, .stg, 0, rg [(0, 1)] [], 0⟩,
  ⟨8, 8, .text 2, .rw, .stg, 0, .talker, 0⟩,
  ⟨9, 9, .uns 4, .rw, .stg, 0, .any, 0⟩,
  ⟨10, 10, .uns 2, .rw, .stg, 0, rg [(1, 65535)] [], 0⟩,
  ⟨11, 11, .uns 4, .ro, .non, 0, .any, 0⟩,
  ⟨12, 12, .uns 2, .ro, .non, 0, .any, 0⟩]

/-- Object 0x2530. -/
def obj2530 : List Obj := [
  ⟨1, 1, .uns 1, .rw, .imm, 0, rg [(0, 255)] [], 0⟩,
  ⟨2, 2, .uns 1, .rw, .stg, 0, rg [(0, 3)] [], 0⟩,
  ⟨3, 3, .uns 4, .rw, .stg, 1000, rg [(1, 3600000)] [], 0⟩,
  ⟨4, 4, .uns 2, .rw, .stg, 2, rg [(2, 65535)] [], 0⟩,
  ⟨5, 5, .uns 4, .ro, .non, 0, .any, 0⟩,
  ⟨6, 6, .uns 4, .ro, .non, 0, .any, 0⟩,
  ⟨7, 7, .uns 4, .ro, .non, 0, .any, 0⟩]

/-- Object 0x3000. -/
def obj3000 : List Obj := [
  ⟨1, 1, .uns 2, .ro, .non, 0, .any, 0⟩,
  ⟨2, 2, .uns 1, .ro, .non, 255, .any, 0⟩]

/-- Object 0x3010. -/
def obj3010 : List Obj := [
  ⟨1, 1, .uns 1, .rw, .imm, 0, rg [(0, 15)] [], 0⟩,
  ⟨2, 2, .uns 1, .rw, .stg, 0, rg [(0, 1)] [], 0⟩,
  ⟨3, 3, .uns 1, .ro, .non, 0, .any, 0⟩,
  ⟨4, 4, .uns 1, .ro, .non, 0, .any, 0⟩,
  ⟨5, 5, .uns 1, .wo, .imm, 0, rg [(1, 2)] [], 0⟩,
  ⟨6, 6, .uns 1, .rw, .stg, 0, rg [(0, 64)] [], 0⟩,
  ⟨8, 8, .uns 2, .rw, .stg, 65535, .tanks, 0⟩,
  ⟨9, 9, .uns 1, .rw, .stg, 255, rg [(0, 11)] [255], 0⟩,
  ⟨10, 10, .uns 1, .rw, .stg, 0, rg [(0, 7)] [], 0⟩,
  ⟨11, 11, .uns 1, .rw, .stg, 1, rg [(1, 4)] [], 0⟩,
  ⟨12, 12, .real32, .rw, .stg, 1065353216, .any, 0⟩,
  ⟨13, 13, .real32, .rw, .stg, 0, .any, 0⟩,
  ⟨14, 14, .uns 2, .rw, .stg, 500, rg [(10, 60000)] [], 0⟩,
  ⟨15, 15, .real32, .ro, .non, 0, .any, 0⟩,
  ⟨16, 16, .int 4, .ro, .non, 0, .any, 0⟩,
  ⟨17, 17, .uns 4, .ro, .non, 0, .any, 0⟩,
  ⟨18, 18, .uns 1, .ro, .non, 0, .any, 0⟩,
  ⟨19, 19, .uns 4, .ro, .non, 0, .any, 0⟩]

/-- Object 0x3011. -/
def obj3011 : List Obj := [
  ⟨1, 1, .uns 1, .rw, .imm, 0, rg [(0, 31)] [], 0⟩,
  ⟨2, 2, .uns 1, .rw, .stg, 0, rg [(0, 4)] [], 0⟩,
  ⟨3, 3, .uns 2, .rw, .stg, 0, .any, 0⟩,
  ⟨4, 4, .uns 1, .rw, .stg, 0, .any, 0⟩,
  ⟨5, 5, .real32, .rw, .stg, 1065353216, .any, 0⟩,
  ⟨6, 6, .real32, .rw, .stg, 0, .any, 0⟩,
  ⟨7, 7, .uns 2, .rw, .stg, 0, rg [(0, 60000)] [], 0⟩,
  ⟨8, 8, .real32, .rw, .bnd, 0, .any, 0⟩,
  ⟨9, 9, .real32, .rw, .stg, 0, .any, 0⟩,
  ⟨10, 10, .real32, .rw, .stg, 0, .any, 0⟩,
  ⟨11, 11, .real32, .rw, .stg, 3212836864, .any, 0⟩,
  ⟨12, 12, .real32, .rw, .stg, 1065353216, .any, 0⟩,
  ⟨13, 13, .real32, .rw, .stg, 0, .real 0 none, 0⟩,
  ⟨14, 14, .real32, .ro, .non, 0, .any, 0⟩,
  ⟨15, 15, .real32, .ro, .non, 0, .any, 0⟩,
  ⟨16, 16, .real32, .ro, .non, 0, .any, 0⟩]

/-- Object 0x3100. -/
def obj3100 : List Obj := [
  ⟨1, 1, .uns 1, .rw, .stg, 255, rg [(0, 63)] [255], 0⟩,
  ⟨2, 2, .uns 1, .rw, .stg, 255, rg [(0, 63)] [255], 0⟩,
  ⟨3, 3, .uns 4, .rw, .stg, 0, .any, 0⟩,
  ⟨4, 4, .real32, .rw, .bnd, 0, .real 0 none, 0⟩,
  ⟨5, 5, .real32, .rw, .bnd, 0, .any, 0⟩,
  ⟨6, 6, .real32, .rw, .bnd, 1065353216, .real (1 / 20) (some 20), 0⟩,
  ⟨7, 7, .uns 2, .rw, .stg, 30, rg [(1, 600)] [], 0⟩,
  ⟨8, 8, .uns 2, .rw, .stg, 100, rg [(10, 5000)] [], 0⟩,
  ⟨9, 9, .uns 2, .rw, .stg, 60, rg [(1, 3600)] [], 0⟩,
  ⟨10, 10, .uns 1, .rw, .stg, 64, rg [(1, 255)] [], 0⟩,
  ⟨11, 11, .uns 2, .rw, .stg, 120, rg [(1, 3600)] [], 0⟩,
  ⟨12, 12, .int 4, .ro, .non, 0, .any, 0⟩,
  ⟨13, 13, .int 4, .ro, .non, 0, .any, 0⟩,
  ⟨14, 14, .int 4, .ro, .non, 0, .any, 0⟩,
  ⟨15, 15, .int 4, .ro, .non, 0, .any, 0⟩,
  ⟨16, 16, .real32, .ro, .non, 0, .any, 0⟩,
  ⟨17, 17, .real32, .ro, .non, 0, .any, 0⟩,
  ⟨18, 18, .real32, .ro, .non, 0, .any, 0⟩,
  ⟨19, 19, .real32, .ro, .non, 0, .any, 0⟩,
  ⟨20, 20, .uns 1, .wo, .imm, 0, rg [(1, 1)] [], 0⟩]

/-- Object 0x3110. -/
def obj3110 : List Obj := [
  ⟨1, 1, .uns 1, .rw, .imm, 0, rg [(0, 95)] [], 0⟩,
  ⟨2, 2, .uns 1, .rw, .stg, 0, rg [(0, 1)] [], 0⟩,
  ⟨3, 3, .uns 2, .rw, .stg, 65535, rg [(0, 511)] [65535], 0⟩,
  ⟨4, 4, .uns 1, .rw, .stg, 0, rg [(0, 9)] [16], 0⟩,
  ⟨5, 5, .uns 1, .rw, .stg, 1, .rawField, 251⟩,
  ⟨6, 6, .text 16, .rw, .stg, 0, .any, 0⟩,
  ⟨7, 7, .uns 1, .rw, .stg, 0, rg [(0, 1)] [], 0⟩,
  ⟨8, 8, .real32, .rw, .stg, 1065353216, .any, 0⟩,
  ⟨9, 9, .real32, .rw, .stg, 0, .any, 0⟩,
  ⟨10, 10, .uns 4, .rw, .stg, 0, .any, 0⟩,
  ⟨11, 11, .uns 2, .rw, .stg, 10250, rg [(5000, 20000)] [], 0⟩,
  ⟨12, 12, .uns 1, .rw, .stg, 2, rg [(2, 64)] [], 0⟩,
  ⟨13, 13, .uns 1, .rw, .stg, 0, rg [(0, 2)] [], 0⟩,
  ⟨14, 14, .uns 2, .rw, .stg, 1000, rg [(50, 60000)] [], 0⟩,
  ⟨15, 15, .uns 2, .rw, .stg, 5000, rg [(100, 60000)] [], 0⟩,
  ⟨16, 16, .uns 2, .rw, .stg, 2000, rg [(100, 60000)] [], 0⟩,
  ⟨17, 17, .uns 1, .ro, .non, 0, .any, 0⟩,
  ⟨18, 18, .uns 1, .ro, .non, 255, .any, 0⟩,
  ⟨19, 19, .int 4, .ro, .non, 0, .any, 0⟩,
  ⟨20, 20, .int 4, .ro, .non, 0, .any, 0⟩,
  ⟨21, 21, .uns 4, .ro, .non, 0, .any, 0⟩,
  ⟨22, 22, .real32, .ro, .non, 0, .any, 0⟩,
  ⟨23, 23, .real32, .ro, .non, 0, .any, 0⟩,
  ⟨24, 24, .int 4, .ro, .non, 0, .any, 0⟩,
  ⟨25, 25, .uns 1, .ro, .non, 0, .any, 0⟩,
  ⟨26, 26, .uns 1, .wo, .imm, 0, rg [(1, 1)] [], 0⟩]

/-- Object 0x3111. -/
def obj3111 : List Obj := [
  ⟨1, 1, .uns 2, .rw, .imm, 0, rg [(0, 6143)] [], 0⟩,
  ⟨2, 2, .int 4, .rw, .stg, 0, .any, 0⟩,
  ⟨3, 3, .uns 4, .rw, .stg, 0, .any, 0⟩,
  ⟨4, 4, .int 4, .rw, .stg, 0, .any, 0⟩,
  ⟨5, 5, .int 4, .rw, .stg, 0, .any, 0⟩,
  ⟨6, 6, .int 4, .rw, .stg, 0, .any, 0⟩]

/-- Object 0x3112. -/
def obj3112 : List Obj := [
  ⟨1, 1, .uns 2, .rw, .imm, 0, rg [(0, 4703)] [], 0⟩,
  ⟨2, 2, .int 2, .rw, .stg, 0, .any, 0⟩]

/-- Object 0x3120. -/
def obj3120 : List Obj := [
  ⟨1, 1, .uns 1, .rw, .imm, 0, rg [(0, 31)] [], 0⟩,
  ⟨2, 2, .uns 2, .rw, .stg, 0, .any, 0⟩]

/-- Object 0x3800. -/
def obj3800 : List Obj := [
  ⟨1, 1, .uns 1, .rw, .stg, 1, rg [(0, 1)] [], 0⟩,
  ⟨2, 2, .uns 2, .rw, .stg, 64, rg [(4, 256)] [], 0⟩,
  ⟨3, 3, .uns 2, .rw, .stg, 1000, rg [(100, 60000)] [], 0⟩,
  ⟨4, 4, .uns 4, .rw, .stg, 4096, rg [(256, 131072)] [], 0⟩,
  ⟨5, 5, .uns 1, .rw, .stg, 0, rg [(0, 1)] [], 0⟩,
  ⟨6, 6, .uns 1, .rw, .stg, 50, rg [(10, 100)] [], 0⟩,
  ⟨7, 7, .uns 4, .rw, .stg, 60000, rg [(1000, 1000000)] [], 0⟩,
  ⟨8, 8, .uns 1, .rw, .stg, 20, rg [(1, 100)] [], 0⟩,
  ⟨9, 9, .uns 1, .wo, .imm, 0, rg [(74, 74)] [], 0⟩,
  ⟨10, 10, .uns 1, .wo, .imm, 0, rg [(1, 1)] [], 0⟩]

/-- Object 0x3801. -/
def obj3801 : List Obj := [
  ⟨1, 1, .uns 1, .ro, .non, 1, .any, 0⟩,
  ⟨2, 2, .uns 8, .ro, .non, 0, .any, 0⟩,
  ⟨3, 3, .uns 2, .ro, .non, 0, .any, 0⟩,
  ⟨4, 4, .uns 4, .ro, .non, 0, .any, 0⟩,
  ⟨5, 5, .uns 4, .ro, .non, 0, .any, 0⟩,
  ⟨6, 6, .uns 8, .ro, .non, 1, .any, 0⟩,
  ⟨7, 7, .uns 8, .ro, .non, 0, .any, 0⟩,
  ⟨8, 8, .uns 8, .ro, .non, 0, .any, 0⟩,
  ⟨9, 9, .uns 4, .ro, .non, 0, .any, 0⟩,
  ⟨10, 10, .uns 4, .ro, .non, 0, .any, 0⟩,
  ⟨11, 11, .uns 2, .ro, .non, 0, .any, 0⟩,
  ⟨12, 12, .uns 4, .ro, .non, 0, .any, 0⟩,
  ⟨13, 13, .uns 4, .ro, .non, 0, .any, 0⟩]

/-- Object 0x3810. -/
def obj3810 : List Obj := [
  ⟨1, 1, .uns 1, .rw, .imm, 2, rg [(0, 3)] [], 0⟩,
  ⟨2, 2, .uns 8, .rw, .imm, 0, .any, 0⟩,
  ⟨3, 3, .uns 8, .rw, .imm, 0, .any, 0⟩,
  ⟨4, 4, .uns 1, .wo, .imm, 0, rg [(1, 1)] [], 0⟩,
  ⟨5, 5, .uns 2, .rw, .imm, 1024, rg [(496, 4096)] [], 0⟩,
  ⟨6, 6, .domain, .ro, .non, 0, .any, 0⟩,
  ⟨7, 7, .uns 8, .ro, .non, 0, .any, 0⟩]

/-- Object 0x4000. -/
def obj4000 : List Obj := [
  ⟨1, 1, .uns 1, .rw, .stg, 1, rg [(0, 1)] [], 0⟩,
  ⟨2, 2, .uns 1, .rw, .stg, 1, rg [(0, 1)] [], 0⟩,
  ⟨3, 3, .uns 2, .rw, .stg, 10, rg [(1, 3600)] [], 0⟩,
  ⟨4, 4, .uns 2, .rw, .stg, 20, rg [(2, 1000)] [], 0⟩,
  ⟨5, 5, .uns 1, .rw, .stg, 2, rg [(1, 16)] [], 0⟩,
  ⟨6, 6, .uns 2, .rw, .stg, 100, rg [(10, 10000)] [], 0⟩,
  ⟨7, 7, .uns 1, .rw, .stg, 1, rg [(0, 1)] [], 0⟩,
  ⟨8, 8, .uns 2, .rw, .stg, 1000, rg [(100, 60000)] [], 0⟩,
  ⟨9, 9, .uns 1, .rw, .stg, 3, .any, 3⟩,
  ⟨10, 10, .uns 1, .wo, .imm, 0, rg [(1, 1)] [], 0⟩,
  ⟨16, 16, .uns 8, .rw, .stg, 0, .any, 281474976710655⟩,
  ⟨17, 17, .uns 8, .rw, .stg, 0, .any, 281474976710655⟩,
  ⟨18, 18, .uns 4, .rw, .stg, 0, .any, 0⟩,
  ⟨19, 19, .uns 4, .rw, .stg, 0, .any, 0⟩,
  ⟨20, 20, .uns 8, .rw, .stg, 0, .any, 0⟩,
  ⟨21, 21, .uns 8, .rw, .stg, 0, .any, 0⟩,
  ⟨22, 22, .uns 1, .rw, .stg, 255, rg [(0, 253)] [255], 0⟩,
  ⟨23, 23, .uns 1, .rw, .stg, 255, rg [(0, 253)] [255], 0⟩,
  ⟨24, 24, .uns 1, .rw, .stg, 0, rg [(1, 127)] [0], 0⟩]

/-- Object 0x4001. -/
def obj4001 : List Obj := [
  ⟨1, 1, .uns 1, .ro, .non, 1, .any, 0⟩,
  ⟨2, 2, .uns 1, .ro, .non, 0, .any, 0⟩,
  ⟨3, 3, .uns 1, .ro, .non, 0, .any, 0⟩,
  ⟨4, 4, .uns 1, .ro, .non, 255, .any, 0⟩,
  ⟨5, 5, .uns 1, .ro, .non, 0, .any, 0⟩,
  ⟨6, 6, .uns 1, .ro, .non, 1, .any, 0⟩,
  ⟨7, 7, .int 8, .ro, .non, 0, .any, 0⟩,
  ⟨8, 8, .uns 4, .ro, .non, 0, .any, 0⟩,
  ⟨9, 9, .uns 4, .ro, .non, 0, .any, 0⟩,
  ⟨10, 10, .uns 4, .ro, .non, 0, .any, 0⟩,
  ⟨11, 11, .uns 4, .ro, .non, 0, .any, 0⟩,
  ⟨12, 12, .uns 8, .ro, .non, 0, .any, 0⟩]

/-- Object 0x4002. -/
def obj4002 : List Obj := [
  ⟨1, 1, .uns 8, .ro, .non, 0, .any, 0⟩,
  ⟨2, 2, .uns 1, .ro, .non, 0, .any, 0⟩,
  ⟨3, 3, .uns 4, .ro, .non, 4294967295, .any, 0⟩,
  ⟨4, 4, .uns 1, .ro, .non, 255, .any, 0⟩,
  ⟨5, 5, .uns 1, .ro, .non, 0, .any, 0⟩,
  ⟨6, 6, .uns 4, .ro, .non, 0, .any, 0⟩,
  ⟨7, 7, .uns 4, .ro, .non, 0, .any, 0⟩]

/-- Object 0x4800. -/
def obj4800 : List Obj := [
  ⟨1, 1, .uns 1, .rw, .imm, 0, rg [(0, 23)] [], 0⟩,
  ⟨2, 2, .uns 8, .ro, .non, 0, .any, 0⟩,
  ⟨3, 3, .uns 8, .ro, .non, 0, .any, 0⟩,
  ⟨4, 4, .uns 8, .ro, .non, 0, .any, 0⟩,
  ⟨5, 5, .uns 8, .ro, .non, 0, .any, 0⟩,
  ⟨6, 6, .uns 8, .ro, .non, 0, .any, 0⟩,
  ⟨7, 7, .uns 8, .ro, .non, 0, .any, 0⟩,
  ⟨8, 8, .uns 8, .ro, .non, 0, .any, 0⟩,
  ⟨9, 9, .uns 8, .ro, .non, 0, .any, 0⟩,
  ⟨10, 10, .uns 8, .ro, .non, 0, .any, 0⟩,
  ⟨11, 11, .uns 8, .ro, .non, 0, .any, 0⟩,
  ⟨12, 12, .uns 8, .ro, .non, 0, .any, 0⟩,
  ⟨13, 13, .uns 8, .ro, .non, 0, .any, 0⟩,
  ⟨14, 14, .uns 8, .ro, .non, 0, .any, 0⟩,
  ⟨15, 15, .uns 8, .ro, .non, 0, .any, 0⟩,
  ⟨16, 16, .uns 8, .ro, .non, 0, .any, 0⟩,
  ⟨17, 17, .uns 8, .ro, .non, 0, .any, 0⟩,
  ⟨18, 18, .uns 8, .ro, .non, 0, .any, 0⟩,
  ⟨19, 19, .uns 8, .ro, .non, 0, .any, 0⟩]

/-- Object 0x4810. -/
def obj4810 : List Obj := [
  ⟨1, 1, .uns 1, .rw, .imm, 0, rg [(0, 23), (32, 33), (40, 42), (48, 63), (64, 64)] [], 0⟩,
  ⟨2, 2, .uns 8, .ro, .non, 0, .any, 0⟩,
  ⟨3, 3, .uns 8, .ro, .non, 0, .any, 0⟩,
  ⟨4, 4, .uns 8, .ro, .non, 0, .any, 0⟩,
  ⟨5, 5, .uns 8, .ro, .non, 0, .any, 0⟩,
  ⟨17, 36, .uns 8, .ro, .non, 0, .any, 0⟩]

/-- Object 0x4820. -/
def obj4820 : List Obj := [
  ⟨1, 1, .uns 1, .rw, .imm, 0, rg [(0, 63)] [], 0⟩,
  ⟨2, 2, .uns 8, .ro, .non, 0, .any, 0⟩,
  ⟨3, 3, .uns 8, .ro, .non, 0, .any, 0⟩,
  ⟨4, 4, .uns 8, .ro, .non, 0, .any, 0⟩,
  ⟨5, 5, .uns 8, .ro, .non, 0, .any, 0⟩,
  ⟨6, 9, .uns 8, .ro, .non, 0, .any, 0⟩,
  ⟨10, 10, .uns 8, .ro, .non, 0, .any, 0⟩]

/-- Object 0x4821. -/
def obj4821 : List Obj := [
  ⟨1, 1, .uns 8, .ro, .non, 0, .any, 0⟩,
  ⟨2, 2, .uns 8, .ro, .non, 0, .any, 0⟩,
  ⟨3, 3, .uns 8, .ro, .non, 0, .any, 0⟩]

/-- Object 0x4830. -/
def obj4830 : List Obj := [
  ⟨1, 1, .uns 1, .rw, .imm, 0, rg [(0, 1)] [], 0⟩,
  ⟨2, 19, .uns 8, .ro, .non, 0, .any, 0⟩]

/-- Object 0x4840. -/
def obj4840 : List Obj := [
  ⟨1, 1, .uns 1, .rw, .imm, 0, rg [(0, 2)] [], 0⟩,
  ⟨2, 2, .uns 8, .ro, .non, 0, .any, 0⟩,
  ⟨3, 3, .uns 8, .ro, .non, 0, .any, 0⟩,
  ⟨4, 4, .uns 8, .ro, .non, 0, .any, 0⟩,
  ⟨5, 5, .uns 8, .ro, .non, 0, .any, 0⟩,
  ⟨6, 6, .uns 8, .ro, .non, 0, .any, 0⟩,
  ⟨7, 7, .uns 8, .ro, .non, 0, .any, 0⟩,
  ⟨8, 8, .uns 8, .ro, .non, 0, .any, 0⟩,
  ⟨9, 9, .uns 8, .ro, .non, 0, .any, 0⟩]

/-- Object 0x4850. -/
def obj4850 : List Obj := [
  ⟨1, 1, .uns 2, .rw, .imm, 0, rg [(0, 511)] [], 0⟩,
  ⟨2, 2, .uns 8, .ro, .non, 0, .any, 0⟩,
  ⟨3, 3, .uns 8, .ro, .non, 0, .any, 0⟩,
  ⟨4, 4, .uns 8, .ro, .non, 0, .any, 0⟩,
  ⟨5, 5, .uns 8, .ro, .non, 0, .any, 0⟩,
  ⟨6, 6, .uns 8, .ro, .non, 0, .any, 0⟩,
  ⟨7, 7, .uns 8, .ro, .non, 0, .any, 0⟩,
  ⟨8, 8, .uns 8, .ro, .non, 0, .any, 0⟩]

/-- Object 0x4860. -/
def obj4860 : List Obj := [
  ⟨1, 1, .uns 8, .ro, .non, 0, .any, 0⟩,
  ⟨2, 2, .uns 8, .ro, .non, 0, .any, 0⟩,
  ⟨3, 3, .uns 8, .ro, .non, 0, .any, 0⟩,
  ⟨4, 4, .uns 8, .ro, .non, 0, .any, 0⟩,
  ⟨5, 5, .uns 8, .ro, .non, 0, .any, 0⟩,
  ⟨6, 6, .uns 8, .ro, .non, 0, .any, 0⟩,
  ⟨7, 7, .uns 8, .ro, .non, 0, .any, 0⟩]

/-- Object 0x4870. -/
def obj4870 : List Obj := [
  ⟨1, 1, .uns 1, .rw, .imm, 0, rg [(0, 2)] [], 0⟩,
  ⟨2, 2, .uns 8, .ro, .non, 0, .any, 0⟩,
  ⟨3, 3, .uns 8, .ro, .non, 0, .any, 0⟩,
  ⟨4, 4, .uns 8, .ro, .non, 0, .any, 0⟩,
  ⟨5, 5, .uns 8, .ro, .non, 0, .any, 0⟩,
  ⟨6, 6, .uns 8, .ro, .non, 0, .any, 0⟩,
  ⟨7, 7, .uns 8, .ro, .non, 0, .any, 0⟩]

/-- Object 0x4880. -/
def obj4880 : List Obj := [
  ⟨1, 1, .uns 8, .ro, .non, 0, .any, 0⟩,
  ⟨2, 2, .uns 8, .ro, .non, 0, .any, 0⟩,
  ⟨3, 3, .uns 8, .ro, .non, 0, .any, 0⟩,
  ⟨4, 4, .uns 8, .ro, .non, 0, .any, 0⟩,
  ⟨5, 5, .uns 8, .ro, .non, 0, .any, 0⟩,
  ⟨6, 6, .uns 8, .ro, .non, 0, .any, 0⟩,
  ⟨7, 7, .uns 8, .ro, .non, 0, .any, 0⟩,
  ⟨8, 8, .uns 8, .ro, .non, 0, .any, 0⟩,
  ⟨9, 9, .uns 8, .ro, .non, 0, .any, 0⟩,
  ⟨10, 10, .uns 8, .ro, .non, 0, .any, 0⟩]

/-- Object 0x5000. -/
def obj5000 : List Obj := [
  ⟨1, 1, .uns 1, .wo, .imm, 0, rg [(1, 5)] [], 0⟩,
  ⟨2, 2, .uns 1, .ro, .non, 0, .any, 0⟩,
  ⟨3, 3, .uns 1, .ro, .non, 255, .any, 0⟩,
  ⟨4, 4, .uns 8, .rw, .imm, 0, .any, 0⟩,
  ⟨5, 5, .uns 2, .rw, .imm, 10, rg [(2, 60000)] [], 0⟩,
  ⟨6, 6, .uns 2, .ro, .non, 0, .any, 0⟩,
  ⟨7, 7, .uns 4, .ro, .non, 0, .any, 0⟩,
  ⟨8, 8, .uns 1, .ro, .non, 0, .any, 0⟩,
  ⟨9, 9, .uns 4, .ro, .non, 0, .any, 0⟩,
  ⟨10, 10, .uns 8, .ro, .non, 0, .any, 0⟩,
  ⟨11, 11, .uns 1, .ro, .non, 255, .any, 0⟩,
  ⟨12, 12, .uns 8, .ro, .non, 0, .any, 0⟩]

/-- Object 0x5001. -/
def obj5001 : List Obj := [
  ⟨1, 1, .uns 1, .rw, .imm, 0, rg [(0, 63)] [], 0⟩,
  ⟨2, 2, .uns 2, .ro, .non, 0, .any, 0⟩,
  ⟨3, 3, .uns 1, .ro, .non, 0, .any, 0⟩,
  ⟨4, 4, .uns 2, .ro, .non, 65535, .any, 0⟩,
  ⟨5, 5, .uns 1, .ro, .non, 0, .any, 0⟩]

/-- Object 0x5040. -/
def obj5040 : List Obj := [
  ⟨1, 1, .uns 2, .rw, .stg, 30, rg [(5, 3600)] [], 0⟩,
  ⟨2, 2, .uns 4, .ro, .non, 0, .any, 0⟩,
  ⟨3, 3, .uns 1, .ro, .non, 0, .any, 0⟩]

/-- Object 0x5041. -/
def obj5041 : List Obj := [
  ⟨1, 1, .uns 1, .rw, .imm, 0, rg [(0, 3)] [], 0⟩,
  ⟨2, 2, .uns 1, .ro, .non, 255, .any, 0⟩,
  ⟨3, 3, .uns 1, .ro, .non, 255, .any, 0⟩,
  ⟨4, 4, .uns 4, .ro, .non, 0, .any, 0⟩,
  ⟨5, 5, .uns 2, .ro, .non, 0, .any, 0⟩,
  ⟨6, 6, .uns 4, .ro, .non, 0, .any, 0⟩,
  ⟨7, 7, .uns 1, .wo, .imm, 0, rg [(1, 1)] [], 0⟩]

/-- Object 0x5042. -/
def obj5042 : List Obj := [
  ⟨1, 1, .uns 1, .rw, .imm, 0, rg [(0, 3)] [], 0⟩,
  ⟨2, 2, .uns 1, .rw, .stg, 0, rg [(0, 2)] [], 0⟩,
  ⟨3, 3, .octets 32, .wo, .stg, 0, .any, 0⟩,
  ⟨4, 4, .uns 4, .ro, .non, 0, .any, 0⟩]

/-- Object 0x5800. -/
def obj5800 : List Obj := [
  ⟨1, 1, .uns 1, .ro, .non, 0, .any, 0⟩,
  ⟨2, 2, .uns 1, .ro, .non, 0, .any, 0⟩,
  ⟨3, 3, .uns 1, .ro, .non, 0, .any, 0⟩,
  ⟨4, 4, .uns 1, .wo, .imm, 0, rg [(1, 1)] [], 0⟩,
  ⟨5, 5, .uns 2, .rw, .stg, 60, rg [(10, 600)] [0], 0⟩,
  ⟨6, 6, .uns 2, .rw, .stg, 30, rg [(10, 600)] [0], 0⟩,
  ⟨7, 7, .uns 2, .rw, .stg, 65535, rg [(0, 511)] [65535], 0⟩]

/-- Object 0x5801. -/
def obj5801 : List Obj := [
  ⟨1, 1, .uns 1, .rw, .imm, 0, rg [(0, 63)] [], 0⟩,
  ⟨2, 2, .uns 2, .ro, .non, 0, .any, 0⟩,
  ⟨3, 3, .uns 2, .ro, .non, 0, .any, 0⟩,
  ⟨4, 4, .uns 1, .ro, .non, 0, .any, 0⟩,
  ⟨5, 5, .uns 1, .ro, .non, 0, .any, 0⟩,
  ⟨6, 6, .uns 1, .ro, .non, 0, .any, 0⟩,
  ⟨7, 7, .uns 1, .wo, .imm, 0, rg [(1, 1)] [], 0⟩,
  ⟨8, 8, .uns 8, .ro, .non, 0, .any, 0⟩,
  ⟨9, 9, .uns 4, .ro, .non, 0, .any, 0⟩,
  ⟨10, 10, .uns 4, .ro, .non, 0, .any, 0⟩]

/-- Object 0x5802. -/
def obj5802 : List Obj := [
  ⟨1, 1, .uns 1, .rw, .imm, 0, rg [(0, 2)] [], 0⟩,
  ⟨2, 2, .uns 4, .rw, .imm, 0, .any, 0⟩,
  ⟨3, 3, .uns 1, .wo, .imm, 0, rg [(1, 1)] [], 0⟩,
  ⟨4, 4, .domain, .ro, .non, 0, .any, 0⟩,
  ⟨5, 5, .uns 4, .ro, .non, 0, .any, 0⟩,
  ⟨6, 6, .uns 4, .ro, .non, 0, .any, 0⟩,
  ⟨7, 7, .uns 4, .ro, .non, 0, .any, 0⟩,
  ⟨8, 8, .uns 1, .wo, .imm, 0, rg [(74, 74)] [], 0⟩]

/-- Object 0x5803. -/
def obj5803 : List Obj := [
  ⟨1, 1, .uns 2, .rw, .stg, 1000, rg [(100, 60000)] [0], 0⟩,
  ⟨2, 2, .uns 2, .rw, .stg, 0, rg [(100, 60000)] [0], 0⟩,
  ⟨3, 3, .uns 1, .rw, .stg, 1, .any, 15⟩]

/-- Object 0x5810. -/
def obj5810 : List Obj := [
  ⟨1, 1, .uns 4, .ro, .non, 0, .any, 0⟩,
  ⟨2, 2, .uns 4, .ro, .non, 0, .any, 0⟩,
  ⟨3, 3, .uns 4, .ro, .non, 0, .any, 0⟩,
  ⟨4, 4, .uns 4, .ro, .non, 0, .any, 0⟩,
  ⟨5, 5, .uns 1, .ro, .non, 0, .any, 0⟩,
  ⟨6, 6, .uns 2, .rw, .stg, 60, rg [(1, 3600)] [], 0⟩]

/-- Object 0x5811. -/
def obj5811 : List Obj := [
  ⟨1, 1, .uns 1, .rw, .imm, 0, rg [(0, 63)] [], 0⟩,
  ⟨2, 2, .uns 4, .ro, .non, 0, .any, 0⟩,
  ⟨3, 3, .uns 4, .ro, .non, 0, .any, 0⟩]

/-- Object 0x5812. -/
def obj5812 : List Obj := [
  ⟨1, 1, .uns 4, .ro, .non, 0, .any, 0⟩,
  ⟨2, 2, .uns 1, .rw, .imm, 0, .any, 0⟩,
  ⟨3, 3, .uns 2, .ro, .non, 65535, .any, 0⟩,
  ⟨4, 4, .uns 2, .ro, .non, 65535, .any, 0⟩]

/-- Object 0x5818. -/
def obj5818 : List Obj := [
  ⟨1, 1, .uns 2, .rw, .imm, 0, rg [(0, 511)] [], 0⟩,
  ⟨2, 2, .uns 1, .ro, .non, 0, .any, 0⟩,
  ⟨3, 3, .uns 1, .ro, .non, 0, .any, 0⟩,
  ⟨4, 4, .uns 1, .ro, .non, 0, .any, 0⟩,
  ⟨5, 5, .uns 4, .ro, .non, 0, .any, 0⟩,
  ⟨6, 6, .uns 2, .ro, .non, 0, .any, 0⟩,
  ⟨7, 7, .uns 1, .rw, .imm, 0, .any, 0⟩,
  ⟨8, 8, .uns 2, .rw, .stg, 10, rg [(1, 1000)] [], 0⟩,
  ⟨9, 9, .uns 2, .ro, .non, 0, .any, 0⟩]

/-- Object 0x5820. -/
def obj5820 : List Obj := [
  ⟨1, 1, .uns 1, .ro, .non, 0, .any, 0⟩,
  ⟨2, 2, .uns 1, .wo, .imm, 0, rg [(2, 4)] [], 0⟩,
  ⟨3, 3, .uns 1, .rw, .stg, 0, rg [(0, 2)] [], 0⟩,
  ⟨4, 4, .uns 1, .ro, .non, 0, .any, 0⟩,
  ⟨5, 5, .uns 2, .ro, .non, 0, .any, 0⟩,
  ⟨6, 6, .uns 2, .rw, .stg, 200, rg [(50, 700)] [], 0⟩,
  ⟨7, 7, .uns 1, .rw, .stg, 80, rg [(50, 100)] [], 0⟩,
  ⟨8, 8, .uns 1, .ro, .non, 0, .any, 0⟩]

/-- Object 0x5821. -/
def obj5821 : List Obj := [
  ⟨1, 1, .uns 1, .rw, .imm, 0, rg [(0, 14)] [], 0⟩,
  ⟨2, 2, .uns 1, .ro, .non, 0, .any, 0⟩,
  ⟨3, 3, .uns 4, .ro, .non, 0, .any, 0⟩,
  ⟨4, 4, .uns 1, .wo, .imm, 0, rg [(1, 1)] [], 0⟩]

/-- Object 0x5828. -/
def obj5828 : List Obj := [
  ⟨1, 1, .int 2, .ro, .non, 0, .any, 0⟩,
  ⟨2, 2, .int 2, .ro, .non, 0, .any, 0⟩,
  ⟨3, 3, .uns 2, .ro, .non, 0, .any, 0⟩,
  ⟨4, 4, .uns 2, .ro, .non, 0, .any, 0⟩,
  ⟨5, 5, .uns 4, .ro, .non, 0, .any, 0⟩,
  ⟨6, 6, .int 2, .ro, .non, 0, .any, 0⟩,
  ⟨7, 7, .uns 4, .ro, .non, 0, .any, 0⟩]

/-- Object 0x5830. -/
def obj5830 : List Obj := [
  ⟨1, 1, .uns 4, .const, .non, 9460800, .any, 0⟩,
  ⟨2, 2, .uns 2, .ro, .non, 0, .any, 0⟩,
  ⟨3, 3, .uns 2, .ro, .non, 0, .any, 0⟩,
  ⟨4, 4, .uns 4, .ro, .non, 0, .any, 0⟩,
  ⟨5, 5, .uns 4, .ro, .non, 0, .any, 0⟩]

/-- Object 0x5838. -/
def obj5838 : List Obj := [
  ⟨1, 1, .uns 1, .rw, .stg, 1, .any, 15⟩,
  ⟨2, 2, .uns 1, .rw, .stg, 1, .any, 15⟩,
  ⟨3, 3, .uns 1, .rw, .stg, 0, .any, 15⟩,
  ⟨4, 4, .uns 4, .rw, .stg, 0, rg [(1, 2592000)] [0], 0⟩,
  ⟨5, 5, .uns 1, .ro, .non, 0, .any, 0⟩,
  ⟨6, 6, .uns 1, .ro, .non, 255, .any, 0⟩,
  ⟨7, 7, .uns 4, .ro, .non, 0, .any, 0⟩]

/-- Object 0x5F00. -/
def obj5F00 : List Obj := [
  ⟨1, 1, .uns 1, .ro, .non, 0, .any, 0⟩,
  ⟨2, 2, .uns 4, .ro, .non, 0, .any, 0⟩,
  ⟨3, 3, .uns 2, .ro, .non, 513, .any, 0⟩,
  ⟨4, 4, .text 6, .const, .non, 0, .any, 0⟩]

/-- Object 0x5F01. -/
def obj5F01 : List Obj := [
  ⟨1, 1, .uns 1, .ro, .non, 0, .any, 0⟩,
  ⟨2, 2, .uns 1, .rw, .stg, 0, rg [(0, 1)] [], 0⟩,
  ⟨3, 3, .uns 1, .wo, .imm, 0, rg [(1, 2)] [], 0⟩,
  ⟨4, 4, .uns 1, .ro, .non, 0, .any, 0⟩,
  ⟨5, 5, .uns 1, .ro, .non, 0, .any, 0⟩,
  ⟨6, 6, .uns 4, .ro, .non, 0, .any, 0⟩,
  ⟨7, 7, .uns 1, .ro, .non, 0, .any, 0⟩]

/-- Object 0x5F10. -/
def obj5F10 : List Obj := [
  ⟨1, 1, .uns 1, .rw, .imm, 0, rg [(0, 1)] [], 0⟩,
  ⟨2, 2, .uns 1, .ro, .non, 0, .any, 0⟩,
  ⟨3, 3, .uns 4, .ro, .non, 0, .any, 0⟩,
  ⟨4, 4, .uns 1, .ro, .non, 0, .any, 0⟩,
  ⟨5, 5, .uns 1, .ro, .non, 0, .any, 0⟩,
  ⟨6, 6, .uns 4, .ro, .non, 0, .any, 0⟩,
  ⟨7, 7, .uns 1, .ro, .non, 0, .any, 0⟩,
  ⟨8, 8, .uns 1, .ro, .non, 0, .any, 0⟩,
  ⟨9, 9, .uns 1, .ro, .non, 0, .any, 0⟩]

/-- Object 0x5F11. -/
def obj5F11 : List Obj := [
  ⟨1, 1, .uns 1, .wo, .imm, 0, rg [(1, 6)] [], 0⟩,
  ⟨2, 2, .uns 4, .rw, .imm, 0, rg [(0, 1048575)] [], 0⟩,
  ⟨3, 3, .domain, .wo, .imm, 0, .any, 0⟩,
  ⟨4, 4, .uns 1, .ro, .non, 0, .any, 0⟩,
  ⟨5, 5, .uns 1, .ro, .non, 255, .any, 0⟩,
  ⟨6, 6, .uns 4, .rw, .stg, 600, rg [(60, 86400)] [0], 0⟩]

/-- Object 0x5F20. -/
def obj5F20 : List Obj := [
  ⟨1, 1, .uns 1, .rw, .imm, 0, rg [(0, 2)] [], 0⟩,
  ⟨2, 2, .uns 1, .ro, .non, 0, .any, 0⟩,
  ⟨3, 3, .uns 4, .ro, .non, 0, .any, 0⟩,
  ⟨4, 4, .uns 4, .ro, .non, 0, .any, 0⟩,
  ⟨5, 5, .uns 4, .ro, .non, 0, .any, 0⟩,
  ⟨6, 6, .uns 8, .ro, .non, 0, .any, 0⟩]

/-- Object 0x5F21. -/
def obj5F21 : List Obj := [
  ⟨1, 1, .octets 32, .ro, .non, 0, .any, 0⟩,
  ⟨2, 2, .octets 32, .ro, .non, 0, .any, 0⟩,
  ⟨3, 3, .uns 1, .ro, .non, 0, .any, 0⟩,
  ⟨4, 4, .octets 32, .rw, .imm, 0, .any, 0⟩,
  ⟨5, 5, .uns 1, .wo, .imm, 0, rg [(74, 74)] [], 0⟩]

/-- Indices of Table 13.3, part 0. -/
def groups0 : List Group := [
  ⟨0x1000, 0x1000, none, obj1000⟩,
  ⟨0x1001, 0x1001, none, obj1001⟩,
  ⟨0x1005, 0x1005, none, obj1005⟩,
  ⟨0x1006, 0x1006, none, obj1006⟩,
  ⟨0x1014, 0x1014, none, obj1014⟩,
  ⟨0x1015, 0x1015, none, obj1015⟩,
  ⟨0x1017, 0x1017, none, obj1017⟩,
  ⟨0x1018, 0x1018, none, obj1018⟩,
  ⟨0x1200, 0x1200, none, obj1200⟩,
  ⟨0x1800, 0x180B, none, obj1800⟩,
  ⟨0x2000, 0x2003, none, obj2000⟩,
  ⟨0x2008, 0x2008, none, obj2008⟩,
  ⟨0x2009, 0x2009, none, obj2009⟩,
  ⟨0x200A, 0x200A, none, obj200A⟩,
  ⟨0x200B, 0x200B, none, obj200B⟩,
  ⟨0x2010, 0x2010, some 1024, obj2010⟩,
  ⟨0x2018, 0x2018, none, obj2018⟩,
  ⟨0x2019, 0x2019, none, obj2019⟩,
  ⟨0x2100, 0x2117, none, obj2100⟩,
  ⟨0x2140, 0x2140, some 128, obj2140⟩]

/-- Indices of Table 13.3, part 1. -/
def groups1 : List Group := [
  ⟨0x2180, 0x2180, none, obj2180⟩,
  ⟨0x2181, 0x2181, some 24, obj2181⟩,
  ⟨0x2190, 0x2190, none, obj2190⟩,
  ⟨0x2191, 0x2191, some 16, obj2191⟩,
  ⟨0x2200, 0x2201, none, obj2200⟩,
  ⟨0x2208, 0x2209, none, obj2208⟩,
  ⟨0x2210, 0x2211, some 16, obj2210⟩,
  ⟨0x2218, 0x2219, some 8, obj2218⟩,
  ⟨0x2220, 0x2221, none, obj2220⟩,
  ⟨0x2228, 0x2229, some 16, obj2228⟩,
  ⟨0x2230, 0x2230, none, obj2230⟩,
  ⟨0x2240, 0x2242, none, obj2240⟩,
  ⟨0x2244, 0x2245, none, obj2244⟩,
  ⟨0x2246, 0x2246, none, obj2246⟩,
  ⟨0x2260, 0x2260, none, obj2260⟩,
  ⟨0x2300, 0x2300, none, obj2300⟩,
  ⟨0x2310, 0x2310, some 512, obj2310⟩,
  ⟨0x2320, 0x2320, some 64, obj2320⟩,
  ⟨0x2330, 0x2330, some 64, obj2330⟩,
  ⟨0x2500, 0x2500, none, obj2500⟩]

/-- Indices of Table 13.3, part 2. -/
def groups2 : List Group := [
  ⟨0x2510, 0x2510, some 4096, obj2510⟩,
  ⟨0x2520, 0x2520, some 64, obj2520⟩,
  ⟨0x2530, 0x2530, some 256, obj2530⟩,
  ⟨0x3000, 0x3000, none, obj3000⟩,
  ⟨0x3010, 0x3010, some 16, obj3010⟩,
  ⟨0x3011, 0x3011, some 32, obj3011⟩,
  ⟨0x3100, 0x3100, none, obj3100⟩,
  ⟨0x3110, 0x3110, some 96, obj3110⟩,
  ⟨0x3111, 0x3111, some 6144, obj3111⟩,
  ⟨0x3112, 0x3112, some 4704, obj3112⟩,
  ⟨0x3120, 0x3120, some 32, obj3120⟩,
  ⟨0x3800, 0x3800, none, obj3800⟩,
  ⟨0x3801, 0x3801, none, obj3801⟩,
  ⟨0x3810, 0x3810, none, obj3810⟩,
  ⟨0x4000, 0x4000, none, obj4000⟩,
  ⟨0x4001, 0x4001, none, obj4001⟩,
  ⟨0x4002, 0x4002, none, obj4002⟩,
  ⟨0x4800, 0x4800, none, obj4800⟩,
  ⟨0x4810, 0x4810, none, obj4810⟩,
  ⟨0x4820, 0x4820, none, obj4820⟩]

/-- Indices of Table 13.3, part 3. -/
def groups3 : List Group := [
  ⟨0x4821, 0x4821, none, obj4821⟩,
  ⟨0x4830, 0x4830, none, obj4830⟩,
  ⟨0x4840, 0x4840, none, obj4840⟩,
  ⟨0x4850, 0x4850, none, obj4850⟩,
  ⟨0x4860, 0x4860, none, obj4860⟩,
  ⟨0x4870, 0x4870, none, obj4870⟩,
  ⟨0x4880, 0x4880, none, obj4880⟩,
  ⟨0x5000, 0x5000, none, obj5000⟩,
  ⟨0x5001, 0x5001, some 64, obj5001⟩,
  ⟨0x5040, 0x5040, none, obj5040⟩,
  ⟨0x5041, 0x5041, some 4, obj5041⟩,
  ⟨0x5042, 0x5042, some 4, obj5042⟩,
  ⟨0x5800, 0x5800, none, obj5800⟩,
  ⟨0x5801, 0x5801, some 64, obj5801⟩,
  ⟨0x5802, 0x5802, none, obj5802⟩,
  ⟨0x5803, 0x5803, none, obj5803⟩,
  ⟨0x5810, 0x5810, none, obj5810⟩,
  ⟨0x5811, 0x5811, some 64, obj5811⟩,
  ⟨0x5812, 0x5812, none, obj5812⟩,
  ⟨0x5818, 0x5818, some 512, obj5818⟩]

/-- Indices of Table 13.3, part 4. -/
def groups4 : List Group := [
  ⟨0x5820, 0x5820, none, obj5820⟩,
  ⟨0x5821, 0x5821, some 15, obj5821⟩,
  ⟨0x5828, 0x5828, none, obj5828⟩,
  ⟨0x5830, 0x5830, none, obj5830⟩,
  ⟨0x5838, 0x5838, none, obj5838⟩,
  ⟨0x5F00, 0x5F00, none, obj5F00⟩,
  ⟨0x5F01, 0x5F01, none, obj5F01⟩,
  ⟨0x5F10, 0x5F10, some 2, obj5F10⟩,
  ⟨0x5F11, 0x5F11, none, obj5F11⟩,
  ⟨0x5F20, 0x5F20, some 3, obj5F20⟩,
  ⟨0x5F21, 0x5F21, none, obj5F21⟩]

/-- Every index of the device (R290). -/
def objectGroups : List Group := groups0 ++ groups1 ++ groups2 ++ groups3 ++ groups4

/-- The group that holds an index. -/
def findGroup (index : Nat) : Option Group := objectGroups.find? (fun g => decide (g.first ≤ index) && decide (index ≤ g.last))

/-- The line of a group that holds a subindex. -/
def Group.line (g : Group) (sub : Nat) : Option Obj := g.objs.find? (fun o => decide (o.first ≤ sub) && decide (sub ≤ o.last))

/-- The highest subindex of a group (R264). -/
def Group.top (g : Group) : Nat := g.objs.foldl (fun m o => Nat.max m o.last) 0

/-- Subindex 00 of the group reads its highest subindex (R264): every index from 0x2000 on, and each index of
Table 9.5 with more than one subindex. -/
def Group.hasZero (g : Group) : Bool := decide (0 < g.top)

/-- The line of an index and subindex. -/
def findObj (index sub : Nat) : Option Obj := (findGroup index).bind (fun g => g.line sub)

end Sys2Proof.Machine
end

