-- ==== Sys2Proof/Machine/Real.lean ====
section
/-! DEFINITION. REAL32 and REAL64 values (R265) as rationals: rounding to the nearest value, ties to even (IEEE 754,
PRESUMED), the arithmetic of R115 and R167 rounded operation by operation, and the bit patterns of REAL32. -/

namespace Sys2Proof

/-- The nearest integer, halves away from zero (R62, R96, R97). -/
def roundAway (x : Rat) : Int := if 0 ≤ x then (x + 1 / 2).floor else -((-x + 1 / 2).floor)

/-- The nearest integer, halves to even. -/
def roundEven (x : Rat) : Int :=
  let f := x.floor
  let r := x - f
  if r < 1 / 2 then f else if 1 / 2 < r then f + 1 else if f % 2 = 0 then f else f + 1

/-- Two to an integer power. -/
def pow2 (e : Int) : Rat := if 0 ≤ e then ((2 : Rat) ^ e.toNat) else 1 / ((2 : Rat) ^ (-e).toNat)

/-- The exponent e with 2^e ≤ |x| < 2^(e+1), for x not zero. -/
def expOf (x : Rat) : Int :=
  let n := x.num.natAbs
  let d := x.den
  let e : Int := (Nat.log2 n : Int) - (Nat.log2 d : Int)
  if pow2 e ≤ (n : Rat) / (d : Rat) then e else e - 1

/-- x rounded to a binary floating-point format of `p` significand bits whose smallest quantum is 2^`qmin`. -/
def roundFloat (p : Nat) (qmin : Int) (x : Rat) : Rat :=
  if x = 0 then 0 else
    let q := max (expOf x - ((p : Int) - 1)) qmin
    (roundEven (x / pow2 q) : Rat) * pow2 q

/-- Rounding to REAL64. -/
def r64 (x : Rat) : Rat := roundFloat 53 (-1074) x

/-- Rounding to REAL32. -/
def r32 (x : Rat) : Rat := roundFloat 24 (-149) x

/-- REAL64 addition. -/
def fadd (a b : Rat) : Rat := r64 (a + b)
/-- REAL64 subtraction. -/
def fsub (a b : Rat) : Rat := r64 (a - b)
/-- REAL64 multiplication. -/
def fmul (a b : Rat) : Rat := r64 (a * b)
/-- REAL64 division (by a value that is not zero). -/
def fdiv (a b : Rat) : Rat := r64 (a / b)

/-- A value limited to lo .. hi. -/
def clampRat (lo hi v : Rat) : Rat := if v < lo then lo else if hi < v then hi else v

/-- The value of a finite REAL32 bit pattern. -/
def ofBits32 (b : Nat) : Rat :=
  let sign : Rat := if b / 2 ^ 31 % 2 = 1 then -1 else 1
  let e : Nat := b / 2 ^ 23 % 256
  let m : Nat := b % 2 ^ 23
  if e = 0 then sign * (m : Rat) * pow2 (-149) else sign * ((2 ^ 23 + m : Nat) : Rat) * pow2 ((e : Int) - 150)

/-- The REAL32 bit pattern nearest a value; a magnitude beyond the format gives the largest finite one. -/
def toBits32 (x : Rat) : Nat :=
  let y := r32 x
  if y = 0 then 0 else
    let s : Nat := if y < 0 then 2 ^ 31 else 0
    let a := if y < 0 then -y else y
    let e := expOf a
    if 127 < e then s + 0x7F7FFFFF
    else if e < -126 then s + (a / pow2 (-149)).floor.toNat
    else s + (e + 127).toNat * 2 ^ 23 + ((a / pow2 (e - 23)).floor.toNat - 2 ^ 23)

/-- A REAL32 bit pattern is finite: no infinity and no NaN (R265). -/
def finite32 (b : Nat) : Bool := decide (b / 2 ^ 23 % 256 ≠ 255)

end Sys2Proof
end

