-- ==== Sys2Proof/Machine/Operands.lean ====
section
/-! DEFINITION. Dictionary values as operands: their encodings and ranges (R265, R266), the default of every object
(R59, R100, R179, R206 and the object tables), and the look-up of a value in a configuration. -/

namespace Sys2Proof.Machine

open Sys2Proof

/-! ### Keys and configurations -/

/-- Order of keys: index, subindex, row (R280, R337). -/
def Key.lt (a b : Key) : Bool :=
  decide (a.index < b.index) ||
    (decide (a.index = b.index) && (decide (a.sub < b.sub) || (decide (a.sub = b.sub) && decide (a.row < b.row))))

/-- The value listed at a key. -/
def Cfg.find (k : Key) : Cfg → Option Val
  | [] => none
  | (j, v) :: t => if j = k then some v else if k.lt j then none else Cfg.find k t

/-- List a value at a key, in order. -/
def Cfg.put (k : Key) (v : Val) : Cfg → Cfg
  | [] => [(k, v)]
  | (j, w) :: t => if j = k then (k, v) :: t else if k.lt j then (k, v) :: (j, w) :: t else (j, w) :: Cfg.put k v t

/-- Remove a key. -/
def Cfg.del (k : Key) : Cfg → Cfg
  | [] => []
  | (j, w) :: t => if j = k then t else if k.lt j then (j, w) :: t else (j, w) :: Cfg.del k t

/-- A configuration's keys are strictly rising: its canonical form. -/
def Cfg.wf : Cfg → Bool
  | [] => true
  | [_] => true
  | (j, _) :: (k, w) :: t => j.lt k && Cfg.wf ((k, w) :: t)

/-- Insert a number into a rising list without repeats. -/
def insertNat (n : Nat) : List Nat → List Nat
  | [] => [n]
  | m :: t => if n = m then m :: t else if n < m then n :: m :: t else m :: insertNat n t

/-- The rows of a window that a configuration lists, rising. -/
def Cfg.rows (index : Nat) (c : Cfg) : List Nat :=
  c.foldl (fun l e => if e.1.index = index then insertNat e.1.row l else l) []

/-! ### Identity of the unit that defaults depend on -/

/-- What of the unit its defaults depend on: the serial number and the level of UNIT_SEL. -/
structure UnitId where
  serial : Nat
  sel : Bool
  deriving DecidableEq, Repr

/-- The default NAME of port C0 or C1 (R206). -/
def defaultName (u : UnitId) (port : Nat) : Nat :=
  2 ^ 63 + 4 * 2 ^ 60 + 25 * 2 ^ 49 + 130 * 2 ^ 40 + port * 2 ^ 35 + (if u.sel then 2 ^ 32 else 0) +
    0x5B2 * 2 ^ 21 + u.serial % 2 ^ 21

/-- The default MAC address of port E0 or E1 (R179). -/
def defaultMac (u : UnitId) (port : Nat) : Nat := 0x024A4F000000 + (2 * u.serial + port) % 2 ^ 24

/-- The default node ID on C2 (9). -/
def defaultNode (u : UnitId) : Nat := if u.sel then 17 else 16

/-- Source-table defaults that differ from row to row (Table 3.5, R59). -/
def defaultSource (sub row : Nat) : Option Int :=
  match sub with
  | 2 => some (if row ≤ 43 then 1 else 0)
  | 3 => some (if row ≤ 23 then row else if row ≤ 25 then 0x20 + (row - 24) else if row ≤ 27 then 0x28 + (row - 26)
      else if row ≤ 43 then 0x30 + (row - 28) else 0xFF)
  | 4 => some (if 28 ≤ row ∧ row ≤ 43 then 4 else 0)
  | 7 => some (if row ≤ 25 then 1 else 0)
  | _ => none

/-- Rule defaults (Table 4.10). -/
def defaultRule (sub row : Nat) : Option Int :=
  match sub with
  | 2 => some (if row ≤ 27 then 1 else 0)
  | 3 => some (if row ≤ 23 then row else if row ≤ 26 then 0x0240 else 0xFFFF)
  | 4 => some (if 24 ≤ row ∧ row ≤ 26 then 0x0010 + (row - 24) else 0xFFFF)
  | 0x0B => some (if row ≤ 23 then 2 ^ row else if row ≤ 26 then 0xFFFFFF else if row = 27 then 2 ^ 62 else 0)
  | 0x0C => some (if 24 ≤ row ∧ row ≤ 26 then 0 else if row = 27 then 3 else 0xFF)
  | _ => none

/-- Listener defaults (R100). -/
def defaultListener (sub row : Nat) : Option Int :=
  match sub with
  | 2 => some (if row ≤ 23 ∨ row = 62 ∨ row = 63 then 1 else 0)
  | 3 => some (if row ≤ 23 then row else if row = 62 then 0x50 else if row = 63 then 0x51 else 0xFF)
  | _ => none

/-- Numeric defaults that differ from unit to unit or from row to row. -/
def defaultSpecial (u : UnitId) (index sub row : Nat) : Option Int :=
  if index = 0x2310 then defaultSource sub row
  else if index = 0x2510 then defaultRule sub row
  else if index = 0x2520 then defaultListener sub row
  else if index = 0x2200 ∧ sub = 5 then some (defaultMac u 0)
  else if index = 0x2201 ∧ sub = 5 then some (defaultMac u 1)
  else if index = 0x2201 ∧ sub = 3 then some 2
  else if index = 0x2200 ∧ sub = 3 then some 1
  else if index = 0x2242 ∧ sub = 2 then some 500
  else if (index = 0x2240 ∨ index = 0x2241) ∧ sub = 2 then some 250
  else if (index = 0x2244 ∨ index = 0x2245) ∧ sub = 1 then some (defaultName u (index - 0x2244))
  else if index = 0x2246 ∧ sub = 1 then some 0x1F805
  else if index = 0x2246 ∧ 1 < sub then some 0
  else if index = 0x2260 ∧ sub = 1 then some (defaultNode u)
  else if index = 0x1014 then some (0x80 + defaultNode u)
  else if 0x1800 ≤ index ∧ index ≤ 0x1803 ∧ sub = 1 then some (0x180 + 0x100 * (index - 0x1800) + defaultNode u)
  else if 0x1804 ≤ index ∧ index ≤ 0x180B ∧ sub = 1 then some 0x80000000
  else none

/-- Text and byte defaults. -/
def defaultBytes (index sub : Nat) : List Byte :=
  if index = 0x2310 ∧ sub = 0x0C then ascii "II"
  else if index = 0x2500 ∧ sub = 1 then ascii "II0001"
  else if index = 0x5F00 ∧ sub = 4 then ascii "LN2430"
  else []

/-- The default of an object's value. -/
def objDefault (u : UnitId) (k : Key) : Val :=
  match findObj k.index k.sub with
  | none => .num 0
  | some o =>
    match o.ty with
    | .text _ => .bytes (defaultBytes k.index k.sub)
    | .octets n => .bytes (List.replicate n 0)
    | .domain => .bytes []
    | _ => .num ((defaultSpecial u k.index k.sub k.row).getD o.dflt)

/-! ### Values -/

/-- A value as a number. -/
def Val.int : Val → Int
  | .num v => v
  | .bytes b => (leNat b : Int)

/-- A value as bytes. -/
def Val.text : Val → List Byte
  | .num _ => []
  | .bytes b => b

/-- The value at a key of a configuration: listed, or the default. -/
def Cfg.val (u : UnitId) (c : Cfg) (index sub row : Nat) : Val :=
  (Cfg.find ⟨index, sub, row⟩ c).getD (objDefault u ⟨index, sub, row⟩)

/-- The same as an integer. -/
def Cfg.int (u : UnitId) (c : Cfg) (index sub row : Nat) : Int := (Cfg.val u c index sub row).int

/-- The same as a natural number. -/
def Cfg.nat (u : UnitId) (c : Cfg) (index sub row : Nat) : Nat := (Cfg.int u c index sub row).toNat

/-- The same as text. -/
def Cfg.text (u : UnitId) (c : Cfg) (index sub row : Nat) : List Byte := (Cfg.val u c index sub row).text

/-- The same as a REAL32. -/
def Cfg.real (u : UnitId) (c : Cfg) (index sub row : Nat) : Rat := ofBits32 (Cfg.nat u c index sub row)

/-- Set a value, listing it only where it differs from its default (the canonical form of a configuration, R337). -/
def Cfg.set (u : UnitId) (k : Key) (v : Val) (c : Cfg) : Cfg :=
  if v = objDefault u k then Cfg.del k c else Cfg.put k v c

/-! ### Encodings (R265) -/

/-- The length in bytes of a type with a fixed length. -/
def Ty.size : Ty → Option Nat
  | .uns n => some n
  | .int n => some n
  | .real32 => some 4
  | .octets n => some n
  | .text _ => none
  | .domain => none

/-- The bytes of a value (least significant first, R4). -/
def Ty.encode (t : Ty) (v : Val) : List Byte :=
  match t with
  | .uns n => leBytes n v.int.toNat
  | .int n => leBytes n (ofSigned (8 * n) v.int)
  | .real32 => leBytes 4 v.int.toNat
  | .text _ => v.text
  | .octets _ => v.text
  | .domain => v.text

/-- The value of bytes of a type. -/
def Ty.decode (t : Ty) (b : List Byte) : Val :=
  match t with
  | .uns _ => .num (leNat b)
  | .int n => .num (toSigned (8 * n) (leNat b))
  | .real32 => .num (leNat b)
  | .text _ => .bytes b
  | .octets _ => .bytes b
  | .domain => .bytes b

/-! ### Abort codes (Table 12.12) -/

/-- SDO toggle bit not alternated. -/
abbrev abToggle : Nat := 0x05030000
/-- SDO segment timeout. -/
abbrev abTimeout : Nat := 0x05040000
/-- SDO command not supported. -/
abbrev abCommand : Nat := 0x05040001
/-- Read of a WO object. -/
abbrev abWriteOnly : Nat := 0x06010001
/-- Write of an RO or CONST object. -/
abbrev abReadOnly : Nat := 0x06010002
/-- Object does not exist. -/
abbrev abNoObject : Nat := 0x06020000
/-- Length does not match the type. -/
abbrev abLength : Nat := 0x06070010
/-- Value longer than the object or path allows. -/
abbrev abTooLong : Nat := 0x06070012
/-- Subindex does not exist. -/
abbrev abNoSub : Nat := 0x06090011
/-- Value outside its range. -/
abbrev abRange : Nat := 0x06090030
/-- Value too high. -/
abbrev abHigh : Nat := 0x06090031
/-- Value too low. -/
abbrev abLow : Nat := 0x06090032
/-- General error; an alert names the cause. -/
abbrev abGeneral : Nat := 0x08000000
/-- The present state does not allow the access. -/
abbrev abState : Nat := 0x08000022
/-- STG write with no blocking cycle open. -/
abbrev abNoCycle : Nat := 0x0A000001
/-- Blocking cycle owned by another client, or not yet idle. -/
abbrev abOwned : Nat := 0x0A000002
/-- Set point less than 2 ms ahead. -/
abbrev abSoon : Nat := 0x0A000003
/-- Set requested before a passed check, or refused by the recheck. -/
abbrev abUnchecked : Nat := 0x0A000004
/-- Set committed; abandon refused. -/
abbrev abCommitted : Nat := 0x0A000005
/-- Your blocking cycle was abandoned. -/
abbrev abAbandoned : Nat := 0x0A000006
/-- LAP start count does not match. -/
abbrev abStart : Nat := 0x0A000007
/-- LAP counter not greater. -/
abbrev abCounter : Nat := 0x0A000008
/-- Four clients already admitted. -/
abbrev abClients : Nat := 0x0A000009
/-- SPI request failed its CRC or length check. -/
abbrev abSpi : Nat := 0x0A00000A
/-- Not allowed on the standby unit. -/
abbrev abStandby : Nat := 0x0A00000B
/-- Write through a read-only LAP key. -/
abbrev abLapRead : Nat := 0x0A00000C

/-! ### Ranges (R266) -/

/-- Above every interval, below every interval, or between them. -/
def spanRefusal (spans : List (Int × Int)) (v : Int) : Nat :=
  if spans.all (fun p => decide (p.2 < v)) then abHigh
  else if spans.all (fun p => decide (v < p.1)) then abLow
  else abRange

/-- A two-character talker: upper-case letters or digits are judged by the check stage (R78). -/
def upper (b : Byte) : Bool := decide (0x41 ≤ b.toNat ∧ b.toNat ≤ 0x5A)

/-- A decimal digit. -/
def digit (b : Byte) : Bool := decide (0x30 ≤ b.toNat ∧ b.toNat ≤ 0x39)

/-- The form of the device SFI: two upper-case letters and four digits (Table 4.11). -/
def sfiForm (t : List Byte) : Bool := decide (t.length = 6) && (t.take 2).all upper && (t.drop 2).all digit

/-- The `n` fields of `w` bits of a number, lowest first. -/
def fields (w : Nat) : Nat → Nat → List Nat
  | 0, _ => []
  | n + 1, v => v % 2 ^ w :: fields w n (v / 2 ^ w)

/-- The refusal of a value by the range of its object, or none. -/
def Rng.refuses (r : Rng) (v : Val) : Option Nat :=
  match r with
  | .any => none
  | .among spans codes =>
    if codes.contains v.int || spans.any (fun p => decide (p.1 ≤ v.int) && decide (v.int ≤ p.2)) then none
    else some (spanRefusal spans v.int)
  | .oneOf values =>
    if values.contains v.int then none else some (spanRefusal (values.map (fun x => (x, x))) v.int)
  | .real lo hi =>
    let x := ofBits32 v.int.toNat
    if x < lo then some abLow
    else match hi with
      | none => none
      | some h => if h < x then some abHigh else none
  | .length lo hi => if lo ≤ v.text.length ∧ v.text.length ≤ hi then none else some abRange
  | .sources => if (fields 8 4 v.int.toNat).all (fun e => decide (e ≤ 3)) then none else some abRange
  | .rows => if (fields 16 4 v.int.toNat).all (fun e => decide (e ≤ 511) || decide (e = 0xFFFF)) then none else some abRange
  | .tanks => if (fields 8 2 v.int.toNat).all (fun e => decide (e ≤ 95) || decide (e = 0xFF)) then none else some abRange
  | .sfi => if sfiForm v.text then none else some abRange
  | .talker => if v.text.length = 0 ∨ v.text.length = 2 then none else some abRange
  | .rawField => if v.int.toNat % 4 = 3 then some abRange else none

/-- Judge the bytes written to an object against its type and range (R265, R266): the value to store, its reserved
bits cleared (R3), or the abort code. -/
def Obj.judge (o : Obj) (b : List Byte) : Except Nat Val :=
  match o.ty.size with
  | some n =>
    if b.length ≠ n then .error abLength
    else if o.ty = .real32 ∧ finite32 (leNat b) = false then .error abRange
    else
      let v := o.ty.decode b
      let v := if o.mask = 0 then v else .num ((v.int.toNat &&& o.mask : Nat) : Int)
      match o.rng.refuses v with
      | some c => .error c
      | none => .ok v
  | none =>
    match o.ty with
    | .text m =>
      if m < b.length then .error abTooLong
      else if b.all (fun x => decide (0x20 ≤ x.toNat ∧ x.toNat ≤ 0x7E)) then
        match o.rng.refuses (.bytes b) with
        | some c => .error c
        | none => .ok (.bytes b)
      else .error abRange
    | _ => .ok (.bytes b)

end Sys2Proof.Machine
end

