-- ==== Sys2Proof/Machine/Ops.lean ====
section
/-! DEFINITION. The named operations that the meanings share: the passage of time (R24, R34), the pip (R42), domains
(R21), configuration values with the set-point rule (R20), statistics (R291), and events and alerts (R292 to R294). -/

namespace Sys2Proof.Machine

open Sys2Proof

/-! ### Time and wheels -/

/-- The move of a wheel over `n` cycles at its present increment, short of the next expected edge (R34). -/
def Wheel.move (n : Nat) (w : Wheel) : Wheel :=
  let d := w.inc.natAbs * n
  let m := match w.room with
    | none => d
    | some r => Nat.min d r
  { w with
    pos := if w.inc < 0 then w.pos - BitVec.ofNat 96 m else w.pos + BitVec.ofNat 96 m
    room := w.room.map (fun r => r - d) }

/-- `n` cycles of a wheel, with the change of rate it has before it (R37). -/
def Wheel.advance (n : Nat) (w : Wheel) : Wheel :=
  if w.turnIn = 0 then w.move n
  else if n < w.turnIn then { w.move n with turnIn := w.turnIn - n }
  else ({ w.move w.turnIn with turnIn := 0, inc := w.incAfter }).move (n - w.turnIn)

/-- The visible position of a wheel (R24). -/
def Wheel.visible (w : Wheel) : WheelPos := (w.pos >>> 32).setWidth 64

/-- Where a wheel stood `n` cycles ago. -/
def Wheel.ago (n : Nat) (w : Wheel) : WheelPos := ((w.pos - BitVec.ofInt 96 (w.inc * n)) >>> 32).setWidth 64

/-- The accumulator that stands at a visible position exactly. -/
def accOf (p : WheelPos) : WheelAcc := p.setWidth 96 <<< 32

/-- Put a wheel at a visible position exactly. -/
def Wheel.place (p : WheelPos) (w : Wheel) : Wheel := { w with pos := accOf p }

/-- The wheel of a number (Table 2.1). -/
def Wheels.get (ws : Wheels) (n : Nat) : Wheel :=
  match n with
  | 0 => ws.time
  | 1 => ws.shaft
  | 2 => ws.mains
  | _ => ws.sea

/-- Change the wheel of a number. -/
def Wheels.mod (n : Nat) (f : Wheel → Wheel) (ws : Wheels) : Wheels :=
  match n with
  | 0 => { ws with time := f ws.time }
  | 1 => { ws with shaft := f ws.shaft }
  | 2 => { ws with mains := f ws.mains }
  | _ => { ws with sea := f ws.sea }

/-- `n` fabric cycles of all four wheels. -/
def Wheels.advance (n : Nat) (ws : Wheels) : Wheels :=
  { ws with time := ws.time.advance n, shaft := ws.shaft.advance n, mains := ws.mains.advance n,
            sea := ws.sea.advance n }

/-! ### Domains -/

/-- The state of a power and reset domain (Table 16.9). -/
def State.dom (s : State) (d : Nat) : Nat := (Tbl.get {} d s.power.doms).state

/-- The domain runs. -/
def State.up (s : State) (d : Nat) : Bool := s.dom d == 3

/-- The passage of `dt` cycles of 2.5 ns: true time always, the fabric count and the wheels while FABRIC runs. -/
def State.elapse (dt : Nat) (s : State) : State :=
  if s.up domFabric then { s with now := s.now + dt, fc := s.fc + dt, wheels := s.wheels.advance dt }
  else { s with now := s.now + dt }

/-- The fabric cycle count (R42). -/
def State.count (s : State) : BitVec 64 := BitVec.ofNat 64 (s.fc - s.fabricZero)

/-- The time-wheel position. -/
def State.time (s : State) : WheelPos := s.wheels.time.visible

/-- The pip of this cycle (R42). -/
def State.pip (s : State) : Pip :=
  { time := s.wheels.time.visible, shaft := s.wheels.shaft.visible, mains := s.wheels.mains.visible,
    sea := s.wheels.sea.visible, cycle := s.count }

/-- The wheel states as byte 48 of a fibre record holds them (Table 3.6). -/
def State.wheelByte (s : State) : Nat :=
  64 * s.wheels.sea.state.code + 16 * s.wheels.mains.state.code + 4 * s.wheels.shaft.state.code +
    s.wheels.time.state.code

/-- Seconds of a span of fabric cycles. -/
def secs (n : Nat) : Rat := (n : Rat) / cyclesPerSec

/-- Fabric cycles of a number of milliseconds. -/
def msCycles (n : Nat) : Nat := n * cyclesPerMs

/-- A time-wheel span of nanoseconds in units of 2^-32 s, rounded down. -/
def nsPos (n : Nat) : Nat := n * 2 ^ 32 / 1000000000

/-- A rate in 2^-64 revolution per cycle, rounded up or down to a whole increment: the manual states no rounding. -/
def roundInc (x : Rat) : Int := if Config.roundsUp x then x.ceil else x.floor

/-- A reported value rounded up or down to a whole number of its units: the manual states no rounding. -/
def roundReport (x : Rat) : Int := if Config.reportsUp x then x.ceil else x.floor

/-- The increment of a wheel that makes `r` revolutions per second. -/
def incOf (r : Rat) : Int := roundInc (r * (2 ^ 64 : Nat) / cyclesPerSec)

/-! ### Configuration -/

/-- What of the unit its defaults depend on. -/
def State.uid (s : State) : UnitId := ⟨s.boot.serial, s.twin.unitSel⟩

/-- The configuration in force at a position: the newest one that no earlier set point had ended by then. -/
def cfgBefore (c : Cfg) (p : WheelPos) : List (Cfg × WheelPos) → Cfg
  | [] => c
  | (o, sp) :: t => if posAtOrAfter p sp then c else cfgBefore o p t

/-- The configuration under which a record with this pip is processed (R20). -/
def State.cfgAt (s : State) (p : WheelPos) : Cfg := cfgBefore s.cfg p s.cycle.old

/-- A value in force as an integer. -/
def State.ci (s : State) (index sub row : Nat) : Int := Cfg.int s.uid s.cfg index sub row
/-- A value in force as a natural number. -/
def State.cn (s : State) (index sub row : Nat) : Nat := Cfg.nat s.uid s.cfg index sub row
/-- A value in force as text. -/
def State.ct (s : State) (index sub row : Nat) : List Byte := Cfg.text s.uid s.cfg index sub row
/-- A REAL32 in force. -/
def State.cr (s : State) (index sub row : Nat) : Rat := Cfg.real s.uid s.cfg index sub row

/-- The rows of a window that are not plain defaults: those the configuration lists and the first `n` factory rows. -/
def Cfg.live (c : Cfg) (index n : Nat) : List Nat := (List.range n).foldl (fun l r => insertNat r l) (Cfg.rows index c)

/-! ### Free values -/

/-- A fresh value the manual leaves open. -/
def State.freeNat (s : State) : Nat := Config.freeBits s.free

/-- Use up one free value. -/
def State.useFree (s : State) : State := { s with free := s.free + 1 }

/-- Use up one free value where `b` says so. -/
def State.spend (b : Bool) (s : State) : State := if b then s.useFree else s

/-! ### Statistics (R291) -/

/-- The key of a statistic: object, select and subindex. -/
def statKey (index sel sub : Nat) : Nat := index * 2 ^ 24 + sel * 2 ^ 8 + sub

/-- The value of a statistic. -/
def State.statOf (s : State) (index sel sub : Nat) : Nat := Tbl.get 0 (statKey index sel sub) s.stats

/-- Add to a statistic; it saturates and does not wrap (R291). -/
def State.stat (index sel sub n : Nat) (s : State) : State :=
  { s with stats := Tbl.put (statKey index sel sub) (Nat.min (s.statOf index sel sub + n) (2 ^ 64 - 1)) s.stats }

/-! ### Events and alerts (R292 to R294) -/

/-- Events that SUP has to write. Kinds: 0 event, 1 alert raised, 2 alert state change that already stands in the
table, 3 end of an alert's condition. While SUP is in reset each block, told by the area of the code, holds up to 16
events and counts the rest (R293). -/
def State.raiseKind (kind astate code a b : Nat) (s : State) : State :=
  let e : Event := { code := code, a := a, b := b, kind := kind, astate := astate, at_ := s.time,
                     wstate := s.wheels.time.state.code, fc := s.fc, start := s.dict.startCount }
  if s.up domSup = false && decide (16 ≤ (s.health.waiting.filter (fun x => x.code / 0x1000 == code / 0x1000)).length)
  then { s with health := { s.health with dropped := s.health.dropped + 1 } }
  else { s with health := { s.health with waiting := s.health.waiting ++ [e] } }

/-- Raise an event, or an alert where Table 13.6 marks the code as one. -/
def State.event (code a b : Nat) (s : State) : State :=
  match evKind code with
  | .event => s.raiseKind 0 0 code a b
  | _ => s.raiseKind 1 1 code a b

/-- The condition of an alert ends (R294). -/
def State.endAlert (code a : Nat) (s : State) : State := s.raiseKind 3 0 code a 0

/-- The alert of this code and instance stands, or is on its way to the table (R294). -/
def State.alertOn (s : State) (code a : Nat) : Bool :=
  match (s.health.waiting.reverse.find? (fun e => e.code == code && e.a % 0x10000 == a % 0x10000 && (e.kind == 1 || e.kind == 3))) with
  | some e => e.kind == 1
  | none => s.health.alerts.any (fun x => x.2.code == code && x.2.instance_ == a % 0x10000 + 1 && (x.2.state == 1 || x.2.state == 2))

/-- Signed values as 32-bit arguments, saturating at plus and minus (2^31 − 1) (Table 13.6). -/
def sat31 (v : Int) : Nat := ofSigned 32 (clampInt (-(2 ^ 31 - 1)) (2 ^ 31 - 1) v)

/-- Unsigned values as 32-bit arguments, saturating. -/
def satU32 (v : Int) : Nat := (clampInt 0 (2 ^ 32 - 1) v).toNat

/-- Two values in one argument, the first in [31:16]. -/
def pack16 (a b : Nat) : Nat := (a % 0x10000) * 0x10000 + b % 0x10000

/-- A block runs with its domain; what SUP does, with its firmware (R341). -/
def State.works (d : Nat) (s : State) : Bool := s.up d && (d != domSup || s.boot.supRunning)

/-- A state for a command of a block that runs only with its domain. -/
def State.whenUp (d : Nat) (f : State → State) (s : State) : State := if s.works d then f s else s

end Sys2Proof.Machine
end

