-- ==== Sys2Proof/Machine/Appointments.lean ====
section
/-! DEFINITION. The appointment table and the dispatch line (R31, R39, R40): the grid of a row, arming and re-phasing,
the line of four dispatches a cycle, what a step or forward jump of a wheel does to it, and APPOINTMENT_DUE. -/

namespace Sys2Proof.Machine

open Sys2Proof

/-- The fields of an appointment row as they stand: from the configuration, or as the LN2430 keeps them (Table 2.8). -/
structure RowCfg where
  wheel : Nat
  kind : Nat
  phase : WheelPos
  period : Nat
  divisor : Nat
  consumer : Nat
  direction : Nat
  deriving DecidableEq, Repr

/-- The period of the journal flush in units of 2^-32 s, to the nearest (R249). -/
def flushPeriod (ms : Nat) : Nat := (roundAway ((ms : Rat) * 2 ^ 32 / 1000)).toNat

/-- An appointment row: 0 to 1015 of the configuration, 1016 to 1018 kept by the LN2430 (R39, Table 2.8). -/
def State.apptRow (s : State) (r : Nat) : RowCfg :=
  if r ≤ 1015 then
    { wheel := s.cn 0x2010 2 r, kind := s.cn 0x2010 3 r, phase := BitVec.ofInt 64 (s.ci 0x2010 4 r),
      period := s.cn 0x2010 5 r, divisor := s.cn 0x2010 6 r, consumer := s.cn 0x2010 7 r,
      direction := s.cn 0x2010 8 r }
  else if r = 1016 then
    { wheel := 0, kind := if s.appts.setRow.isSome then 1 else 0, phase := s.appts.setRow.getD 0, period := 0,
      divisor := 0, consumer := 0x0800, direction := 0 }
  else if r = 1017 then
    { wheel := 0, kind := if s.appts.handRow.isSome then 1 else 0, phase := s.appts.handRow.getD 0, period := 0,
      divisor := 0, consumer := 0x0900, direction := 0 }
  else if r = 1018 then
    { wheel := 0, kind := 2, phase := 0, period := flushPeriod (s.cn 0x3800 3 0),
      divisor := 0, consumer := 0x0700, direction := 0 }
  else { wheel := 0, kind := 0, phase := 0, period := 0, divisor := 0, consumer := 0, direction := 0 }

/-- The running part of a row. -/
def State.apptRun (s : State) (r : Nat) : ApptRow := Tbl.get {} r s.appts.rows

/-- Change the running part of a row. -/
def State.modAppt (r : Nat) (f : ApptRow → ApptRow) (s : State) : State :=
  { s with appts := { s.appts with rows := Tbl.mod {} r f s.appts.rows } }

/-- The first grid position of a periodic row at or after `p` (R39): with a divisor, fraction of the phase plus
⌊k × 2^32 ÷ D⌋ for a whole k; without, phase + k × period. -/
def RowCfg.gridFrom (r : RowCfg) (p : WheelPos) : WheelPos :=
  if r.divisor ≠ 0 then
    let f := posFrac r.phase
    let x := (p - BitVec.ofNat 64 f).toNat
    let k := (x * r.divisor + 2 ^ 32 - 1) / 2 ^ 32
    BitVec.ofNat 64 (f + k * 2 ^ 32 / r.divisor)
  else if r.period = 0 then r.phase
  else
    let d := posDiff p r.phase
    let k := -((-d) / (r.period : Int))
    r.phase + BitVec.ofInt 64 (k * r.period)

/-- The last grid position of a periodic row at or before `p`. -/
def RowCfg.gridTo (r : RowCfg) (p : WheelPos) : WheelPos :=
  if r.divisor ≠ 0 then
    let f := posFrac r.phase
    let x := (p - BitVec.ofNat 64 f).toNat
    let k := ((x + 1) * r.divisor + 2 ^ 32 - 1) / 2 ^ 32 - 1
    BitVec.ofNat 64 (f + k * 2 ^ 32 / r.divisor)
  else if r.period = 0 then r.phase
  else
    let d := posDiff p r.phase
    r.phase + BitVec.ofInt 64 ((d / (r.period : Int)) * r.period)

/-- The row has a grid to be due on: enabled, and not a periodic row without divisor and period (R41). -/
def RowCfg.armed (r : RowCfg) : Bool := decide (r.kind = 1) || (decide (r.kind = 2) && (decide (r.divisor ≠ 0) || decide (r.period ≠ 0)))

/-- Directions in which the row is due: ahead, astern. -/
def RowCfg.ahead (r : RowCfg) : Bool := decide (r.direction ≠ 1)
/-- The row is due while the shaft runs astern. -/
def RowCfg.astern (r : RowCfg) : Bool := decide (r.direction = 1) || decide (r.direction = 2)

/-- Arm a row that becomes enabled with its wheel at `p`: it is due at what the wheel comes to from there, a one-shot at
its phase and a periodic row at the first grid position past `p` (R39). -/
def RowCfg.arm (r : RowCfg) (p : WheelPos) (a : ApptRow) : ApptRow :=
  if r.armed = false then { a with next := none, back := none }
  else if r.kind = 1 then
    { a with next := if !a.fired && r.ahead && posAfter r.phase p then some r.phase else none
             back := if !a.fired && r.astern && posAfter p r.phase then some r.phase else none }
  else
    { a with next := if r.ahead then some (r.gridFrom (p + 1)) else none
             back := if r.astern then some (r.gridTo (p - 1)) else none }

/-- The grid position that follows the run in which `n` lies, or `n` where it lies in none. -/
def RowCfg.pastRuns (r : RowCfg) (runs : List (WheelPos × WheelPos)) (n : WheelPos) : WheelPos :=
  runs.foldl (fun n x => if posAtOrAfter n x.1 && posAtOrAfter x.2 n then r.gridFrom (x.2 + 1) else n) n

/-- The first grid position at or after `p` for which a periodic row has not been dispatched (R31). -/
def RowCfg.freshFrom (r : RowCfg) (runs : List (WheelPos × WheelPos)) (p : WheelPos) : WheelPos :=
  (List.range runs.length).foldl (fun n _ => r.pastRuns runs n) (r.gridFrom p)

/-- Note that a row has been dispatched for grid position `g`. -/
def RowCfg.noteDone (r : RowCfg) (g : WheelPos) : List (WheelPos × WheelPos) → List (WheelPos × WheelPos)
  | [] => [(g, g)]
  | (a, b) :: t => if r.gridFrom (b + 1) = g then (a, g) :: t else (g, g) :: (a, b) :: t

/-- Forget the dispatches past `p`, to which the wheel can come again from before (R39). -/
def cutRuns (p : WheelPos) (runs : List (WheelPos × WheelPos)) : List (WheelPos × WheelPos) :=
  (runs.filter (fun x => posAtOrAfter p x.1)).map (fun x => (x.1, if posAfter x.2 p then p else x.2))

/-- Re-phase a row for a step or jump of its wheel to `p` (R31): a periodic row to the first grid position at or after
`p` that it has not been dispatched for; a one-shot stays pending, and after a backward step one whose phase lies ahead
again is pending again. -/
def RowCfg.rephase (r : RowCfg) (p : WheelPos) (forward : Bool) (a : ApptRow) : ApptRow :=
  if r.armed = false then { a with next := none, back := none }
  else if r.kind = 1 then
    if forward then { a with back := if !a.fired && r.astern && posAfter p r.phase then some r.phase else a.back }
    else { a with next := if !a.fired && r.ahead && posAfter r.phase p then some r.phase else a.next }
  else
    { a with next := if r.ahead then some (r.freshFrom a.done p) else none
             back := if r.astern then some (r.gridTo p) else none }

/-- The row is due at this position of its wheel: the grid position it is due for, and whether it was met astern. -/
def RowCfg.due (p : WheelPos) (a : ApptRow) : Option (WheelPos × Bool) :=
  match a.next with
  | some n => if posAtOrAfter p n then some (n, false) else
      match a.back with
      | some b => if posAtOrAfter b p then some (b, true) else none
      | none => none
  | none =>
    match a.back with
    | some b => if posAtOrAfter b p then some (b, true) else none
    | none => none

/-- What follows in the row after a dispatch, or a missed one, for grid position `g`. -/
def RowCfg.follow (r : RowCfg) (g : WheelPos) (astern : Bool) (a : ApptRow) : ApptRow :=
  if r.kind = 1 then { a with next := none, back := none, fired := true }
  else if astern then
    { a with back := some (r.gridTo (g - 1)), next := if r.ahead then some g else a.next, done := cutRuns (g - 1) a.done }
  else { a with next := some (r.freshFrom a.done (g + 1)), back := if r.astern then some g else a.back }

/-! ### The dispatch line (R40) -/

/-- The class order of R40. -/
def dispatchClass (consumer : Nat) : Nat :=
  if consumer = 0x0800 then 0 else if consumer = 0x0900 then 1
  else match consumer / 0x100 with
    | 3 => 2
    | 1 => 3
    | 2 => 4
    | 4 => 5
    | 6 => 6
    | 7 => 7
    | _ => 8

/-- `a` goes before `b` among dispatches of one cycle: late ones first, in order of due position; then by class, within
cascade steps by number, then by row (R31, R40). -/
def Dispatch.before (a b : Dispatch) : Bool :=
  if a.late ≠ b.late then a.late
  else if a.late && a.due ≠ b.due then posAfter b.due a.due
  else
    let ca := dispatchClass a.consumer
    let cb := dispatchClass b.consumer
    if ca ≠ cb then decide (ca < cb)
    else if ca = 3 ∧ a.consumer ≠ b.consumer then decide (a.consumer < b.consumer)
    else decide (a.row < b.row)

/-- Insert a dispatch in order. -/
def insertDispatch (d : Dispatch) : List Dispatch → List Dispatch
  | [] => [d]
  | e :: t => if d.before e then d :: e :: t else e :: insertDispatch d t

/-- Give out delivery slots from `k` on. -/
def giveSlots (k : Nat) : List Dispatch → List Dispatch
  | [] => []
  | d :: t => { d with slot := k } :: giveSlots (k + 1) t

/-- The least delivery slot of a list of dispatches. -/
def leastSlot : List Dispatch → Option Nat
  | [] => none
  | d :: t => match leastSlot t with
    | none => some d.slot
    | some m => some (Nat.min d.slot m)

/-- A dispatch joins the line: behind everything that fell due in an earlier cycle, in order among those of its own
cycle, four deliveries a cycle (R40). -/
def Appts.join (d : Dispatch) (a : Appts) : Appts :=
  let old := a.line.filter (fun e => e.dueCycle != d.dueCycle)
  let grp := a.line.filter (fun e => e.dueCycle == d.dueCycle)
  let start := match leastSlot grp with
    | some k => k
    | none => Nat.max (4 * d.dueCycle) a.cursor
  let grp := giveSlots start (insertDispatch d grp)
  { a with line := old ++ grp, cursor := start + grp.length }

/-- A dispatch of row `r` waits in the line, not yet delivered (R40). -/
def State.rowWaits (s : State) (r : Nat) : Bool :=
  s.appts.line.any (fun d => d.row == r && decide (s.fc < d.slot / 4))

/-- Count a late dispatch of a row (Table 2.7). -/
def State.countLate (r : Nat) (s : State) : State := s.modAppt r (fun a => { a with late := a.late + 1 })

/-- Put a dispatch of row `r` in the line, unless its previous one still waits there: then it is only counted late. -/
def State.dispatch (r consumer : Nat) (due : WheelPos) (late : Bool) (s : State) : State :=
  if s.rowWaits r then s.countLate r
  else
    let c := s.apptRow r
    let s := s.modAppt r (fun a => { a with
      dispatches := a.dispatches + 1, late := if late then a.late + 1 else a.late, done := c.noteDone due a.done })
    { s with appts := s.appts.join {
        row := r, consumer := consumer, due := due, dueCycle := s.fc, dueTime := if c.wheel = 0 then due else s.time
        late := late, slot := 0 } }

/-- Take the delivered dispatch for a consumer out of the line: the first whose delivery cycle has come. -/
def takeDispatch (fc consumer : Nat) : List Dispatch → Option (Dispatch × List Dispatch)
  | [] => none
  | d :: t =>
    if d.consumer = consumer ∧ d.slot / 4 ≤ fc then some (d, t)
    else match takeDispatch fc consumer t with
      | some (e, r) => some (e, d :: r)
      | none => none

/-- Run `f` on the delivered dispatch for a consumer, if there is one. -/
def State.withDispatch (consumer : Nat) (f : Dispatch → State → State) (s : State) : State :=
  match takeDispatch s.fc consumer s.appts.line with
  | some (d, rest) => f d { s with appts := { s.appts with line := rest } }
  | none => s

/-! ### Rows in use -/

/-- Rows that can be due: those the configuration lists and the three kept by the LN2430. -/
def State.apptRows (s : State) : List Nat := (Cfg.rows 0x2010 s.cfg).filter (fun r => decide (r ≤ 1015)) ++ [1016, 1017, 1018]

/-- R31 for one row of a wheel that stepped or jumped from `old` to `new`: a one-shot passed over by a forward move in
its direction is dispatched late; every other row is re-phased. -/
def State.rephaseRow (wheel : Nat) (new : WheelPos) (forward : Bool) (s : State) (r : Nat) : State :=
  let c := s.apptRow r
  if c.wheel ≠ wheel ∨ c.armed = false then s
  else
    let a := s.apptRun r
    let passed : Option WheelPos :=
      if c.kind ≠ 1 then none
      else if forward then
        match a.next with
        | some n => if posAfter new n then some n else none
        | none => none
      else
        match a.back with
        | some b => if c.wheel = 1 && posAfter b new && !s.wheels.enc.ahead then some b else none
        | none => none
    match passed with
    | some n => (s.modAppt r (fun a => c.follow n (!forward) a)).dispatch r c.consumer n true
    | none => s.modAppt r (fun a => c.rephase new forward a)

/-- The number of the interval of `ms` milliseconds in which a time-wheel position lies, from revolution 0. -/
def intervalOf (ms : Nat) (p : WheelPos) : Nat := if ms = 0 then 0 else p.toNat * 1000 / (2 ^ 32 * ms)

/-- A slot start of a frame-mode bus that a time-wheel step passes over is not used: the entry that was due waits for the
next multiple. A backward step keeps what is left of the slot (R150). -/
def State.skipSlots (old new : WheelPos) (s : State) : State :=
  [20, 21, 22, 23].foldl (fun s p =>
    let tb := s.cn (0x2100 + p) 0x16 0
    let ko := intervalOf tb old
    let kn := intervalOf tb new
    if s.cn (0x2100 + p) 1 0 ≠ 3 then s
    else { s with serial := Tbl.mod {} p (fun x => { x with
      nextSlot := if posAfter new old then (if x.nextSlot ≤ kn then kn + 1 else x.nextSlot) else kn + (x.nextSlot - ko) }) s.serial }) s

/-- The sampling and reporting grids of the time wheel go on at or after the position it steps or jumps to (R31, R105, R171,
R299). -/
def State.skipSamples (new : WheelPos) (s : State) : State :=
  let from_ (t : Tbl SampleGrid) : Tbl SampleGrid := t.map (fun x => (x.1, { x.2 with start := new }))
  { s with
    analog := { s.analog with
      gridFrom := new, seaLeft := new, fallbacks := from_ s.analog.fallbacks, reports := from_ s.analog.reports }
    health.statusGrid := { s.health.statusGrid with start := new }, health.wheelGrid := { s.health.wheelGrid with start := new } }

/-- What a step or forward jump of a wheel does to appointments, sampling grids, frame slots, its step count and the event (R31). -/
def State.jumped (wheel : Nat) (old new : WheelPos) (s : State) : State :=
  let size := posDiff new old
  let s := { s with wheels := s.wheels.mod wheel (fun w => { w with steps := w.steps + 1 }) }
  let s := s.apptRows.foldl (State.rephaseRow wheel new (decide (0 < size))) s
  let s := if wheel = 0 then (s.skipSlots old new).skipSamples new else s
  s.event 0x1002 wheel (sat31 size)

/-- Re-arm the rows of the shaft wheel after it has moved one count: positions it has left behind come again when it
comes back to them (R39). -/
def State.shaftMoved (ahead : Bool) (s : State) : State :=
  let p := s.wheels.shaft.visible
  s.apptRows.foldl (fun s r =>
    let c := s.apptRow r
    if c.wheel ≠ 1 ∨ c.armed = false then s
    else s.modAppt r (fun a =>
      if ahead then
        match a.back with
        | some b => if posAfter p b && c.kind = 2 then { a with back := some (c.gridTo (p - 1)) } else a
        | none => if c.kind = 1 && c.astern && !a.fired && posAfter p c.phase then { a with back := some c.phase } else a
      else
        match a.next with
        | some n => if posAfter n p && c.kind = 2 then { a with next := some (c.gridFrom (p + 1)), done := cutRuns p a.done } else a
        | none => if c.kind = 1 && c.ahead && !a.fired && posAfter c.phase p then { a with next := some c.phase } else a)) s

/-- Arm every row from the wheels' present positions, at a start (R39). -/
def State.armAll (s : State) : State :=
  s.apptRows.foldl (fun s r =>
    let c := s.apptRow r
    s.modAppt r (fun a => c.arm (s.wheels.get c.wheel).visible a)) s

/-! ### APPOINTMENT_DUE -/

/-- R39, R40: the wheel of a row has reached its grid position, so the dispatch joins the line, or is counted late while
the previous one waits. -/
def State.appointmentDue (r : Nat) (s : State) : State :=
  let c := s.apptRow r
  if c.armed = false then s
  else
    let p := (s.wheels.get c.wheel).visible
    match RowCfg.due p (s.apptRun r) with
    | some (g, astern) => (s.modAppt r (fun a => c.follow g astern a)).dispatch r c.consumer g false
    | none => s

/-- APPOINTMENT_DUE. -/
def execAppointmentDue (dt : Nat) (row : Fin 1024) (s : State) : Host.Outcome State Fault Refusal :=
  .next ((s.elapse dt).whenUp domFabric (State.appointmentDue row.val))

end Sys2Proof.Machine
end

