-- ==== Sys2Proof/Machine/Queue.lean ====
section
/-! DEFINITION. The queue fabric as every block meets it (R225 to R231, R240 to R242): the ends of each queue, the
packets it holds, credit and visibility while a side is reset or realigned, and reads of an empty queue. -/

namespace Sys2Proof.Machine

open Sys2Proof

/-- The producer and consumer domains of a queue; none for an unused number (Table 10.2). -/
def queueEnds (q : Nat) : Option (Nat × Nat) :=
  if q ≤ 0x0B then some (10, 3) else if q ≤ 0x17 then some (10, 4)
  else if q ≤ 0x2F then some (5, 10)
  else if q = 0x30 then some (8, 3) else if q = 0x31 then some (8, 4)
  else if q = 0x32 then some (9, 3) else if q = 0x33 then some (9, 4)
  else if q = 0x34 then some (8, 7) else if q = 0x35 then some (9, 7)
  else if 0x38 ≤ q ∧ q ≤ 0x3B then some (5, 8) else if 0x3C ≤ q ∧ q ≤ 0x3F then some (7, 8)
  else if 0x40 ≤ q ∧ q ≤ 0x43 then some (5, 9) else if 0x44 ≤ q ∧ q ≤ 0x47 then some (7, 9)
  else if 0x48 ≤ q ∧ q ≤ 0x4A then some (11, 3) else if 0x4B ≤ q ∧ q ≤ 0x4D then some (11, 7)
  else if q = 0x50 ∨ q = 0x51 then some (5, 11) else if q = 0x52 ∨ q = 0x53 then some (7, 11)
  else if q = 0x54 then some (2, 11) else if q = 0x55 then some (6, 11) else if q = 0x56 then some (7, 11)
  else if 0x60 ≤ q ∧ q ≤ 0x64 then some (3, 2) else if 0x65 ≤ q ∧ q ≤ 0x69 then some (4, 2)
  else if q = 0x6A then some (7, 2)
  else if 0x70 ≤ q ∧ q ≤ 0x73 then some (3, 3) else if 0x74 ≤ q ∧ q ≤ 0x77 then some (4, 3)
  else if 0x78 ≤ q ∧ q ≤ 0x7B then some (3, 4) else if 0x7C ≤ q ∧ q ≤ 0x7F then some (4, 4)
  else if q = 0x80 then some (12, 4) else if q = 0x81 then some (5, 13)
  else if q = 0x82 then some (7, 14) else if q = 0x83 then some (14, 7)
  else if q = 0x84 ∨ q = 0x85 then some (7, 7)
  else if 0x100 ≤ q ∧ q ≤ 0x1FB then some (2, 5) else if 0x1FC ≤ q ∧ q ≤ 0x1FF then some (2, 6)
  else none

/-- A queue is watched: its consumer is an engine domain or FABRIC (R231). -/
def watchedQueue (q : Nat) : Bool :=
  match queueEnds q with
  | some (_, c) => decide (2 ≤ c ∧ c ≤ 7)
  | none => false

/-- What of a queue the fabric keeps. -/
def State.que (s : State) (q : Nat) : Queue := Tbl.get {} q s.fabric.queues

/-- Change what the fabric keeps of a queue. -/
def State.modQue (q : Nat) (f : Queue → Queue) (s : State) : State :=
  { s with fabric.queues := Tbl.mod {} q f s.fabric.queues }

/-- The capacity of a queue in packets (Table 10.2). The two receive queues of an Ethernet port share theirs (R184), and
the queues of a listener theirs (R87). -/
def queueLimit (q : Nat) : Option Nat :=
  if q ≤ 0x2F ∨ q = 0x34 ∨ q = 0x35 ∨ 0x4B ≤ q ∧ q ≤ 0x4D ∨ q = 0x81 then some 64
  else if 0x38 ≤ q ∧ q ≤ 0x47 then some 2
  else if 0x48 ≤ q ∧ q ≤ 0x4A ∨ q = 0x6A ∨ q = 0x80 ∨ q = 0x82 ∨ q = 0x83 then some 256
  else if q = 0x50 ∨ q = 0x51 then some 32
  else if q = 0x52 ∨ q = 0x53 ∨ q = 0x56 then some 8
  else if q = 0x54 then some 1 else if q = 0x55 then some 12
  else if 0x60 ≤ q ∧ q ≤ 0x69 then some 1024
  else if 0x70 ≤ q ∧ q ≤ 0x7F then some 512
  else if q = 0x84 ∨ q = 0x85 then some 4
  else none

/-! ### Packets and words (R225, R226, R230) -/

/-- A frame composed by FE1. -/
def TxFrame.isDatagram (f : TxFrame) : Bool :=
  match f.kind with
  | .datagram _ _ => true
  | _ => false

/-- A frame composed by FE0. -/
def CanKind.isFe : CanKind → Bool
  | .fe _ _ _ => true
  | _ => false

/-- Every frame on its way to a CAN bus: in the transmit objects, then in the packet queues. -/
def CPort.frames (c : CPort) : List CanTx := c.tx ++ c.txq

/-- The transmit queue `k` of a MAC (R185). -/
def EPort.txq (e : EPort) (k : Nat) : List TxFrame :=
  match k with
  | 0 => e.tx0
  | 1 => e.tx1
  | 2 => e.tx2
  | _ => e.tx3

/-- The packet queue through which a frame reaches a CAN controller (Table 10.2). -/
def canQueue (p : Nat) : CanKind → Nat
  | .fe _ _ _ => 0x50 + p
  | .sync => 0x54
  | .loopPdo => 0x55
  | _ => if p = 2 then 0x56 else 0x52 + p

/-- The size in bytes of a fibre record with what its raw handle names (R60). -/
def FibreRecord.size (r : FibreRecord) : Nat := 128 + r.raw.length + r.tag.length

/-- The packets of a queue, oldest first, each by the size in bytes of what it carries. Packets that their consumer takes
as they come never stand in their queue between two commands: those of 0x04A and 0x04D, which wait in the receive objects
of C2 until they are taken (R203), and those of 0x054, 0x055, 0x080, 0x083 and 0x084. -/
def State.packets (s : State) (q : Nat) : List Nat :=
  let sp (p : Nat) : SPort := Tbl.get {} p s.serial
  let ep (p : Nat) : EPort := Tbl.get {} p s.eth
  let cp (p : Nat) : CPort := Tbl.get {} p s.can
  let rx (l : List RxFrame) : List Nat := l.map (fun f => f.bytes.length)
  if q ≤ 0x17 then (sp q).rx.map (fun _ => 16)
  else if q ≤ 0x2F then (sp (q - 0x18)).tx.map (fun _ => 16)
  else if q ≤ 0x33 then rx (if q % 2 = 0 then (ep ((q - 0x30) / 2)).rxA else (ep ((q - 0x30) / 2)).rxB)
  else if q ≤ 0x35 then rx (ep (q - 0x34)).supIn
  else if 0x38 ≤ q ∧ q ≤ 0x47 then
    (((ep ((q - 0x38) / 8)).txq ((q - 0x38) % 4)).filter (fun f => f.isDatagram == decide ((q - 0x38) % 8 < 4))).map
      (fun f => f.bytes.length)
  else if q = 0x48 ∨ q = 0x49 then (cp (q - 0x48)).rxMsgs.map (fun m => m.data.length)
  else if q = 0x4B ∨ q = 0x4C then (cp (q - 0x4B)).supIn.map (fun f => f.data.length)
  else if 0x50 ≤ q ∧ q ≤ 0x56 then
    let p := if q ≤ 0x53 then q % 2 else 2
    ((cp p).txq.filter (fun t => canQueue p t.kind == q)).map (fun t => t.frame.data.length)
  else if 0x60 ≤ q ∧ q ≤ 0x6A then (Tbl.get [] (q - 0x60) s.bramble.inputs).map FibreRecord.size
  else if 0x70 ≤ q ∧ q ≤ 0x77 then (s.carding.toVote4.filter (fun x => x.1 == q)).map (fun x => x.2.size)
  else if 0x78 ≤ q ∧ q ≤ 0x7F then (s.carding.toVote9.filter (fun x => x.1 == q)).map (fun x => x.2.size)
  else if q = 0x81 then s.journal.inbox.map (fun x => x.1.size)
  else if q = 0x82 then s.twin.out.map (fun _ => 0)
  else if q = 0x85 then (if s.dict.spiReply.isSome then [0] else [])
  else if 0x100 ≤ q ∧ q ≤ 0x1FF then
    ((Tbl.get ({} : Listener) ((q - 0x100) / 4) s.bramble.listeners).queue.filter (fun e => e.cls == (q - 0x100) % 4)).map
      (fun _ => 16)
  else []

/-- The longest packet of a queue in words (0x5818:09): one word for a serial port (R230), open for the others. -/
def longestPacket (q : Nat) : Nat := if q ≤ 0x2F then 1 else Config.longestPacket q % 4096 + 1

/-- The words of a packet that carries `n` bytes (R226, R230). -/
def packetWords (q n : Nat) : Nat := if q ≤ 0x2F then 1 else 1 + Config.packetWords q n % longestPacket q

/-- The size of a queue as the power of two of its words (R225). -/
def queueBits (q : Nat) : Nat := 4 + Config.queueBits q % 13

/-- The packets in a queue's list: those committed, and behind them any that its producer holds until it has credit. -/
def State.queued (s : State) (q : Nat) : Nat := (s.packets q).length

/-- How many of `n` packets are committed: those within the capacity, and while the queue is to be realigned only those
committed before (R227, R240). -/
def State.committedOf (s : State) (q n : Nat) : Nat :=
  let x := s.que q
  if x.wasReset.isSome then Nat.min n x.frozen
  else match queueLimit q with
    | some m => Nat.min n m
    | none => n

/-- The committed packets of a queue (0x5818:06). -/
def State.visible (s : State) (q : Nat) : Nat := s.committedOf q (s.queued q)

/-- The words of a queue's committed packets: committed pointer less read pointer (0x5818:05). -/
def State.wordsIn (s : State) (q : Nat) : Nat :=
  (((s.packets q).take (s.visible q)).map (packetWords q)).foldl (fun a b => a + b) 0

/-- The read pointer of a queue, n + 1 bits wide (R225). -/
def State.readPointer (s : State) (q : Nat) : Nat := (s.que q).read % 2 ^ (queueBits q + 1)
/-- The committed pointer of a queue. -/
def State.committedPointer (s : State) (q : Nat) : Nat := ((s.que q).read + s.wordsIn q) % 2 ^ (queueBits q + 1)
/-- The write pointer of a queue: a command writes and commits a packet whole, so that between commands no word stands
past the committed pointer (R226). -/
def State.writePointer (s : State) (q : Nat) : Nat := s.committedPointer q

/-! ### Credit and visibility (R227, R240, R242) -/

/-- The producer may hold credits: the queue needs no realignment (R240, R242). -/
def State.admits (s : State) (q : Nat) : Bool := (s.que q).wasReset.isNone

/-- The producer holds a packet credit (R227). -/
def State.hasRoom (s : State) (q : Nat) : Bool :=
  s.admits q && (match queueLimit q with
    | some m => decide (s.queued q < m)
    | none => true)

/-- The consumer may take from the queue: it was not reset, no exchange goes on, and after a reset of the producer what
had been committed is not all taken (R240, R242). -/
def State.yields (s : State) (q : Nat) : Bool :=
  let x := s.que q
  decide (x.wasReset ≠ some .consumer ∧ x.phase = 0) && (x.wasReset.isNone || decide (0 < x.frozen) || decide (s.queued q = 0))

/-- What is pushed to these queues fits: they admit it, within their capacities (R227). -/
def State.fits (qs : List Nat) (s t : State) : Bool :=
  qs.all (fun q => decide (t.queued q ≤ s.queued q) || (s.admits q && (match queueLimit q with
    | some m => decide (t.queued q ≤ m)
    | none => true)))

/-- An engine or FABRIC does its work only with credit for all that it produces, and waits otherwise (R227). -/
def State.withCredit (qs : List Nat) (f : State → State) (s : State) : State := if s.fits qs (f s) then f s else s

/-! ### The watch (R231) -/

/-- Listener kinds (Table 4.1). -/
inductive LKind where
  | serial (port : Nat) | eth (port : Nat) | can (port : Nat) | journal | control | none
  deriving DecidableEq, Repr

/-- The kind of a listener row; rows 62 and 63 are fixed. -/
def listenerKind (u : UnitId) (c : Cfg) (l : Nat) : LKind :=
  if l = 62 then .journal
  else if l = 63 then .control
  else
    let p := Cfg.nat u c 0x2520 3 l
    if p ≤ 0x17 then .serial p
    else if p = 0x20 ∨ p = 0x21 then .eth (p - 0x20)
    else if p = 0x28 ∨ p = 0x29 then .can (p - 0x28)
    else .none

/-- The carding engine that takes from an intake queue (Tables 1.2 and 10.2). -/
def intakeEngine (q : Nat) : Option Nat :=
  if q ≤ 0x0B then some 0 else if q ≤ 0x17 then some 5
  else if q = 0x30 then some 1 else if q = 0x31 then some 6 else if q = 0x32 then some 2 else if q = 0x33 then some 7
  else if 0x48 ≤ q ∧ q ≤ 0x4A then some 3 else if q = 0x80 then some 8
  else if 0x70 ≤ q ∧ q ≤ 0x77 then some 4 else if 0x78 ≤ q ∧ q ≤ 0x7F then some 9
  else none

/-- The queues into which a carding engine puts what it makes of a packet: to Bramble, and from an intake engine to the two
voting engines. -/
def engineOutputs (e : Nat) : List Nat :=
  if e = 4 ∨ e = 9 then [0x60 + e] else [0x60 + e, 0x70 + (if e < 4 then e else e - 1), 0x78 + (if e < 4 then e else e - 1)]

/-- The queues whose consumer needs credit for this queue: its intake queues for a carding engine, the listeners' queues
for an engine of fulling (Table 4.1). -/
def State.upstream (s : State) (q : Nat) : List Nat :=
  if 0x60 ≤ q ∧ q ≤ 0x69 ∨ 0x70 ≤ q ∧ q ≤ 0x7F then
    ((List.range 0x81).filter (fun i => match intakeEngine i with
      | some e => (engineOutputs e).contains q
      | none => false))
  else if q = 0x81 then [0x1F8, 0x1F9, 0x1FA, 0x1FB]
  else if 0x38 ≤ q ∧ q ≤ 0x47 ∧ (q - 0x38) % 8 < 4 then
    ((List.range 62).filter (fun l => listenerKind s.uid s.cfg l == .eth ((q - 0x38) / 8))).map (fun l => 0x100 + 4 * l + (q - 0x38) % 4)
  else []

/-- The watch of these queues begins anew: their consumer has credit again (R231). -/
def State.rewatch (qs : List Nat) (s : State) : State :=
  { s with fabric.queues := s.fabric.queues.map (fun x =>
      if qs.contains x.1 && x.2.since.isSome then (x.1, { x.2 with since := some s.fc }) else x) }

/-! ### Moving packets -/

/-- `n` packets become visible: counted, and told to the consumer by notices (R226, R229, R236). A consumer that runs
takes its notices as they come; one that does not lets them stand, and the first crossing with 32 767 outstanding sets
COUNT_OVF. -/
def State.notices (q n : Nat) (s : State) : State :=
  if n = 0 then s
  else
    let s := s.stat 0x4850 q 2 n
    let (p, c) := (queueEnds q).getD (0, 0)
    let x := s.que q
    let ack := if s.up c then x.notices else x.taken
    let full := decide (32767 < (x.notices + n + 65536 - ack) % 65536) && q != 0x85
    let s := s.modQue q (fun x => { x with notices := (x.notices + n) % 65536, taken := ack })
    if full && !s.fabric.countOvf then
      { s with fabric.countOvf := true, fabric.ovfCrossing := p * 4096 + c * 256 + q % 256 }
    else s

/-- A packet has been put at the end of a queue: visible where the producer holds credit, and watched from now on where
the queue was empty (R226, R231). -/
def State.pushed (q : Nat) (s : State) : State :=
  let n := s.queued q
  let s := s.notices q (s.committedOf q n - s.committedOf q (n - 1))
  if watchedQueue q then s.modQue q (fun x => { x with since := some (x.since.getD s.fc) }) else s

/-- Packets have left the head of a queue, as it stood in `before`: its read pointer moved past their words, and packets
that waited for credit follow (R228). -/
def State.released (q : Nat) (s before : State) : State :=
  let gone := before.queued q - s.queued q
  let s := s.modQue q (fun x => { x with read := x.read + (before.wordsIn q - s.wordsIn q), frozen := x.frozen - gone })
  s.notices q (s.visible q + gone - before.visible q)

/-- The consumer has read packets of a queue: its watch begins anew, and where the queue had no room the watch of those
that feed it (R228, R231). -/
def State.popped (q : Nat) (s before : State) : State :=
  let s := (s.released q before).modQue q (fun x => { x with since := if s.queued q = 0 then none else some s.fc })
  if before.hasRoom q then s else s.rewatch (s.upstream q)

/-- Packets may have left any of these queues, as they stood in `before`, without being taken one by one: the read pointers
of those that have moved past them. -/
def State.withdrawn (qs : List Nat) (s before : State) : State :=
  qs.foldl (fun s q => if s.queued q = before.queued q then s else s.popped q before) s

/-- A packet has gone back to the head of a queue, as it stood in `before` (R86): its read pointer moved back. -/
def State.returned (q : Nat) (s before : State) : State :=
  s.modQue q (fun x => { x with read := x.read - (s.wordsIn q - before.wordsIn q), since := some (x.since.getD s.fc) })

/-- A read of an empty queue: sticky underrun, and counted (R228). -/
def State.readEmpty (q : Nat) (s : State) : State := (s.stat 0x4850 q 6 1).modQue q (fun x => { x with underrun := true })

/-- Packets may go through a queue whose consumer takes them at once: it needs no realignment (R240, R242). -/
def State.flows (s : State) (q : Nat) : Bool := s.admits q && s.yields q

/-- `n` packets have gone through a queue whose consumer takes them at once (R8, R226). -/
def State.passed (q n : Nat) (s : State) : State :=
  if n = 0 then s else (s.notices q n).modQue q (fun x => { x with read := x.read + n * packetWords q 0, since := none })

/-- A packet goes through a queue whose consumer takes it at once, where both its sides let it; `f` is what the consumer
does with it. -/
def State.through (q : Nat) (f : State → State) (s : State) : State := if s.flows q then f (s.passed q 1) else s

/-- A producer rejects its own packet and rewinds: counted (R226). -/
def State.rewound (q : Nat) (s : State) : State := s.stat 0x4850 q 3 1

end Sys2Proof.Machine
end

