-- ==== Sys2Proof/Machine/Memory.lean ====
section
/-! DEFINITION. Errors of queue memory (R232, R233): correction, uncorrectable words, and their counters. -/

namespace Sys2Proof.Machine

open Sys2Proof

/-- The bank of a byte offset in queue memory (Table 10.7). -/
def bankOf (addr : Nat) : Nat := addr / 2 ^ 18 % 64

/-- A single-bit error is corrected: counted with its bank, and its address kept (R232). -/
def State.corrected (addr : Nat) (s : State) : State :=
  { s with
    fabric.corrected := s.fabric.corrected + 1
    fabric.bankCorr := Tbl.mod 0 (bankOf addr) (fun x => x + 1) s.fabric.bankCorr
    fabric.lastAddr := addr % 2 ^ 24
    fabric.lastKind := 1 }

/-- An uncorrectable word: counted with its bank, its address kept, and an alert (R233). -/
def State.uncorrectable (addr : Nat) (s : State) : State :=
  ({ s with
    fabric.uncorrectable := s.fabric.uncorrectable + 1
    fabric.bankUnc := Tbl.mod 0 (bankOf addr) (fun x => x + 1) s.fabric.bankUnc
    fabric.lastAddr := addr % 2 ^ 24
    fabric.lastKind := 2 }).event 0x9002 (bankOf addr) (addr % 2 ^ 24)

/-- A read meets what the check bits say. The address of a queue's word is not given by the manual: it is free. -/
def State.readEcc (e : Ecc) (s : State) : State :=
  match e with
  | .clean => s
  | .single => s.useFree.corrected (s.freeNat % 2 ^ 24)
  | _ => s.useFree.uncorrectable (s.freeNat % 2 ^ 24)

/-- A packet or entry of a queue is discarded as uncorrectable (R233). -/
def State.discardUnc (q n : Nat) (s : State) : State := s.stat 0x4850 q 5 n

/-! ### Dropping packets -/

/-- Drop the first `n` elements that a test picks. -/
def dropSome {α : Type} (f : α → Bool) : Nat → List α → List α
  | _, [] => []
  | 0, l => l
  | n + 1, x :: t => if f x then dropSome f n t else x :: dropSome f (n + 1) t

/-- Replace the MAC transmit queue `k`. -/
def EPort.setTxq (k : Nat) (l : List TxFrame) (e : EPort) : EPort :=
  match k with
  | 0 => { e with tx0 := l }
  | 1 => { e with tx1 := l }
  | 2 => { e with tx2 := l }
  | _ => { e with tx3 := l }

/-- The state without the `n` oldest packets of a queue. -/
def State.without (q n : Nat) (s : State) : State :=
  let sp (p : Nat) (f : SPort → SPort) : State := { s with serial := Tbl.mod {} p f s.serial }
  let ep (p : Nat) (f : EPort → EPort) : State := { s with eth := Tbl.mod {} p f s.eth }
  let cp (p : Nat) (f : CPort → CPort) : State := { s with can := Tbl.mod {} p f s.can }
  if q ≤ 0x17 then sp q (fun x => { x with rx := x.rx.drop n })
  else if q ≤ 0x2F then sp (q - 0x18) (fun x => { x with tx := x.tx.drop n })
  else if q ≤ 0x33 then
    ep ((q - 0x30) / 2) (fun e => if q % 2 = 0 then { e with rxA := e.rxA.drop n } else { e with rxB := e.rxB.drop n })
  else if q ≤ 0x35 then ep (q - 0x34) (fun e => { e with supIn := e.supIn.drop n })
  else if 0x38 ≤ q ∧ q ≤ 0x47 then
    let k := (q - 0x38) % 4
    let fe := decide ((q - 0x38) % 8 < 4)
    ep ((q - 0x38) / 8) (fun e => e.setTxq k (dropSome (fun f => f.isDatagram == fe) n (e.txq k)))
  else if q = 0x48 ∨ q = 0x49 then cp (q - 0x48) (fun c => { c with rxMsgs := c.rxMsgs.drop n })
  else if q = 0x4B ∨ q = 0x4C then cp (q - 0x4B) (fun c => { c with supIn := c.supIn.drop n })
  else if 0x50 ≤ q ∧ q ≤ 0x56 then
    let p := if q ≤ 0x53 then q % 2 else 2
    cp p (fun c => { c with txq := dropSome (fun t => canQueue p t.kind == q) n c.txq })
  else if 0x60 ≤ q ∧ q ≤ 0x6A then
    { s with bramble.inputs := Tbl.put (q - 0x60) ((Tbl.get [] (q - 0x60) s.bramble.inputs).drop n) s.bramble.inputs }
  else if 0x70 ≤ q ∧ q ≤ 0x77 then { s with carding.toVote4 := dropSome (fun x => x.1 == q) n s.carding.toVote4 }
  else if 0x78 ≤ q ∧ q ≤ 0x7F then { s with carding.toVote9 := dropSome (fun x => x.1 == q) n s.carding.toVote9 }
  else if q = 0x81 then { s with journal.inbox := s.journal.inbox.drop n }
  else if q = 0x82 then { s with twin.out := s.twin.out.drop n }
  else if q = 0x85 then { s with dict.spiReply := if n = 0 then s.dict.spiReply else none }
  else if 0x100 ≤ q ∧ q ≤ 0x1FF then
    { s with bramble.listeners := Tbl.mod {} ((q - 0x100) / 4) (fun x =>
        { x with queue := dropSome (fun e => e.cls == (q - 0x100) % 4) n x.queue }) s.bramble.listeners }
  else s

/-- Drop the `n` oldest packets of a queue: its read pointer moves past them. -/
def State.dropPackets (q n : Nat) (s : State) : State := (s.without q n).popped q s

/-- What a consumer does with the packet that it has taken from a queue, and what it discards instead where a word of it
has a double-bit error: that packet, or with an error in its first word every packet that is visible (R233). -/
def State.unlessBad (q : Nat) (e : Ecc) (f : State → State) (s : State) : State :=
  let s := s.readEcc e
  match e with
  | .clean => f s
  | .single => f s
  | .doubleFirst =>
    let n := s.visible q
    (s.dropPackets q n).discardUnc q (n + 1)
  | _ => s.discardUnc q 1

/-- Two references to one record of the store. -/
def sameRecord (a b : FibreRecord) : Bool :=
  a.source == b.source && a.kind == b.kind && a.seq == b.seq && a.pip.cycle == b.pip.cycle && a.slots == b.slots

/-- The record store holds an uncorrectable word of this record (R233). -/
def State.badRecord (s : State) (r : FibreRecord) : Bool := s.fabric.badRecords.any (sameRecord r)

/-- An entry of a queue is taken: discarded where the store has an error in its record, now found or found before. -/
def State.unlessBadEntry (q : Nat) (e : Ecc) (r : FibreRecord) (f : State → State) (s : State) : State :=
  if s.badRecord r then (s.readEcc (if e = .single then .single else .clean)).discardUnc q 1
  else (if e = .store then { s with fabric.badRecords := r :: s.fabric.badRecords } else s).unlessBad q e f

end Sys2Proof.Machine
end

