-- ==== Sys2Proof/Machine/Net.lean ====
section
/-! DEFINITION. Ethernet, IPv4 and UDP frames as bytes (R180 to R184, R94, R179, R183): their fields, the Internet
checksum, and the frames the LN2430 builds. Layouts of IEEE 802.3, RFC 791, RFC 768, RFC 826, RFC 792 and RFC 2236
(PRESUMED: the manual names the protocols and gives no byte layout). -/

namespace Sys2Proof.Machine

open Sys2Proof

/-- `n` bytes from offset `k`. -/
def slice (k n : Nat) (b : List Byte) : List Byte := (b.drop k).take n

/-- The number in `n` bytes from offset `k`, most significant first. -/
def netNat (k n : Nat) (b : List Byte) : Nat := beNat (slice k n b)

/-- The byte at offset `k`, 0 past the end. -/
def byteAt (k : Nat) (b : List Byte) : Nat := ((b[k]?).getD 0).toNat

/-- Destination address of a frame. -/
def frameDst (b : List Byte) : Nat := netNat 0 6 b
/-- Source address of a frame. -/
def frameSrc (b : List Byte) : Nat := netNat 6 6 b
/-- Type of an untagged frame. -/
def frameType (b : List Byte) : Nat := netNat 12 2 b
/-- Bytes of the IPv4 header. -/
def ipHeaderLen (b : List Byte) : Nat := 4 * (byteAt 14 b % 16)
/-- Total length of the IPv4 datagram. -/
def ipTotal (b : List Byte) : Nat := netNat 16 2 b
/-- Fragment field: more-fragments flag and offset. -/
def ipFragment (b : List Byte) : Nat := netNat 20 2 b % 0x4000
/-- IPv4 protocol. -/
def ipProto (b : List Byte) : Nat := byteAt 23 b
/-- IPv4 source. -/
def ipSrc (b : List Byte) : Nat := netNat 26 4 b
/-- IPv4 destination. -/
def ipDst (b : List Byte) : Nat := netNat 30 4 b
/-- The IPv4 payload. -/
def ipPayload (b : List Byte) : List Byte := slice (14 + ipHeaderLen b) (ipTotal b - ipHeaderLen b) b
/-- UDP source port. -/
def udpSrc (b : List Byte) : Nat := beNat (slice 0 2 (ipPayload b))
/-- UDP destination port. -/
def udpDst (b : List Byte) : Nat := beNat (slice 2 2 (ipPayload b))
/-- UDP length. -/
def udpLen (b : List Byte) : Nat := beNat (slice 4 2 (ipPayload b))
/-- UDP checksum field. -/
def udpSum (b : List Byte) : Nat := beNat (slice 6 2 (ipPayload b))
/-- UDP payload. -/
def udpPayload (b : List Byte) : List Byte := slice 8 (udpLen b - 8) (ipPayload b)

/-- The sum of 16-bit words, an odd last byte padded with 0. -/
def wordSum : List Byte → Nat
  | [] => 0
  | [a] => a.toNat * 256
  | a :: b :: t => a.toNat * 256 + b.toNat + wordSum t

/-- Fold carries back into 16 bits. -/
def foldSum (n : Nat) : Nat :=
  let a := n % 0x10000 + n / 0x10000
  let b := a % 0x10000 + a / 0x10000
  b % 0x10000 + b / 0x10000

/-- The Internet checksum of bytes. -/
def netSum (b : List Byte) : Nat := 0xFFFF - foldSum (wordSum b)

/-- The pseudo-header of UDP and its payload. -/
def udpPseudo (src dst : Nat) (u : List Byte) : List Byte :=
  beBytes 4 src ++ beBytes 4 dst ++ beBytes 2 17 ++ beBytes 2 u.length ++ u

/-- The IPv4 header checksum of a frame is right. -/
def ipSumOk (b : List Byte) : Bool := foldSum (wordSum (slice 14 (ipHeaderLen b) b)) == 0xFFFF

/-- The UDP checksum of a frame is right or absent. -/
def udpSumOk (b : List Byte) : Bool :=
  udpSum b == 0 || foldSum (wordSum (udpPseudo (ipSrc b) (ipDst b) ((ipPayload b).take (udpLen b)))) == 0xFFFF

/-- The multicast MAC address of an IPv4 group. -/
def groupMac (ip : Nat) : Nat := 0x01005E000000 + ip % 2 ^ 23

/-- An Ethernet header. -/
def ethHeader (dst src type : Nat) : List Byte := beBytes 6 dst ++ beBytes 6 src ++ beBytes 2 type

/-- An IPv4 header of 20 bytes, or of 24 with the router-alert option. -/
def ipHeader (src dst proto ttl ident flags : Nat) (alert : Bool) (len : Nat) : List Byte :=
  let opt : List Byte := if alert then [0x94, 0x04, 0, 0] else []
  let hl := 20 + opt.length
  let head (sum : Nat) : List Byte :=
    beBytes 2 (0x4000 + hl / 4 * 0x100) ++ beBytes 2 (hl + len) ++ beBytes 2 ident ++ beBytes 2 flags ++
      [BitVec.ofNat 8 ttl, BitVec.ofNat 8 proto] ++ beBytes 2 sum ++ beBytes 4 src ++ beBytes 4 dst ++ opt
  head (netSum (head 0))

/-- A UDP datagram in an IPv4 frame: time to live, identification, don't-fragment set, checksum computed. -/
def udpFrame (dstMac srcMac src dst ttl ident sport dport : Nat) (payload : List Byte) : List Byte :=
  let u (sum : Nat) : List Byte := beBytes 2 sport ++ beBytes 2 dport ++ beBytes 2 (8 + payload.length) ++ beBytes 2 sum ++ payload
  let sum := netSum (udpPseudo src dst (u 0))
  let sum := if sum = 0 then 0xFFFF else sum
  ethHeader dstMac srcMac 0x0800 ++ ipHeader src dst 17 ttl ident 0x4000 false (8 + payload.length) ++ u sum

/-- Padding to the shortest frame, 60 bytes without the FCS. -/
def padFrame (b : List Byte) : List Byte := b ++ List.replicate (60 - b.length) 0

/-! ### The MAC (R178, R185, R186, R197) -/

/-- An Ethernet port's state. -/
def State.ep (s : State) (p : Nat) : EPort := Tbl.get {} p s.eth

/-- Change an Ethernet port's state. -/
def State.modEp (p : Nat) (f : EPort → EPort) (s : State) : State := { s with eth := Tbl.mod {} p f s.eth }

/-- Advance a 32-bit MAC counter; it wraps, and crossing 2^31 upwards raises an event (R197). -/
def State.macCount (p sub n : Nat) (s : State) : State :=
  let old := Tbl.get (0 : BitVec 32) sub (s.ep p).mac
  let new := old + BitVec.ofNat 32 n
  let s := s.modEp p (fun e => { e with mac := Tbl.put sub new e.mac })
  if old.toNat < 2 ^ 31 ∧ 2 ^ 31 ≤ new.toNat then s.event 0x7005 p sub else s

/-- The link of a port is up (Table 8.5: 1 to 3). -/
def EPort.linkUp (e : EPort) : Bool := decide (1 ≤ e.link ∧ e.link ≤ 3)

/-- Insert an 802.1Q tag with a VID and a priority code (R186). -/
def tagFrame (vid pcp : Nat) (b : List Byte) : List Byte :=
  if vid = 0 then b else b.take 12 ++ beBytes 2 0x8100 ++ beBytes 2 (pcp * 0x2000 + vid) ++ b.drop 12

/-- The port has a frame waiting in a transmit queue. -/
def EPort.waiting (e : EPort) : Bool := !(e.tx0.isEmpty && e.tx1.isEmpty && e.tx2.isEmpty && e.tx3.isEmpty)

/-- The pause watchdog runs while the port is paused and a frame is waiting (R189). -/
def State.trackWatchdog (p : Nat) (s : State) : State :=
  s.modEp p (fun e => { e with watchdog := if e.pauseState = 1 ∧ e.waiting = true then some (e.watchdog.getD s.fc) else none })

/-- The packet queue of one part of a transmit queue (Table 10.2). -/
def macQueue (p k : Nat) (f : TxFrame) : Nat := 0x38 + 8 * p + k + (if f.isDatagram then 0 else 4)

/-- A frame enters a transmit queue at its tail. -/
def State.enterFrame (p k : Nat) (f : TxFrame) (s : State) : State :=
  ((s.modEp p (fun e => e.setTxq k (e.txq k ++ [f]))).trackWatchdog p).pushed (macQueue p k f)

/-- A frame with credit is placed in a transmit queue; while the link is down it is discarded there and counted (R178). -/
def State.placeFrame (p k : Nat) (f : TxFrame) (s : State) : State :=
  if (s.ep p).linkUp then s.enterFrame p k f else (s.passed (macQueue p k f) 1).macCount p 0x10 1

/-- Frames that SUP holds enter their queues as far as there is room (R185, R227). -/
def State.letFramesIn (p : Nat) (s : State) : State :=
  (s.ep p).supWait.foldl (fun s w =>
    if s.hasRoom (macQueue p w.1 w.2) then (s.modEp p (fun e => { e with supWait := e.supWait.erase w })).placeFrame p w.1 w.2
    else s) s

/-- A frame for transmit queue `q` of a port, with the port's tag (R186). SUP holds a frame of its own until its part of
the queue has room (R185, R227); a disabled port is sent nothing. -/
def State.queueFrame (p q : Nat) (kind : TxKind) (b : List Byte) (s : State) : State :=
  let pcp := match q with
    | 0 => 6
    | 1 => 5
    | 2 => 3
    | _ => 1
  let f : TxFrame := { bytes := padFrame (tagFrame (s.cn (0x2200 + p) 0x0B 0) pcp b), kind := kind }
  if s.cn (0x2200 + p) 1 0 = 0 then s
  else if f.isDatagram || s.hasRoom (macQueue p q f) then s.placeFrame p q f
  else s.modEp p (fun e => { e with supWait := e.supWait ++ [(q, f)] })

/-- The next IPv4 identification of a port (R186). -/
def State.nextIpId (p : Nat) (s : State) : State := s.modEp p (fun e => { e with ipId := e.ipId + 1 })

/-- The port's MAC address. -/
def State.macOf (s : State) (p : Nat) : Nat := s.cn (0x2200 + p) 5 0

/-- The port's IPv4 address, 0 when none is set. -/
def State.ipOf (s : State) (p : Nat) : Nat := s.cn (0x2200 + p) 6 0

end Sys2Proof.Machine
end

