-- ==== Sys2Proof/Machine/Sentence.lean ====
section
/-! DEFINITION. The sentence parser (R46 to R51, R54, R62 to R64): framing of characters into TAG blocks and sentences,
TAG parameters, address fields, checksums, and the fields of each formatter (positions of IEC 61162-1 edition 5:
PRESUMED). -/

namespace Sys2Proof.Machine

open Sys2Proof

/-! ### Characters -/

/-- `$`, `!` or the reverse solidus: what begins a sentence or a TAG block. -/
def startsUnit (c : Nat) : Bool := decide (c = 0x24 ∨ c = 0x21 ∨ c = 0x5C)

/-- A hexadecimal digit, upper or lower case (R49). -/
def hexDigit (b : Byte) : Bool :=
  digit b || decide (0x41 ≤ b.toNat ∧ b.toNat ≤ 0x46) || decide (0x61 ≤ b.toNat ∧ b.toNat ≤ 0x66)

/-- The value of a hexadecimal digit. -/
def hexVal (b : Byte) : Nat :=
  if digit b then b.toNat - 0x30 else if b.toNat ≤ 0x46 then b.toNat - 0x37 else b.toNat - 0x57

/-- The two upper-case hexadecimal digits of a byte. -/
def hexByte (n : Nat) : Text :=
  [n / 16 % 16, n % 16].map (fun d => BitVec.ofNat 8 (if d < 10 then 0x30 + d else 0x37 + d))

/-- The exclusive OR of characters (R49, R50). -/
def xorSum (t : Text) : Byte := t.foldl (fun a b => a ^^^ b) 0

/-- The decimal value of digits. -/
def decVal (t : Text) : Nat := t.foldl (fun a b => a * 10 + (b.toNat - 0x30)) 0

/-- All characters are decimal digits, and there is at least one. -/
def allDigits (t : Text) : Bool := !t.isEmpty && t.all digit

/-- Split at the first character `c`: what stands before it, and what after. -/
def splitFirst (c : Nat) : Text → Text × Option Text
  | [] => ([], none)
  | b :: t => if b.toNat = c then ([], some t) else ((b :: (splitFirst c t).1), (splitFirst c t).2)

/-- Split at every character `c`. -/
def splitAll (c : Nat) : Text → List Text
  | [] => [[]]
  | b :: t =>
    if b.toNat = c then [] :: splitAll c t
    else match splitAll c t with
      | [] => [[b]]
      | h :: r => (b :: h) :: r

/-- The offset of the first character that R46 does not allow: outside 0x20 to 0x7D, a second `*`, or a `^` not
followed by two hexadecimal digits. -/
def badChar : Text → Bool → Nat → Option Nat
  | [], _, _ => none
  | b :: t, star, pos =>
    let c := b.toNat
    if c < 0x20 ∨ 0x7E ≤ c then some pos
    else if c = 0x2A ∧ star = true then some pos
    else if c = 0x5E ∧ ((t.take 2).length < 2 ∨ (t.take 2).all hexDigit = false) then some pos
    else badChar t (star || c == 0x2A) (pos + 1)

/-- The same between the delimiters of TAG blocks: each block is judged by itself (R46). -/
def badTag : List Text → Nat → Option Nat
  | [], _ => none
  | t :: ts, pos =>
    match badChar t false pos with
    | some o => some o
    | none => badTag ts (pos + t.length + 1)

/-! ### Framing (R51) -/

/-- A sentence taken from the line: its TAG blocks, its text from the start delimiter, one character more that ended it
with a fault and whether that stood in an open TAG block, the framing fault with its offset, and whether it ended with
LF. -/
structure Taken where
  tag : Text
  text : Text
  extra : Text
  inTag : Bool := false
  fault : Option (Nat × Nat)
  complete : Bool
  deriving DecidableEq, Repr

/-- What one character does to a framer. -/
structure Framed where
  framer : Framer
  noise : Bool
  taken : Option Taken
  deriving DecidableEq, Repr

/-- The fault that stands first in Table 3.2; of equals the earlier offset. -/
def worse (a b : Nat × Nat) : Nat × Nat :=
  if reasonRank b.1 < reasonRank a.1 ∨ (reasonRank b.1 = reasonRank a.1 ∧ b.2 < a.2) then b else a

/-- The fault to carry when one more is found (R54). -/
def addFault (o : Option (Nat × Nat)) (f : Nat × Nat) : Option (Nat × Nat) :=
  match o with
  | none => some f
  | some g => some (worse g f)

/-- Begin a sentence or a TAG block. -/
def beginUnit (c : Byte) : Framer :=
  if c.toNat = 0x5C then { phase := .tag, tag := [c] } else { phase := .sentence, text := [c] }

/-- Where framing ends with a fault. -/
def Framer.reject (f : Framer) (extra : Text) (fault : Nat × Nat) : Taken :=
  { tag := f.tag, text := f.text, extra := extra, inTag := f.phase == .tag, fault := addFault f.fault fault, complete := false }

/-- The number of characters taken so far. -/
def Framer.count (f : Framer) : Nat := f.tag.length + f.text.length

/-- One character inside an open TAG block (R50). -/
def Framer.inTag (f : Framer) (c : Byte) : Framed :=
  let n := c.toNat
  if n = 0x24 ∨ n = 0x21 then ⟨beginUnit c, false, some (f.reject [] (0x04, f.count))⟩
  else if 80 ≤ f.tag.length - f.tags then ⟨{ phase := .discard }, false, some (f.reject [c] (0x0C, f.count))⟩
  else if n = 0x5C then ⟨{ f with tag := f.tag ++ [c], phase := .afterTag }, false, none⟩
  else ⟨{ f with tag := f.tag ++ [c] }, false, none⟩

/-- The character after a closed TAG block (R50). -/
def Framer.afterTag (f : Framer) (c : Byte) : Framed :=
  let n := c.toNat
  if n = 0x24 ∨ n = 0x21 then ⟨{ f with text := [c], phase := .sentence }, false, none⟩
  else if n = 0x5C then
    ⟨{ f with tag := f.tag ++ [c], phase := .tag, tags := f.tag.length, fault := addFault f.fault (0x0A, f.count) }, false, none⟩
  else ⟨{ phase := .discard }, false, some (f.reject [c] (0x0A, f.count))⟩

/-- One character inside a sentence (R49, R51). -/
def Framer.inSentence (f : Framer) (c : Byte) : Framed :=
  let n := c.toNat
  let cr := f.text.getLast? == some 0x0D
  if startsUnit n then ⟨beginUnit c, false, some (f.reject [] (0x04, f.count))⟩
  else if 82 ≤ f.text.length then ⟨{ phase := .discard }, false, some (f.reject [c] (0x05, f.count))⟩
  else if n = 0x0A then
    ⟨{}, false, some { tag := f.tag, text := f.text ++ [c], extra := [], fault := f.fault, complete := true }⟩
  else if cr then ⟨{ phase := .discard }, false, some (f.reject [c] (0x06, f.count - 1))⟩
  else ⟨{ f with text := f.text ++ [c] }, false, none⟩

/-- One character of an intake: `err` is CHAR_ERROR or BREAK where the character carries such a tag (R51). -/
def Framer.take (f : Framer) (c : Byte) (err : Option Nat) : Framed :=
  match f.phase with
  | .idle => if err.isNone && startsUnit c.toNat then ⟨beginUnit c, false, none⟩ else ⟨f, true, none⟩
  | .discard => if err.isNone && startsUnit c.toNat then ⟨beginUnit c, false, none⟩ else ⟨f, false, none⟩
  | p =>
    match err with
    | some e => ⟨{ phase := .discard }, false, some (f.reject [c] (e, f.count))⟩
    | none =>
      match p with
      | .tag => f.inTag c
      | .afterTag => f.afterTag c
      | _ => f.inSentence c

/-! ### TAG blocks (R50, Table 3.1) -/

/-- What carding takes from a TAG block. -/
structure TagInfo where
  fault : Option (Nat × Nat) := none
  unknown : Nat := 0
  params : List (Nat × Text) := []
  deriving DecidableEq, Repr

/-- The `g:` value n-m-id: n and m. -/
def groupOf (v : Text) : Option (Nat × Nat) :=
  match splitAll 0x2D v with
  | [a, b, c] =>
    if allDigits a && allDigits b && allDigits c && decide (decVal a ≤ decVal b ∧ decVal b ≤ 15)
    then some (decVal a, decVal b) else none
  | _ => none

/-- The value of a known code is one that Table 3.1 accepts; `none` for a code that carding does not know. -/
def tagValueOk (code : Nat) (v : Text) : Option Bool :=
  if code = 0x63 ∨ code = 0x72 then some (allDigits v && decide (v.length ≤ 13))
  else if code = 0x64 ∨ code = 0x73 ∨ code = 0x74 then some (decide (1 ≤ v.length ∧ v.length ≤ 15))
  else if code = 0x67 then some (groupOf v).isSome
  else if code = 0x6E then some (allDigits v && decide (1 ≤ decVal v ∧ decVal v ≤ 999))
  else none

/-- Take the parameters of a TAG block one by one; `pos` is the offset of the first one's code letter. -/
def tagParams : List Text → Nat → TagInfo → TagInfo
  | [], _, i => i
  | p :: ps, pos, i =>
    let next := pos + p.length + 1
    match p with
    | code :: colon :: v =>
      let letter := upper code || decide (0x61 ≤ code.toNat ∧ code.toNat ≤ 0x7A)
      if letter = false ∨ colon.toNat ≠ 0x3A ∨ i.params.any (fun x => x.1 == code.toNat) = true then
        tagParams ps next { i with fault := addFault i.fault (0x0A, pos) }
      else
        let i := { i with params := i.params ++ [(code.toNat, v)] }
        match tagValueOk code.toNat v with
        | some true => tagParams ps next i
        | some false => tagParams ps next { i with fault := addFault i.fault (0x0A, pos) }
        | none => tagParams ps next { i with unknown := i.unknown + 1 }
    | _ => tagParams ps next { i with fault := addFault i.fault (0x0A, pos) }

/-- A closed TAG block judged; an empty one where there is none. -/
def parseTag (tag : Text) : TagInfo :=
  if tag.length < 2 ∨ tag.getLast? ≠ some 0x5C then {}
  else
    let body := (tag.drop 1).dropLast
    let (head, sum) := splitFirst 0x2A body
    let i := tagParams (splitAll 0x2C head) 1 {}
    let ok := match sum with
      | some [a, b] => hexDigit a && hexDigit b && decide (hexVal a * 16 + hexVal b = (xorSum head).toNat)
      | _ => false
    if ok then i
    else { i with fault := addFault i.fault (0x0B, match sum with
      | some _ => 1 + head.length
      | none => tag.length - 1) }

/-- The value of a TAG parameter. -/
def TagInfo.value (i : TagInfo) (code : Nat) : Option Text := (i.params.find? (fun p => p.1 == code)).map (fun p => p.2)

/-! ### Address field (R48) -/

/-- The forms of an address field. -/
inductive AddrForm where
  | approved | encapsulation | query | proprietary | bad
  deriving DecidableEq, Repr

/-- An upper-case letter or digit. -/
def upperOrDigit (b : Byte) : Bool := upper b || digit b

/-- The form of an address field after its start delimiter. Five characters that end in `Q` are a query after either
delimiter; five that begin with `P` and would fit the approved form too are read as proprietary (log entry 401). -/
def addrForm (delim : Byte) (a : Text) : AddrForm :=
  let five := decide (a.length = 5) && (a.take 2).all upperOrDigit
  if decide (a.length = 5) && a.all upperOrDigit && a.getLast? == some 0x51 then .query
  else if delim.toNat = 0x21 then
    if five && (a.drop 2).all upper then .encapsulation else .bad
  else if decide (4 ≤ a.length ∧ a.length ≤ 6) && a.head? == some 0x50 && (a.drop 1).all upperOrDigit then .proprietary
  else if five && (a.drop 2).all upper then .approved
  else .bad

/-- The talker key of an address field (Table 3.4): two characters, or `P` and the mnemonic. -/
def talkerKey (f : AddrForm) (a : Text) : Text := if f = .proprietary then a.take 4 else a.take 2

/-- The address field of a taken sentence, where it was received whole and intact (R54). -/
def Taken.address (t : Taken) : Option Text :=
  match t.text with
  | [] => none
  | _ :: body =>
    let a := body.takeWhile (fun b => decide (b.toNat ≠ 0x2C ∧ b.toNat ≠ 0x2A ∧ b.toNat ≠ 0x0D ∧ b.toNat ≠ 0x0A))
    if a.length < body.length ∧ badChar a false 0 = none then some a else none

/-! ### The sentence as a whole (R49, R54) -/

/-- The parts of a sentence text: what the checksum covers with its start delimiter, the characters after `*`, and the
offset within the text of the terminator's first character; `lone` is an LF without CR. -/
structure Parts where
  body : Text
  sum : Option Text
  term : Nat
  lone : Bool
  deriving DecidableEq, Repr

/-- The parts of a complete sentence text. -/
def partsOf (text : Text) : Parts :=
  let noLf := text.dropLast
  let lone := noLf.getLast? != some 0x0D
  let core := if lone then noLf else noLf.dropLast
  let (b, s) := splitFirst 0x2A core
  { body := b, sum := s, term := core.length, lone := lone }

/-- The checksum is two hexadecimal digits with the right value. -/
def Parts.sumOk (p : Parts) : Bool :=
  match p.sum with
  | some [a, b] => hexDigit a && hexDigit b && decide (hexVal a * 16 + hexVal b = (xorSum (p.body.drop 1)).toNat)
  | _ => false

/-- What is judged of characters behind which the framing ended: a hex escape that may still have been completed is no
fault. -/
def openEnd (t : Text) : Text := t ++ [0x30, 0x30]

/-- The first character that R46 does not allow in a sentence whose framing ended early, `base` being the offset of its
start delimiter. A CR at its end is judged by what follows it (R49), the character that ended it by itself. -/
def Taken.firstBad (t : Taken) (base : Nat) : Option Nat :=
  if t.text.getLast? = some 0x0D then
    match badChar t.text.dropLast false base with
    | some o => some o
    | none => badChar (openEnd t.extra) (t.text.any (fun b => b == 0x2A)) (base + t.text.length)
  else if t.extra.isEmpty || t.text.isEmpty then badChar t.text false base
  else badChar (openEnd (t.text ++ t.extra)) false base

/-- What belongs to the TAG part of a taken sentence: the character that ended it too where it stood in an open block. -/
def Taken.tagPart (t : Taken) : Text := if t.inTag then t.tag ++ t.extra else t.tag

/-- What belongs to the sentence itself. -/
def Taken.rest (t : Taken) : Text := if t.inTag then t.text else t.text ++ t.extra

/-- The first fault of Table 3.2 found in a taken sentence up to its checksum, under a checksum policy. -/
def Taken.judge (t : Taken) (policy : Nat) (tagInfo : TagInfo) : Option (Nat × Nat) :=
  let base := t.tag.length
  let f := t.fault
  let f := match badTag (splitAll 0x5C (if t.inTag && !t.extra.isEmpty then openEnd t.tagPart else t.tag)) 0 with
    | some o => addFault f (0x03, o)
    | none => f
  let f := match tagInfo.fault with
    | some x => addFault f x
    | none => f
  if t.complete = false then
    match t.firstBad base with
    | some o => addFault f (0x03, o)
    | none => f
  else
    let p := partsOf t.text
    let f := match badChar (t.text.take p.term) false base with
      | some o => addFault f (0x03, o)
      | none => f
    let f := if p.lone && policy == 0 then addFault f (0x06, base + t.text.length - 1) else f
    let a := (p.body.drop 1).takeWhile (fun b => decide (b.toNat ≠ 0x2C))
    let f := if addrForm ((t.text.head?).getD 0) a = .bad then addFault f (0x07, base + 1) else f
    match p.sum with
    | none => if policy = 0 then addFault f (0x08, base + p.term) else f
    | some _ => if p.sumOk then f else addFault f (0x09, base + p.body.length)

/-! ### Fields (R62) -/

/-- What a field gives: a value, nothing, or a rejection reason. -/
inductive Field where
  | ok (v : Option Int)
  | bad (reason : Nat)
  deriving DecidableEq, Repr

/-- FIELD_SYNTAX. -/
abbrev fieldSyntax : Field := .bad 0x0D
/-- FIELD_RANGE. -/
abbrev fieldRange : Field := .bad 0x0E

/-- A slot value, FIELD_RANGE where it does not fit INTEGER32. -/
def slotValue (v : Int) : Field := if -(2 ^ 31) ≤ v ∧ v < 2 ^ 31 then .ok (some v) else fieldRange

/-- The number a field spells: an optional `-`, digits with at most one full stop, at least one digit. -/
def fieldNumber (t : Text) : Option Rat :=
  let neg := t.head? == some 0x2D
  let u := if neg then t.drop 1 else t
  let (w, f) := splitFirst 0x2E u
  let frac := f.getD []
  if w.all digit && frac.all digit && decide (0 < w.length + frac.length) then
    let v : Rat := (decVal (w ++ frac) : Rat) / ((10 ^ frac.length : Nat) : Rat)
    some (if neg then -v else v)
  else none

/-- A number scaled and rounded half away from zero. -/
def numField (scale : Rat) (t : Text) : Field :=
  if t.isEmpty then .ok none
  else match fieldNumber t with
    | some v => slotValue (roundAway (v * scale))
    | none => fieldSyntax

/-- An angle from 0 to 360 degrees in thousandths, 360 stored as 0. -/
def angleField (t : Text) : Field :=
  if t.isEmpty then .ok none
  else match fieldNumber t with
    | some v => if v < 0 ∨ 360 < v then fieldRange else .ok (some (roundAway (v * 1000) % 360000))
    | none => fieldSyntax

/-- A character field. -/
def charField (t : Text) : Field :=
  match t with
  | [] => .ok none
  | [c] => .ok (some c.toNat)
  | _ => fieldSyntax

/-- Characters packed with the first in the low byte, as an INTEGER32. -/
def packChars (t : Text) : Int := toSigned 32 (leNat t)

/-- A mnemonic of up to four characters. -/
def mnemField (t : Text) : Field :=
  if t.isEmpty then .ok none else if 4 < t.length then fieldRange else .ok (some (packChars t))

/-- A time hhmmss.ss in milliseconds of the day. -/
def timeField (t : Text) : Field :=
  if t.isEmpty then .ok none
  else
    let (w, f) := splitFirst 0x2E t
    let frac := f.getD []
    if w.length = 6 ∧ w.all digit = true ∧ frac.all digit = true then
      let h := decVal (w.take 2)
      let m := decVal ((w.drop 2).take 2)
      let s : Rat := (decVal (w.drop 4 ++ frac) : Rat) / ((10 ^ frac.length : Nat) : Rat)
      if h < 24 ∧ m < 60 ∧ s < 61 then .ok (some ((h * 3600 + m * 60) * 1000 + roundAway (s * 1000))) else fieldRange
    else fieldSyntax

/-- Latitude or longitude in 10^-7 degree: `deg` digits of degrees, the limit, and the letters of plus and minus. -/
def geoField (deg limit plus minus : Nat) (t letter : Text) : Field :=
  if t.isEmpty then .ok none
  else
    let (w, f) := splitFirst 0x2E t
    let frac := f.getD []
    let sign : Option Int := match letter with
      | [c] => if c.toNat = plus then some 1 else if c.toNat = minus then some (-1) else none
      | _ => none
    match sign with
    | none => fieldSyntax
    | some sg =>
      if w.length = deg + 2 ∧ w.all digit = true ∧ frac.all digit = true then
        let m : Rat := (decVal (w.drop deg ++ frac) : Rat) / ((10 ^ frac.length : Nat) : Rat)
        let d : Rat := (decVal (w.take deg) : Rat) + m / 60
        if m < 60 ∧ d ≤ (limit : Rat) then slotValue (sg * roundAway (d * 10000000)) else fieldRange
      else fieldSyntax

/-- Deviation or variation in thousandths of a degree, east positive. -/
def ewField (t letter : Text) : Field :=
  if t.isEmpty then .ok none
  else match letter with
    | [c] =>
      if c.toNat = 0x45 then numField 1000 t
      else if c.toNat = 0x57 then
        match fieldNumber t with
        | some v => slotValue (roundAway (-v * 1000))
        | none => fieldSyntax
      else fieldSyntax
    | _ => fieldSyntax

/-- The days of a month of the Gregorian calendar. -/
def monthDays (y m : Nat) : Nat :=
  if m = 2 then (if (y % 4 = 0 ∧ y % 100 ≠ 0) ∨ y % 400 = 0 then 29 else 28)
  else if m = 4 ∨ m = 6 ∨ m = 9 ∨ m = 11 then 30 else 31

/-- The date exists. -/
def dateExists (y m d : Nat) : Bool := decide (1 ≤ m ∧ m ≤ 12 ∧ 1 ≤ d ∧ d ≤ monthDays y m)

/-- Days from 2000-01-01 to a day of the Gregorian calendar (R25, R62). -/
def daysFrom2000 (y m d : Nat) : Int :=
  let y' := if m ≤ 2 then y - 1 else y
  let era := y' / 400
  let yoe := y' - era * 400
  let mp := if 2 < m then m - 3 else m + 9
  let doy := (153 * mp + 2) / 5 + d - 1
  let doe := yoe * 365 + yoe / 4 - yoe / 100 + doy
  (era * 146097 + doe : Int) - 730425

/-- The RMC date ddmmyy in days since 2000-01-01. -/
def dateField (t : Text) : Field :=
  if t.isEmpty then .ok none
  else if t.length = 6 ∧ t.all digit = true then
    let d := decVal (t.take 2)
    let m := decVal ((t.drop 2).take 2)
    let y := 2000 + decVal (t.drop 4)
    if dateExists y m d then .ok (some (daysFrom2000 y m d)) else fieldRange
  else fieldSyntax

/-- A field of digits alone, of a set length where one is given. -/
def digitsField (len : Option Nat) (t : Text) : Field :=
  if t.isEmpty then .ok none
  else if allDigits t && (match len with
      | some n => decide (t.length = n)
      | none => true) then slotValue (decVal t)
  else fieldSyntax

/-! ### Formatters (R63, Table 3.9) -/

/-- The formatter code of a three-letter formatter. -/
def formatterCode (f : Text) : Nat :=
  match ["GGA", "GLL", "RMC", "VTG", "HDT", "THS", "HDG", "ROT", "VBW", "VHW", "DPT", "DBT", "ZDA", "XDR", "MWV",
      "ALF", "ALC", "ACN", "ALR"].findIdx? (fun n => ascii n == f) with
  | some i => i + 1
  | none => 0

/-- The formatter letters of a code of Table 3.9. -/
def formatterName (code : Nat) : Text :=
  match ["GGA", "GLL", "RMC", "VTG", "HDT", "THS", "HDG", "ROT", "VBW", "VHW", "DPT", "DBT", "ZDA", "XDR", "MWV",
      "ALF", "ALC", "ACN", "ALR"][code - 1]? with
  | some n => if code = 0 then [] else ascii n
  | none => []

/-- One extracted slot: the field it begins with, and its value. -/
abbrev SlotRead := Nat × Field

/-- The slots of a formatter, V0 first; `g n` is field n of the sentence. -/
def slotReads (code : Nat) (g : Nat → Text) : List SlotRead :=
  let lat (n : Nat) : SlotRead := (n, geoField 2 90 0x4E 0x53 (g n) (g (n + 1)))
  let lon (n : Nat) : SlotRead := (n, geoField 3 180 0x45 0x57 (g n) (g (n + 1)))
  let num (n : Nat) (k : Rat) : SlotRead := (n, numField k (g n))
  let ang (n : Nat) : SlotRead := (n, angleField (g n))
  let chr (n : Nat) : SlotRead := (n, charField (g n))
  let mnem (n : Nat) : SlotRead := (n, mnemField (g n))
  let time (n : Nat) : SlotRead := (n, timeField (g n))
  match code with
  | 0x01 => [lat 1, lon 3, time 0, num 5 1, num 6 1, num 7 100, num 8 100, num 10 100, num 12 10, num 13 1]
  | 0x02 => [lat 0, lon 2, time 4, chr 5, chr 6]
  | 0x03 => [lat 2, lon 4, time 0, chr 1, num 6 1000, ang 7, (8, dateField (g 8)), (9, ewField (g 9) (g 10)), chr 11, chr 12]
  | 0x04 => [ang 0, ang 2, num 4 1000, num 6 1000, chr 8]
  | 0x05 => [ang 0]
  | 0x06 => [ang 0, chr 1]
  | 0x07 => [ang 0, (1, ewField (g 1) (g 2)), (3, ewField (g 3) (g 4))]
  | 0x08 => [num 0 1000, chr 1]
  | 0x09 => [num 0 1000, num 1 1000, chr 2, num 3 1000, num 4 1000, chr 5, num 6 1000, chr 7, num 8 1000, chr 9]
  | 0x0A => [ang 0, ang 2, num 4 1000, num 6 1000]
  | 0x0B => [num 0 1000, num 1 1000, num 2 1]
  | 0x0C => [if (g 2).isEmpty then num 0 (3048 / 10) else num 2 1000]
  | 0x0D => [time 0, (1, digitsField none (g 1)), (2, digitsField none (g 2)), (3, digitsField (some 4) (g 3)), num 4 1, num 5 1]
  | 0x0F =>
    [ang 0,
     (1, match charField (g 1) with
        | .ok (some c) => if c = 0x52 then .ok (some 0) else if c = 0x54 then .ok (some 1) else fieldSyntax
        | x => x),
     num 2 1000, chr 3,
     (2, match g 3 with
        | [u] =>
          if u.toNat = 0x4B then numField (10000 / 36) (g 2)
          else if u.toNat = 0x4D then numField 1000 (g 2)
          else if u.toNat = 0x4E then numField (18520 / 36) (g 2)
          else if u.toNat = 0x53 then numField (44704 / 100) (g 2)
          else .ok none
        | _ => .ok none),
     chr 4]
  | 0x10 => [num 0 1, num 1 1, num 2 1, time 3, chr 4, chr 5, chr 6, mnem 7, num 8 1, num 9 1]
  | 0x11 => [num 0 1, num 1 1, num 2 1, num 3 1, mnem 4, num 5 1, num 6 1, num 7 1]
  | 0x12 => [time 0, mnem 1, num 2 1, num 3 1, chr 4, chr 5]
  | 0x13 => [time 0, num 1 1, chr 2, chr 3]
  | _ => []

/-- Slots without a fault, or the first fault (syntax before range, then the earlier field). -/
def gather : List SlotRead → Except (Nat × Nat) (List (Option Int))
  | [] => .ok []
  | (n, .ok v) :: t =>
    match gather t with
    | .ok vs => .ok (v :: vs)
    | .error e => .error e
  | (n, .bad r) :: t =>
    match gather t with
    | .ok _ => .error (r, n)
    | .error e => .error (worse (r, n) e)

/-- Slot n of a list. -/
def slotAt (vs : List (Option Int)) (n : Nat) : Option Int := (vs[n]?).getD none

/-- The date of a ZDA is one that R62 accepts; judged where all three fields hold a value. -/
def zdaDateOk (vs : List (Option Int)) : Bool :=
  match slotAt vs 1, slotAt vs 2, slotAt vs 3 with
  | some d, some m, some y =>
    dateExists y.toNat m.toNat d.toNat && decide (2000 ≤ y ∧ y ≤ 2135)
  | _, _, _ => true

/-- "Status invalid when" of Table 3.9. -/
def statusInvalid (code : Nat) (vs : List (Option Int)) : Bool :=
  let v (n : Nat) := slotAt vs n
  match code with
  | 0x01 => v 3 == some 0
  | 0x02 => v 3 == some 0x56 || v 4 == some 0x4E
  | 0x03 => v 3 == some 0x56
  | 0x04 => v 4 == some 0x4E
  | 0x05 => (v 0).isNone
  | 0x06 => v 1 == some 0x56
  | 0x07 => (v 0).isNone
  | 0x08 => v 1 == some 0x56
  | 0x09 => v 2 == some 0x56 && v 5 == some 0x56 && v 7 == some 0x56 && v 9 == some 0x56
  | 0x0B => (v 0).isNone
  | 0x0C => (v 0).isNone
  | 0x0E => (v 2).isNone
  | 0x0F => v 5 == some 0x56
  | _ => false

/-- An XDR identifier in V3 to V6, four characters to a slot; slots past its end are empty. -/
def xdrIdSlots (id : Text) : List (Option Int) :=
  [0, 4, 8, 12].map (fun k => if id.length ≤ k then none else some (packChars ((id.drop k).take 4)))

/-- The identifier that V3 to V6 of an XDR record hold. -/
def xdrIdOf (vs : List (Option Int)) : Text :=
  ([3, 4, 5, 6].flatMap (fun n => match slotAt vs n with
    | some x => leBytes 4 (ofSigned 32 x)
    | none => [])).filter (fun b => b != 0)

/-- One XDR quadruplet: its slots, or its fault (R64). -/
def xdrQuad (neg : Bool) (index count : Nat) (g : Nat → Text) : Except (Nat × Nat) (List (Option Int)) :=
  let k := 4 * (index - 1)
  let ty := charField (g k)
  let val := if neg && g k == ascii "A" then
      (match numField 1000 (g (k + 1)) with
        | .ok (some v) => slotValue (-v)
        | x => x)
    else numField 1000 (g (k + 1))
  match gather [(k, ty), (k + 2, charField (g (k + 2))), (k + 1, val),
      (k + 3, if 16 < (g (k + 3)).length then fieldRange else .ok none)] with
  | .error e => .error e
  | .ok vs => .ok ([slotAt vs 0, slotAt vs 1, slotAt vs 2] ++ xdrIdSlots (g (k + 3)) ++ [some (index : Int), some (count : Int)])

/-- The records of an XDR sentence: one per quadruplet with a field that is not empty (R64). -/
def xdrRecords (neg : Bool) (count : Nat) (g : Nat → Text) : Nat → Except (Nat × Nat) (List (List (Option Int) × Bool))
  | 0 => .ok []
  | n + 1 =>
    match xdrRecords neg count g n, xdrQuad neg (n + 1) count g with
    | .error e, .error f => .error (worse e f)
    | .error e, .ok _ => .error e
    | .ok _, .error f => .error f
    | .ok l, .ok vs =>
      if [4 * n, 4 * n + 1, 4 * n + 2, 4 * n + 3].all (fun k => (g k).isEmpty) then .ok l
      else .ok (l ++ [(vs, statusInvalid 0x0E vs)])

/-- The records a sentence gives: slots and status of each, or its fault and the field it begins in (R62 to R64). -/
def extract (code : Nat) (negate : Bool) (fields : List Text) : Except (Nat × Nat) (List (List (Option Int) × Bool)) :=
  let g (n : Nat) : Text := (fields[n]?).getD []
  if code = 0x0E then
    let count := (fields.length + 3) / 4
    xdrRecords negate count g count
  else match gather (slotReads code g) with
    | .error e => .error e
    | .ok vs =>
      if code = 0x0D ∧ zdaDateOk vs = false then .error (0x0E, 1)
      else .ok [(vs, statusInvalid code vs)]

/-- The offset within a sentence text of the first character of field `n`, whose address field has `a` characters. -/
def fieldOffset (a : Nat) (fields : List Text) (n : Nat) : Nat :=
  a + 2 + (fields.take n).foldl (fun k t => k + t.length + 1) 0

end Sys2Proof.Machine
end

