-- ==== Sys2Proof/Machine/Translate.lean ====
section
/-! DEFINITION. The translation set of R96: fields of the nine PGNs to and from slots. Field positions and the
data-not-available values are those of IEC 61162-3 (PRESUMED: the manual refers to that standard). -/

namespace Sys2Proof.Machine

open Sys2Proof

/-- The number pi to 50 decimals: R96 rounds exact products of it, which this decides for every slot value. -/
def piExact : Rat := 314159265358979323846264338327950288419716939937510 / (100000000000000000000000000000000000000000000000000 : Rat)

/-- The signed field of `n` bytes at offset `k`; empty where not available (the largest positive value). -/
def sField (k n : Nat) (b : List Byte) : Option Int :=
  if b.length < k + n then none
  else
    let v := toSigned (8 * n) (leNat ((b.drop k).take n))
    if v = 2 ^ (8 * n - 1) - 1 then none else some v

/-- The unsigned field of `n` bytes at offset `k`; empty where not available (all ones). -/
def uField (k n : Nat) (b : List Byte) : Option Int :=
  if b.length < k + n then none
  else
    let v := leNat ((b.drop k).take n)
    if v = 2 ^ (8 * n) - 1 then none else some v

/-- `w` bits of the byte at `k` from bit `lo`. -/
def bitField (k lo w : Nat) (b : List Byte) : Nat := (((b[k]?).getD 0xFF).toNat / 2 ^ lo) % 2 ^ w

/-- The bytes of a signed field, not available where empty or too large. -/
def sBytes (n : Nat) (v : Option Int) : List Byte :=
  match v with
  | some x => if -(2 ^ (8 * n - 1)) ≤ x ∧ x < 2 ^ (8 * n - 1) - 1 then leBytes n (ofSigned (8 * n) x) else leBytes n (2 ^ (8 * n - 1) - 1)
  | none => leBytes n (2 ^ (8 * n - 1) - 1)

/-- The bytes of an unsigned field, not available where empty or out of range. -/
def uBytes (n : Nat) (v : Option Int) : List Byte :=
  match v with
  | some x => if 0 ≤ x ∧ x < 2 ^ (8 * n) - 1 then leBytes n x.toNat else leBytes n (2 ^ (8 * n) - 1)
  | none => leBytes n (2 ^ (8 * n) - 1)

/-- An exact product or quotient, rounded half away from zero (R96). -/
def scaled (k : Rat) (v : Option Int) : Option Int := v.map (fun x => roundAway ((x : Rat) * k))

/-- Conversion A towards the PGN (R96). -/
def convA (v : Option Int) : Option Int := scaled (piExact / 18) v
/-- Conversion A from the PGN. -/
def convAInv (x : Option Int) : Option Int := scaled (18 / piExact) x
/-- Conversion S towards the PGN. -/
def convS (v : Option Int) : Option Int := scaled (1852 / 36000) v
/-- Conversion S from the PGN. -/
def convSInv (x : Option Int) : Option Int := scaled (36000 / 1852) x
/-- Rate of turn towards the PGN. -/
def convRot (v : Option Int) : Option Int := scaled (piExact / (3375 / 10000)) v
/-- Rate of turn from the PGN. -/
def convRotInv (x : Option Int) : Option Int := scaled ((3375 / 10000) / piExact) x

/-- The civil date of a count of days since 2000-01-01: year, month, day. -/
def civilFrom2000 (n : Int) : Nat × Nat × Nat :=
  let z := n + 730425
  let era := z / 146097
  let doe := (z - era * 146097).toNat
  let yoe := (doe - doe / 1460 + doe / 36524 - doe / 146096) / 365
  let doy := doe - (365 * yoe + yoe / 4 - yoe / 100)
  let mp := (5 * doy + 2) / 153
  let d := doy - (153 * mp + 2) / 5 + 1
  let m := if mp < 10 then mp + 3 else mp - 9
  let y := (yoe : Int) + era * 400 + (if m ≤ 2 then 1 else 0)
  (y.toNat, m, d)

/-- What a message of the translation set becomes: formatter code and slots; each slot with the offset of its field. -/
def fromPgn (pgn : Nat) (b : List Byte) : Option (Nat × List (Nat × Option Int)) :=
  match pgn with
  | 126992 =>
    let ymd := (uField 2 2 b).map (fun d => civilFrom2000 (d - 10957))
    some (0x0D, [(4, scaled (1 / 10) (uField 4 4 b)), (2, ymd.map (fun x => (x.2.2 : Int))), (2, ymd.map (fun x => (x.2.1 : Int))),
      (2, ymd.map (fun x => (x.1 : Int)))])
  | 127250 =>
    let r := bitField 7 0 2 b
    if r = 0 then some (0x05, [(1, convAInv (uField 1 2 b))])
    else if r = 1 then some (0x07, [(1, convAInv (uField 1 2 b)), (3, convAInv (sField 3 2 b)), (5, convAInv (sField 5 2 b))])
    else none
  | 127251 => some (0x08, [(1, convRotInv (sField 1 4 b))])
  | 128259 => some (0x0A, [(1, none), (1, none), (1, convSInv (uField 1 2 b)), (1, scaled 36 (uField 1 2 b))])
  | 128267 => some (0x0B, [(1, scaled 10 (uField 1 4 b)), (5, sField 5 2 b), (7, scaled 10 (uField 7 1 b))])
  | 129025 => some (0x02, [(0, sField 0 4 b), (4, sField 4 4 b)])
  | 129026 =>
    if bitField 1 0 2 b = 0 then
      some (0x04, [(2, convAInv (uField 2 2 b)), (2, none), (4, convSInv (uField 4 2 b)), (4, scaled 36 (uField 4 2 b))])
    else none
  | 129029 =>
    let refs := match uField 42 1 b with
      | some n => decide (1 ≤ n)
      | none => false
    let method := bitField 31 4 4 b
    some (0x01, [(7, scaled (1 / 1000000000) (sField 7 8 b)), (15, scaled (1 / 1000000000) (sField 15 8 b)),
      (3, scaled (1 / 10) (uField 3 4 b)), (31, if method ≤ 8 then some (method : Int) else none), (33, uField 33 1 b),
      (34, sField 34 2 b), (23, scaled (1 / 10000) (sField 23 8 b)), (38, sField 38 4 b),
      (45, if refs then scaled (1 / 10) (uField 45 2 b) else none),
      (43, if refs then (let v := leNat ((b.drop 43).take 2) / 16
        if v = 0xFFF then none else some (v : Int)) else none)])
  | 130306 =>
    let r := bitField 5 0 3 b
    if r = 2 ∨ r = 3 then
      some (0x0F, [(3, convAInv (uField 3 2 b)), (5, some (if r = 2 then 0 else 1)), (1, none), (1, none), (1, scaled 10 (uField 1 2 b))])
    else none
  | _ => none

/-- One translated message: PGN, priority, data. -/
structure PgnOut where
  pgn : Nat
  priority : Nat
  data : List Byte
  deriving DecidableEq, Repr

/-- The PGNs a formatter is translated to, in the order of Table 4.6. -/
def pgnsOf (code : Nat) : List Nat :=
  match code with
  | 0x01 => [129029]
  | 0x02 => [129025]
  | 0x03 => [129025, 129026]
  | 0x04 => [129026]
  | 0x05 => [127250]
  | 0x06 => [127250]
  | 0x07 => [127250]
  | 0x08 => [127251]
  | 0x0A => [128259]
  | 0x0B => [128267]
  | 0x0C => [128267]
  | 0x0D => [126992]
  | 0x0F => [130306]
  | _ => []

/-- The PGN holds a SID (all but 129025). -/
def pgnHasSid (pgn : Nat) : Bool := pgn != 129025

/-- The priority of Table 4.6. -/
def pgnPriority (pgn : Nat) : Nat := if pgn = 126992 ∨ pgn = 128267 ∨ pgn = 129029 then 3 else 2

/-- Reserved bits of IEC 61162-3 are sent as ones. -/
def onesByte (low w : Nat) : List Byte := [BitVec.ofNat 8 (low % 2 ^ w + (256 - 2 ^ w))]

/-- The data of a translated message: `v` the slots, `sid` the listener's counter, `date` the days since 2000 of the
pip's UTC date. -/
def toPgn (code pgn sid : Nat) (date : Int) (v : Nat → Option Int) : List Byte :=
  let id : List Byte := [BitVec.ofNat 8 sid]
  match pgn with
  | 126992 =>
    let days := match v 1, v 2, v 3 with
      | some d, some m, some y => some (daysFrom2000 y.toNat m.toNat d.toNat + 10957)
      | _, _, _ => none
    id ++ onesByte 0 4 ++ uBytes 2 days ++ uBytes 4 (scaled 10 (v 0))
  | 127250 =>
    let hdg := code == 0x07
    id ++ uBytes 2 (convA (v 0)) ++ sBytes 2 (if hdg then convA (v 1) else none) ++
      sBytes 2 (if hdg then convA (v 2) else none) ++ onesByte (if hdg then 1 else 0) 2
  | 127251 => id ++ sBytes 4 (convRot (v 0)) ++ [0xFF, 0xFF, 0xFF]
  | 128259 => id ++ uBytes 2 (convS (v 2)) ++ [0xFF, 0xFF] ++ [0xFF, 0xFF, 0xFF]
  | 128267 =>
    let dpt := code == 0x0B
    id ++ uBytes 4 (scaled (1 / 10) (v 0)) ++ sBytes 2 (if dpt then v 1 else none) ++
      uBytes 1 (if dpt then scaled (1 / 10) (v 2) else none)
  | 129025 => sBytes 4 (v 0) ++ sBytes 4 (v 1)
  | 129026 =>
    let rmc := code == 0x03
    id ++ onesByte 0 2 ++ uBytes 2 (convA (if rmc then v 5 else v 0)) ++ uBytes 2 (convS (if rmc then v 4 else v 2)) ++ [0xFF, 0xFF]
  | 129029 =>
    let method := match v 3 with
      | some m => if 0 ≤ m ∧ m ≤ 8 then m.toNat else 15
      | none => 15
    let ref := (v 8).isSome || (v 9).isSome
    let refId := match v 9 with
      | some i => if 0 ≤ i ∧ i < 0xFFF then i.toNat else 0xFFF
      | none => 0xFFF
    id ++ uBytes 2 (some (date + 10957)) ++ uBytes 4 (scaled 10 (v 2)) ++ sBytes 8 (scaled 1000000000 (v 0)) ++
      sBytes 8 (scaled 1000000000 (v 1)) ++ sBytes 8 (scaled 10000 (v 6)) ++ [BitVec.ofNat 8 (16 * method)] ++ onesByte 0 2 ++
      uBytes 1 (v 4) ++ sBytes 2 (v 5) ++ sBytes 2 none ++ sBytes 4 (v 7) ++ [if ref then 1 else 0] ++
      (if ref then leBytes 2 (15 + 16 * refId) ++ uBytes 2 (scaled 10 (v 8)) else [])
  | 130306 =>
    let r := match v 1 with
      | some 0 => 2
      | some 1 => 3
      | _ => 7
    id ++ uBytes 2 (scaled (1 / 10) (v 4)) ++ uBytes 2 (convA (v 0)) ++ onesByte r 3 ++ [0xFF, 0xFF]
  | _ => []

end Sys2Proof.Machine
end

