-- ==== Sys2Proof/Machine/Wheels.lean ====
section
/-! DEFINITION. Position wheels (R24 to R38, R388, R44, R45): wheel states, the time wheel's sources, labels, steps and
discipline, the shaft, mains and sea wheels, error bounds, and the outputs PPS_OUT and WHL_EVT. -/

namespace Sys2Proof.Machine

open Sys2Proof

/-- One revolution of an accumulator. -/
abbrev oneRev : Nat := 0x10000000000000000

/-- One unit of a visible position in an accumulator. -/
abbrev oneUnit : Nat := 0x100000000

/-! ### Rates and states (R26) -/

/-- The nominal time-wheel increment (R24). -/
def nominalInc : Int := 0xABCC77118

/-- The fixed rate of a wheel in COASTING, unreferenced (R26). -/
def State.fixedInc (s : State) (w : Nat) : Int :=
  match w with
  | 0 => nominalInc
  | 1 => 0
  | 2 => incOf (s.cn 0x200A 1 0)
  | _ => incOf (1000 / (s.cn 0x200B 2 0 : Rat))

/-- Change a wheel's rate; it then runs free of expected edges. -/
def State.setInc (w : Nat) (inc : Int) (s : State) : State :=
  { s with wheels := s.wheels.mod w (fun x => { x with inc := inc, room := none, turnIn := 0 }) }

/-- The error bound of a wheel at `t` seconds after its last reference event, in revolutions (R38, Table 2.5). -/
def State.boundRev (s : State) (w : Nat) (t : Rat) : Rat :=
  let x := s.wheels.get w
  match w with
  | 0 => x.e0 + (s.cn 0x2008 0x0B 0 : Rat) / 100000000000 * t + (s.cn 0x2008 0x0C 0 : Rat) / 1000000000000 * t * t / 2
  | 1 => x.e0 + (s.cn 0x2009 5 0 : Rat) / 1000 * t * t / 2
  | 2 => x.e0 + (s.cn 0x200A 3 0 : Rat) / 1000 * t * t / 2
  | _ =>
    let b := x.e0 + (match s.wheels.est.period with
      | some p => (15 / 100) / p * t
      | none => 0)
    if 1 / 2 < b then 1 / 2 else b

/-- The error bound now, in revolutions, for a wheel that is LOCKED or COASTING after lock. -/
def State.boundNow (s : State) (w : Nat) : Rat := s.boundRev w (secs (s.fc - (s.wheels.get w).lastRef))

/-- The error bound as 0x2000:04 reports it: units of 2^-32 revolution, saturating (R38). -/
def State.errorBound (s : State) (w : Nat) : Nat :=
  match (s.wheels.get w).state with
  | .unref => 0xFFFFFFFF
  | .acquiring => 0xFFFFFFFF
  | _ => satU32 (roundReport (s.boundNow w * 2 ^ 32))

/-- Put a wheel in a state, with its event and, on the time wheel, the coasting alert (R26, Table 13.6). -/
def State.setWheel (w : Nat) (st : WState) (s : State) : State :=
  let old := (s.wheels.get w).state
  if old = st then s
  else
    let s := { s with wheels := s.wheels.mod w (fun x =>
      { x with state := st, everLocked := x.everLocked || decide (st = WState.locked) }) }
    let s := s.event 0x1001 w (pack16 old.code st.code)
    let s := if w = 3 ∧ old = .locked then { s with analog.seaLeft := s.time } else s
    if w = 0 then
      if old = .afterLock then s.endAlert 0x1004 0
      else if st = .afterLock then s.event 0x1004 0 (s.errorBound 0)
      else s
    else s

/-- A wheel moved at once to a visible position, under R31 when it is more than the next unit away. -/
def State.moveTo (w : Nat) (p : WheelPos) (s : State) : State :=
  let old := (s.wheels.get w).visible
  let s := { s with wheels := s.wheels.mod w (Wheel.place p) }
  if (posDiff p old).natAbs ≤ 1 then s else s.jumped w old p

/-- A source is lost by a wheel: COASTING after lock at its last rate, or unreferenced at the fixed rate (R26). -/
def State.coast (w : Nat) (s : State) : State :=
  let s := { s with wheels := s.wheels.mod w (fun x => { x with source := 0, room := none }) }
  if (s.wheels.get w).everLocked then s.setWheel w .afterLock
  else (s.setInc w (s.fixedInc w)).setWheel w .unref

/-! ### The time wheel: sources (R27) -/

/-- The listed sources, first to last (R27). -/
def sourceList (v : Nat) : List Nat := (fields 8 4 v).takeWhile (fun e => decide (e ≠ 0))

/-- The time-source list in force. -/
def State.sources (s : State) : List Nat := sourceList (s.cn 0x2008 1 0)

/-- IEEE 1588 of the port that a source code names. -/
def State.ptpOf (s : State) (src : Nat) : Ptp := (Tbl.get {} (src - 2) s.eth).ptp

/-- A source is present (R27). -/
def State.present (s : State) (src : Nat) : Bool :=
  if src = 1 then s.wheels.pps.present else (s.ptpOf src).present

/-- A source is qualified: present, with its own lock condition met (R27, R29, R32), IEEE 1588 over a link at 1000 Mbit/s
only (R194). -/
def State.qualified (s : State) (src : Nat) : Bool :=
  s.present src && (if src = 1 then decide (10 ≤ s.wheels.pps.good) && s.wheels.pps.zdaAgreed
    else decide (16 ≤ (s.ptpOf src).good) && decide ((Tbl.get ({} : EPort) (src - 2) s.eth).link = 1))

/-- The wheel's last measured offset from a source, in seconds. -/
def State.offsetOf (s : State) (src : Nat) : Rat :=
  if src = 1 then s.wheels.pps.offset else (s.ptpOf src).offsetNs / 1000000000

/-- Since when a source has been qualified without interruption. -/
def State.qualSince (s : State) (src : Nat) : Option Nat :=
  if src = 1 then s.wheels.pps.qualifiedSince else (s.ptpOf src).qualifiedSince

/-- Keep the moment since which every source has been qualified. -/
def State.trackQualified (s : State) : State :=
  let upd (src : Nat) (o : Option Nat) : Option Nat := if s.qualified src then some (o.getD s.fc) else none
  let p1 := upd 2 (s.ptpOf 2).qualifiedSince
  let p2 := upd 3 (s.ptpOf 3).qualifiedSince
  { s with
    wheels := { s.wheels with pps := { s.wheels.pps with qualifiedSince := upd 1 s.wheels.pps.qualifiedSince } }
    eth := if p1 = (s.ptpOf 2).qualifiedSince ∧ p2 = (s.ptpOf 3).qualifiedSince then s.eth
      else Tbl.mod {} 1 (fun p => { p with ptp := { p.ptp with qualifiedSince := p2 } })
        (Tbl.mod {} 0 (fun p => { p with ptp := { p.ptp with qualifiedSince := p1 } }) s.eth) }

/-- The leap count in use: 0x2008:0A, or the UTC offset of an active IEEE 1588 master less 32 (R25). -/
def State.leap (s : State) : Int :=
  let src := s.wheels.time.source
  let utc := if src = 2 ∨ src = 3 then
      match (s.ptpOf src).selected with
      | some k => ((s.ptpOf src).masters.find? (fun m => m.clockId == k.1 && m.portId == k.2)).bind (fun m => m.utc)
      | none => none
    else none
  match utc with
  | some u => u - 32
  | none => s.ci 0x2008 0x0A 0

/-- Note that the leap count has changed from what it was before, at a position: the change takes effect at the pips that
follow (R93). -/
def State.noteLeap (before : Int) (at_ : WheelPos) (s : State) : State :=
  if s.leap = before then s else { s with wheels.leaps := (before, at_) :: s.wheels.leaps }

/-- Do what may change the leap count, and note the change once. -/
def State.keepLeap (f : State → State) (s : State) : State :=
  let t := f s
  { t with wheels.leaps := if t.leap = s.leap then s.wheels.leaps else (s.leap, s.time) :: s.wheels.leaps }

/-- The leap count in force at a position, from the one in force now and those before it, newest first. -/
def leapBefore (l : Int) (p : WheelPos) : List (Int × WheelPos) → Int
  | [] => l
  | (o, q) :: t => if posAtOrAfter p q then l else leapBefore o p t

/-- The leap count in force at a position (R25, R93). -/
def State.leapAt (s : State) (p : WheelPos) : Int := leapBefore s.leap p s.wheels.leaps

/-- The time wheel's increment from its rate correction (R388). -/
def State.applyC (s : State) : State :=
  { s with wheels := { s.wheels with time := { s.wheels.time with inc := roundInc ((nominalInc : Rat) * (1 + s.wheels.loop.c)) } } }

/-- Change the loop. -/
def State.setLoop (f : Loop → Loop) (s : State) : State :=
  { s with wheels := { s.wheels with loop := f s.wheels.loop } }

/-- The active source of the time wheel (R27); its UTC offset may be another (R25). -/
def State.followSource (src : Nat) (s : State) : State :=
  s.keepLeap (fun s => { s with wheels := { s.wheels with time := { s.wheels.time with source := src } } })

/-- Follow a source in ACQUIRING (R27, R388: e_prev is cleared, y keeps its value). -/
def State.acquire (src : Nat) (s : State) : State :=
  ((s.setLoop (fun l => { l with ePrev := none })).followSource src).setWheel 0 .acquiring

/-- The time wheel loses every source (R26, R388). -/
def State.coastTime (s : State) : State :=
  let s := s.followSource 0
  if s.wheels.time.everLocked then
    (s.setLoop (fun l => { l with c := l.y })).applyC.setWheel 0 .afterLock
  else
    ((s.setLoop (fun l => { l with y := 0, c := 0 })).setInc 0 nominalInc).setWheel 0 .unref

/-- Make a qualified source active while LOCKED: LOCKED below 1 µs of offset, ACQUIRING otherwise (R27). -/
def State.takeSource (src : Nat) (s : State) : State :=
  if (s.offsetOf src).abs < 1 / 1000000 then s.followSource src else s.acquire src

/-- The choice of the active source (R27). -/
def State.chooseSource (s : State) : State :=
  let list := s.sources
  let q := list.find? (fun c => s.qualified c)
  let p := list.find? (fun c => s.present c)
  let a := s.wheels.time.source
  let listed := decide (a ∈ list) && s.present a
  match s.wheels.time.state with
  | .locked =>
    if listed && s.qualified a then s
    else match q with
      | some c => s.takeSource c
      | none => match p with
        | some c => s.acquire c
        | none => s.coastTime
  | .acquiring =>
    let want := match q with
      | some c => some c
      | none => match p with
        | some c => some c
        | none => none
    match want with
    | none => s.coastTime
    | some c => if c = a ∧ listed = true then s else s.acquire c
  | _ =>
    match (match q with
      | some c => some c
      | none => p) with
    | some c => s.acquire c
    | none => s

/-- In ACQUIRING the wheel enters LOCKED when its active source meets its lock condition (R27). -/
def State.lockTime (s : State) : State :=
  if s.wheels.time.state = .acquiring ∧ s.qualified s.wheels.time.source = true then s.setWheel 0 .locked else s

/-- Two qualified sources that differ by more than 10 µs raise an event, once while they do (R27). -/
def State.judgeSources (s : State) : State :=
  let qs := s.sources.filter (fun c => s.qualified c)
  let diffs := qs.map (fun c => (qs.map (fun d => ((s.offsetOf c - s.offsetOf d).abs))).foldl max 0)
  let m := diffs.foldl max 0
  if 1 / 100000 < m then
    if s.wheels.disagreeing then s
    else ({ s with wheels := { s.wheels with disagreeing := true } }).event 0x1003 s.wheels.time.source
      (satU32 (roundReport (m * 1000000000)))
  else { s with wheels := { s.wheels with disagreeing := false } }

/-- After any change of a source: choice, lock, disagreement. -/
def State.sourceChanged (s : State) : State := s.trackQualified.chooseSource.lockTime.judgeSources

/-- The PI loop of R388 at an accepted reference event of the active source: `e` the offset in seconds, `t` the time
since the previous accepted event of that source. -/
def State.discipline (e : Rat) (t : Option Rat) (s : State) : State :=
  let smax : Rat := (s.cn 0x2008 7 0 : Rat) / 1000000000
  let tau : Rat := (s.cn 0x2008 8 0 : Rat)
  let s := s.setLoop (fun l =>
    match t with
    | none => { l with ePrev := some e }
    | some t =>
      if s.wheels.time.state = .acquiring then
        let y := match l.ePrev with
          | some p => l.c - (e - p) / t
          | none => l.y
        { y := clampRat (-smax) smax y, c := clampRat (-smax) smax (y - e / t), ePrev := some e }
      else
        let y := l.y - e * t / (tau * tau)
        { y := clampRat (-smax) smax y, c := clampRat (-smax) smax (y - e / tau), ePrev := some e })
  s.applyC

/-- The step threshold of R30 is exceeded, in ACQUIRING. -/
def State.steps (s : State) (e : Rat) : Bool :=
  decide (s.wheels.time.state = .acquiring) && decide (s.cn 0x2008 6 0 ≠ 0) &&
    decide ((s.cn 0x2008 6 0 : Rat) / 1000000000 < e.abs)

/-- A step of the time wheel by a number of units of 2^-64 s (R30, R388: e_prev is 0 and c is unchanged). -/
def State.stepTime (by_ : Int) (s : State) : State :=
  let old := s.time
  let s := { s with wheels := { s.wheels with time := { s.wheels.time with pos := s.wheels.time.pos + BitVec.ofInt 96 by_ } } }
  let s := s.setLoop (fun l => { l with ePrev := some 0 })
  s.jumped 0 old s.time

/-- The reference event of the time wheel has been measured: e0 and its time (R38, Table 2.5). -/
def State.refTime (e : Rat) (term : Rat) (s : State) : State :=
  { s with wheels := { s.wheels with time := { s.wheels.time with e0 := e.abs + term, lastRef := s.fc } } }

/-! ### PPS with ZDA (R28 to R30) -/

/-- Half nanoseconds in a second. -/
abbrev halfNsPerSec : Int := 2000000000

/-- Change the PPS state. -/
def State.modPps (f : Pps → Pps) (s : State) : State := { s with wheels := { s.wheels with pps := f s.wheels.pps } }

/-- The nearest whole revolution of a position. -/
def nearestRev (p : WheelPos) : Nat := (p.toNat + 2 ^ 31) / 2 ^ 32 % 2 ^ 32

/-- PPS is lost (R29): carrying goes on across the loss (R28). -/
def State.losePps (s : State) : State :=
  (s.modPps (fun p => { p with present := false, seen := false, good := 0, rejectRun := 0, zdaAgreed := false,
                               disagreeRun := 0, ahead := [], edges := [] })).sourceChanged

/-- A ZDA gives an edge a label, or the label is compared with the one it carries (R28). -/
def State.zdaLabels (edge : PpsEdge) (label : Nat) (s : State) : State :=
  let st := s.wheels.time.state
  let bad := (match edge.label with
      | some c => decide (c ≠ label)
      | none => false) ||
    ((decide (st = .locked) || decide (st = .afterLock)) && decide (nearestRev edge.pos ≠ label))
  if bad then
    let p := s.wheels.pps
    if p.disagreeRun + 1 < 3 then
      s.modPps (fun p => { p with disagreed := p.disagreed + 1, disagreeRun := p.disagreeRun + 1 })
    else
      let s := s.modPps (fun p => { p with disagreed := p.disagreed + 1, disagreeRun := 0, label := none, good := 0,
                                           zdaAgreed := false, edges := p.edges.map (fun x => { x with label := none }) })
      if s.wheels.time.source = 1 ∨ s.wheels.time.source = 0 then
        (s.modPps (fun p => { p with present := true })).trackQualified.acquire 1
      else (s.acquire s.wheels.time.source).sourceChanged
  else
    let s := s.modPps (fun p =>
      { p with disagreeRun := 0, present := true, zdaAgreed := p.zdaAgreed || edge.label.isSome
               label := if edge.label.isSome then p.label else some (edge.at_, label)
               edges := p.edges.map (fun x => if x.at_ = edge.at_ then { x with label := some label } else x) })
    s.sourceChanged

/-- The offset of the time wheel from PPS at an edge `d` half nanoseconds ago with label `label`, in 2^-64 s. -/
def State.ppsOffset (s : State) (label : Nat) (d : Int) : Rat :=
  let acc : WheelAcc := s.wheels.time.pos - BitVec.ofNat 96 (label * 2 ^ 64)
  (acc.toInt : Rat) - (s.wheels.time.inc : Rat) * d / 5

/-- An accepted edge that has its label is measured: a step, or the loop, and the count of good edges (R29, R30). -/
def State.ppsMeasure (edge : PpsEdge) (label : Nat) (prev : Option Int) (s : State) : State :=
  let d : Int := 5 * (s.fc : Int) - edge.at_
  let off := s.ppsOffset label d
  let e : Rat := off / oneRev
  if s.wheels.time.source = 1 ∧ s.steps e = true then
    ((s.stepTime (-(off.floor))).modPps (fun p => { p with good := 0, offset := 0 })).refTime 0 (20 / 1000000000) |>.sourceChanged
  else
    let s := s.modPps (fun p => { p with offset := e, good := if e.abs < 1 / 1000000 then p.good + 1 else 0 })
    let s := if s.wheels.time.source = 1 then
        (s.discipline e (prev.map (fun p => (((edge.at_ - p : Int) : Rat) / halfNsPerSec)))).refTime e (20 / 1000000000)
      else s
    s.sourceChanged

/-- PPS_EDGE: a PPS_IN edge is captured, accepted or rejected, labelled and measured (R28, R29). -/
def State.ppsEdge (rising : Bool) (s : State) : State :=
  if decide (1 ∉ s.sources) || (rising != decide (s.cn 0x2008 4 0 = 0)) then s
  else
    let p := s.wheels.pps
    let delay : Int := 2 * s.ci 0x2008 5 0
    let t : Int := 5 * (s.fc : Int) - delay
    let pos : WheelPos := BitVec.ofInt 64 (((s.wheels.time.pos.toNat : Rat) - (s.wheels.time.inc : Rat) * delay / 5) / oneUnit).floor
    let dist := posDiff pos (BitVec.ofNat 64 (nearestRev pos * 2 ^ 32))
    let ok :=
      if s.wheels.time.state = .locked ∧ s.wheels.time.source = 1 then
        decide (((dist.natAbs : Nat) : Rat) * 1000000 ≤ 50 * oneUnit)
      else !p.seen || (match p.lastEdge with
        | some l => decide ((t - l - halfNsPerSec).natAbs ≤ 200000)
        | none => true)
    if ok = false then
      let s := s.modPps (fun p => { p with rejected := p.rejected + 1, rejectRun := p.rejectRun + 1 })
      if 3 ≤ s.wheels.pps.rejectRun then s.losePps else s
    else
      let carried := p.label.map (fun l => ((l.2 : Int) + (t - l.1 + halfNsPerSec / 2) / halfNsPerSec).toNat % 2 ^ 32)
      let edge : PpsEdge := { at_ := t, label := carried, pos := pos }
      let s := s.modPps (fun p => { p with
        seen := true, lastEdge := some t, rejectRun := 0, edges := (edge :: p.edges).take 2
        label := match carried with
          | some l => some (t, l)
          | none => p.label })
      let ripe := p.ahead.filter (fun z => decide (100000000 ≤ t - z.1))
      let s := s.modPps (fun p => { p with ahead := p.ahead.filter (fun z => decide (t - z.1 < 100000000)) })
      let s := (ripe.filter (fun z => decide (t - z.1 ≤ halfNsPerSec))).foldl (fun s z =>
        s.zdaLabels ((s.wheels.pps.edges.head?).getD edge) z.2) s
      let edge := (s.wheels.pps.edges.head?).getD edge
      match edge.label with
      | some l => if s.wheels.pps.present then s.ppsMeasure edge l (if p.seen then p.lastEdge else none) else s
      | none => s

/-- PPS_EDGE. -/
def execPpsEdge (dt : Nat) (rising : Bool) (s : State) : Host.Outcome State Fault Refusal :=
  .next ((s.elapse dt).whenUp domFabric (State.ppsEdge rising))

/-- The label a ZDA record gives: its UTC second, to the nearest, as a time-wheel revolution (R25, R28). -/
def State.zdaLabel (s : State) (r : FibreRecord) : Option Nat :=
  match r.slots with
  | some t :: some d :: some m :: some y :: _ =>
    some (((daysFrom2000 y.toNat m.toNat d.toNat * 86400 + (t + 500) / 1000 + s.leap) % (2 ^ 32 : Int)).toNat)
  | _ => none

/-- ZDA_RECEIVED: the oldest ZDA record of the named source labels an edge, or is compared with its label (R28). -/
def State.zdaReceived (s : State) : State :=
  match s.wheels.zdaIn with
  | [] => s
  | r :: rest =>
    let s := { s with wheels := { s.wheels with zdaIn := rest } }
    match s.zdaLabel r with
    | none => s
    | some label =>
      let tz : Int := 5 * ((r.pip.cycle.toNat + s.fabricZero : Nat) : Int)
      if s.cn 0x2008 3 0 = 1 then s.modPps (fun p => { p with ahead := p.ahead ++ [(tz, (label + 1) % 2 ^ 32)] })
      else match s.wheels.pps.edges.find? (fun e => decide (0 ≤ tz - e.at_) && decide (tz - e.at_ ≤ 1900000000)) with
        | some e => s.zdaLabels e label
        | none => s

/-- ZDA_RECEIVED. -/
def execZdaReceived (dt : Nat) (s : State) : Host.Outcome State Fault Refusal :=
  .next ((s.elapse dt).whenUp domFabric State.zdaReceived)

/-- PPS_LOSS_TIMEOUT: no edge has been accepted for 2.5 s (R29). -/
def State.ppsLossTimeout (s : State) : State :=
  match s.wheels.pps.lastEdge with
  | some t => if s.wheels.pps.seen ∧ 5000000000 ≤ 5 * (s.fc : Int) - t then s.losePps else s
  | none => s

/-- PPS_LOSS_TIMEOUT. -/
def execPpsLossTimeout (dt : Nat) (s : State) : Host.Outcome State Fault Refusal :=
  .next ((s.elapse dt).whenUp domFabric State.ppsLossTimeout)

/-- TIME_SOURCE_REVERT: a source listed above the active one has been qualified for the revert hold (R27). -/
def State.timeSourceRevert (s : State) : State :=
  if s.wheels.time.state ≠ .locked then s
  else
    let above := s.sources.takeWhile (fun c => decide (c ≠ s.wheels.time.source))
    match above.find? (fun c => s.qualified c && (match s.qualSince c with
        | some t => decide (s.cn 0x2008 9 0 * cyclesPerSec ≤ s.fc - t)
        | none => false)) with
    | some c => (s.takeSource c).lockTime
    | none => s

/-- TIME_SOURCE_REVERT. -/
def execTimeSourceRevert (dt : Nat) (s : State) : Host.Outcome State Fault Refusal :=
  .next ((s.elapse dt).whenUp domFabric State.timeSourceRevert)

/-- PTP_LOSS_TIMEOUT: no exchange has completed for 4 s (R32). -/
def State.ptpLossTimeout (p : Nat) (s : State) : State :=
  let e : EPort := Tbl.get {} p s.eth
  match e.ptp.lastDone with
  | some t =>
    if e.ptp.present ∧ 4 * cyclesPerSec ≤ s.fc - t then
      ({ s with eth := Tbl.mod {} p (fun x => { x with ptp := { x.ptp with present := false, good := 0 } }) s.eth }).sourceChanged
    else s
  | none => s

/-- PTP_LOSS_TIMEOUT. -/
def execPtpLossTimeout (dt : Nat) (port : Fin 2) (s : State) : Host.Outcome State Fault Refusal :=
  .next ((s.elapse dt).whenUp domFabric (State.ptpLossTimeout port.val))

/-! ### The shaft wheel (R33 to R35) -/

/-- Counts of one turn: four per line (R33). -/
def State.countsPerTurn (s : State) : Nat := 4 * s.cn 0x2009 1 0

/-- The accumulator position of a count. -/
def State.countAcc (s : State) (c : Int) : WheelAcc := BitVec.ofInt 96 (c * oneRev / (s.countsPerTurn : Int))

/-- Change the encoder's state. -/
def State.modEnc (f : Shaft → Shaft) (s : State) : State := { s with wheels := { s.wheels with enc := f s.wheels.enc } }

/-- An encoder fault (R35): the wheel coasts at its last measured speed. -/
def State.encoderFault (why : Nat) (s : State) : State :=
  let s := s.modEnc (fun e => { e with faulted := true, indexAt := none, legalSince := none, illegalAt := [], corrections := 0 })
  (s.coast 1).event 0x1006 1 why

/-- Place the shaft wheel exactly at the position of its count (R34): a move of more than one unit is a jump. -/
def State.placeShaft (s : State) : State :=
  let old := s.wheels.shaft.visible
  let s := { s with wheels := { s.wheels with shaft := { s.wheels.shaft with pos := s.countAcc s.wheels.enc.count } } }
  let new := s.wheels.shaft.visible
  if (posDiff new old).natAbs ≤ 1 then s else s.jumped 1 old new

/-- One legal count, ahead or astern (R33, R34). -/
def State.shaftCount (ahead : Bool) (s : State) : State :=
  let e := s.wheels.enc
  let cpt := s.countsPerTurn
  let step : Int := if ahead then 1 else -1
  let base := if e.faulted then
      let x : Int := ((s.wheels.shaft.pos.toNat : Rat) * cpt / oneRev).ceil
      if ahead then x - 1 else x
    else e.count
  let gap := match e.lastEdge with
    | some l => some (s.fc - l)
    | none => none
  let s := s.modEnc (fun e => { e with
    count := base + step, ahead := ahead, travelled := e.travelled + 1, interval := gap, lastEdge := some s.fc
    standstill := false, faulted := false, legalSince := some (e.legalSince.getD s.fc) })
  let s := s.placeShaft
  let perCount : Rat := oneRev / (cpt : Rat)
  let inc : Int := match gap with
    | some g => if g = 0 then 0 else step * roundInc (perCount / g)
    | none => 0
  let next := s.countAcc (base + 2 * step)
  let room := (if ahead then next - s.wheels.shaft.pos else s.wheels.shaft.pos - next).toNat - oneUnit
  let s := { s with wheels := { s.wheels with shaft := { s.wheels.shaft with
    inc := inc, room := some room, source := 1, lastRef := s.fc, e0 := 1 / (cpt : Rat) } } }
  let s := match s.wheels.shaft.state with
    | .unref => s.setWheel 1 .acquiring
    | .afterLock => s.setWheel 1 .acquiring
    | _ => s
  s.shaftMoved ahead

/-- SHAFT_QUADRATURE_EDGE: a filtered transition moves the wheel by one count, or is illegal and only counted (R33). -/
def State.shaftEdge (a b : Bool) (s : State) : State :=
  let e := s.wheels.enc
  let near := match e.edgeAt with
    | some l => decide (((s.fc - l : Nat) : Rat) * 5 / 2 < (s.cn 0x2009 2 0 : Rat))
    | none => false
  if near || (a == e.a && b == e.b) then s
  else if a != e.a && b != e.b then
    let times := e.travelled :: e.illegalAt
    let s := s.modEnc (fun e => { e with a := a, b := b, illegal := e.illegal + 1, illegalAt := (e.travelled :: e.illegalAt).take 3,
                                         legalSince := none, edgeAt := some s.fc })
    match times[3]? with
    | some t => if e.travelled - t < s.countsPerTurn ∧ e.faulted = false then s.encoderFault 1 else s
    | none => s
  else
    let lead := if a != e.a then a != b else a == b
    let ahead := lead == decide (s.cn 0x2009 3 0 = 0)
    (s.modEnc (fun e => { e with a := a, b := b, edgeAt := some s.fc })).shaftCount ahead

/-- SHAFT_QUADRATURE_EDGE. -/
def execShaftQuadratureEdge (dt : Nat) (a b : Bool) (s : State) : Host.Outcome State Fault Refusal :=
  .next ((s.elapse dt).whenUp domFabric (State.shaftEdge a b))

/-- Set the shaft's count, with the jump that this is (R31, R33). -/
def State.setCount (c : Int) (s : State) : State :=
  (s.modEnc (fun e => { e with count := c, indexAt := some c })).placeShaft

/-- SHAFT_INDEX: a SHAFT_Z pulse sets, checks or corrects the shaft position (R33, R35). -/
def State.shaftIndex (s : State) : State :=
  let e := s.wheels.enc
  let n : Int := s.countsPerTurn
  let whole : Int := (e.count + n - 1) / n * n
  if s.wheels.shaft.state = .locked then
    let near : Int := (2 * e.count + n) / (2 * n) * n
    if (e.count - near).natAbs ≤ 2 then s.modEnc (fun e => { e with corrections := 0, indexAt := some e.count })
    else
      let s := s.modEnc (fun e => { e with indexErrors := e.indexErrors + 1, corrections := e.corrections + 1 })
      let s := s.setCount near
      if 3 ≤ s.wheels.enc.corrections then s.encoderFault 2 else s
  else if s.cn 0x2009 6 0 = 0 ∨ e.faulted = true then s
  else match e.indexAt with
    | none => (s.setCount whole).setWheel 1 .acquiring
    | some c =>
      if ((e.count - c).natAbs : Int) ≤ n + 2 ∧ n - 2 ≤ ((e.count - c).natAbs : Int) then
        (s.modEnc (fun e => { e with indexAt := some e.count, corrections := 0 })).setWheel 1 .locked
      else s.modEnc (fun e => { e with indexAt := some e.count })

/-- SHAFT_INDEX. -/
def execShaftIndex (dt : Nat) (s : State) : Host.Outcome State Fault Refusal :=
  .next ((s.elapse dt).whenUp domFabric State.shaftIndex)

/-- SHAFT_LOCK_TIMER: without the index required, 2 s of legal quadrature lock the wheel (R33). -/
def State.shaftLockTimer (s : State) : State :=
  match s.wheels.enc.legalSince with
  | some t =>
    if s.cn 0x2009 6 0 = 0 ∧ s.wheels.shaft.state = .acquiring ∧ 2 * cyclesPerSec ≤ s.fc - t then s.setWheel 1 .locked else s
  | none => s

/-- SHAFT_LOCK_TIMER. -/
def execShaftLockTimer (dt : Nat) (s : State) : Host.Outcome State Fault Refusal :=
  .next ((s.elapse dt).whenUp domFabric State.shaftLockTimer)

/-- SHAFT_STANDSTILL: no count for the stall time, so the wheel holds its position and reports zero speed (R35). -/
def State.shaftStandstill (s : State) : State :=
  match s.wheels.enc.lastEdge with
  | some t =>
    if s.wheels.enc.standstill = false ∧ s.wheels.enc.faulted = false ∧ msCycles (s.cn 0x2009 4 0) ≤ s.fc - t then
      ((s.modEnc (fun e => { e with standstill := true })).setInc 1 0).event 0x1005 1 0
    else s
  | none => s

/-- SHAFT_STANDSTILL. -/
def execShaftStandstill (dt : Nat) (s : State) : Host.Outcome State Fault Refusal :=
  .next ((s.elapse dt).whenUp domFabric State.shaftStandstill)

/-! ### The mains wheel (R36) -/

/-- Change the mains input's state. -/
def State.modMains (f : Mains → Mains) (s : State) : State := { s with wheels := { s.wheels with mns := f s.wheels.mns } }

/-- The nominal mains period in fabric cycles. -/
def State.mainsPeriod (s : State) : Rat := (cyclesPerSec : Rat) / (s.cn 0x200A 1 0 : Rat)

/-- The mains wheel loses its source: it coasts at its last period (R36). -/
def State.loseMains (s : State) : State :=
  (s.modMains (fun m => { m with lastEdge := none, lastPeriod := none, good := 0, bad := 0 })).coast 2

/-- An edge comes before 40 % of the nominal period has passed since the last accepted one (R36). -/
def State.mainsEarly (s : State) : Bool :=
  match s.wheels.mns.lastEdge with
  | some l => decide (((s.fc - l : Nat) : Rat) < s.mainsPeriod * 4 / 10)
  | none => false

/-- A period lies within 10 % of nominal (R36). -/
def withinTenth (nom : Rat) (t : Nat) : Bool := decide (((t : Rat) - nom).abs * 10 ≤ nom)

/-- The counts after an edge that ends a period (R36): good periods in a row, and periods outside 10 %. -/
def Mains.judge (nom : Rat) (now : Nat) (m : Mains) : Mains :=
  match m.lastEdge with
  | none => { m with lastEdge := some now, good := 0, bad := 0 }
  | some l =>
    let t := now - l
    let near := match m.lastPeriod with
      | some u => decide (((t : Rat) - (u : Rat)).abs * 50 ≤ (u : Rat))
      | none => false
    if withinTenth nom t then
      { m with lastEdge := some now, lastPeriod := some t, good := if near then m.good + 1 else 0, bad := 0 }
    else { m with lastEdge := some now, lastPeriod := some t, good := 0, bad := m.bad + 1 }

/-- The rate and the expected next edge from an accepted edge on (R34). -/
def State.mainsFollow (s : State) : State :=
  let w := s.wheels.mains
  let inc := match s.wheels.mns.lastPeriod with
    | some t => roundInc ((oneRev : Rat) / (t : Rat))
    | none => w.inc
  let e0 : Rat := (s.cn 0x200A 1 0 : Rat) * 25 / 10000000000
  { s with wheels := { s.wheels with mains :=
    { w with source := 1, lastRef := s.fc, e0 := e0, inc := inc, room := some (oneRev - oneUnit) } } }

/-- An edge makes a coasting wheel acquire; 8 good periods lock it, 3 bad ones lose it (R36). -/
def State.mainsJudge (s : State) : State :=
  let s := match s.wheels.mains.state with
    | .unref => s.setWheel 2 .acquiring
    | .afterLock => s.setWheel 2 .acquiring
    | _ => s
  if 3 ≤ s.wheels.mns.bad then s.loseMains
  else if s.wheels.mains.state = .acquiring ∧ 8 ≤ s.wheels.mns.good then s.setWheel 2 .locked
  else s

/-- MAINS_ZERO_CROSSING: an accepted edge starts a revolution and is judged for lock and loss (R34, R36). -/
def State.mainsEdge (rising : Bool) (s : State) : State :=
  if (rising != decide (s.cn 0x200A 2 0 = 0)) || s.mainsEarly then s
  else
    let s := s.moveTo 2 (BitVec.ofNat 64 ((posRev s.wheels.mains.visible + 1) * oneUnit))
    let nom := s.mainsPeriod
    ((s.modMains (Mains.judge nom s.fc)).mainsFollow).mainsJudge

/-- MAINS_ZERO_CROSSING. -/
def execMainsZeroCrossing (dt : Nat) (rising : Bool) (s : State) : Host.Outcome State Fault Refusal :=
  .next ((s.elapse dt).whenUp domFabric (State.mainsEdge rising))

/-- MAINS_LOSS_TIMEOUT: no accepted edge for 3 nominal periods (R36). -/
def State.mainsLossTimeout (s : State) : State :=
  match s.wheels.mns.lastEdge with
  | some l => if 3 * s.mainsPeriod ≤ ((s.fc - l : Nat) : Rat) then s.loseMains else s
  | none => s

/-- MAINS_LOSS_TIMEOUT. -/
def execMainsLossTimeout (dt : Nat) (s : State) : Host.Outcome State Fault Refusal :=
  .next ((s.elapse dt).whenUp domFabric State.mainsLossTimeout)

/-! ### The sea wheel (R37) -/

/-- Change the estimator's state. -/
def State.modSea (f : Sea → Sea) (s : State) : State := { s with wheels := { s.wheels with est := f s.wheels.est } }

/-- A difference of two time-wheel times in seconds, read as signed (R23). -/
def wrapSecs (d : Rat) : Rat := if (2 ^ 31 : Nat) ≤ d then d - oneUnit else if d < -(2 ^ 31 : Nat) then d + oneUnit else d

/-- The mean of a list. -/
def meanOf (l : List Rat) : Rat := l.foldl (fun a b => a + b) 0 / (l.length : Rat)

/-- The sea wheel coasts (R16, R37): at its last period, or at the default period where `dflt` says so. -/
def State.coastSea (dflt : Bool) (s : State) : State :=
  let s := s.coast 3
  let s := s.modSea (fun e => { e with good := 0, lowAmp := 0, lastTc := none, lastCross := none })
  if dflt then s.setInc 3 (s.fixedInc 3) else
    match s.wheels.est.period with
    | some p => if s.wheels.sea.everLocked then s.setInc 3 (incOf (1 / p)) else s
    | none => s

/-- The rates after a crossing at time `tc`: one that brings the phase error to zero at the next half period, then the
rate of the mean period; two crossings of low amplitude lose the wheel, three good ones lock it (R37). -/
def State.seaTurn (tc period err : Rat) (s : State) : State :=
  let s := s.modSea (fun e => { e with period := some period, phaseErr := err })
  let since := wrapSecs ((s.time.toNat : Rat) / oneUnit - tc)
  let left := ((period / 2 - since) * cyclesPerSec).ceil.toNat
  let s : State := { s with wheels := { s.wheels with sea := { s.wheels.sea with
    e0 := err.abs + 2 / 100, lastRef := s.fc, room := none, turnIn := left
    inc := if left = 0 then incOf (1 / period) else incOf ((1 - 2 * err) / period)
    incAfter := incOf (1 / period) } } }
  if 2 ≤ s.wheels.est.lowAmp then s.coastSea false
  else if s.wheels.sea.state = .acquiring ∧ 3 ≤ s.wheels.est.good ∧ err.abs < 1 / 20 then s.setWheel 3 .locked
  else s

/-- The upward crossing of the estimator at time `tc` (R37). -/
def State.seaCrossing (tc : Rat) (pip : Pip) (s : State) : State :=
  let e := s.wheels.est
  let lo : Rat := (s.cn 0x200B 3 0 : Rat) / 1000
  let hi : Rat := (s.cn 0x200B 4 0 : Rat) / 1000
  let thr : Rat := 10 * (s.cn 0x200B 5 0 : Rat)
  let n := s.cn 0x200B 6 0
  let amp := e.amplitude
  let s := match e.lastTc with
    | none => s
    | some l =>
      let p := wrapSecs (tc - l)
      if lo ≤ p ∧ p ≤ hi ∧ thr ≤ amp then
        s.modSea (fun e =>
          let ps := (p :: e.periods).take n
          let m := meanOf ps
          { e with periods := ps, good := if (p - m).abs * 100 ≤ 15 * m then e.good + 1 else 1 })
      else s.modSea (fun e => { e with good := 0 })
  let s := s.modSea (fun e => { e with
    lastTc := some tc, lastCross := some s.fc, amplitude := 0
    lowAmp := if thr ≤ amp then 0 else if e.lastTc.isSome then e.lowAmp + 1 else e.lowAmp })
  let s := if s.wheels.sea.state = .unref ∨ s.wheels.sea.state = .afterLock then s.setWheel 3 .acquiring else s
  let s := { s with wheels := { s.wheels with sea := { s.wheels.sea with source := 1 } } }
  let now : Rat := (pip.time.toNat : Rat) / oneUnit
  let back := wrapSecs (now - tc)
  let at_ : Rat := (pip.sea.toNat : Rat) / oneUnit - (s.wheels.sea.inc : Rat) * cyclesPerSec / oneRev * back
  let fr := at_ - at_.floor
  let err := clampRat (-1 / 4) (1 / 4) (if 1 / 2 ≤ fr then fr - 1 else fr)
  match s.wheels.est.periods with
  | [] => if 2 ≤ s.wheels.est.lowAmp then s.coastSea false else s
  | ps =>
    s.seaTurn tc (meanOf ps) err

/-- A roll value of the motion group's synthetic source (R37). -/
def State.seaRoll (rec : FibreRecord) (s : State) : State :=
  match (rec.slots[s.cn 0x200B 9 0]?).join with
  | none => s
  | some r =>
    let t : Rat := (rec.pip.time.toNat : Rat) / oneUnit - (s.cn 0x200B 8 0 : Rat) / 1000
    let e := s.wheels.est
    let tc : Rat := (s.cn 0x200B 7 0 : Rat)
    let dtm := match e.lastT with
      | some l => wrapSecs (t - l)
      | none => 0
    let mean := e.mean + ((r : Rat) - e.mean) * dtm / tc
    let x := (r : Rat) - mean
    let cross := e.lastT.isSome && decide (e.lastX < 0) && decide (0 ≤ x)
    let s := s.modSea (fun e => { e with mean := mean, amplitude := max e.amplitude x.abs })
    let s := if cross then s.seaCrossing (t - dtm * x / (x - e.lastX)) rec.pip else s
    s.modSea (fun e => { e with lastX := x, lastT := some t })

/-- SEA_WHEEL_LOSS_TIMEOUT: no upward crossing within twice the current period (R37). -/
def State.seaLossTimeout (s : State) : State :=
  match s.wheels.est.lastCross with
  | some l =>
    let p := s.wheels.est.period.getD ((s.cn 0x200B 2 0 : Rat) / 1000)
    if 2 * p ≤ secs (s.fc - l) then s.coastSea false else s
  | none => s

/-- SEA_WHEEL_LOSS_TIMEOUT. -/
def execSeaWheelLossTimeout (dt : Nat) (s : State) : Host.Outcome State Fault Refusal :=
  .next ((s.elapse dt).whenUp domFabric State.seaLossTimeout)

/-! ### PPS_OUT and WHL_EVT (R44, R45) -/

/-- PPS_OUT pulses are allowed now (the policy of R44). -/
def State.ppsAllowed (s : State) : Bool :=
  match s.cn 0x2018 1 0 with
  | 0 => false
  | 1 => decide (s.wheels.time.state = .locked)
  | _ => decide (s.wheels.time.state = .locked) ||
      (decide (s.wheels.time.state = .afterLock) && decide (s.boundNow 0 * 1000000000 < (s.cn 0x2018 4 0 : Rat)))

/-- The time-wheel position of the latest PPS_OUT edge at or before now: a whole revolution plus the offset (R44). -/
def State.ppsSlot (s : State) : WheelPos :=
  let off : WheelPos := BitVec.ofInt 64 (((s.ci 0x2018 3 0 : Int) : Rat) * oneUnit / 1000000000).floor
  BitVec.ofNat 64 (posRev (s.time - off) * 2 ^ 32) + off

/-- PPS_OUT_PULSE_START: PPS_OUT rises at a whole revolution plus offset, where the policy allows (R44). -/
def State.ppsOutStart (s : State) : State :=
  let p := s.ppsSlot
  if s.appts.ppsLast = some p then s
  else
    let a := { s.appts with ppsLast := some p }
    if s.ppsAllowed then { s with appts := { a with ppsOut := true, ppsEnd := some (s.fc + msCycles (s.cn 0x2018 2 0)) } }
    else { s with appts := a }

/-- PPS_OUT_PULSE_START. -/
def execPpsOutPulseStart (dt : Nat) (s : State) : Host.Outcome State Fault Refusal :=
  .next ((s.elapse dt).whenUp domFabric State.ppsOutStart)

/-- PPS_OUT_PULSE_END: the width has run out and PPS_OUT falls (R44). -/
def State.ppsOutEnd (s : State) : State :=
  match s.appts.ppsEnd with
  | some t => if t ≤ s.fc then { s with appts := { s.appts with ppsOut := false, ppsEnd := none } } else s
  | none => s

/-- PPS_OUT_PULSE_END. -/
def execPpsOutPulseEnd (dt : Nat) (s : State) : Host.Outcome State Fault Refusal :=
  .next ((s.elapse dt).whenUp domFabric State.ppsOutEnd)

/-- The state of an output WHL_EVT[n]. -/
def State.evt (s : State) (n : Nat) : Evt := Tbl.get {} n s.appts.evt

/-- Change an output WHL_EVT[n]. -/
def State.setEvt (n : Nat) (e : Evt) (s : State) : State := { s with appts := { s.appts with evt := Tbl.put n e s.appts.evt } }

/-- Fabric cycles of a width in ns. -/
def nsCycles (ns : Nat) : Nat := (2 * ns + 4) / 5

/-- A delivered dispatch of WHL_EVT[n] pulses or toggles it, in the mode and width in force where it fell due; one that
finds a pulse running is counted late (R45). -/
def State.whlEvt (n : Nat) (d : Dispatch) (s : State) : State :=
  let e := s.evt n
  let c := s.cfgAt d.dueTime
  if e.pulseEnd.isSome then s.countLate d.row
  else
    match Cfg.nat s.uid c 0x2019 (1 + n) 0 with
    | 0 => s
    | 1 => s.setEvt n { level := true, pulseEnd := some (s.fc + nsCycles (Cfg.nat s.uid c 0x2019 (9 + n) 0)) }
    | _ => s.setEvt n { e with level := !e.level }

/-- WHL_EVT_DISPATCH. -/
def execWhlEvtDispatch (dt : Nat) (n : Fin 8) (s : State) : Host.Outcome State Fault Refusal :=
  .next ((s.elapse dt).whenUp domFabric (State.withDispatch (0x0600 + n.val) (State.whlEvt n.val)))

/-- WHL_EVT_PULSE_END: the width has run out and the output falls, whatever the mode has become (R45). -/
def State.whlEvtEnd (n : Nat) (s : State) : State :=
  let e := s.evt n
  match e.pulseEnd with
  | some t =>
    if t ≤ s.fc then s.setEvt n { level := false, pulseEnd := none } else s
  | none => s

/-- WHL_EVT_PULSE_END. -/
def execWhlEvtPulseEnd (dt : Nat) (n : Fin 8) (s : State) : Host.Outcome State Fault Refusal :=
  .next ((s.elapse dt).whenUp domFabric (State.whlEvtEnd n.val))

end Sys2Proof.Machine
end

