-- ==== Sys2Proof/Machine/Carding.lean ====
section
/-! DEFINITION. Carding (R10, R49 to R68, R74 to R76): engines, matching of sources, the discovery list, scores, rate
tokens, rejections, acceptance and hand-on, and the commands CARD_DATAGRAM, CARD_CAN_MESSAGE, CARD_RECEIVED_PDO,
SOURCE_LATE and CLEAR_DISCOVERY_LIST. The serial intake stands in Machine/FrameMode.lean with the frame-mode buses. -/

namespace Sys2Proof.Machine

open Sys2Proof

/-! ### Engines and intake (R10) -/

/-- What every record of one intake shares; `base` is the offset in a datagram's line of the sentence taken. -/
structure Intake where
  port : Nat
  gen : Nat
  kind : Nat
  engine : Nat
  pip : Pip
  states : Nat
  base : Nat := 0
  deriving DecidableEq, Repr

/-- The domain of a carding engine (Table 1.2). -/
def engineDom (e : Nat) : Nat := if e ≤ 4 then domCardA else domCardB

/-- An engine takes from a queue: its domain runs, and the queue shows its packets (R240). -/
def State.engineTakes (s : State) (e q : Nat) : Bool := s.up (engineDom e) && s.yields q

/-- An engine does its work with credit for the records that it makes, and waits otherwise (R227). -/
def State.cardsWith (e : Nat) (f : State → State) (s : State) : State := s.withCredit (engineOutputs e) f

/-- The engine that serves an intake port; `b` chooses the CARD_B engine of an Ethernet port (Table 1.2). -/
def engineOf (port : Nat) (b : Bool) : Nat :=
  if port ≤ 11 then 0 else if port ≤ 23 then 5
  else if port = 0x20 then (if b then 6 else 1)
  else if port = 0x21 then (if b then 7 else 2)
  else if port = 0x28 ∨ port = 0x29 ∨ port = 0x2A then 3
  else 8

/-! ### Source rows -/

/-- The status of a source row. -/
def State.src (s : State) (r : Nat) : SrcRow := Tbl.get {} r s.carding.sources

/-- Change the status of a source row. -/
def State.modSrc (r : Nat) (f : SrcRow → SrcRow) (s : State) : State :=
  { s with carding := { s.carding with sources := Tbl.mod {} r f s.carding.sources } }

/-- A key that a source shows (Table 3.4). -/
inductive SrcKey where
  | talker (t : Text) | sfi (t : Text) | name (n : Nat) | channel | frame (id : Nat) | cob (id : Nat)
  deriving DecidableEq, Repr

/-- The key kind of a key. -/
def SrcKey.kind : SrcKey → Nat
  | .talker _ => 1
  | .sfi _ => 2
  | .name _ => 3
  | .channel => 4
  | .frame _ => 5
  | .cob _ => 6

/-- The key as text. -/
def SrcKey.text : SrcKey → Text
  | .talker t => t
  | .sfi t => t
  | _ => []

/-- The key as a number. -/
def SrcKey.number : SrcKey → Nat
  | .name n => n
  | .frame n => n
  | .cob n => n
  | _ => 0

/-- The row of a configuration holds this key (R57). -/
def keyMatches (u : UnitId) (c : Cfg) (row : Nat) (k : SrcKey) : Bool :=
  decide (Cfg.nat u c 0x2310 4 row = k.kind) && decide (Cfg.text u c 0x2310 5 row = k.text ∨ k.kind ≠ 1 ∧ k.kind ≠ 2) &&
    decide (Cfg.nat u c 0x2310 6 row = k.number ∨ k.kind = 1 ∨ k.kind = 2 ∨ k.kind = 4)

/-- The rows of a port in a configuration. -/
def portRows (u : UnitId) (c : Cfg) (port : Nat) : List Nat :=
  (Cfg.live c 0x2310 44).filter (fun r => Cfg.nat u c 0x2310 3 r == port && decide (r ≤ 511))

/-- The row that a key on a port belongs to: the enabled keyed row, else the enabled wildcard row, else the rejection
SOURCE_DISABLED or UNKNOWN_SOURCE (R57). -/
def matchSource (u : UnitId) (c : Cfg) (port : Nat) (key : Option SrcKey) : Except Nat Nat :=
  let rows := portRows u c port
  let on (r : Nat) : Bool := Cfg.nat u c 0x2310 2 r == 1
  let keyed (r : Nat) : Bool := match key with
    | some k => keyMatches u c r k
    | none => false
  let wild (r : Nat) : Bool := Cfg.nat u c 0x2310 4 r == 0
  match rows.find? (fun r => on r && keyed r) with
  | some r => .ok r
  | none =>
    match rows.find? (fun r => on r && wild r) with
    | some r => .ok r
    | none => if rows.any (fun r => keyed r || wild r) then .error 0x10 else .error 0x0F

/-- A row's score clamped to 0 to 255 after a change (R67). -/
def clampScore (v : Int) : Nat := (clampInt 0 255 v).toNat

/-- The standby uses the scores and choices that the active unit mirrors, while its heartbeat is there (R68, R308). -/
def State.mirrored (s : State) : Bool := decide (s.twin.role = 2) && s.twin.mirrorAt.isSome && s.twin.lostAt.isNone

/-- Move a row's score (R67). -/
def State.stepScore (r : Nat) (d : Int) (s : State) : State :=
  if s.mirrored then s else s.modSrc r (fun x => { x with score := clampScore ((x.score : Int) + d) })

/-- The health of a row (0x2310:0F): DISABLED while it is not enabled (R66). -/
def State.srcHealth (s : State) (r : Nat) : Nat := if s.cn 0x2310 2 r = 1 then (s.src r).health else 0

/-- A row restarts: initial score, STALE, full token bucket (R68, R74). -/
def State.restartSrc (c : Cfg) (r : Nat) (s : State) : State :=
  s.modSrc r (fun x => { x with
    score := Cfg.nat s.uid c 0x2300 2 0, health := 3, had := false, ref := s.fc, lateSteps := 0, seq := 0, lastN := none,
    tokens := Cfg.nat s.uid c 0x2310 0x0B r, refill := s.fc })

/-- A row takes one rate token, or has none left (R74). -/
def State.takeToken (c : Cfg) (r : Nat) (s : State) : Bool × State :=
  let x := s.src r
  let full : Rat := (Cfg.nat s.uid c 0x2310 0x0B r : Rat)
  let have_ := x.tokens + secs (s.fc - x.refill) * (Cfg.nat s.uid c 0x2310 0x0A r : Rat)
  let t := if full < have_ then full else have_
  if 1 ≤ t then (true, s.modSrc r (fun x => { x with tokens := t - 1, refill := s.fc }))
  else (false, s.modSrc r (fun x => { x with tokens := t, refill := s.fc }))

/-! ### Discovery (R58) -/

/-- Put a sighting into a list of at most 64 entries; a full list loses the entry seen least recently. -/
def sight (e : Discovery) (l : List Discovery) : List Discovery :=
  if l.any (fun d => d.port == e.port && d.kind == e.kind && d.text == e.text && d.number == e.number) then
    l.map (fun d =>
      if d.port = e.port ∧ d.kind = e.kind ∧ d.text = e.text ∧ d.number = e.number then
        { d with sightings := Nat.min (d.sightings + 1) 0xFFFFFFFF, seen := e.seen }
      else d)
  else if l.length < 64 then l ++ [e]
  else
    match l with
    | [] => [e]
    | h :: t =>
      let old := t.foldl (fun a d => if posAfter a.seen d.seen then d else a) h
      l.map (fun d => if d = old then e else d)

/-- Record a key that matches no keyed row of its port, enabled or not (R58). -/
def State.discover (c : Cfg) (port : Nat) (k : SrcKey) (at_ : WheelPos) (s : State) : State :=
  if (portRows s.uid c port).any (fun r => keyMatches s.uid c r k) then s
  else
    let e : Discovery := { port := port, kind := k.kind, text := k.text, number := k.number, sightings := 1, seen := at_ }
    { s with carding.discovery := sight e s.carding.discovery }

/-! ### Counting records (R69) -/

/-- The candidates of a group, in order. -/
def candidates (u : UnitId) (c : Cfg) (g : Nat) : List Nat :=
  (fields 16 4 (Cfg.nat u c 0x2320 3 g)).filter (fun r => decide (r ≤ 511))

/-- The record counts for a group (R69). -/
def countsFor (u : UnitId) (c : Cfg) (r : FibreRecord) (g : Nat) : Bool :=
  let v := Cfg.nat u c 0x2320 7 g
  let codes := (fields 16 3 (Cfg.nat u c 0x2320 4 g)).filter (fun x => decide (x ≠ 0))
  (Cfg.nat u c 0x2320 2 g == 1) && (candidates u c g).contains r.source && codes.contains r.formatter &&
    (slotAt r.slots v).isSome && (Cfg.nat u c 0x2320 6 g != 2 || (slotAt r.slots (v + 1)).isSome) &&
    !r.flags.getLsbD flInvalid && (r.formatter != 0x0E || xdrIdOf r.slots == Cfg.text u c 0x2320 5 g)

/-- The groups that a record counts for, from `lo` on, 32 of them. -/
def countingGroups (u : UnitId) (c : Cfg) (r : FibreRecord) (lo : Nat) : List Nat :=
  (Cfg.rows 0x2320 c).filter (fun g => decide (lo ≤ g ∧ g < lo + 32) && countsFor u c r g)

/-- Hand a record on to Bramble, to the voting engines it counts with, and to the time wheel and SUP where they take
it (R28, R67, R75, R297). -/
def State.handOn (engine : Nat) (r : FibreRecord) (s : State) : State :=
  let c := s.cfgAt r.pip.time
  let s := ({ s with bramble.inputs := Tbl.mod [] engine (fun l => l ++ [r]) s.bramble.inputs }).pushed (0x60 + engine)
  let k := if engine < 4 then engine else engine - 1
  let s := if (countingGroups s.uid c r 0).isEmpty then s
    else ({ s with carding.toVote4 := s.carding.toVote4 ++ [(0x70 + k, r)] }).pushed (0x70 + k)
  let s := if (countingGroups s.uid c r 32).isEmpty then s
    else ({ s with carding.toVote9 := s.carding.toVote9 ++ [(0x78 + k, r)] }).pushed (0x78 + k)
  let s := if r.formatter = 0x0D ∧ r.source = Cfg.nat s.uid c 0x2008 2 0 then
      { s with wheels := { s.wheels with zdaIn := s.wheels.zdaIn ++ [r] } } else s
  if r.formatter = 0x12 ∧ r.source = Cfg.nat s.uid c 0x5800 7 0 then
    { s with health := { s.health with acnIn := s.health.acnIn ++ [r] } } else s

/-! ### Rejection (R54, R55) -/

/-- The flags of Table 3.8 and the TAG fields that what was received of a rejected sentence gives its record: those of a
TAG block received without fault. -/
def withSentenceParts (tag rest : Text) (r : FibreRecord) : FibreRecord :=
  let ti := parseTag tag
  let v (code : Nat) : Option Text := if ti.fault.isNone then ti.value code else none
  let g := ((v 0x67).bind groupOf).getD (0, 0)
  let fl := setBit 0 flTag (!tag.isEmpty)
  let fl := setBit fl flEncap (rest.head? == some 0x21)
  { r with
    flags := setBit fl flHex ((r.tag ++ r.raw).any (fun b => b.toNat == 0x5E))
    tagC := ((v 0x63).map decVal).getD 0, tagS := ((v 0x73).getD []).take 6, tagGn := g.1, tagGm := g.2 }

/-- A sentence, datagram, message or frame is rejected: counted at its port, charged to its row, and recorded where
0x2300:08 asks for it. `tag` and `rest` are what was received of it, `tag` its TAG part. -/
def State.reject (i : Intake) (c : Cfg) (row : Option Nat) (reason offset : Nat) (address tag rest : Text) (s : State) : State :=
  let s := (s.stat 0x4810 i.port (0x10 + reason) 1).stat 0x4850 (0x60 + i.engine) 3 1
  let s := match row with
    | some r => (s.modSrc r (fun x => { x with rejected := x.rejected + 1, lastReject := reason })).stepScore r
        (-(Cfg.nat s.uid c 0x2300 6 0 : Int))
    | none => s
  if Cfg.nat s.uid c 0x2300 8 0 = 1 then
    let x := match row with
      | some r => s.src r
      | none => { score := 0 }
    let src := row.getD 0xFFFF
    let sentence := decide (i.kind = 1 ∨ i.kind = 2) && decide (reason ≠ 0x12)
    s.handOn i.engine ((if sentence then withSentenceParts tag rest else id)
      { pip := i.pip, source := src, chosenFrom := src, kind := 0x0F, port := i.port, gen := i.gen, cls := 3,
        states := i.states, score := x.score, seq := x.seq.toNat, address := address.take 6,
        tag := (tag ++ rest).take (Nat.min 82 tag.length), raw := ((tag ++ rest).take 82).drop tag.length,
        slots := [some (reason : Int), some ((i.base + offset : Nat) : Int)] })
  else s

/-! ### Acceptance (R60, R61, R64, R67) -/

/-- The class of a record in its intake: alert formatters are always class 0 (R61). -/
def intakeClass (u : UnitId) (c : Cfg) (row code : Nat) : Nat :=
  if 0x10 ≤ code ∧ code ≤ 0x13 then 0 else Cfg.nat u c 0x2310 8 row

/-- The health of a row is refreshed by an accepted record (R66). -/
def State.refreshSrc (r : Nat) (p : Pip) (s : State) : State :=
  s.modSrc r (fun x => { x with
    health := if s.mirrored then x.health else 1, had := true, ref := s.fabricZero + p.cycle.toNat, lateSteps := 0,
    lastAccepted := p.time })

/-- One accepted record of a row: its sequence number, its score step unless it counts for a group, and hand-on. -/
def State.emitRecord (i : Intake) (c : Cfg) (row : Nat) (r : FibreRecord) (s : State) : State :=
  let inv := r.flags.getLsbD flInvalid
  let counts := !(countingGroups s.uid c r 0).isEmpty || !(countingGroups s.uid c r 32).isEmpty
  let s := if inv then s.stepScore row (-(Cfg.nat s.uid c 0x2300 4 0 : Int))
    else if counts then s
    else s.stepScore row (Cfg.nat s.uid c 0x2300 3 0)
  let s := s.modSrc row (fun x => { x with seq := x.seq + 1 })
  let x := s.src row
  let r := { r with score := x.score, seq := x.seq.toNat }
  (s.modSrc row (fun x => { x with latest := some r })).handOn i.engine r

/-- A base record of a row: everything but slots, flags, text and address. -/
def baseRecord (u : UnitId) (i : Intake) (c : Cfg) (row code : Nat) : FibreRecord :=
  { pip := i.pip, source := row, chosenFrom := row, kind := i.kind, port := i.port, gen := i.gen,
    cls := intakeClass u c row code, states := i.states, formatter := code }

/-- Accept what row `row` sent: its records in order. With none, only the accepted counts move (R64). -/
def State.accept (i : Intake) (c : Cfg) (row : Nat) (recs : List FibreRecord) (s : State) : State :=
  let s := (s.stat 0x4810 i.port 2 1).modSrc row (fun x => { x with accepted := x.accepted + 1 })
  if recs.isEmpty then s
  else recs.foldl (fun s r => s.emitRecord i c row r) (s.refreshSrc row i.pip)

/-- A record of a row that does not come from a sentence (R65): loop samples, line-monitor results, frames, PDOs. -/
def State.acceptLocal (i : Intake) (key : SrcKey) (slots : List (Option Int)) (flags : BitVec 16) (s : State) : State :=
  let c := s.cfgAt i.pip.time
  match matchSource s.uid c i.port (some key) with
  | .error e => (s.discover c i.port key i.pip.time).reject i c none e 0 [] [] []
  | .ok row =>
    (s.discover c i.port key i.pip.time).accept i c row
      [{ baseRecord s.uid i c row 0 with slots := slots, flags := flags, address := Cfg.text s.uid c 0x2310 0x0C row }]

/-! ### Sentences (R49, R52, R54, R57, R63) -/

/-- Formatter code of an accepted address field (R63). -/
def addressCode (f : AddrForm) (a : Text) : Nat :=
  match f with
  | .query => 0xFD
  | .encapsulation => 0xFC
  | .proprietary => 0xFE
  | _ => formatterCode (a.drop 2)

/-- The flags of Table 3.8 that a sentence's text decides. -/
def sentenceFlags (t : Taken) (f : AddrForm) : BitVec 16 :=
  let p := partsOf t.text
  let fl := setBit 0 flNoSum p.sum.isNone
  let fl := setBit fl flTag (!t.tag.isEmpty)
  let fl := setBit fl flLoneLf p.lone
  let fl := setBit fl flQuery (f == .query)
  let fl := setBit fl flEncap (t.text.head? == some 0x21)
  setBit fl flHex ((t.tag ++ t.text).any (fun b => b.toNat == 0x5E))

/-- The fields of a sentence after its address field. -/
def sentenceFields (t : Taken) : List Text :=
  match (splitFirst 0x2C (partsOf t.text).body).2 with
  | some rest => splitAll 0x2C rest
  | none => []

/-- The line-count gap check of a -450 source (R52). A rejected sentence leaves the previous value as it was, and a repeated
value counts the 998 that lie between (log entry 402). -/
def State.countGaps (row : Nat) (n : Option Nat) (s : State) : State :=
  match n with
  | none => s
  | some n =>
    s.modSrc row (fun x => { x with
      lastN := some n
      gaps := match x.lastN with
        | some l => x.gaps + BitVec.ofNat 32 ((n + 999 * 2 - l - 1) % 999)
        | none => x.gaps })

/-- The fields of an accepted sentence: its records, or its rejection (R62 to R64). -/
def State.cardFields (i : Intake) (c : Cfg) (row : Nat) (t : Taken) (form : AddrForm) (a : Text) (ti : TagInfo) (s : State) : State :=
  let code := addressCode form a
  let fs := sentenceFields t
  let base := t.tag.length
  let res := if 1 ≤ code ∧ code ≤ 0x13 then extract code (Cfg.nat s.uid c 0x2310 0x0D row == 1) fs else .ok [([], false)]
  match res with
  | .error (e, n) => s.reject i c (some row) e (base + fieldOffset a.length fs n) a t.tag t.text
  | .ok l =>
    let g := ((ti.value 0x67).bind groupOf).getD (0, 0)
    let mk (x : List (Option Int) × Bool) : FibreRecord :=
      { baseRecord s.uid i c row code with
        slots := x.1, flags := setBit (sentenceFlags t form) flInvalid x.2, address := a, raw := t.text, tag := t.tag,
        tagC := ((ti.value 0x63).map decVal).getD 0, tagS := ((ti.value 0x73).getD []).take 6, tagGn := g.1, tagGm := g.2 }
    let s := if i.gen = 2 then s.countGaps row ((ti.value 0x6E).map decVal) else s
    s.accept i c row (l.map mk)

/-- A taken sentence is judged, matched and carded. `inherited` is the source identity of an earlier TAG block of the
same datagram (R52). -/
def State.cardSentence (i : Intake) (t : Taken) (inherited : Option Text) (s : State) : State :=
  let c := s.cfgAt i.pip.time
  let ti := parseTag t.tag
  let s := if ti.unknown = 0 then s else s.stat 0x4810 i.port 5 ti.unknown
  let addr := t.address
  let form := match addr with
    | some a => addrForm ((t.text.head?).getD 0) a
    | none => .bad
  let sfi := match ti.fault with
    | none => (match ti.value 0x73 with
      | some v => some v
      | none => inherited)
    | some _ => none
  let key : Option SrcKey :=
    if i.gen = 2 then sfi.map SrcKey.sfi
    else match addr with
      | some a => if form = .bad then none else some (.talker (talkerKey form a))
      | none => none
  let hit := match key with
    | some k => if addr.isSome then matchSource s.uid c i.port (some k) else .error 0x0F
    | none => .error 0x0F
  let s := match key with
    | some k => s.discover c i.port k i.pip.time
    | none => s
  let row : Option Nat := match hit with
    | .ok r => some r
    | .error _ => none
  let policy := match row with
    | some r => Cfg.nat s.uid c 0x2310 7 r
    | none => 0
  let a := addr.getD []
  match t.judge policy ti with
  | some (e, o) => s.reject i c row e o a t.tagPart t.rest
  | none =>
    if i.gen = 2 ∧ sfi = none then s.reject i c none 0x13 t.tag.length a t.tag t.rest
    else match hit with
      | .error e => s.reject i c none e (t.tag.length + 1) a t.tag t.rest
      | .ok r =>
        match s.takeToken c r with
        | (false, s) => s.reject i c (some r) 0x11 (t.tag.length + 1) a t.tag t.rest
        | (true, s) => s.cardFields i c r t form a ti

/-! ### Datagrams (R52) -/

/-- The lines of a payload, each with its LF; the last may have none. -/
def linesOf : List Byte → List Byte → List (List Byte)
  | acc, [] => if acc.isEmpty then [] else [acc.reverse]
  | acc, b :: t => if b.toNat = 0x0A then (b :: acc).reverse :: linesOf [] t else linesOf (b :: acc) t

/-- The source identity that a taken sentence's own TAG block gives. -/
def Taken.ownSfi (t : Taken) : Option Text :=
  let ti := parseTag t.tag
  if ti.fault.isNone then ti.value 0x73 else none

/-- What the lines of a datagram leave behind: the state, and the nearest source identity. -/
structure LineRun where
  st : State
  sfi : Option Text
  deriving DecidableEq, Repr

/-- The offset in the line at which a sentence taken at character `n` begins. -/
def Taken.start (t : Taken) (n : Nat) : Nat :=
  (if t.complete || !t.extra.isEmpty then n + 1 else n) - (t.tag.length + t.text.length + t.extra.length)

/-- A sentence of a datagram's line, taken at character `n` of the line. -/
def LineRun.sentence (i : Intake) (n : Nat) (t : Taken) (r : LineRun) : LineRun :=
  { st := r.st.cardSentence { i with base := t.start n } t r.sfi
    sfi := match t.ownSfi with
      | some v => some v
      | none => r.sfi }

/-- The characters of one line through a fresh framer. -/
def LineRun.chars (i : Intake) : List Byte → Nat → Framer → LineRun → LineRun
  | [], n, f, r =>
    match f.phase with
    | .discard => r
    | .idle => r
    | _ => LineRun.sentence i n { f.reject [] (0x04, f.count) with complete := false } r
  | b :: bs, n, f, r =>
    let o := f.take b none
    let r := if o.noise then { r with st := r.st.stat 0x4810 i.port 3 1 } else r
    let r := match o.taken with
      | some t => LineRun.sentence i n t r
      | none => r
    LineRun.chars i bs (n + 1) o.framer r

/-- One line. A final line without a terminator is rejected also where no sentence began in it: what it held was noise
(R52). -/
def LineRun.line (i : Intake) (l : List Byte) (r : LineRun) : LineRun :=
  let r := LineRun.chars i l 0 {} r
  if l.getLast? = some 0x0A ∨ l.any (fun b => startsUnit b.toNat) = true then r
  else { r with st := r.st.reject i (r.st.cfgAt i.pip.time) none 0x04 l.length [] [] [] }

/-- The header of an IEC 61162-450 sentence datagram. -/
def udpbc : List Byte := ascii "UdPbC" ++ [0]

/-- A datagram's payload, line by line, or rejected whole (R52). -/
def State.cardPayload (i : Intake) (payload : List Byte) (s : State) : State :=
  if payload.take 6 ≠ udpbc then s.reject i (s.cfgAt i.pip.time) none 0x12 0 [] [] payload
  else ((linesOf [] (payload.drop 6)).foldl (fun r l => LineRun.line i l r) ⟨s, none⟩).st

/-- An engine takes the oldest datagram of its receive queue whole (R52, R73). -/
def State.takeDatagram (p : Nat) (b : Bool) (s : State) : State :=
  let e : EPort := Tbl.get {} p s.eth
  let engine := engineOf (0x20 + p) b
  let q := 0x30 + 2 * p + (if b then 1 else 0)
  let done (x : EPort) : EPort := { x with covering := match x.covering with
    | some (side, n) => if side = b then (if n ≤ 1 then none else some (side, n - 1)) else x.covering
    | none => none }
  match (if b then e.rxB else e.rxA) with
  | [] => s.readEmpty q
  | f :: rest =>
    let s := ({ s with eth := Tbl.mod {} p (fun x => done (if b then { x with rxB := rest } else { x with rxA := rest })) s.eth }).popped q s
    let i : Intake := { port := 0x20 + p, gen := 2, kind := 0x02, engine := engine, pip := f.pip, states := f.states }
    s.cardPayload i (udpPayload f.bytes)

/-- CARD_DATAGRAM: the engine of the port's side takes a datagram, with credit (R227). -/
def State.cardDatagram (p : Nat) (b : Bool) (s : State) : State :=
  let e := engineOf (0x20 + p) b
  if s.engineTakes e (0x30 + 2 * p + (if b then 1 else 0)) then s.cardsWith e (State.takeDatagram p b) else s

/-- CARD_DATAGRAM. -/
def execCardDatagram (dt : Nat) (port : Fin 2) (engineB : Bool) (s : State) : Host.Outcome State Fault Refusal :=
  .next ((s.elapse dt).whenUp domFabric (State.cardDatagram port.val engineB))

/-! ### IEC 61162-3 messages (R53) and received PDOs (R217) -/

/-- The first slot of a translated message that overflows INTEGER32, by the offset of its field (R54). -/
def slotOverflow : List (Nat × Option Int) → Option Nat
  | [] => none
  | (o, some v) :: t => if v < -(2 ^ 31) ∨ 2 ^ 31 ≤ v then some o else slotOverflow t
  | (_, none) :: t => slotOverflow t

/-- A complete message, or a failed assembly, from C0 or C1. -/
def State.cardCan (p : Nat) (m : CanMsg) (s : State) : State :=
  let c := s.cfgAt m.pip.time
  let i : Intake := { port := 0x28 + p, gen := 1, kind := 0x03, engine := 3, pip := m.pip, states := m.states }
  let key := m.name.map SrcKey.name
  let s := match key with
    | some k => s.discover c i.port k m.pip.time
    | none => s
  match matchSource s.uid c i.port key with
  | .error e => if m.ok then s.reject i c none e 0 [] [] m.data else s.reject i c none 0x14 0 [] [] m.data
  | .ok row =>
    if m.ok = false then s.reject i c (some row) 0x14 0 [] [] m.data
    else match s.takeToken c row with
      | (false, s) => s.reject i c (some row) 0x11 0 [] [] m.data
      | (true, s) =>
        let (code, vs) := (fromPgn m.pgn m.data).getD (0, [])
        match slotOverflow vs with
        | some o => s.reject i c (some row) 0x0E o [] [] m.data
        | none =>
          let slots := vs.map (fun x => x.2)
          s.accept i c row
            [{ baseRecord s.uid i c row code with
                slots := slots, flags := setBit 0 flInvalid (statusInvalid code slots)
                address := Cfg.text s.uid c 0x2310 0x0C row ++ formatterName code
                raw := m.data, pgn := some (m.pgn, m.priority) }]

/-- CE3 takes the oldest message of a port. -/
def State.takeCanMessage (p : Nat) (s : State) : State :=
  match (Tbl.get ({} : CPort) p s.can).rxMsgs with
  | [] => s.readEmpty (0x48 + p)
  | m :: rest => (({ s with can := Tbl.mod {} p (fun x => { x with rxMsgs := rest }) s.can }).popped (0x48 + p) s).cardCan p m

/-- CARD_CAN_MESSAGE: CE3 takes a message, with credit (R227). -/
def State.cardCanMessage (p : Nat) (s : State) : State :=
  if s.engineTakes 3 (0x48 + p) then s.cardsWith 3 (State.takeCanMessage p) else s

/-- CARD_CAN_MESSAGE. -/
def execCardCanMessage (dt : Nat) (port : Fin 2) (s : State) : Host.Outcome State Fault Refusal :=
  .next ((s.elapse dt).whenUp domFabric (State.cardCanMessage port.val))

/-- Four data bytes as a slot, unused bytes 0 (R154, Table 3.10). -/
def dataSlot (k : Nat) (d : List Byte) : Option Int := some (toSigned 32 (leNat ((d.drop k).take 4)))

/-- Operational, as the NMT state code of CANopen (Table 9.7). -/
abbrev nmtOperational : Nat := 5

/-- CE3 takes a received PDO on C2, or ignores it outside Operational (R217). -/
def State.takePdo (s : State) : State :=
  match (Tbl.get ({} : CPort) 2 s.can).pdos with
  | [] => s.readEmpty 0x4A
  | (cob, data, pip, states) :: rest =>
    let s := ({ s with can := Tbl.mod {} 2 (fun x => { x with pdos := rest }) s.can }).passed 0x4A 1
    if s.canOpen.nmt ≠ nmtOperational then s.stat 0x4840 2 9 1
    else
      s.acceptLocal { port := 0x2A, gen := 3, kind := 0x07, engine := 3, pip := pip, states := states } (.cob cob)
        [dataSlot 0 data, dataSlot 4 data, some (cob : Int), some (data.length : Int)] 0

/-- CARD_RECEIVED_PDO: CE3 takes a PDO, with credit (R227). -/
def State.cardReceivedPdo (s : State) : State := if s.engineTakes 3 0x4A then s.cardsWith 3 State.takePdo else s

/-- CARD_RECEIVED_PDO. -/
def execCardReceivedPdo (dt : Nat) (s : State) : Host.Outcome State Fault Refusal :=
  .next ((s.elapse dt).whenUp domFabric State.cardReceivedPdo)

/-! ### Lateness (R66, R67) -/

/-- The nominal interval of a row in fabric cycles. -/
def State.interval (s : State) (r : Nat) : Nat := msCycles (s.cn 0x2310 9 r)

/-- SOURCE_LATE: the next late penalty of a row falls due; within three intervals of its last record the row is LATE. -/
def State.sourceLate (r : Nat) (s : State) : State :=
  let x := s.src r
  let iv := s.interval r
  let e := s.fc - x.ref
  if s.cn 0x2310 2 r = 1 ∧ iv ≠ 0 ∧ 3 * iv + 2 * iv * x.lateSteps < 2 * e then
    let s := s.modSrc r (fun x => { x with lateSteps := x.lateSteps + 1
                                           health := if x.had = true ∧ e ≤ 3 * iv ∧ s.mirrored = false then 2 else x.health })
    s.stepScore r (-(s.cn 0x2300 7 0 : Int))
  else s

/-- CLEAR_DISCOVERY_LIST (R58). -/
def State.clearDiscovery (s : State) : State := { s with carding := { s.carding with discovery := [] } }

/-- CLEAR_DISCOVERY_LIST. -/
def execClearDiscoveryList (dt : Nat) (s : State) : Host.Outcome State Fault Refusal :=
  .next ((s.elapse dt).whenUp domSup State.clearDiscovery)

end Sys2Proof.Machine
end

