-- ==== Sys2Proof/Machine/Analog.lean ====
section
/-! DEFINITION. The line monitor and the current loops (R104, R105, R159 to R171): window verdicts and classifications,
the polarity correction they cause, loop currents and fault codes, samples, and the commands
CLASSIFICATION_WINDOW_END, LOOP_CONVERSION, GAUGE_SAMPLE_SET, FALLBACK_SAMPLE and FREE_REPORT_SAMPLE. -/

namespace Sys2Proof.Machine

open Sys2Proof

/-- A serial port's state. -/
def State.sp (s : State) (p : Nat) : SPort := Tbl.get {} p s.serial

/-- Change a serial port's state. -/
def State.modSp (p : Nat) (f : SPort → SPort) (s : State) : State := { s with serial := Tbl.mod {} p f s.serial }

/-- A value of a serial port's objects. -/
def State.portN (s : State) (p sub : Nat) : Nat := s.cn (0x2100 + p) sub 0

/-- An object of a port in a configuration. -/
def State.portC (s : State) (c : Cfg) (p sub : Nat) : Nat := Cfg.nat s.uid c (0x2100 + p) sub 0

/-- The mode of a port under a configuration (Table 6.1): frame mode only on S20 to S23, synchronous only on S0 to S19.
A frame-mode port keeps its mode until the end of its schedule slot (R126). -/
def State.modeOf (s : State) (p : Nat) (c : Cfg) : Nat := if (s.sp p).held then 3 else s.portC c p 1

/-- The mode of a port. -/
def State.portMode (s : State) (p : Nat) : Nat := s.modeOf p s.cfg

/-- A monitored pair. -/
def State.pair (s : State) (p : Nat) : Pair := Tbl.get {} p s.analog.pairs

/-- Change a monitored pair. -/
def State.modPair (p : Nat) (f : Pair → Pair) (s : State) : State := { s with analog.pairs := Tbl.mod {} p f s.analog.pairs }

/-- A loop channel. -/
def State.chan (s : State) (c : Nat) : Chan := Tbl.get {} c s.analog.chans

/-- Change a loop channel. -/
def State.modChan (c : Nat) (f : Chan → Chan) (s : State) : State := { s with analog.chans := Tbl.mod {} c f s.analog.chans }

/-- The reference fault, code 7, stands: an enabled channel has it (R169). -/
def State.refFault (s : State) : Bool := s.analog.chans.any (fun x => x.2.code == 7 && s.cn 0x2191 2 x.1 != 0)

/-- The runs of a grid with multiple number `k` noted. -/
def noteRun (k : Nat) : List (Nat × Nat) → List (Nat × Nat)
  | [] => [(k, k)]
  | (a, b) :: t => if b + 1 = k then (a, k) :: t else (k, k) :: (a, b) :: t

/-- Where a whole multiple of `ms` milliseconds stands on the time wheel: the first position at or after it. -/
def multipleAt (ms k : Nat) : WheelPos := BitVec.ofNat 64 ((k * ms * 2 ^ 32 + 999) / 1000)

/-- The time wheel at `p` has come to the latest multiple of `ms` by its own motion, and it has not been sampled: a
multiple before the grid's start was passed over, and none is dispatched twice (R31, R105, R171). -/
def SampleGrid.due (ms : Nat) (p : WheelPos) (g : SampleGrid) : Bool :=
  let k := intervalOf ms p
  decide (ms ≠ 0) && posAtOrAfter (multipleAt ms k) g.start && !g.done.any (fun r => decide (r.1 ≤ k) && decide (k ≤ r.2))

/-- The grid with the latest multiple sampled. -/
def SampleGrid.sampled (ms : Nat) (p : WheelPos) (g : SampleGrid) : SampleGrid :=
  { g with done := noteRun (intervalOf ms p) g.done }

/-- The fallback grid of a sample set. -/
def State.fallbackGrid (s : State) (n : Nat) : SampleGrid := Tbl.get { start := s.analog.gridFrom } n s.analog.fallbacks

/-- The free-report grid of a channel. -/
def State.reportGrid (s : State) (ch : Nat) : SampleGrid := Tbl.get { start := s.analog.gridFrom } ch s.analog.reports

/-! ### Windows (R160 to R163) -/

/-- The divider ratio K. -/
def State.dividerRatio (s : State) : Rat := s.cr 0x2180 2 0

/-- The line voltage of a pin code, or of a mean of codes, in mV (R160). -/
def State.lineMv (s : State) (k : Rat) : Rat := (k * 2500 / 4096 - (s.cn 0x2180 3 0 : Rat)) * s.dividerRatio

/-- The differential voltage of a code difference, in mV. -/
def State.diffMv (s : State) (d : Int) : Rat := (d : Rat) * 2500 / 4096 * s.dividerRatio

/-- A run of serial clock cycles in bit times at the receive divider in force (R130, R162). -/
def State.runBits (s : State) (p run : Nat) : Rat := (run : Rat) / ((16 * (s.sp p).rxDiv : Nat) : Rat)

/-- The verdict of Table 7.2; none where the window gives none. -/
def State.verdict (s : State) (p : Nat) (o : WindowObs) : Option Nat :=
  let kind := s.cn 0x2181 2 p
  let limit : Rat := (s.cn 0x2180 8 0 : Rat)
  let beyond (k : Nat) : Bool := decide (limit < (s.lineMv k).abs)
  let sBand : Rat := (s.cn 0x2180 6 0 : Rat)
  let drive : Rat := (s.cn 0x2180 7 0 : Rat)
  let lo := s.diffMv o.minD
  let hi := s.diffMv o.maxD
  let mode := s.portMode p
  let traffic := decide (kind = 1) && (decide (mode = 1) || decide (mode = 2)) && decide (3 ≤ o.rises) && decide (3 ≤ o.falls)
  let high := s.runBits p o.longHigh
  let low := s.runBits p o.longLow
  if beyond o.minA || beyond o.maxA || beyond o.minB || beyond o.maxB then some 5
  else if kind = 3 then some 0
  else if traffic then
    if 12 ≤ high ∧ low ≤ 10 then some 0
    else if 12 ≤ low ∧ high ≤ 10 then some 3
    else none
  else if kind = 2 ∧ drive ≤ hi ∧ lo ≤ -drive then some 0
  else if drive ≤ lo then some 0
  else if sBand ≤ lo ∧ hi < drive then some 4
  else if -sBand < lo ∧ hi < sBand then some 1
  else if hi ≤ -sBand then some 2
  else none

/-- The receive polarity of an automatic port follows its pair's classification (R143, R165): it inverts on REVERSED,
returns on NORMAL, drops the character in progress and hunts. -/
def State.polarity (p cls : Nat) (s : State) : State :=
  let x := s.sp p
  if s.up domSerial && s.portN p 6 == 2 && ((cls == 3 && !x.inverted) || (cls == 0 && x.inverted)) then
    let s := s.modSp p (fun x => { x with
      inverted := !x.inverted, flags := setBit x.flags 2 true, line := if x.line = 2 then 1 else x.line, huntFrom := s.fc })
    (s.stat 0x4800 p 0x0B 1).event 0x5004 p (if x.inverted then 0 else 1)
  else s

/-- The record of kind 0x06 of a pair, at the end of a window (R164). -/
def State.pairRecord (p : Nat) (s : State) : State :=
  let x := s.pair p
  let s := s.modPair p (fun x => { x with lastRecord := some s.fc })
  if s.up domCardB = false then s
  else
    s.acceptLocal { port := 0x40, gen := 3, kind := 6, engine := 8, pip := s.pip, states := s.wheelByte } .channel
      [some (p : Int), some (x.cls : Int), some (roundReport x.a), some (roundReport x.b)] (setBit 0 flInput (x.cls != 0))

/-- A verdict moves a pair's candidate, and with enough of them its classification (R164). -/
def State.takeVerdict (p v : Nat) (s : State) : State :=
  let x := s.pair p
  if v = x.cls then s.modPair p (fun x => { x with count := 0 })
  else
    let n := if v = x.cand then x.count + 1 else 1
    let s := s.modPair p (fun x => { x with cand := v, count := n })
    if n < s.cn 0x2180 5 0 then s
    else
      let s := s.modPair p (fun x => { x with cls := v, count := 0, changes := x.changes + 1 })
      ((s.event 0x6001 p (pack16 x.cls v)).pairRecord p).polarity p v

/-- The boundary of the classification windows at or before the present fabric cycle (R162). -/
def State.windowStart (s : State) : Nat :=
  let len := msCycles (s.cn 0x2180 4 0)
  s.analog.afeAt + (s.fc - s.analog.afeAt) / len * len

/-- A mean of no sample: the manual states no result. -/
def State.freeMean (s : State) : Rat := ((BitVec.ofNat 32 s.freeNat).toInt : Rat)

/-- The figures that a window leaves in a pair's objects: the run lengths only where the port measures them (R162), and a
mean over no sample is a free value. -/
def State.windowFigures (p : Nat) (o : WindowObs) (s : State) : State :=
  let mean (sum : Nat) (s : State) : Rat := if o.count = 0 then s.freeMean else s.lineMv ((sum : Rat) / (o.count : Rat))
  let runs := decide (s.cn 0x2181 2 p = 1) && (decide (s.portMode p = 1) || decide (s.portMode p = 2))
  let empty := decide (o.count = 0)
  ((s.modPair p (fun x => { x with
    a := mean o.sumA s, b := mean o.sumB (s.spend empty), least := s.diffMv o.minD, greatest := s.diffMv o.maxD
    longHigh := if runs then o.longHigh else 0, longLow := if runs then o.longLow else 0
    complete := true })).spend empty).spend empty

/-- A classification window of a pair ends (R162 to R164). -/
def State.windowEnd (p : Nat) (o : WindowObs) (s : State) : State :=
  let len := msCycles (s.cn 0x2180 4 0)
  let due := (s.pair p).windowAt + len
  if s.cn 0x2180 1 0 = 0 ∨ s.cn 0x2181 2 p = 0 ∨ s.fc < due then s
  else
    let s := (s.modPair p (fun x => { x with windowAt := due })).windowFigures p o
    let verdict := if s.refFault then none else s.verdict p o
    let s := match verdict with
      | some v => s.takeVerdict p v
      | none => s
    let x := s.pair p
    let iv := msCycles (s.cn 0x2180 9 0)
    let passed := match x.lastRecord with
      | some t => decide (iv ≤ s.fc - t)
      | none => true
    if x.cls ≠ 0xFF ∧ iv ≠ 0 ∧ passed = true then s.pairRecord p else s

/-- CLASSIFICATION_WINDOW_END. -/
def execClassificationWindowEnd (dt : Nat) (pair : Fin 24) (obs : WindowObs) (s : State) : Host.Outcome State Fault Refusal :=
  .next ((s.elapse dt).whenUp domAfe (State.windowEnd pair.val obs))

/-- The classification that a stuck or shorted port asks for: 0 none, 1 short, 2 driven low (R165). -/
def State.pairEvidence (s : State) (p : Nat) : Nat :=
  let x := s.pair p
  let kind := s.cn 0x2181 2 p
  if s.cn 0x2180 1 0 = 0 ∨ kind = 0 ∨ s.up domAfe = false ∨ x.complete = false then 0
  else if kind ≠ 3 ∧ (x.a - x.b).abs ≤ (s.cn 0x2180 6 0 : Rat) then 1
  else 2

/-! ### Loop conversions (R166 to R169) -/

/-- Conversions per second of a rate code (Table 7.4). -/
def loopRate (code : Nat) : Nat :=
  match code with
  | 0 => 2000
  | 1 => 1000
  | 2 => 500
  | 3 => 250
  | 4 => 100
  | _ => 50

/-- The current of a conversion in whole nA, in REAL64 (R167). -/
def loopCurrent (c : Int) (shunt : Nat) (gain : Rat) (offset : Int) : Int :=
  let v := fdiv (fmul (c : Rat) (5 / 4)) ((2 ^ 23 : Nat) : Rat)
  let i := fmul (fdiv v (fdiv (shunt : Rat) 1000)) 1000000000
  roundAway (fadd (fmul i gain) (offset : Rat))

/-- The fault code of Table 7.5 for a settled converter. -/
def loopFault (kind : Nat) (c i : Int) (refMv : Nat) : Nat :=
  if refMv < 2475 ∨ 2525 < refMv then 7
  else if c = 2 ^ 23 - 1 ∨ 23000000 < i then 4
  else if c = -(2 ^ 23) ∨ i < -500000 then 5
  else if 21000000 < i then 3
  else if kind = 1 then 0
  else if i ≤ 500000 then 1
  else if i < 3600000 then 2
  else 0

/-- The current lies in the range that ends a fault (R169). -/
def loopClears (kind : Nat) (i : Int) : Bool :=
  decide ((if kind = 1 then -400000 else 3700000) ≤ i) && decide (i ≤ 20900000)

/-- The fault code that a channel reports (R169, R170). -/
def State.loopCode (s : State) (ch : Nat) : Nat :=
  if s.refFault then 7 else if (s.chan ch).convs < 3 then 6 else (s.chan ch).code

/-- The reference alert begins or ends where code 7 did, `before` being whether it stood (R169). -/
def State.refChange (before : Bool) (s : State) : State :=
  if before = s.refFault then s
  else if before then s.endAlert 0x6003 0
  else s.event 0x6003 0 0

/-- A change of a channel's fault code: the event and the count (R169). -/
def State.putLoopCode (ch code : Nat) (s : State) : State :=
  (s.modChan ch (fun x => { x with code := code, cand := code, candCount := 0, changes := x.changes + 1 })).event 0x6002 ch code

/-- A new fault code of a channel, with the reference alert where code 7 begins or ends (R169). -/
def State.setLoopCode (ch code : Nat) (s : State) : State := (s.putLoopCode ch code).refChange s.refFault

/-- The converter of a channel settles anew: its code becomes NOT_READY (R170). -/
def State.notReady (ch : Nat) (s : State) : State :=
  let t := s.modChan ch (fun x => { x with convs := 0, cand := 6, candCount := 0 })
  if (s.chan ch).code = 6 then t else t.putLoopCode ch 6

/-- A conversion of a channel ends: its filter and its fault code (R168, R169). -/
def State.loopConversion (ch : Nat) (code : BitVec 24) (refMv : Nat) (s : State) : State :=
  if s.cn 0x2191 2 ch = 0 then s
  else
    let c := code.toInt
    let kind := s.cn 0x2191 3 ch
    let rate := loopRate (s.cn 0x2191 4 ch)
    let tau := s.cn 0x2191 8 ch
    let i := loopCurrent c (s.cn 0x2191 5 ch) (s.cr 0x2191 6 ch) (s.ci 0x2191 7 ch)
    let k : Rat := if tau = 0 then 1 else clampRat 0 1 (1000 / ((rate * tau : Nat) : Rat))
    let s := s.modChan ch (fun x => { x with f := x.f + ((i : Rat) - x.f) * k, convs := Nat.min 3 (x.convs + 1) })
    let x := s.chan ch
    let seen := if x.convs < 3 then 6 else loopFault kind c i refMv
    let v := if seen = 0 ∧ x.code ≠ 0 ∧ loopClears kind i = false then x.code else seen
    let need := (s.cn 0x2191 9 ch * rate + 999) / 1000
    if v = x.code then s.modChan ch (fun x => { x with cand := v, candCount := 0 })
    else
      let n := if v = x.cand then x.candCount + 1 else 1
      if need ≤ n then s.setLoopCode ch v else s.modChan ch (fun x => { x with cand := v, candCount := n })

/-- LOOP_CONVERSION. -/
def execLoopConversion (dt : Nat) (ch : Fin 16) (code : BitVec 24) (refMv : Nat) (s : State) : Host.Outcome State Fault Refusal :=
  .next ((s.elapse dt).whenUp domAfe (State.loopConversion ch.val code refMv))

/-! ### Samples (R104, R105, R170, R171) -/

/-- The loop sample of a channel at this cycle's pip: set, basis, and whether it is a time-wheel fallback. -/
def State.loopSample (setNo : Int) (basis : Nat) (fallback : Bool) (s : State) (ch : Nat) : State :=
  if s.up domAfe = false then s.modChan ch (fun x => { x with missed := x.missed + 1 })
  else if s.up domCardB = false then s
  else
    let x := s.chan ch
    let code := s.loopCode ch
    let f := if x.convs < 3 then 0 else roundReport x.f
    let flags := setBit (setBit (setBit 0 flInput (code != 0)) flFallback fallback) flSeaHalf (basis == 2)
    s.acceptLocal { port := 0x30 + ch, gen := 3, kind := 4, engine := 8, pip := s.pip, states := s.wheelByte } .channel
      [some f, some (code : Int), some setNo, some (basis : Int)] flags

/-- The channels of a gauge sample set. -/
def State.setChannels (s : State) (n : Nat) : List Nat := (List.range 16).filter (fun c => (s.cn 0x3120 2 n).testBit c)

/-- A sea-synchronous appointment row (R104). -/
def RowCfg.seaSync (r : RowCfg) : Bool :=
  decide (r.wheel = 3) && decide (r.kind = 2) && decide (r.divisor = 2) && decide (r.phase = 0)

/-- Sample every channel of a set; a sea-synchronous set reports a change of basis (R17, R105). -/
def State.sampleSet (n basis : Nat) (sea fallback : Bool) (s : State) : State :=
  let s := if sea && decide ((if basis = 0 then 0 else 1) ≠ (if Tbl.get 0 n s.analog.bases = 0 then 0 else 1))
    then s.event 0x1008 n basis else s
  let s := if sea then { s with analog.bases := Tbl.put n basis s.analog.bases } else s
  (s.setChannels n).foldl (State.loopSample (n : Int) basis fallback) s

/-- GAUGE_SAMPLE_SET: a delivered dispatch of consumer 0x02nn. A sea dispatch with the sea wheel not LOCKED takes none. -/
def State.gaugeSet (n : Nat) (s : State) : State :=
  s.withDispatch (0x0200 + n) (fun d s =>
    if (s.apptRow d.row).seaSync then
      if s.wheels.sea.state = .locked then s.sampleSet n (if posFrac d.due = 0 then 1 else 2) true false else s
    else s.sampleSet n 0 false false)

/-- GAUGE_SAMPLE_SET. -/
def execGaugeSampleSet (dt : Nat) (n : Fin 32) (s : State) : Host.Outcome State Fault Refusal :=
  .next ((s.elapse dt).whenUp domFabric (State.gaugeSet n.val))

/-- The set has an enabled sea-synchronous appointment row. -/
def State.seaSet (s : State) (n : Nat) : Bool :=
  s.apptRows.any (fun r => (s.apptRow r).consumer == 0x0200 + n && (s.apptRow r).seaSync)

/-- The tanks in mode 1 that a set feeds. -/
def State.setTanks (s : State) (n : Nat) : List Nat :=
  (Cfg.rows 0x3110 s.cfg).filter (fun t =>
    s.cn 0x3110 2 t == 1 && s.cn 0x3110 0x0D t == 1 &&
      (s.setChannels n).any (fun c => s.cn 0x2310 3 (s.cn 0x3110 3 t) == 0x30 + c))

/-- The fallback interval of a set in ms (R105). -/
def State.fallbackMs (s : State) (n : Nat) : Nat :=
  match s.setTanks n with
  | t :: _ => s.cn 0x3110 0x0E t
  | [] => 1000

/-- FALLBACK_SAMPLE: the time wheel has come to a multiple of the fallback interval while the sea wheel is not LOCKED. -/
def State.fallbackSample (n : Nat) (s : State) : State :=
  let ms := s.fallbackMs n
  let g := s.fallbackGrid n
  if s.seaSet n = false ∨ s.wheels.sea.state = .locked ∨ g.due ms s.time = false ∨
      posAfter s.analog.seaLeft (multipleAt ms (intervalOf ms s.time)) then s
  else { s with analog.fallbacks := Tbl.put n (g.sampled ms s.time) s.analog.fallbacks }.sampleSet n 0 true true

/-- FALLBACK_SAMPLE. -/
def execFallbackSample (dt : Nat) (n : Fin 32) (s : State) : Host.Outcome State Fault Refusal :=
  .next ((s.elapse dt).whenUp domFabric (State.fallbackSample n.val))

/-- An enabled sample set names the channel: a set is enabled by an enabled appointment row (R171). -/
def State.inSet (s : State) (ch : Nat) : Bool :=
  (List.range 32).any (fun n => (s.cn 0x3120 2 n).testBit ch &&
    s.apptRows.any (fun r => (s.apptRow r).consumer == 0x0200 + n && (s.apptRow r).kind != 0))

/-- FREE_REPORT_SAMPLE: the time wheel has come to a multiple of a free channel's report interval (R171). -/
def State.freeReport (ch : Nat) (s : State) : State :=
  let ms := s.cn 0x2191 0x0A ch
  let g := s.reportGrid ch
  if s.cn 0x2191 2 ch = 0 ∨ s.inSet ch = true ∨ g.due ms s.time = false then s
  else State.loopSample (-1) 0 false { s with analog.reports := Tbl.put ch (g.sampled ms s.time) s.analog.reports } ch

/-- FREE_REPORT_SAMPLE. -/
def execFreeReportSample (dt : Nat) (ch : Fin 16) (s : State) : Host.Outcome State Fault Refusal :=
  .next ((s.elapse dt).whenUp domFabric (State.freeReport ch.val))

end Sys2Proof.Machine
end

