-- ==== Sys2Proof/Machine/Voting.lean ====
section
/-! DEFINITION. Quantity groups and synthetic sources (R67, R69 to R72): distances, comparison, selection with
hysteresis, synthetic copies, and the commands VOTE_COUNTING_RECORD, GROUP_HOLD_EXPIRY, SOURCE_LATE and
SOURCE_STALE. -/

namespace Sys2Proof.Machine

open Sys2Proof

/-- The status of a group. -/
def State.grp (s : State) (g : Nat) : GroupRow := Tbl.get {} g s.carding.groups

/-- Change the status of a group. -/
def State.modGrp (g : Nat) (f : GroupRow → GroupRow) (s : State) : State :=
  { s with carding.groups := Tbl.mod {} g f s.carding.groups }

/-! ### Distances (R69) -/

/-- An angle in thousandths of a degree taken modulo 360 degrees into -180 to +180. -/
def wrapAngle (v : Int) : Int := (v + 180000) % 360000 - 180000

/-- 10^-7 degree in radians. -/
def geoRad (v : Rat) : Rat := v / 10000000 * Config.pi / 180

/-- The distance between two values under a metric, in its tolerance unit (R69). -/
def distance (metric slot : Nat) (a b : FibreRecord) : Rat :=
  let x (r : FibreRecord) (n : Nat) : Int := (slotAt r.slots n).getD 0
  match metric with
  | 0 => ((x a slot - x b slot).natAbs : Rat)
  | 1 => ((wrapAngle (x a slot - x b slot)).natAbs : Rat)
  | _ =>
    let dphi := geoRad ((x a slot - x b slot : Int) : Rat)
    let phim := geoRad (((x a slot + x b slot : Int) : Rat) / 2)
    let dl := ((x a (slot + 1) - x b (slot + 1) + 1800000000) % 3600000000 - 1800000000 : Int)
    let w := Config.cos phim * geoRad (dl : Rat)
    6371000 * Config.sqrt (dphi * dphi + w * w)

/-- The sum of the distances of a member to all of a set. -/
def sumDist (metric slot : Nat) (m : FibreRecord) (l : List FibreRecord) : Rat :=
  l.foldl (fun a x => a + distance metric slot m x) 0

/-- The member whose summed distance to the others is smallest; the earlier on a tie (R70). -/
def reference (metric slot : Nat) (l : List FibreRecord) : Option FibreRecord :=
  l.foldl (fun best m => match best with
    | none => some m
    | some b => if sumDist metric slot m l < sumDist metric slot b l then some m else some b) none

/-! ### Selection (R67, R71) -/

/-- A row is usable (R67). -/
def State.usable (s : State) (r : Nat) : Bool :=
  let x := s.src r
  (s.cn 0x2310 2 r == 1) && (x.health == 1 || x.health == 2) && decide (s.cn 0x2300 1 0 ≤ x.score)

/-- The usable row with the highest score, the earliest on a tie. -/
def State.bestOf (s : State) (rows : List Nat) : Option Nat :=
  rows.foldl (fun best r =>
    if s.usable r = false then best
    else match best with
      | none => some r
      | some b => if (s.src b).score < (s.src r).score then some r else some b) none

/-- Without a chosen candidate of the heel group the cross-check is suspended: its persistence timer stops (R110). -/
def State.checkHeel (s : State) : State :=
  let g := s.cn 0x3100 1 0
  if 63 < g ∨ (s.grp g).chosen = 0xFFFF then { s with control.persistence := none } else s

/-- Report a change of the chosen candidate (R71, R72). -/
def State.choose (g new : Nat) (s : State) : State :=
  let old := (s.grp g).chosen
  let motion := s.cn 0x200B 1 0 == g
  if new = 0xFFFF then
    let fresh := !(s.grp g).noChoice
    let s := s.modGrp g (fun x => { x with chosen := 0xFFFF, noChoice := true })
    let s := s.checkHeel
    let s := if fresh then s.event 0x2003 g 0 else s
    if motion then s.coastSea true else s
  else if old = new then s
  else
    let s := s.modGrp g (fun x => { x with
      chosen := new, seen := true, noChoice := false, switches := if old = 0xFFFF then x.switches else x.switches + 1 })
    s.event 0x2002 g (pack16 old new)

/-- With no usable source in the motion group, or no group, the sea wheel coasts at the default period (R16). -/
def State.checkSea (s : State) : State :=
  let g := s.cn 0x200B 1 0
  if g = 0xFF ∨ (s.grp g).chosen = 0xFFFF then s.coastSea true else s

/-- The selection of R71 for one group. On a standby that mirrors, the active unit's choice stands (R308). -/
def State.selectGroup (g : Nat) (s : State) : State :=
  if s.cn 0x2320 2 g ≠ 1 ∨ s.mirrored = true then s
  else
    let rows := candidates s.uid s.cfg g
    let hold := msCycles (s.cn 0x2320 0x0A g)
    let first := rows.head?
    let full := match first with
      | some r => if (s.src r).score = 255 then some ((s.grp g).full.getD s.fc) else none
      | none => none
    let s := s.modGrp g (fun x => { x with full := full })
    let ch := (s.grp g).chosen
    if ch = 0xFFFF ∨ s.usable ch = false then
      (s.modGrp g (fun x => { x with hold := none })).choose g ((s.bestOf rows).getD 0xFFFF)
    else
      let best := s.bestOf (rows.filter (fun r => r != ch))
      let lead := match best with
        | some b => decide ((s.src ch).score + s.cn 0x2320 9 g ≤ (s.src b).score)
        | none => false
      let start := if lead then some ((s.grp g).hold.getD s.fc) else none
      let ran := match start with
        | some t => decide (hold ≤ s.fc - t)
        | none => false
      let s := s.modGrp g (fun x => { x with hold := if ran then none else start })
      let s := if ran then s.choose g (best.getD 0xFFFF) else s
      match first, full with
      | some r, some t =>
        if s.cn 0x2320 0x0B g = 1 ∧ s.usable r = true ∧ (s.grp g).chosen ≠ r ∧ hold ≤ s.fc - t then s.choose g r else s
      | _, _ => s

/-- The enabled groups that name a row as a candidate. -/
def State.groupsOf (s : State) (r : Nat) : List Nat :=
  (Cfg.rows 0x2320 s.cfg).filter (fun g => s.cn 0x2320 2 g == 1 && (candidates s.uid s.cfg g).contains r)

/-- Select again in every group of a row. -/
def State.reselect (r : Nat) (s : State) : State := (s.groupsOf r).foldl (fun s g => s.selectGroup g) s

/-! ### Counting records (R70, R72) -/

/-- The verdict of a comparison. -/
inductive Verdict where
  | alone | agree | disagree (a b : Nat) | deviant
  deriving DecidableEq, Repr

/-- The comparison of R70: the set is the new record and the latest counting value of every other usable candidate, in
candidate order. -/
def State.compare (c : Cfg) (g : Nat) (r : FibreRecord) (s : State) : Verdict :=
  let metric := Cfg.nat s.uid c 0x2320 6 g
  let slot := Cfg.nat s.uid c 0x2320 7 g
  let tol : Rat := (Cfg.nat s.uid c 0x2320 8 g : Rat)
  let members := (candidates s.uid c g).filterMap (fun k =>
    if k = r.source then some r
    else if s.usable k then (s.grp g).values.find? (fun p => p.1 == k) |>.map (fun p => p.2)
    else none)
  match members with
  | [a, b] => if tol < distance metric slot a b then .disagree a.source b.source else .agree
  | _ :: _ :: _ =>
    match reference metric slot members with
    | some m => if tol < distance metric slot r m then .deviant else .agree
    | none => .alone
  | _ => .alone

/-- The synthetic copy of a record (R72), or its drop as out of order; a motion group's copy drives the sea wheel
(R37). -/
def State.synthetic (c : Cfg) (g engine : Nat) (r : FibreRecord) (deviant : Bool) (s : State) : State :=
  let late := match (s.grp g).lastPip with
    | some p => !posAfter r.pip.time p
    | none => false
  if late then s.modGrp g (fun x => { x with drops := x.drops + 1 })
  else
    let s := s.modGrp g (fun x => { x with lastPip := some r.pip.time, seq := x.seq + 1 })
    let copy := { r with
      kind := 0x08, source := 0x200 + g, chosenFrom := r.source, group := g, cls := Cfg.nat s.uid c 0x2320 0x0C g
      flags := setBit r.flags flDeviant deviant, score := (s.src r.source).score, seq := (s.grp g).seq.toNat }
    let s := ({ s with bramble.inputs := Tbl.mod [] engine (fun l => l ++ [copy]) s.bramble.inputs }).pushed (0x60 + engine)
    if s.cn 0x200B 1 0 = g then s.seaRoll copy else s

/-- One group's share of a counting record: comparison, the voting step, selection, and the copy. -/
def State.voteIn (c : Cfg) (engine : Nat) (r : FibreRecord) (s : State) (g : Nat) : State :=
  let v := s.compare c g r
  let s := match v with
    | .disagree a b =>
      let fresh := !(s.grp g).disagreeing
      let s := s.modGrp g (fun x => { x with disagrees := x.disagrees + 1, disagreeing := true })
      if fresh then s.event 0x2001 g (pack16 a b) else s
    | .alone => s
    | _ => s.modGrp g (fun x => { x with disagreeing := false })
  let dev := v == .deviant
  let s := s.stepScore r.source (if dev then -(Cfg.nat s.uid c 0x2300 5 0 : Int) else (Cfg.nat s.uid c 0x2300 3 0 : Int))
  let s := s.modGrp g (fun x => { x with values := Tbl.put r.source r x.values })
  let s := s.selectGroup g
  if (s.grp g).chosen = r.source then s.synthetic c g engine r dev else s

/-- A voting engine takes a counting record: each of its groups that the record counts for has its share. -/
def State.takeCounting (ce9 : Bool) (q : Nat) (r : FibreRecord) (s : State) : State :=
  let t : State := if ce9 then { s with carding.toVote9 := s.carding.toVote9.erase (q, r) }
    else { s with carding.toVote4 := s.carding.toVote4.erase (q, r) }
  let s := t.popped q s
  let c := s.cfgAt r.pip.time
  (countingGroups s.uid c r (if ce9 then 32 else 0)).foldl (State.voteIn c (if ce9 then 9 else 4) r) s

/-- VOTE_COUNTING_RECORD: CE4 or CE9 takes its oldest counting record, with credit towards Bramble (R70 to R72, R227). -/
def State.voteCounting (ce9 : Bool) (s : State) : State :=
  if s.up (if ce9 then domCardB else domCardA) = false then s
  else
    match (if ce9 then s.carding.toVote9 else s.carding.toVote4).filter (fun x => s.yields x.1) with
    | [] => s.readEmpty (if ce9 then 0x78 else 0x70)
    | (q, r) :: _ =>
      s.withCredit [if ce9 then 0x69 else 0x64] (State.takeCounting ce9 q r)

/-- VOTE_COUNTING_RECORD. -/
def execVoteCountingRecord (dt : Nat) (ce9 : Bool) (s : State) : Host.Outcome State Fault Refusal :=
  .next ((s.elapse dt).whenUp domFabric (State.voteCounting ce9))

/-- The voting engine of a group runs. -/
def State.voterUp (s : State) (g : Nat) : Bool := s.up (if g < 32 then domCardA else domCardB)

/-- GROUP_HOLD_EXPIRY: the selection of R71 at the end of a hold, or at the examination every 10 ms. -/
def State.groupHoldExpiry (g : Nat) (s : State) : State := if s.voterUp g then s.selectGroup g else s

/-- GROUP_HOLD_EXPIRY. -/
def execGroupHoldExpiry (dt : Nat) (g : Fin 64) (s : State) : Host.Outcome State Fault Refusal :=
  .next ((s.elapse dt).whenUp domFabric (State.groupHoldExpiry g.val))

/-- SOURCE_LATE (R66, R67). -/
def execSourceLate (dt : Nat) (row : Fin 512) (s : State) : Host.Outcome State Fault Refusal :=
  .next ((s.elapse dt).whenUp domFabric (fun s => (s.sourceLate row.val).reselect row.val))

/-- SOURCE_STALE: three nominal intervals without a record (R66). -/
def State.sourceStale (r : Nat) (s : State) : State :=
  let iv := s.interval r
  if s.cn 0x2310 2 r = 1 ∧ iv ≠ 0 ∧ 3 * iv < s.fc - (s.src r).ref ∧ s.mirrored = false then
    (s.modSrc r (fun x => { x with health := 3 })).reselect r
  else s

/-- SOURCE_STALE. -/
def execSourceStale (dt : Nat) (row : Fin 512) (s : State) : Host.Outcome State Fault Refusal :=
  .next ((s.elapse dt).whenUp domFabric (State.sourceStale row.val))

end Sys2Proof.Machine
end

