-- ==== Sys2Proof/Machine/Bramble.lean ====
section
/-! DEFINITION. Bramble (R77, R80 to R90): matching, the record store, shaping, listener queues with their overload
policy, and the commands BRAMBLE_MATCH and SHAPER_EMISSION. -/

namespace Sys2Proof.Machine

open Sys2Proof

/-! ### Listeners (R77) -/

/-- The status of a listener. -/
def State.lst (s : State) (l : Nat) : Listener := Tbl.get {} l s.bramble.listeners

/-- Change the status of a listener. -/
def State.modLst (l : Nat) (f : Listener → Listener) (s : State) : State :=
  { s with bramble.listeners := Tbl.mod {} l f s.bramble.listeners }

/-- A listener row is enabled. -/
def listenerOn (u : UnitId) (c : Cfg) (l : Nat) : Bool := Cfg.nat u c 0x2520 2 l == 1

/-- The rows of the listener table that are not plain defaults. -/
def listenerRows (c : Cfg) : List Nat :=
  (insertNat 63 (insertNat 62 (Cfg.live c 0x2520 24))).filter (fun l => decide (l ≤ 63))

/-- A record of IEC 61162-3, or a synthetic copy of one. -/
def FibreRecord.fromCan (r : FibreRecord) : Bool := r.kind == 3 || (r.kind == 8 && r.pgn.isSome)

/-- A sentence record, or a synthetic copy of one. -/
def FibreRecord.isSentence (r : FibreRecord) : Bool := r.kind == 1 || r.kind == 2 || (r.kind == 8 && r.pgn.isNone)

/-- The listener can take the record (R82, Table 4.2). -/
def takes (k : LKind) (r : FibreRecord) : Bool :=
  match k with
  | .journal => true
  | .control => true
  | .none => false
  | .serial _ => r.isSentence || (r.fromCan && r.formatter != 0)
  | .eth _ => r.isSentence || (r.fromCan && r.formatter != 0)
  | .can _ => r.fromCan ||
      (r.isSentence && !(pgnsOf r.formatter).isEmpty && (!r.flags.getLsbD flInvalid || r.formatter == 1))

/-! ### Rules (R80, R81) -/

/-- A match field that holds its "any" value, or the record's. -/
def fieldAgrees (any v x : Nat) : Bool := v == any || v == x

/-- A rule matches a record (R80). -/
def ruleMatches (u : UnitId) (c : Cfg) (row : Nat) (r : FibreRecord) : Bool :=
  let f (sub : Nat) : Nat := Cfg.nat u c 0x2510 sub row
  let t := Cfg.text u c 0x2510 7 row
  f 2 == 1 && fieldAgrees 0xFFFF (f 3) r.source && fieldAgrees 0xFFFF (f 4) r.formatter && fieldAgrees 0xFF (f 5) r.kind &&
    fieldAgrees 0xFF (f 6) r.port && (t.isEmpty || r.address.take 2 == t) && ((r.flags.toNat &&& f 8) == f 9)

/-- A delivery: listener, class, shaper row. -/
structure Delivery where
  listener : Nat
  cls : Nat
  shaper : Nat
  deriving DecidableEq, Repr

/-- What the rules make of a record: deliveries, shielded listeners, the rules that matched. -/
structure Routing where
  delivery : List Delivery := []
  blocked : List Nat := []
  hits : List Nat := []
  deriving DecidableEq, Repr

/-- The listeners of a set of 64 bits. -/
def bitList (n : Nat) : List Nat := (List.range 64).filter (fun i => n.testBit i)

/-- The rules in ascending order (R81). -/
def route (u : UnitId) (c : Cfg) (r : FibreRecord) : List Nat → Routing → Routing
  | [], a => a
  | row :: rows, a =>
    if ruleMatches u c row r then
      let act := Cfg.nat u c 0x2510 0x0A row
      let set := bitList (Cfg.nat u c 0x2510 0x0B row)
      let cls := Cfg.nat u c 0x2510 0x0C row
      let a := { a with hits := a.hits ++ [row] }
      let a :=
        if act ≤ 1 then
          { a with delivery := a.delivery ++ (set.filter (fun l =>
              !a.delivery.any (fun d => d.listener == l) && !a.blocked.contains l)).map (fun l =>
                { listener := l, cls := if cls = 0xFF then r.cls else cls, shaper := Cfg.nat u c 0x2510 0x0D row }) }
        else { a with delivery := a.delivery.filter (fun d => !set.contains d.listener), blocked := a.blocked ++ set }
      if act = 1 ∨ act = 3 then a else route u c r rows a
    else route u c r rows a

/-- The rule rows that are not plain defaults. -/
def ruleRows (c : Cfg) : List Nat := (Cfg.live c 0x2510 28).filter (fun r => decide (r ≤ 4095))

/-! ### The record store (R84) -/

/-- The records that the listeners refer to: queue entries and composed items. -/
def Listener.records (x : Listener) : List FibreRecord :=
  x.queue.map (fun e => e.rcd) ++ x.slot.toList.map (fun i => i.entry.rcd) ++ x.inFlight.toList.map (fun i => i.entry.rcd)

/-- The records of the datagrams that a MAC holds. -/
def EPort.records (e : EPort) : List FibreRecord :=
  (e.tx0 ++ e.tx1 ++ e.tx2 ++ e.tx3 ++ e.inFlight.toList).filterMap (fun f => match f.kind with
    | .datagram _ x => some x.rcd
    | _ => none)

/-- The records of the messages that a CAN controller holds. -/
def CPort.records (c : CPort) : List FibreRecord :=
  c.frames.filterMap (fun t => match t.kind with
    | .fe _ (some x) _ => some x.rcd
    | _ => none)

/-- Every record that something refers to: queue entries, compositions, shaper holds, the voting engines with the
counting values they keep (R84). -/
def State.heldRecords (s : State) : List FibreRecord :=
  s.bramble.listeners.flatMap (fun p => p.2.records) ++ s.eth.flatMap (fun p => p.2.records) ++
    s.can.flatMap (fun p => p.2.records) ++
    s.bramble.shapers.flatMap (fun p => p.2.held.toList.map (fun h => h.1)) ++
    s.carding.toVote4.map (fun x => x.2) ++ s.carding.toVote9.map (fun x => x.2) ++
    s.carding.groups.flatMap (fun p => p.2.values.map (fun x => x.2))

/-- Distinct records of a list. -/
def distinctRecords : List FibreRecord → List FibreRecord
  | [] => []
  | r :: t => if t.any (fun x => sameRecord x r) then distinctRecords t else r :: distinctRecords t

/-- Free places of the record store (0x2500:03). -/
def State.storeFree (s : State) : Nat := 32768 - (distinctRecords s.heldRecords).length

/-- A record of store class `cls` is refused (R84). -/
def State.storeRefuses (c : Cfg) (cls : Nat) (s : State) : Bool :=
  if cls ≤ 1 then s.storeFree == 0 else decide (s.storeFree ≤ Cfg.nat s.uid c 0x2500 2 0)

/-! ### Queueing (R85 to R87) -/

/-- The lowest-priority class present in a list of entries. -/
def lowestClass (l : List Entry) : Nat := l.foldl (fun a e => Nat.max a e.cls) 0

/-- Remove the oldest entry of a class (entries stand in order of queueing within a class). -/
def dropOldest (cls : Nat) : List Entry → List Entry
  | [] => []
  | e :: t => if e.cls = cls then t else e :: dropOldest cls t

/-- One discard of a listener, counted by class; of class 0 or 1 with an event at most once per second (R87). -/
def State.countDiscard (l cls : Nat) (s : State) : State :=
  let s := s.stat 0x4820 l (6 + cls) 1
  if 1 < cls then s
  else
    let due := match (s.lst l).lastDiscard with
      | some t => decide (cyclesPerSec ≤ s.fc - t)
      | none => true
    if due then (s.modLst l (fun x => { x with lastDiscard := some s.fc })).event 0x3001 l cls else s

/-- The queue of a listener's class. -/
def listenerQueue (l cls : Nat) : Nat := 0x100 + 4 * l + cls

/-- Return an entry to the head of its listener's queue with its sequence number (R86, R127). -/
def State.returnEntry (l : Nat) (e : Entry) (s : State) : State :=
  (s.modLst l (fun x => { x with queue := e :: x.queue })).returned (listenerQueue l e.cls) s

/-- The composed item of a listener that has not begun goes back to its queue; its n: count is given back (R86, R127). -/
def State.returnSlot (l : Nat) (s : State) : State :=
  match (s.lst l).slot with
  | some i => (s.returnEntry l i.entry).modLst l (fun x => { x with slot := none, line := i.line })
  | none => s

/-- A newly queued entry of a higher class displaces an item whose first character has not left (R86). -/
def State.displace (l cls : Nat) (s : State) : State :=
  match (s.lst l).slot with
  | some i => if cls < i.entry.cls then s.returnSlot l else s
  | none => s

/-- The oldest entry of a class is discarded from a listener's queues under overload (R87). -/
def State.discardOldest (l cls : Nat) (s : State) : State :=
  ((s.modLst l (fun x => { x with queue := dropOldest cls x.queue })).released (listenerQueue l cls) s).countDiscard l cls

/-- Queue a record for a listener in a class, under its queue limit (R85, R87). -/
def State.enqueue (c : Cfg) (l cls : Nat) (r : FibreRecord) (s : State) : State :=
  let x := s.lst l
  let full := decide (Cfg.nat s.uid c 0x2520 4 l ≤ x.queue.length)
  let low := Nat.max (lowestClass x.queue) cls
  let alone := low == cls && !x.queue.any (fun e => e.cls == cls)
  if full && alone then s.countDiscard l cls
  else
    let s := (if full then s.discardOldest l low else s).displace l cls
    let e : Entry := { rcd := r, seq := (s.lst l).seq + 1, cls := cls, order := s.bramble.order }
    let s := s.modLst l (fun x => { x with seq := x.seq + 1, queue := x.queue ++ [e] })
    ({ s.stat 0x4820 l 2 1 with bramble.order := s.bramble.order + 1 }).pushed (listenerQueue l cls)

/-! ### Shapers (R89, R90) -/

/-- The key of a shaper's state towards a listener. -/
def shaperKey (n l : Nat) : Nat := 64 * n + l

/-- The state of a shaper towards a listener. -/
def State.shp (s : State) (n l : Nat) : ShaperState := Tbl.get {} (shaperKey n l) s.bramble.shapers

/-- Change the state of a shaper towards a listener. -/
def State.modShp (n l : Nat) (f : ShaperState → ShaperState) (s : State) : State :=
  { s with bramble.shapers := Tbl.mod {} (shaperKey n l) f s.bramble.shapers }

/-- Advance a shaper count: 0 passed, 1 shaped, 2 missed slots. -/
def State.countShaper (n k : Nat) (s : State) : State :=
  { s with bramble.shaperCounts := Tbl.mod 0 (4 * n + k) (fun x => x + 1) s.bramble.shaperCounts }

/-- A record is discarded by a shaper: counted as shaped. -/
def State.countShaped (n l : Nat) (s : State) : State := (s.countShaper n 1).stat 0x4820 l 4 1

/-- Apply the shaper of a delivery, then queue the record (R89). -/
def State.deliver (c : Cfg) (d : Delivery) (r : FibreRecord) (s : State) : State :=
  let n := d.shaper
  if n = 0xFFFF then s.enqueue c d.listener d.cls r
  else
    let x := s.shp n d.listener
    match Cfg.nat s.uid c 0x2530 2 n with
    | 1 =>
      let ok := match x.lastPass with
        | some t => decide ((msCycles (Cfg.nat s.uid c 0x2530 3 n) : Int) ≤ (r.pip.cycle - t).toInt)
        | none => true
      if ok then
        ((s.modShp n d.listener (fun x => { x with lastPass := some r.pip.cycle })).countShaper n 0).enqueue c d.listener d.cls r
      else s.countShaped n d.listener
    | 2 =>
      let ok := x.lastPass.isNone || decide (Cfg.nat s.uid c 0x2530 4 n ≤ x.count + 1)
      if ok then
        ((s.modShp n d.listener (fun x => { x with lastPass := some r.pip.cycle, count := 0 })).countShaper n 0).enqueue c
          d.listener d.cls r
      else (s.modShp n d.listener (fun x => { x with count := x.count + 1 })).countShaped n d.listener
    | 3 =>
      let s := if x.held.isSome then s.countShaped n d.listener else s
      s.modShp n d.listener (fun x => { x with held := some (r, d.cls) })
    | _ => s.enqueue c d.listener d.cls r

/-! ### BRAMBLE_MATCH -/

/-- Deliver a record to one listener of its delivery set, or count it as untranslatable there (R82). -/
def State.deliverTo (c : Cfg) (r : FibreRecord) (s : State) (d : Delivery) : State :=
  if takes (listenerKind s.uid c d.listener) r then s.deliver c d r else s.stat 0x4820 d.listener 5 1

/-- A record against the rules, the store, and its deliveries (R81, R84). In RECOVERY only the journal is served
(R341). -/
def State.matchRecord (r : FibreRecord) (s : State) : State :=
  let c := s.cfgAt r.pip.time
  let a := route s.uid c r (ruleRows c) {}
  let s := { s with bramble.matchCounts := a.hits.foldl (fun t k => Tbl.mod 0 k (fun x => x + 1) t) s.bramble.matchCounts }
  let ds := a.delivery.filter (fun d => listenerOn s.uid c d.listener && (s.boot.mode != 2 || d.listener == 62))
  if ds.isEmpty then s.stat 0x4821 0 1 1
  else
    if s.storeRefuses c r.cls then
      if r.cls ≤ 1 then (s.stat 0x4821 0 3 1).event 0x3002 0 r.cls else s.stat 0x4821 0 2 1
    else ds.foldl (State.deliverTo c r) s

/-- BRAMBLE_MATCH: Bramble takes the oldest record of an input queue. -/
def State.brambleMatch (q : Nat) (e : Ecc) (s : State) : State :=
  if s.yields (0x60 + q) = false then s
  else match Tbl.get [] q s.bramble.inputs with
  | [] => s.readEmpty (0x60 + q)
  | r :: rest =>
    (({ s with bramble.inputs := Tbl.put q rest s.bramble.inputs }).popped (0x60 + q) s).unlessBad (0x60 + q) e
      (fun s => s.matchRecord r)

/-- BRAMBLE_MATCH. -/
def execBrambleMatch (dt : Nat) (q : Fin 11) (ecc : Ecc) (s : State) : Host.Outcome State Fault Refusal :=
  .next ((s.elapse dt).whenUp domFabric (State.brambleMatch q.val ecc))

/-! ### SHAPER_EMISSION -/

/-- The listeners that enabled forwarding rules give to a shaper, and those it holds a record for. -/
def State.shaperListeners (n : Nat) (s : State) : List Nat :=
  (List.range 64).filter (fun l => (s.shp n l).held.isSome || (ruleRows s.cfg).any (fun r =>
    s.cn 0x2510 2 r == 1 && s.cn 0x2510 0x0D r == n && decide (s.cn 0x2510 0x0A r ≤ 1) && (s.cn 0x2510 0x0B r).testBit l))

/-- One listener at a dispatch of a shaper's emission slot: its held record is queued, or it missed the slot (R90). -/
def State.emitHeld (n : Nat) (s : State) (l : Nat) : State :=
  match (s.shp n l).held with
  | some (r, cls) =>
    ((s.modShp n l (fun x => { x with held := none })).countShaper n 0).enqueue (s.cfgAt r.pip.time) l cls r
  | none => s.countShaper n 2

/-- A dispatch of consumer 0x04nn (R90). -/
def State.shaperEmission (n : Nat) (s : State) : State :=
  s.withDispatch (0x0400 + n) (fun _ s =>
    if s.cn 0x2530 2 n = 3 then (s.shaperListeners n).foldl (State.emitHeld n) s else s)

/-- SHAPER_EMISSION. -/
def execShaperEmission (dt : Nat) (n : Fin 256) (s : State) : Host.Outcome State Fault Refusal :=
  .next ((s.elapse dt).whenUp domFabric (State.shaperEmission n.val))

end Sys2Proof.Machine
end

