-- ==== Sys2Proof/Machine/Bus.lean ====
section
/-! DEFINITION. CAN transmission (R203, R209, R210, R212): identifiers, the transmit queue, and messages as single
frames or fast-packet sequences. -/

namespace Sys2Proof.Machine

open Sys2Proof

/-- A CAN controller's state. -/
def State.cp (s : State) (p : Nat) : CPort := Tbl.get {} p s.can

/-- Change a CAN controller's state. -/
def State.modCp (p : Nat) (f : CPort → CPort) (s : State) : State := { s with can := Tbl.mod {} p f s.can }

/-- The controller is enabled. -/
def State.canOn (s : State) (p : Nat) : Bool := s.cn (0x2240 + p) 1 0 == 1

/-- The transmit objects of a controller (Table 9.3). -/
def canObjects (p : Nat) : Nat := if p = 2 then 16 else 8

/-- Whether SUP sends the frame. -/
def CanTx.fromSup (t : CanTx) : Bool := t.kind == .sup || t.kind == .heartbeat

/-- The controller takes a packet into a free transmit object: of the queues that yield, the one that came first. A frame
that finds the objects empty is offered at once (R203). -/
def State.loadCan (p : Nat) (s : State) : State :=
  let c := s.cp p
  if canObjects p ≤ c.tx.length ∨ s.up domCan = false then s
  else match c.txq.find? (fun f => s.yields (canQueue p f.kind)) with
    | none => s
    | some f =>
      (s.modCp p (fun c => { c with
        tx := c.tx ++ [f], txq := c.txq.erase f, offeredAt := if c.tx.isEmpty then s.fc else c.offeredAt })).popped
        (canQueue p f.kind) s

/-- A frame is put in its packet queue, and goes on to a transmit object where one is free. -/
def State.sendCan (p : Nat) (f : CanTx) (s : State) : State :=
  ((s.modCp p (fun c => { c with txq := c.txq ++ [f] })).pushed (canQueue p f.kind)).loadCan p

/-- A frame for a controller (R203): SUP holds one of its own that has no credit (R227). A disabled controller queues
nothing. -/
def State.queueCan (p : Nat) (f : CanTx) (s : State) : State :=
  if s.canOn p = false then s
  else if f.fromSup && !s.hasRoom (canQueue p f.kind) then s.modCp p (fun c => { c with supWait := c.supWait ++ [f] })
  else s.sendCan p f

/-- Frames that SUP holds enter their queue as far as there is room, and packets the free transmit objects. -/
def State.fillCan (p : Nat) (s : State) : State :=
  let s := (s.cp p).supWait.foldl (fun s f =>
    if s.hasRoom (canQueue p f.kind) then (s.modCp p (fun c => { c with supWait := c.supWait.erase f })).sendCan p f else s) s
  (List.range (canObjects p)).foldl (fun s _ => s.loadCan p) s

/-- The packet queues of a controller (Table 10.2). -/
def canQueues (p : Nat) : List Nat := if p = 2 then [0x54, 0x55, 0x56] else [0x50 + p, 0x52 + p]

/-- Frames have left the packet queues of a controller otherwise than to its transmit objects. -/
def State.canDropped (p : Nat) (s before : State) : State := s.withdrawn (canQueues p) before

/-- The frame at the head of the queue has begun: it was offered in an earlier cycle (DESIGN CHOICE: the bus is taken
as free, so that an offered frame begins at once). -/
def CPort.headBegun (fc : Nat) (c : CPort) : Bool := !c.tx.isEmpty && decide (c.offeredAt < fc)
/-- The frame that has begun. -/
def CPort.begun (fc : Nat) (c : CPort) : List CanTx := if c.headBegun fc then c.tx.take 1 else []
/-- The frames that have not begun. -/
def CPort.waiting (fc : Nat) (c : CPort) : List CanTx := if c.headBegun fc then c.tx.drop 1 else c.tx

/-- Put frames in place of those of a queue that have not begun. -/
def State.requeue (p : Nat) (l : List CanTx) (s : State) : State :=
  s.modCp p (fun c => { c with tx := c.begun s.fc ++ l, offeredAt := if c.headBegun s.fc then c.offeredAt else s.fc })

/-- The 29-bit identifier of a PGN: priority, PGN, source address (R209). A PDU1 message goes to `dest`. -/
def canId (priority pgn dest src : Nat) : Nat :=
  let pdu1 := decide (pgn / 256 % 256 < 240)
  priority % 8 * 2 ^ 26 + (if pdu1 then pgn / 256 * 256 + dest else pgn) % 2 ^ 18 * 2 ^ 8 + src % 256

/-- The PGN of an identifier: the PDU-specific field is 0 in a PDU1 format (R209). -/
def pgnOfId (id : Nat) : Nat :=
  let v := id / 2 ^ 8 % 2 ^ 18 % 2 ^ 17
  if v / 256 % 256 < 240 then v / 256 * 256 else v

/-- The PGN is in the fast-packet list (R210). -/
def State.isFast (s : State) (pgn : Nat) : Bool :=
  (List.range 16).any (fun i => s.cn 0x2246 (i + 1) 0 == pgn && pgn != 0)

/-- The data of the frames of a fast-packet sequence (R210). -/
def fastFrames (ctr : Nat) : Nat → Nat → List Byte → List (List Byte)
  | 0, _, _ => []
  | n + 1, k, d =>
    let w := if k = 0 then 6 else 7
    let part := d.take w
    let body := part ++ List.replicate (w - part.length) 0xFF
    (BitVec.ofNat 8 (ctr % 8 * 32 + k) :: body) :: fastFrames ctr n (k + 1) (d.drop w)

/-- The number of frames of a fast-packet message of `n` bytes. -/
def fastCount (n : Nat) : Nat := if n ≤ 6 then 1 else 1 + (n - 6 + 6) / 7

/-- The frames of a fast-packet message: frame 0 carries the total length. -/
def fastPacket (ctr : Nat) (d : List Byte) : List (List Byte) :=
  match fastFrames ctr (fastCount d.length) 0 d with
  | (h :: body) :: t => (h :: BitVec.ofNat 8 d.length :: body) :: t
  | l => l

/-- One extended data frame. -/
def extFrame (id : Nat) (d : List Byte) : CanFrame := { ext := true, remote := false, id := id, data := d }

/-- The frames of a composed message of a listener, the last one marked (R212). -/
def messageFrames (l : Nat) (e : Entry) (id : Nat) : List (List Byte) → List CanTx
  | [] => []
  | [d] => [{ frame := extFrame id d, kind := .fe l (some e) true }]
  | d :: t => { frame := extFrame id d, kind := .fe l (some e) false } :: messageFrames l e id t

end Sys2Proof.Machine
end

