-- ==== Sys2Proof/Machine/Compose.lean ====
section
/-! DEFINITION. Fulling (R86, R91 to R97, R127, R145, R186, R212, R245): sentence text, TAG blocks, UTC time, datagrams,
CAN messages, the credits of Table 4.1, and COMPOSE_ENTRY. -/

namespace Sys2Proof.Machine

open Sys2Proof

/-! ### UTC time (R93) -/

/-- UTC seconds since 2000-01-01 of a position under leap count `l`. -/
def utcSecs (p : WheelPos) (l : Int) : Int := (posRev p : Int) - l

/-- Seconds from 1970-01-01 to 2000-01-01. -/
abbrev unix2000 : Int := 946684800

/-- The decimal digits of a number, most significant first, on a given fuel. -/
def natDigits : Nat → Nat → Text → Text
  | 0, _, acc => acc
  | f + 1, n, acc =>
    let acc := BitVec.ofNat 8 (0x30 + n % 10) :: acc
    if n / 10 = 0 then acc else natDigits f (n / 10) acc

/-- A number in decimal. -/
def decText (n : Nat) : Text := natDigits 40 n []

/-- A number in decimal with leading zeros to a width. -/
def decPad (w n : Nat) : Text := List.replicate (w - (decText n).length) 0x30 ++ decText n

/-- A signed number in decimal. -/
def intText (v : Int) : Text := if v < 0 then 0x2D :: decText v.natAbs else decText v.natAbs

/-- A number with `d` decimals, rounded half away from zero (R97). -/
def fixedText (d : Nat) (x : Rat) : Text :=
  let n := roundAway (x * ((10 ^ d : Nat) : Rat))
  let a := n.natAbs
  let body := if d = 0 then decText a else decText (a / 10 ^ d) ++ [0x2E] ++ decPad d (a % 10 ^ d)
  if n < 0 then 0x2D :: body else body

/-- hhmmss.ss of a count of centiseconds of the day. -/
def clockText (cs : Nat) : Text :=
  let s := cs / 100
  decPad 2 (s / 3600) ++ decPad 2 (s / 60 % 60) ++ decPad 2 (s % 60) ++ [0x2E] ++ decPad 2 (cs % 100)

/-- The c: value of a position, in milliseconds or in seconds (R93). -/
def tagTime (p : WheelPos) (l : Int) (unit : Nat) : Text :=
  let u := utcSecs p l + unix2000
  if unit = 1 then intText u else intText (u * 1000 + (posFrac p * 1000 / 2 ^ 32 : Nat))

/-- The UTC time of day of a position in centiseconds, cut off (R93). -/
def dayCentis (p : WheelPos) (l : Int) : Nat := ((utcSecs p l) % 86400).toNat * 100 + posFrac p * 100 / 2 ^ 32

/-! ### Sentence text (R91, R97) -/

/-- Join fields with commas. -/
def joinComma : List Text → Text
  | [] => []
  | [t] => t
  | t :: ts => t ++ [0x2C] ++ joinComma ts

/-- A body from its start delimiter, with its checksum and CR LF. -/
def closeSentence (body : Text) : Text := body ++ [0x2A] ++ hexByte (xorSum (body.drop 1)).toNat ++ [0x0D, 0x0A]

/-- The text of a sentence record under a talker override (R91). -/
def relayText (r : FibreRecord) (talker : Text) : Text :=
  let p := partsOf r.raw
  let delim := (r.raw.head?).getD 0
  let a := (p.body.drop 1).takeWhile (fun b => decide (b.toNat ≠ 0x2C))
  let form := addrForm delim a
  if talker.isEmpty = false ∧ (form = .approved ∨ form = .encapsulation) then closeSentence (p.body.take 1 ++ talker ++ p.body.drop 3)
  else match p.sum with
    | some c => p.body ++ [0x2A] ++ c ++ [0x0D, 0x0A]
    | none => closeSentence p.body

/-- A value field, with a unit letter that goes with it. -/
def valueUnit (v : Option Text) (unit : Text) : List Text :=
  match v with
  | some t => [t, unit]
  | none => [[], []]

/-- A latitude or longitude in degrees and minutes, with its letter. -/
def geoText (deg plus minus : Nat) (v : Option Int) : List Text :=
  match v with
  | none => [[], []]
  | some x =>
    let n := (roundAway ((x.natAbs : Rat) * 6 / 10)).toNat
    [decPad deg (n / 6000000) ++ decPad 2 (n / 100000 % 60) ++ [0x2E] ++ decPad 5 (n % 100000),
      [BitVec.ofNat 8 (if x < 0 then minus else plus)]]

/-- Deviation or variation as a magnitude with E or W. -/
def ewText (v : Option Int) : List Text :=
  match v with
  | none => [[], []]
  | some x => [fixedText 2 ((x.natAbs : Rat) / 1000), [if x < 0 then 0x57 else 0x45]]

/-- The fields of a sentence composed from the slots of an IEC 61162-3 record (Table 4.7). -/
def composedFields (code : Nat) (v : Nat → Option Int) : List Text :=
  let fx (d : Nat) (k : Rat) (n : Nat) : Option Text := (v n).map (fun x => fixedText d ((x : Rat) / k))
  let one (o : Option Text) : List Text := [o.getD []]
  let clock (n : Nat) : List Text := [((v n).map (fun x => clockText ((roundAway ((x : Rat) / 10)).toNat % 8640000))).getD []]
  let pad (w n : Nat) : List Text := [((v n).map (fun x => decPad w x.toNat)).getD []]
  match code with
  | 0x05 => valueUnit (fx 2 1000 0) (ascii "T")
  | 0x07 => one (fx 2 1000 0) ++ ewText (v 1) ++ ewText (v 2)
  | 0x08 => one (fx 2 1000 0) ++ [ascii "A"]
  | 0x02 => geoText 2 0x4E 0x53 (v 0) ++ geoText 3 0x45 0x57 (v 1) ++ [[], ascii "A", ascii "A"]
  | 0x04 => valueUnit (fx 2 1000 0) (ascii "T") ++ [[], ascii "M"] ++ valueUnit (fx 2 1000 2) (ascii "N") ++
      valueUnit (fx 2 1000 3) (ascii "K") ++ [ascii "A"]
  | 0x01 => clock 2 ++ geoText 2 0x4E 0x53 (v 0) ++ geoText 3 0x45 0x57 (v 1) ++ one (fx 0 1 3) ++ pad 2 4 ++ one (fx 2 100 5) ++
      valueUnit (fx 2 100 6) (ascii "M") ++ valueUnit (fx 2 100 7) (ascii "M") ++ one (fx 1 10 8) ++ pad 4 9
  | 0x0D => clock 0 ++ pad 2 1 ++ pad 2 2 ++ pad 4 3 ++ [[], []]
  | 0x0A => [[], ascii "T", [], ascii "M"] ++ valueUnit (fx 2 1000 2) (ascii "N") ++ valueUnit (fx 2 1000 3) (ascii "K")
  | 0x0B => one (fx 2 1000 0) ++ one (fx 3 1000 1) ++ one (fx 0 1 2)
  | 0x0F => one (fx 2 1000 0) ++ [if v 1 = some 0 then ascii "R" else if v 1 = some 1 then ascii "T" else []] ++
      valueUnit (fx 2 1000 4) (ascii "M") ++ [ascii "A"]
  | _ => []

/-- The sentence text of a record for a serial or Ethernet listener; none where it is longer than 82 characters
(R91, R97). -/
def sentenceText (u : UnitId) (c : Cfg) (l : Nat) (r : FibreRecord) : Option Text :=
  let talker := Cfg.text u c 0x2520 8 l
  let t := if r.fromCan then
      closeSentence (joinComma ((ascii "$" ++ (if talker.isEmpty then r.address.take 2 else talker) ++ formatterName r.formatter) ::
        composedFields r.formatter (slotAt r.slots)))
    else relayText r talker
  if 82 < t.length then none else some t

/-! ### TAG blocks (R92) -/

/-- The next n: count of a listener. -/
def nextLine (n : Nat) : Nat := n % 999 + 1

/-- The TAG block composed for a listener, empty where it carries no field. -/
def State.tagBlock (c : Cfg) (l : Nat) (r : FibreRecord) (s : State) : Text :=
  let f := Cfg.nat s.uid c 0x2520 5 l
  let own := Cfg.text s.uid c 0x2500 1 0
  let sfi := if Cfg.nat s.uid c 0x2520 7 l = 1 then ((parseTag r.tag).value 0x73).getD own else own
  let timed := decide (2 ≤ r.states % 4)
  let fs := (if f.testBit 0 then [ascii "s:" ++ sfi] else []) ++
    (if f.testBit 1 && timed then [ascii "c:" ++ tagTime r.pip.time (s.leapAt r.pip.time) (Cfg.nat s.uid c 0x2520 6 l)] else []) ++
    (if f.testBit 2 then [ascii "n:" ++ decText (nextLine (s.lst l).line)] else [])
  if fs.isEmpty then []
  else
    let body := joinComma fs
    [0x5C] ++ body ++ [0x2A] ++ hexByte (xorSum body).toNat ++ [0x5C]

/-- A listener's n: count after a TAG block. -/
def State.countLine (l : Nat) (tag : Text) (s : State) : State :=
  if tag.isEmpty then s else s.modLst l (fun x => { x with line := nextLine x.line })

/-! ### Entitlement (R127, R310, Table 14.4) -/

/-- The unit drives the outputs of a listener port: by its role, and port by port during a handover. -/
def State.entitledPort (s : State) (port : Nat) : Bool :=
  match s.twin.role with
  | 0 => true
  | 3 => true
  | 4 => !s.twin.handIn || s.twin.released.contains port
  | 5 => !s.twin.released.contains port
  | _ => false

/-- The unit may begin a new item on a port: entitled, and not the outgoing unit of a handover (R320). -/
def State.mayBegin (s : State) (port : Nat) : Bool := s.entitledPort port && decide (s.twin.role ≠ 5)

/-! ### Credit (R77, R86) -/

/-- Frames of fulling in a CAN transmit queue, and whether they are all single frames. -/
def feFrames (c : CPort) : List CanTx := c.frames.filter (fun t => match t.kind with
  | .fe _ _ _ => true
  | _ => false)

/-- The number of frames that a record becomes on a CAN port. -/
def State.canFrames (s : State) (r : FibreRecord) : Nat :=
  let one (pgn n : Nat) : Nat := if s.isFast pgn ∨ 8 < n then fastCount n else 1
  if r.fromCan then (match r.pgn with
    | some p => one p.1 r.raw.length
    | none => 1)
  else ((pgnsOf r.formatter).map (fun p => one p (toPgn r.formatter p 0 0 (slotAt r.slots)).length)).foldl (fun a b => a + b) 0

/-- A record leaves a CAN port as a fast-packet sequence: one of its messages takes more than one frame. -/
def State.isSequence (s : State) (r : FibreRecord) : Bool :=
  if r.fromCan then decide (1 < s.canFrames r) else decide ((pgnsOf r.formatter).length < s.canFrames r)

/-- The composing engine holds credit for an entry of a listener (Table 4.1): a slot, room for two frames in the MAC queue
of the class, four CAN frames or one complete fast-packet sequence, or 64 journal records. -/
def State.hasCredit (s : State) (l : Nat) (k : LKind) (e : Entry) : Bool :=
  match k with
  | .serial p =>
    let port : SPort := Tbl.get {} p s.serial
    s.up domSerial && s.admits (0x18 + p) && s.mayBegin p && (s.lst l).slot.isNone && port.tx.isEmpty && (match (s.lst l).inFlight with
      | some i => decide (i.chars.length ≤ i.sent)
      | none => true)
  | .eth p =>
    s.admits (0x38 + 8 * p + e.cls) && s.mayBegin (0x20 + p) && decide (((s.ep p).txq e.cls |>.filter (fun f => match f.kind with
      | .datagram _ _ => true
      | _ => false)).length < 2)
  | .can p =>
    let fe := feFrames (s.cp p)
    s.hasRoom (0x50 + p) && s.mayBegin (0x28 + p) && (fe.isEmpty || (decide (fe.length + s.canFrames e.rcd ≤ 4) &&
      !s.isSequence e.rcd && fe.all (fun t => match t.kind with
        | .fe _ _ last => last
        | _ => true)))
  | .journal => s.up domDram && s.hasRoom 0x81
  | _ => false

/-- The consumer of a queue holds downstream credit for it: an engine of fulling for the oldest entry of a listener's queue
(Table 4.1), a carding engine towards Bramble and the voting engines (R227, R231). -/
def State.creditFor (s : State) (q : Nat) : Bool :=
  if 0x100 ≤ q ∧ q ≤ 0x1FB then
    let l := (q - 0x100) / 4
    match (s.lst l).queue.find? (fun e => e.cls == (q - 0x100) % 4) with
    | some e => s.hasCredit l (listenerKind s.uid (s.cfgAt e.rcd.pip.time) l) e
    | none => false
  else match intakeEngine q with
    | some e => (engineOutputs e).all (fun x => s.hasRoom x)
    | none => true

/-- The watch of every queue whose consumer has regained credit since `before` begins anew (R231). -/
def State.regain (s before : State) : State :=
  s.rewatch ((s.fabric.queues.map (fun x => x.1)).filter (fun q => !before.creditFor q && s.creditFor q))

/-- The engine that composes for a kind of listener: FE0 (false) or FE1 (true). -/
def composedByFe1 (k : LKind) : Option Bool :=
  match k with
  | .serial _ => some false
  | .can _ => some false
  | .eth _ => some true
  | .journal => some true
  | _ => none

/-- The better of two candidates: the higher class, then the one queued earlier (R86). -/
def betterEntry (a : Option (Nat × Entry)) (l : Nat) (e : Entry) : Option (Nat × Entry) :=
  match a with
  | none => some (l, e)
  | some (m, f) => if e.cls < f.cls ∨ (e.cls = f.cls ∧ e.order < f.order) then some (l, e) else some (m, f)

/-- The kind of listener that an entry goes to, under the configuration of its record's pip (R88). -/
def State.entryKind (s : State) (l : Nat) (e : Entry) : LKind := listenerKind s.uid (s.cfgAt e.rcd.pip.time) l

/-- The entries of a listener that an engine may take, were there credit: in each class that yields, the oldest. -/
def State.offered (s : State) (l : Nat) : List Entry :=
  (List.range 4).filterMap (fun c => if s.yields (listenerQueue l c) then (s.lst l).queue.find? (fun e => e.cls == c) else none)

/-- Of a listener's entries, the one of the highest class; on an Ethernet port, whose credit goes by class, the one of
the highest class that has credit. It is taken only with credit (R85, R86). -/
def State.listenerNext (s : State) (l : Nat) : Option Entry :=
  let free (e : Entry) : Bool := s.hasCredit l (s.entryKind l e) e
  match s.offered l with
  | [] => none
  | e :: t =>
    match s.entryKind l e with
    | .eth _ => (e :: t).find? free
    | _ => if free e then some e else none

/-- The entry that an engine takes next: of all its listeners with free credit the highest class, and within it the one
queued earliest (R86). -/
def State.nextEntry (s : State) (fe1 : Bool) : Option (Nat × Entry) :=
  s.bramble.listeners.foldl (fun best p =>
    match s.listenerNext p.1 with
    | some e => if composedByFe1 (s.entryKind p.1 e) = some fe1 then betterEntry best p.1 e else best
    | none => best) none

/-! ### Composition -/

/-- Characters as the transmitter takes them, a transmit address first where the port has one (R145). -/
def State.txChars (s : State) (p : Nat) (t : Text) : List (BitVec 9) :=
  let a := s.cn (0x2100 + p) 0x13 0
  (if s.cn (0x2100 + p) 4 0 = 5 ∧ a ≠ 0xFFFF then [BitVec.ofNat 9 (256 + a % 256)] else []) ++ t.map (fun b => b.setWidth 9)

/-- Compose an item into a serial listener's slot. -/
def State.composeSerial (c : Cfg) (l p : Nat) (e : Entry) (s : State) : State :=
  match sentenceText s.uid c l e.rcd with
  | none => s.stat 0x4820 l 5 1
  | some t =>
    let tag := s.tagBlock c l e.rcd
    let item : Item := { entry := e, chars := s.txChars p (tag ++ t), sent := 0, line := (s.lst l).line }
    (s.countLine l tag).modLst l (fun x => { x with slot := some item })

/-- Compose a datagram into the MAC queue of its class (R94, R186). -/
def State.composeDatagram (c : Cfg) (l p : Nat) (e : Entry) (s : State) : State :=
  match sentenceText s.uid c l e.rcd with
  | none => s.stat 0x4820 l 5 1
  | some t =>
    let tag := s.tagBlock c l e.rcd
    let dst := Cfg.nat s.uid c 0x2520 9 l
    let f := udpFrame (groupMac dst) (s.macOf p) (s.ipOf p) dst 1 (s.ep p).ipId.toNat (s.cn (0x2200 + p) 9 0)
      (Cfg.nat s.uid c 0x2520 0x0A l) (udpbc ++ tag ++ t)
    ((s.countLine l tag).nextIpId p).queueFrame p e.cls (.datagram l e) f

/-- Put one message of a listener in a CAN transmit queue (R95, R212). -/
def State.sendPgn (l p : Nat) (e : Entry) (pgn priority : Nat) (data : List Byte) (s : State) : State :=
  let id := canId priority pgn 255 (s.cp p).addr
  if s.isFast pgn ∨ 8 < data.length then
    let ctr := Tbl.get 0 pgn (s.cp p).fastSeq
    let s := s.modCp p (fun x => { x with fastSeq := Tbl.put pgn ((ctr + 1) % 8) x.fastSeq })
    (messageFrames l e id (fastPacket ctr data)).foldl (fun s f => s.queueCan p f) s
  else (messageFrames l e id [data]).foldl (fun s f => s.queueCan p f) s

/-- Compose the messages of an entry for a CAN listener; without a claimed address they go to no one (R95, R96, R212). -/
def State.composeCan (l p : Nat) (e : Entry) (s : State) : State :=
  let r := e.rcd
  if (s.cp p).addrState ≠ 2 then s.stat 0x4840 p 3 (if r.fromCan then 1 else (pgnsOf r.formatter).length)
  else if r.fromCan then
    match r.pgn with
    | some (pgn, pr) => s.sendPgn l p e pgn pr r.raw
    | none => s
  else
    let date := (utcSecs r.pip.time (s.leapAt r.pip.time)) / 86400
    (pgnsOf r.formatter).foldl (fun s pgn =>
      let sid := Tbl.get 0 pgn (s.lst l).sids
      let s := if pgnHasSid pgn then s.modLst l (fun x => { x with sids := Tbl.put pgn ((sid + 1) % 253) x.sids }) else s
      s.sendPgn l p e pgn (pgnPriority pgn) (toPgn r.formatter pgn sid date (slotAt r.slots))) s

/-- Compose an entry for its listener under the configuration of its record's pip (R88). -/
def State.compose (l : Nat) (e : Entry) (s : State) : State :=
  let c := s.cfgAt e.rcd.pip.time
  match listenerKind s.uid c l with
  | .serial p => s.composeSerial c l p e
  | .eth p => s.composeDatagram c l p e
  | .can p => s.composeCan l p e
  | .journal =>
    ({ s.stat 0x4820 l 3 1 with journal.inbox := s.journal.inbox ++ [(e.rcd, e.cls, e.seq.toNat)] }).pushed 0x81
  | _ => s

/-- COMPOSE_ENTRY: an engine with free credit takes the highest-class entry, the earliest queued of its class. -/
def State.composeEntry (fe1 : Bool) (ecc : Ecc) (s : State) : State :=
  match s.nextEntry fe1 with
  | none => s
  | some (l, e) =>
    let q := listenerQueue l e.cls
    (((s.modLst l (fun x => { x with queue := x.queue.filter (fun y => y.order != e.order) })).popped q s).unlessBadEntry q ecc
      e.rcd (fun s => s.compose l e))

/-- COMPOSE_ENTRY. -/
def execComposeEntry (dt : Nat) (fe1 : Bool) (ecc : Ecc) (s : State) : Host.Outcome State Fault Refusal :=
  .next ((s.elapse dt).whenUp domFull (State.composeEntry fe1 ecc))

end Sys2Proof.Machine
end

