-- ==== Sys2Proof/Machine/Control.lean ====
section
/-! DEFINITION. The tank model and the heel cross-check (R102, R103, R106 to R112): readings, attitude correction,
sounding tables, totals, residual, weights, and the commands CONTROL_TAKE_RECORD, MODEL_RECOMPUTE, TANK_STALE_TIMEOUT,
READING_MEAN_INTERVAL, REBASE and READMIT. -/

namespace Sys2Proof.Machine

open Sys2Proof

/-! ### Tanks -/

/-- A tank's state. -/
def State.tank (s : State) (t : Nat) : Tank := Tbl.get {} t s.control.tanks

/-- Change a tank's state. -/
def State.modTank (t : Nat) (f : Tank → Tank) (s : State) : State :=
  { s with control.tanks := Tbl.mod {} t f s.control.tanks }

/-- A tank row is enabled. -/
def State.tankOn (s : State) (t : Nat) : Bool := s.cn 0x3110 2 t == 1

/-- The enabled tanks. -/
def State.tanksOn (s : State) : List Nat := (Cfg.rows 0x3110 s.cfg).filter (fun t => decide (t ≤ 95) && s.tankOn t)

/-- The state code of Table R109. -/
def State.tankCode (s : State) (t : Nat) : Nat := if s.tankOn t then Nat.max 1 (s.tank t).code else 0

/-- A quotient; the manual states no result for a zero divisor. -/
def divide (a b : Rat) : Rat := if b = 0 then Config.divZero a else a / b

/-! ### The sounding (R103) -/

/-- The data bytes of a record: V0 and V1 up to the data length, or the message data. -/
def recordData (r : FibreRecord) : List Byte :=
  if r.kind = 3 then r.raw
  else
    let w (n : Nat) : List Byte := leBytes 4 (ofSigned 32 ((slotAt r.slots n).getD 0))
    (w 0 ++ w 1).take ((slotAt r.slots 3).getD 0).toNat

/-- The value x that a tank's selection takes from a record. -/
def selectValue (sel raw : Nat) (r : FibreRecord) : Option Int :=
  if sel ≤ 9 then slotAt r.slots sel
  else
    let off := raw / 16
    let n := 2 ^ (raw % 4)
    let d := recordData r
    if d.length < off + n then none
    else
      let v := leNat ((d.drop off).take n)
      some (if raw / 8 % 2 = 1 then toSigned (8 * n) v else (v : Int))

/-- The sounding g of a value, in whole mm. -/
def State.sounding (s : State) (t : Nat) (x : Int) : Int :=
  let m := fmul (fsub (x : Rat) (s.cr 0x3110 9 t)) (s.cr 0x3110 8 t)
  roundAway (if s.cn 0x3110 7 t = 1 then fsub (s.cn 0x3110 0x0A t : Rat) m else m)

/-! ### Attitude and table (R107, R108) -/

/-- The grid cell and the fraction within it of a value on an axis of seven points from `lo` in steps of `st`. -/
def gridCell (lo st v : Rat) : Nat × Rat :=
  let p := (v - lo) / st
  let k := Nat.min 5 p.floor.toNat
  (k, p - k)

/-- The attitude correction c(heel, trim), and whether the attitude was clamped to the grid. -/
def State.attitude (s : State) (t : Nat) : Rat × Bool :=
  let h := s.control.heel / 1000
  let tr := s.control.trim
  let hc := clampRat (-15) 15 h
  let tc := clampRat (-3000) 3000 tr
  let (i, a) := gridCell (-15) 5 hc
  let (j, b) := gridCell (-3000) 1000 tc
  let g (x y : Nat) : Rat := (s.ci 0x3112 2 (49 * t + 7 * x + y) : Rat)
  ((1 - a) * ((1 - b) * g i j + b * g i (j + 1)) + a * ((1 - b) * g (i + 1) j + b * g (i + 1) (j + 1)), hc != h || tc != tr)

/-- Volume, LCG, TCG and VCG at a sounding. -/
structure TankPoint where
  volume : Rat
  lcg : Rat
  tcg : Rat
  vcg : Rat
  deriving DecidableEq, Repr

/-- A point of a tank's sounding table. -/
def State.tablePoint (s : State) (t k : Nat) : TankPoint :=
  let v (sub : Nat) : Rat := (s.ci 0x3111 sub (64 * t + k) : Rat)
  ⟨v 3, v 4, v 5, v 6⟩

/-- The sounding of a table point. -/
def State.tableSounding (s : State) (t k : Nat) : Rat := (s.ci 0x3111 2 (64 * t + k) : Rat)

/-- Interpolate between points k and k + 1. -/
def mixPoint (a : Rat) (p q : TankPoint) : TankPoint :=
  let m (x y : Rat) : Rat := x + a * (y - x)
  ⟨m p.volume q.volume, m p.lcg q.lcg, m p.tcg q.tcg, m p.vcg q.vcg⟩

/-- The table at a sounding, and whether it lies outside. -/
def State.lookup (s : State) (t : Nat) (x : Rat) : TankPoint × Bool :=
  let n := s.cn 0x3110 0x0C t
  if x < s.tableSounding t 0 then (s.tablePoint t 0, true)
  else if s.tableSounding t (n - 1) < x then (s.tablePoint t (n - 1), true)
  else
    match (List.range (n - 1)).find? (fun k => decide (x ≤ s.tableSounding t (k + 1))) with
    | some k =>
      let a := divide (x - s.tableSounding t k) (s.tableSounding t (k + 1) - s.tableSounding t k)
      (mixPoint a (s.tablePoint t k) (s.tablePoint t (k + 1)), false)
    | none => (s.tablePoint t 0, false)

/-- The sounding the model uses at a weight (R111). -/
def Tank.used (x : Tank) (w : Nat) : Rat := x.anchorSounding + (w : Rat) * (x.corrected - x.anchorSounding) / 255

/-- Volume, mass and centroids of a tank from its used sounding. -/
def State.fillTank (t : Nat) (s : State) : State :=
  let x := s.tank t
  let (p, out) := s.lookup t (x.used x.weight)
  s.modTank t (fun x => { x with
    volume := p.volume, lcg := p.lcg, tcg := p.tcg, vcg := p.vcg, outOfTable := out
    mass := p.volume * (s.cn 0x3110 0x0B t : Rat) / 10000000 })

/-- The volume rate in m³/h over the rate window (R109). -/
def rateOf (l : List (WheelPos × Rat)) : Rat :=
  match l, l.getLast? with
  | (p, v) :: _ :: _, some (q, w) => divide ((v - w) / 1000 * 3600) ((posDiff p q : Rat) / 2 ^ 32)
  | _, _ => 0

/-- A tank takes a reading: correction, table, rate, state (R107 to R109). -/
def State.takeReading (t basis : Nat) (g : Rat) (p : Pip) (s : State) : State :=
  let (c, clamped) := s.attitude t
  let assumed := !s.control.heelSeen || (s.cn 0x3100 2 0 != 0xFF && !s.control.trimSeen)
  let s := s.modTank t (fun x => { x with
    reading := some g, corrected := g + c, clamped := clamped, assumed := assumed, basis := basis, code := 2
    lastAt := s.fabricZero + p.cycle.toNat
    anchored := true
    anchorSounding := if x.anchored then x.anchorSounding else g + c })
  let s := s.fillTank t
  let win : Int := (s.cn 0x3110 0x10 t * 2 ^ 32 / 1000 : Nat)
  s.modTank t (fun x =>
    let h := (p.time, x.volume) :: x.history.filter (fun e => decide (posDiff p.time e.1 ≤ win))
    { x with history := h, rate := rateOf h })

/-! ### Totals (R108) -/

/-- The sum over the tanks in the totals of a quantity. -/
def State.sumTanks (s : State) (f : Tank → Rat) : Rat :=
  (s.tanksOn.filter (fun t => (s.tank t).reading.isSome)).foldl (fun a t => a + f (s.tank t)) 0

/-- Degrees, in thousandths, of an angle in radians. -/
def milliDeg (x : Rat) : Rat := x * 180 * 1000 / Config.pi

/-- The predicted heel in thousandths of a degree for a transverse ballast moment, ballast mass and loading. -/
def predictHeel (trans mass otherDisp otherTrans gm : Rat) : Rat :=
  milliDeg (Config.atan (divide (trans + otherTrans) ((mass + otherDisp) * gm)))

/-- The totals and the contributions of the tanks. -/
def State.totals (s : State) : State :=
  let s := s.tanksOn.foldl (fun s t => if (s.tank t).reading.isSome then s.fillTank t else s) s
  let m := s.sumTanks (fun x => x.mass)
  let tr := s.sumTanks (fun x => x.mass * x.tcg / 1000)
  let dg := (m + s.control.otherDisp) * s.control.gm
  let s := s.tanksOn.foldl (fun s t => s.modTank t (fun x => { x with
    contribution := divide (x.mass * x.tcg / 1000) dg * 180 / Config.pi * 1000 })) s
  { s with
    control.mass := m
    control.trans := tr
    control.long := s.sumTanks (fun x => x.mass * x.lcg / 1000)
    control.vert := s.sumTanks (fun x => x.mass * x.vcg / 1000)
    control.predictedRaw := predictHeel tr m s.control.otherDisp s.control.otherTrans s.control.gm
    control.lastModel := s.fc }

/-! ### The cross-check (R110 to R112) -/

/-- The loading condition of the configuration is in force: as the control pair begins (R108). -/
def State.beginLoading (s : State) : State :=
  { s with control.otherDisp := s.cr 0x3100 4 0, control.otherTrans := s.cr 0x3100 5 0, control.gm := s.cr 0x3100 6 0 }

/-- The unit counts as standby for the control pair: STANDBY and TAKING (R110, R117). -/
def State.ctrlStandby (s : State) : Bool := decide (s.twin.role = 2 ∨ s.twin.role = 3)

/-- The heel group has a chosen candidate. -/
def State.heelChosen (s : State) : Bool :=
  let g := s.cn 0x3100 1 0
  decide (g ≤ 63) && decide ((s.grp g).chosen ≠ 0xFFFF)

/-- The cross-check is suspended, with its persistence timer stopped (R110): at a heel record, and as a choice of the heel
group, a reading or the active role ends. -/
def State.suspended (s : State) : Bool :=
  !s.heelChosen || s.tanksOn.any (fun t => s.tankCode t == 1) || s.ctrlStandby

/-- Tanks exempt from blame: served by a cascade in RUN or HOLD (R111). -/
def State.exempt (s : State) (t : Nat) : Bool :=
  (List.range 16).any (fun c =>
    s.cn 0x3010 2 c == 1 && (Tbl.get ({} : Cascade) c s.control.cascades).state != 0 && (fields 8 2 (s.cn 0x3010 8 c)).contains t)

/-- Set a tank's weight, with the end of its exclusion when it rises above 0. -/
def State.setWeight (t w : Nat) (s : State) : State :=
  let old := (s.tank t).weight
  let s := s.modTank t (fun x => { x with weight := w })
  if old = 0 ∧ 0 < w then s.endAlert 0x4004 t else s

/-- Every anchor, or those of full weight, moves to the present values. -/
def State.anchor (all : Bool) (s : State) : State :=
  s.tanksOn.foldl (fun s t =>
    if all || (s.tank t).weight == 255 then
      s.modTank t (fun x => { x with anchorSounding := x.corrected, anchorContribution := x.contribution })
    else s) s

/-- The candidates for blame at residual `r` (R111). -/
def State.blamed (s : State) (r : Rat) : List Nat :=
  s.tanksOn.filter (fun t =>
    let x := s.tank t
    let d := x.contribution - x.anchorContribution
    !s.exempt t && decide (0 < x.weight) && decide (d * r < 0) && decide (r.abs / 2 ≤ d.abs))

/-- One candidate loses weight, or the residual is unexplained (R111). -/
def State.blame (r : Rat) (s : State) : State :=
  match s.blamed r with
  | [t] =>
    let w := (s.tank t).weight - s.cn 0x3100 0x0A 0
    let s := (s.modTank t (fun x => { x with weight := w })).event 0x4003 t w
    if w = 0 then s.event 0x4004 t 0 else s
  | _ => s.event 0x4005 0 (sat31 (roundReport r))

/-- The pseudocode of R111 at a heel record. -/
def State.crossCheck (s : State) : State :=
  let r := s.control.residual
  if r.abs ≤ (s.cn 0x3100 8 0 : Rat) then ({ s with control.persistence := none }).anchor false
  else
    let start := s.control.persistence.getD s.fc
    if s.cn 0x3100 9 0 * cyclesPerSec ≤ s.fc - start then
      { s.blame r with control.persistence := some s.fc }
    else { s with control.persistence := some start }

/-- The residual with one tank at full weight (R112). -/
def State.fullResidual (s : State) (t : Nat) : Rat :=
  let x := s.tank t
  let p := (s.lookup t (x.used 255)).1
  let m := p.volume * (s.cn 0x3110 0x0B t : Rat) / 10000000
  let tr := s.control.trans - x.mass * x.tcg / 1000 + m * p.tcg / 1000
  let full := predictHeel tr (s.control.mass - x.mass + m) s.control.otherDisp s.control.otherTrans s.control.gm
  s.control.residual - (full - s.control.predictedRaw)

/-- The readmission of one tank by its own evidence (R112). -/
def State.recover (s : State) (t : Nat) : State :=
  let x := s.tank t
  if x.weight = 255 ∨ x.reading.isNone = true then s
  else if (s.cn 0x3100 8 0 : Rat) < (s.fullResidual t).abs then s.modTank t (fun x => { x with recovery := none })
  else
    let start := x.recovery.getD s.fc
    if s.cn 0x3100 0x0B 0 * cyclesPerSec ≤ s.fc - start then
      (s.setWeight t (Nat.min 255 (x.weight + s.cn 0x3100 0x0A 0))).modTank t (fun x => { x with recovery := some s.fc })
    else s.modTank t (fun x => { x with recovery := some start })

/-- The BND loading condition takes effect at a heel record, shifting the filtered prediction by the same step (R108,
R110). -/
def State.takeLoading (s : State) : State :=
  let c := s.control
  let d := s.cr 0x3100 4 0
  let m := s.cr 0x3100 5 0
  let g := s.cr 0x3100 6 0
  if d = c.otherDisp ∧ m = c.otherTrans ∧ g = c.gm then s
  else
    let step := predictHeel c.trans c.mass d m g - predictHeel c.trans c.mass c.otherDisp c.otherTrans c.gm
    { s with control.otherDisp := d, control.otherTrans := m, control.gm := g, control.predicted := c.predicted + step }

/-- A record of the heel group's synthetic source (R108, R110 to R112). -/
def State.heelRecord (r : FibreRecord) (s : State) : State :=
  match slotAt r.slots (s.cn 0x2320 7 (s.cn 0x3100 1 0)) with
  | none => s
  | some h =>
    let s := s.takeLoading.totals
    let tau : Rat := (s.cn 0x3100 7 0 : Rat)
    let k : Rat := match s.control.lastHeel with
      | some t => clampRat 0 1 (secs (s.fc - t) / tau)
      | none => 1
    let s := { s with
      control.heel := s.control.heel + ((h : Rat) - s.control.heel) * k
      control.predicted := s.control.predicted + (s.control.predictedRaw - s.control.predicted) * k
      control.lastHeel := some s.fc
      control.heelSeen := true }
    let s := { s with control.residual := s.control.heel - s.control.predicted }
    if s.suspended then { s with control.persistence := none } else s.tanksOn.foldl State.recover s.crossCheck

/-- A record of the trim group's synthetic source (R107). -/
def State.trimRecord (r : FibreRecord) (s : State) : State :=
  match slotAt r.slots (s.cn 0x2320 7 (s.cn 0x3100 2 0)) with
  | none => s
  | some p =>
    { s with control.trim := (s.cn 0x3100 3 0 : Rat) * Config.tan ((p : Rat) / 1000 * Config.pi / 180), control.trimSeen := true }

/-! ### Readings (R103, R106) -/

/-- A tank in FAULT (R103, R109). -/
def State.tankFault (t : Nat) (s : State) : State :=
  if (s.tank t).code = 4 then s else (s.modTank t (fun x => { x with code := 4 })).event 0x4002 t 0

/-- The half revolution of the sea wheel that a position lies nearest to. -/
def seaHalf (p : WheelPos) : Nat := (p.toNat + 2 ^ 30) / 2 ^ 31

/-- The sea wheel was LOCKED at a record's pip. -/
def seaLocked (states : Nat) : Bool := states / 64 % 4 == 2

/-- The stale limit of a tank in fabric cycles; one sea-wheel period longer in modes 1 and 2 while the sea wheel is
LOCKED (R109). -/
def State.tankLimit (s : State) (t : Nat) : Nat :=
  let base := msCycles (s.cn 0x3110 0x0F t)
  if s.cn 0x3110 0x0D t ≠ 0 ∧ s.wheels.sea.state = .locked then
    base + (match s.wheels.est.period with
      | some p => (p * cyclesPerSec).floor.toNat
      | none => 0)
  else base

/-- A usable record that forms no reading yet ends FAULT: the tank is as its last reading leaves it (R109). -/
def State.unfault (t : Nat) (s : State) : State :=
  let x := s.tank t
  if x.code ≠ 4 then s
  else if x.reading.isNone then s.modTank t (fun x => { x with code := 1 })
  else if s.tankLimit t < s.fc - x.lastAt then (s.modTank t (fun x => { x with code := 3 })).event 0x4001 t 0
  else s.modTank t (fun x => { x with code := 2 })

/-- A sounding under a tank's sampling mode (R106). -/
def State.tankSounding (t : Nat) (g : Int) (r : FibreRecord) (s : State) : State :=
  let basis := ((slotAt r.slots 3).getD 0).toNat
  let me : Sounding := { g := g, at_ := r.pip.time, sea := r.pip.sea, basis := basis, fc := s.fc }
  match s.cn 0x3110 0x0D t with
  | 0 => s.takeReading t 0 (g : Rat) r.pip
  | 1 =>
    if basis = 0 then (s.modTank t (fun x => { x with prev := some me })).takeReading t 2 (g : Rat) r.pip
    else
      let pair := match (s.tank t).prev with
        | some q => if q.basis ≠ 0 ∧ q.basis ≠ basis ∧ seaHalf r.pip.sea = seaHalf q.sea + 1 ∧ seaLocked r.states = true
            then some (((g + q.g : Int) : Rat) / 2) else none
        | none => none
      let s := s.modTank t (fun x => { x with prev := some me })
      match pair with
      | some m => s.takeReading t 1 m r.pip
      | none => s.unfault t
  | _ => (s.modTank t (fun x => { x with pending := x.pending ++ [me] })).unfault t

/-- A gauge record for a tank (R103). -/
def State.gaugeRecord (r : FibreRecord) (s : State) (t : Nat) : State :=
  if r.formatter = 0x0E ∧ xdrIdOf r.slots ≠ s.ct 0x3110 6 t then s
  else if r.flags.getLsbD flInput || r.flags.getLsbD flInvalid then s.tankFault t
  else match selectValue (s.cn 0x3110 4 t) (s.cn 0x3110 5 t) r with
    | none => s.tankFault t
    | some x => s.tankSounding t (s.sounding t x) r

/-- A record of listener 63 reaches the control pair. -/
def State.controlRecord (r : FibreRecord) (s : State) : State :=
  let s := { s with control.sources := Tbl.put r.source (r, s.fc) s.control.sources }
  let s := (s.tanksOn.filter (fun t => s.cn 0x3110 3 t == r.source)).foldl (State.gaugeRecord r) s
  let s := if s.cn 0x3100 2 0 ≤ 63 ∧ r.source = 0x200 + s.cn 0x3100 2 0 then s.trimRecord r else s
  if s.cn 0x3100 1 0 ≤ 63 ∧ r.source = 0x200 + s.cn 0x3100 1 0 then s.heelRecord r else s

/-- CONTROL_TAKE_RECORD: the control pair takes the highest-class entry of listener 63, the earliest queued. -/
def State.controlTake (s : State) : State :=
  match ((s.lst 63).queue.filter (fun e => s.yields (0x1FC + e.cls))).foldl (fun b e => betterEntry b 63 e) none with
  | none => s
  | some (_, e) =>
    let q := 0x1FC + e.cls
    ((s.modLst 63 (fun x => { x with queue := x.queue.filter (fun y => y.order != e.order) })).popped q s).unlessBadEntry q .clean
      e.rcd (fun s => (s.stat 0x4820 63 3 1).controlRecord e.rcd)

/-- CONTROL_TAKE_RECORD. -/
def execControlTakeRecord (dt : Nat) (s : State) : Host.Outcome State Fault Refusal :=
  .next ((s.elapse dt).whenUp domCtrl State.controlTake)

/-- MODEL_RECOMPUTE: the totals, at least once per 100 ms (R108). -/
def execModelRecompute (dt : Nat) (s : State) : Host.Outcome State Fault Refusal :=
  .next ((s.elapse dt).whenUp domCtrl State.totals)

/-- TANK_STALE_TIMEOUT (R109). -/
def State.tankStale (t : Nat) (s : State) : State :=
  if s.tankOn t = true ∧ (s.tank t).code = 2 ∧ s.tankLimit t < s.fc - (s.tank t).lastAt then
    (s.modTank t (fun x => { x with code := 3 })).event 0x4001 t 0
  else s

/-- TANK_STALE_TIMEOUT. -/
def execTankStaleTimeout (dt : Nat) (t : Fin 96) (s : State) : Host.Outcome State Fault Refusal :=
  .next ((s.elapse dt).whenUp domCtrl (State.tankStale t.val))

/-- The mean of soundings. -/
def meanSounding (l : List Sounding) : Rat := meanOf (l.map (fun x => (x.g : Rat)))

/-- READING_MEAN_INTERVAL: a sea-wheel revolution, or a fallback interval of the time wheel, has ended (R106). A sounding
waits until both the revolution and the interval in which it lies have passed, since either may be the one averaged. -/
def State.readingMean (t : Nat) (s : State) : State :=
  if s.tankOn t = false ∨ s.cn 0x3110 0x0D t ≠ 2 then s
  else
    let iv := s.cn 0x3110 0x0E t
    let turn := posRev s.wheels.sea.visible
    let slot := intervalOf iv s.time
    let x := s.tank t
    let kept := x.pending.filter (fun y => decide (turn ≤ posRev y.sea) || decide (slot ≤ intervalOf iv y.at_))
    if s.wheels.sea.state = .locked then
      if turn = x.formedSea then s
      else
        let l := x.pending.filter (fun y => posRev y.sea + 1 == turn)
        let s := s.modTank t (fun x => { x with formedSea := turn, pending := kept })
        if l.isEmpty then s else s.takeReading t 3 (meanSounding l) s.pip
    else if slot = x.formed then s
    else
      let l := x.pending.filter (fun y => intervalOf iv y.at_ + 1 == slot)
      let s := s.modTank t (fun x => { x with formed := slot, pending := kept })
      if l.isEmpty then s else s.takeReading t 4 (meanSounding l) s.pip

/-- READING_MEAN_INTERVAL. -/
def execReadingMeanInterval (dt : Nat) (t : Fin 96) (s : State) : Host.Outcome State Fault Refusal :=
  .next ((s.elapse dt).whenUp domCtrl (State.readingMean t.val))

/-- REBASE (R112). -/
def State.rebase (s : State) : State := { s.anchor true with control.persistence := none }

/-- REBASE. -/
def execRebase (dt : Nat) (s : State) : Host.Outcome State Fault Refusal :=
  .next ((s.elapse dt).whenUp domCtrl State.rebase)

/-- READMIT (R112). -/
def execReadmit (dt : Nat) (t : Fin 96) (s : State) : Host.Outcome State Fault Refusal :=
  .next ((s.elapse dt).whenUp domCtrl (State.setWeight t.val 255))

end Sys2Proof.Machine
end

