-- ==== Sys2Proof/Machine/Cascade.lean ====
section
/-! DEFINITION. Cascades (R113 to R121), SYNC and the loop PDOs (R116, R117, R215, R216): stage inputs, the PI law,
HOLD, overruns, re-seating, and the commands CASCADE_INNER_STEP, CASCADE_STEP_COMPLETE, CASCADE_RELEASE,
CASCADE_HOLD_COMMAND and SYNC_DISPATCH. Arithmetic is REAL64, rounded operation by operation (R115). -/

namespace Sys2Proof.Machine

open Sys2Proof

/-- A cascade's state. -/
def State.casc (s : State) (c : Nat) : Cascade := Tbl.get {} c s.control.cascades

/-- Change a cascade's state. -/
def State.modCasc (c : Nat) (f : Cascade → Cascade) (s : State) : State :=
  { s with control.cascades := Tbl.mod {} c f s.control.cascades }

/-- A stage's state: row 2c outer, 2c + 1 inner. -/
def State.stg (s : State) (k : Nat) : Stage := Tbl.get {} k s.control.stages

/-- Change a stage's state. -/
def State.modStg (k : Nat) (f : Stage → Stage) (s : State) : State :=
  { s with control.stages := Tbl.mod {} k f s.control.stages }

/-! ### Inputs (R114, Table 5.1) -/

/-- A record seen within the stale limit. -/
def State.freshRecord (s : State) (src limit : Nat) : Option FibreRecord :=
  match s.control.sources.find? (fun p => p.1 == src) with
  | some (_, r, t) => if s.fc - t ≤ limit then some r else none
  | none => none

/-- The item of a stage input before scaling; none where it is stale. -/
def State.stageItem (s : State) (cfg : Cfg) (c k : Nat) : Option Rat :=
  let f (sub : Nat) : Nat := Cfg.nat s.uid cfg 0x3011 sub k
  let limit := msCycles (Cfg.nat s.uid cfg 0x3010 0x0E c)
  match f 2 with
  | 1 =>
    if (s.grp (f 3)).chosen = 0xFFFF then none
    else (s.freshRecord (0x200 + f 3) limit).bind (fun r => (slotAt r.slots (f 4)).map (fun x => (x : Rat)))
  | 2 => (s.freshRecord (f 3) limit).bind (fun r => (slotAt r.slots (f 4)).map (fun x => (x : Rat)))
  | 3 =>
    let t := s.tank (f 3)
    if s.tankCode (f 3) ≠ 2 then none
    else match f 4 with
      | 0 => some t.corrected
      | 1 => some (t.volume / 1000)
      | 2 => some t.mass
      | _ => some t.rate
  | 4 =>
    let fresh := s.heelChosen && (match s.control.lastHeel with
      | some t => decide (s.fc - t ≤ limit)
      | none => false)
    if fresh = false then none
    else match f 4 with
      | 0 => some (s.control.heel / 1000)
      | 1 => some (s.control.predicted / 1000)
      | 2 => some (s.control.trim / 1000)
      | 3 => some s.control.mass
      | _ => some (s.control.residual / 1000)
  | _ => none

/-- The first-order filter of R110, at step time `t` with a time constant in ms; 0 is no filter. -/
def filterStep (t : Rat) (ms : Nat) (seen : Bool) (y x : Rat) : Rat :=
  if ms = 0 ∨ seen = false then x
  else
    let k := fdiv (fmul t 1000) (ms : Rat)
    fadd y (fmul (fsub x y) (if 1 < k then 1 else k))

/-- Read and filter a stage's input at step time `t`; a stale input changes nothing. -/
def State.readStage (cfg : Cfg) (c k : Nat) (t : Rat) (s : State) : State :=
  match s.stageItem cfg c k with
  | none => s
  | some v =>
    let x := fadd (fmul (r64 v) (Cfg.real s.uid cfg 0x3011 5 k)) (Cfg.real s.uid cfg 0x3011 6 k)
    s.modStg k (fun g => { g with y := filterStep t (Cfg.nat s.uid cfg 0x3011 7 k) g.filtered g.y x, filtered := true })

/-! ### The PI law (R115, R121) -/

/-- The settings of a stage. -/
structure Gains where
  kp : Rat
  ki : Rat
  low : Rat
  high : Rat
  band : Rat
  deriving DecidableEq, Repr

/-- The settings of a stage row. -/
def gainsOf (u : UnitId) (cfg : Cfg) (k : Nat) : Gains :=
  { kp := Cfg.real u cfg 0x3011 9 k, ki := Cfg.real u cfg 0x3011 0x0A k, low := Cfg.real u cfg 0x3011 0x0B k,
    high := Cfg.real u cfg 0x3011 0x0C k, band := Cfg.real u cfg 0x3011 0x0D k }

/-- The error of a step. -/
def piError (g : Gains) (setpoint y : Rat) : Rat :=
  let d := fsub setpoint y
  if d.abs ≤ g.band then 0 else d

/-- The integrator re-seated so that the output meets its target (R121). -/
def reseatI (g : Gains) (x : Stage) (e : Rat) : Rat :=
  match x.reseat with
  | none => x.i
  | some fromSet =>
    let target := if fromSet then fadd (fmul x.kpOld x.eOld) x.i else x.held
    if g.high < target then fsub g.high (fmul g.kp e)
    else if target < g.low then fsub g.low (fmul g.kp e)
    else fsub target (fmul g.kp e)

/-- One step of a stage: the stage after it, and its output u. -/
def piStep (g : Gains) (t setpoint : Rat) (x : Stage) : Stage × Rat :=
  let e := piError g setpoint x.y
  let i := reseatI g x e
  let v := fadd (fmul g.kp e) i
  let u := clampRat g.low g.high v
  let i' := if g.low < v ∧ v < g.high then fadd i (fmul (fmul g.ki t) e) else i
  ({ x with i := i', v := v, reseat := none, kpOld := g.kp, eOld := e, setpoint := setpoint }, u)

/-! ### The step (R113, R118 to R120) -/

/-- The inner period in seconds: that of the appointment row of consumer 0x01cc (R113). -/
def RowCfg.seconds (r : RowCfg) : Rat := if r.divisor ≠ 0 then fdiv 1 (r.divisor : Rat) else r64 ((r.period : Rat) / 2 ^ 32)

/-- SUP renews its copy of a cascade's issued outputs and integrators (R119). -/
def State.copyCasc (c : Nat) (s : State) : State :=
  { s with
    control.supCascades := Tbl.put c (s.casc c) s.control.supCascades
    control.supStages := Tbl.put (2 * c) (s.stg (2 * c)) (Tbl.put (2 * c + 1) (s.stg (2 * c + 1)) s.control.supStages) }

/-- Enter HOLD for a reason, holding the last issued outputs (R119). -/
def State.holdCasc (c reason : Nat) (s : State) : State :=
  let x := s.casc c
  let s := s.modCasc c (fun x => { x with state := 2, reason := reason, holdCmd := false, release := false })
  let s := (s.modStg (2 * c) (fun g => { g with held := x.outerOut })).modStg (2 * c + 1) (fun g => { g with held := x.issued })
  s.event 0x4006 c reason

/-- A cascade is released from HOLD: RUN, the outer stage first, its stages re-seated (R113, R121). -/
def State.releaseCasc (c : Nat) (s : State) : State :=
  let s := s.modCasc c (fun x => { x with state := 1, reason := 0, release := false, outerIn := 0 })
  let re (g : Stage) : Stage := { g with reseat := some false }
  ((s.modStg (2 * c) re).modStg (2 * c + 1) re).endAlert 0x4006 c

/-- An input of a stage that would run is stale. -/
def State.inputStale (s : State) (cfg : Cfg) (c : Nat) (outer : Bool) : Bool :=
  (s.stageItem cfg c (2 * c + 1)).isNone || (outer && (s.stageItem cfg c (2 * c)).isNone)

/-- The overrun of a step that still runs at the next dispatch: the step is abandoned, with what it had re-seated still to
be done (R120, R121). 0x3010:12 counts to 3. -/
def State.overrun (c : Nat) (s : State) : State :=
  match (s.casc c).running with
  | none => s
  | some r =>
    let back (o : Option Bool) (g : Stage) : Stage := { g with reseat := if g.reseat.isSome then g.reseat else o }
    let s := (s.modStg (2 * c) (back r.reseats.1)).modStg (2 * c + 1) (back r.reseats.2)
    let s := s.modCasc c (fun x => { x with running := none, overruns := x.overruns + 1, consecutive := Nat.min 3 (x.consecutive + 1) })
    s.event 0x4007 c (s.casc c).consecutive

/-- Start a step: the outer stage where it is due, then the inner stage; results wait for completion (R115, R120). -/
def State.startStep (cfg : Cfg) (c n : Nat) (t : Rat) (outer : Bool) (s : State) : State :=
  let spOf (k : Nat) : Rat := s.cr 0x3011 8 k
  let o := if outer then some (piStep (gainsOf s.uid cfg (2 * c)) (fmul (n : Rat) t) (spOf (2 * c)) (s.stg (2 * c))) else none
  let outerOut := match o with
    | some p => p.2
    | none => (s.casc c).outerOut
  let sp := if n = 0 then spOf (2 * c + 1) else outerOut
  let (inner, u) := piStep (gainsOf s.uid cfg (2 * c + 1)) t sp (s.stg (2 * c + 1))
  let r : StepResult := {
    outer := o.map (fun p => p.1), inner := inner, u := u, outerOut := outerOut, startedAt := s.fc
    reseats := (if outer then (s.stg (2 * c)).reseat else none, (s.stg (2 * c + 1)).reseat) }
  let taken (g : Stage) : Stage := { g with reseat := none }
  let s := (if outer then s.modStg (2 * c) taken else s).modStg (2 * c + 1) taken
  s.modCasc c (fun x => { x with running := some r })

/-- A dispatch of an inner-step row (R113, R118 to R120). -/
def State.innerStep (c : Nat) (d : Dispatch) (s : State) : State :=
  let cfg := s.cfgAt d.dueTime
  if Cfg.nat s.uid cfg 0x3010 2 c ≠ 1 ∨ (s.casc c).state = 0 then s
  else
    let late := (s.casc c).running.isSome
    let s := s.overrun c
    let t := (s.apptRow d.row).seconds
    let n := Cfg.nat s.uid cfg 0x3010 6 c
    let s := if (s.casc c).state = 2 ∧ (s.casc c).release = true ∧ s.ctrlStandby = false then s.releaseCasc c else s
    let x := s.casc c
    let outer := decide (1 ≤ n) && decide (x.outerIn = 0)
    let stale := s.inputStale cfg c outer
    let s := s.readStage cfg c (2 * c + 1) t
    let s := if outer then s.readStage cfg c (2 * c) (fmul (n : Rat) t) else s
    let s := s.modCasc c (fun x => { x with outerIn := if outer then n - 1 else x.outerIn - 1 })
    if x.state ≠ 1 ∨ s.ctrlStandby = true then s.modCasc c (fun x => { x with holdCmd := false })
    else if x.holdCmd then s.holdCasc c 1
    else if stale then s.holdCasc c 2
    else if late = true ∧ x.consecutive = 3 then s.holdCasc c 3
    else s.startStep cfg c n t outer

/-- CASCADE_INNER_STEP: the dispatch of consumer 0x01cc. -/
def execCascadeInnerStep (dt : Nat) (c : Fin 16) (s : State) : Host.Outcome State Fault Refusal :=
  .next ((s.elapse dt).whenUp domCtrl (State.withDispatch (0x0100 + c.val) (State.innerStep c.val)))

/-! ### Outputs (R116) -/

/-- The range of an output type. -/
def outRange (w : Nat) : Int × Int :=
  match w with
  | 1 => (-(2 ^ 15), 2 ^ 15 - 1)
  | 2 => (0, 2 ^ 16 - 1)
  | 3 => (-(2 ^ 31), 2 ^ 31 - 1)
  | _ => (0, 2 ^ 32 - 1)

/-- Bytes of an output type. -/
def outBytes (w : Nat) : Nat := if w ≤ 2 then 2 else 4

/-- The raw value of an output u (R116). -/
def State.rawOut (s : State) (cfg : Cfg) (c : Nat) (u : Rat) : Int :=
  let v := roundAway (fmul (fsub u (Cfg.real s.uid cfg 0x3010 0x0D c)) (Cfg.real s.uid cfg 0x3010 0x0C c))
  let r := outRange (Cfg.nat s.uid cfg 0x3010 0x0B c)
  clampInt r.1 r.2 v

/-- The raw value that a cascade has in its PDO; 0 in OFF (R117, 0x3010:10). -/
def State.issuedRaw (s : State) (c : Nat) : Int := if (s.casc c).state = 0 then 0 else s.rawOut s.cfg c (s.casc c).issued

/-- CASCADE_STEP_COMPLETE: the step's output is issued, its integrators kept, and SUP's copy renewed (R115, R119,
R120). -/
def State.stepComplete (c : Nat) (s : State) : State :=
  match (s.casc c).running with
  | none => s
  | some r =>
    let done (y : Stage) (g : Stage) : Stage := { y with reseat := g.reseat }
    let s := s.modStg (2 * c + 1) (done r.inner)
    let s := match r.outer with
      | some o => s.modStg (2 * c) (done o)
      | none => s
    (s.modCasc c (fun x => { x with
      running := none, outerOut := r.outerOut, issued := r.u, steps := x.steps + 1, consecutive := 0 })).copyCasc c

/-- CASCADE_STEP_COMPLETE. -/
def execCascadeStepComplete (dt : Nat) (c : Fin 16) (s : State) : Host.Outcome State Fault Refusal :=
  .next ((s.elapse dt).whenUp domCtrl (State.stepComplete c.val))

/-- CASCADE_RELEASE: command 1, refused outside HOLD or with a stale input of a stage that would run (R119). -/
def State.commandRelease (c : Nat) (s : State) : Except Nat State :=
  if (s.casc c).state ≠ 2 ∨ s.inputStale s.cfg c (decide (1 ≤ s.cn 0x3010 6 c)) = true then .error abState
  else .ok (s.modCasc c (fun x => { x with release := true, holdCmd := false }))

/-- CASCADE_HOLD_COMMAND: command 2, in effect at the next step (R119). -/
def State.commandHold (c : Nat) (s : State) : State := s.modCasc c (fun x => { x with holdCmd := true, release := false })

/-- A command that may be refused: a refused one changes nothing here. -/
def State.attempt (r : State → Except Nat State) (s : State) : State :=
  match r s with
  | .ok t => t
  | .error _ => s

/-- CASCADE_RELEASE. -/
def execCascadeRelease (dt : Nat) (c : Fin 16) (s : State) : Host.Outcome State Fault Refusal :=
  .next ((s.elapse dt).whenUp domCtrl (State.attempt (State.commandRelease c.val)))

/-- CASCADE_HOLD_COMMAND. -/
def execCascadeHoldCommand (dt : Nat) (c : Fin 16) (s : State) : Host.Outcome State Fault Refusal :=
  .next ((s.elapse dt).whenUp domCtrl (State.commandHold c.val))

/-! ### SYNC and loop PDOs (R117, R215, R216) -/

/-- The unit sends neither SYNC nor loop PDOs: by its role, or in RECOVERY or SAFE_LISTEN (R117, Table 14.4). -/
def State.syncBarred (s : State) : Bool :=
  decide (s.twin.role = 1 ∨ s.twin.role = 2 ∨ s.twin.role = 3) || decide (s.boot.mode = 2 ∨ s.boot.mode = 3)

/-- The cascades in RUN or HOLD that map to a loop PDO. -/
def State.pdoCascades (s : State) (n : Nat) : List Nat :=
  (List.range 16).filter (fun c => s.cn 0x3010 2 c == 1 && s.cn 0x3010 9 c == n && (s.casc c).state != 0)

/-- Put bytes at an offset. -/
def putBytes (off : Nat) (b d : List Byte) : List Byte := d.take off ++ b ++ d.drop (off + b.length)

/-- The data of a loop PDO (R116, R216). -/
def State.pdoData (s : State) (n : Nat) : List Byte :=
  let cs := s.pdoCascades n
  let len := cs.foldl (fun a c => Nat.max a (s.cn 0x3010 0x0A c + outBytes (s.cn 0x3010 0x0B c))) 0
  (cs.foldl (fun d c =>
    let k := outBytes (s.cn 0x3010 0x0B c)
    putBytes (s.cn 0x3010 0x0A c) (leBytes k (ofSigned (8 * k) (s.rawOut s.cfg c (s.casc c).issued))) d)
    (List.replicate len 0)).take len

/-- A base data frame. -/
def baseFrame (id : Nat) (d : List Byte) : CanFrame := { ext := false, remote := false, id := id, data := d }

/-- The loop PDOs of a SYNC, in number order. -/
def State.loopPdos (s : State) : List CanTx :=
  (List.range 12).filterMap (fun n =>
    let cob := s.cn (0x1800 + n) 1 0
    if (s.pdoCascades n).isEmpty || cob.testBit 31 then none
    else some { frame := baseFrame (cob % 2048) (s.pdoData n), kind := .loopPdo })

/-- A frame of the SYNC schedule. -/
def CanTx.isLoop (t : CanTx) : Bool := t.kind == .sync || t.kind == .loopPdo

/-- A SYNC dispatch (R117, R215, R216). A controller that recovers is still in bus-off, as R205 and ISO 11898-1 have it. -/
def State.sync (s : State) : State :=
  let p := s.cp 2
  let nmt := s.canOpen.nmt
  if s.syncBarred = true ∨ nmt = 4 ∨ nmt = 0 ∨ p.state = 3 ∨ p.state = 4 then s
  else if s.up domCan = false ∨ s.canOn 2 = false ∨ s.flows 0x54 = false then
    { s with canOpen.missed := s.canOpen.missed + 1 }
  else
    let old := (p.waiting s.fc).filter CanTx.isLoop
    let syncs := old.filter (fun t => t.kind == .sync)
    let sync : CanTx := { frame := baseFrame (s.cn 0x1005 0 0 % 2048) [], kind := .sync }
    let pdos := if nmt = 5 ∧ s.up domCtrl = true ∧ s.flows 0x55 = true then s.loopPdos else []
    let s := { s with
      canOpen.missed := s.canOpen.missed + BitVec.ofNat 32 syncs.length
      canOpen.discarded := s.canOpen.discarded + BitVec.ofNat 32 old.length }
    ((s.passed 0x54 1).passed 0x55 pdos.length).requeue 2 ([sync] ++ pdos ++ (p.waiting s.fc).filter (fun t => !t.isLoop))

/-- SYNC_DISPATCH: the dispatch of consumer 0x0300. -/
def execSyncDispatch (dt : Nat) (s : State) : Host.Outcome State Fault Refusal :=
  .next ((s.elapse dt).whenUp domFabric (State.withDispatch 0x0300 (fun _ s => s.sync)))

end Sys2Proof.Machine
end

