-- ==== Sys2Proof/Machine/Crypto.lean ====
section
/-! DEFINITION. Check sums and digests: CRC-16/CCITT-FALSE (R195), the CRC-32 of IEEE 802.3 and CRC-32C (PRESUMED: the
manual names them and gives no polynomial), SHA-256 and HMAC-SHA-256 (R273, R331; FIPS 180-4, RFC 2104, PRESUMED). -/

namespace Sys2Proof

/-- One bit of CRC-16/CCITT-FALSE: polynomial 0x1021, most significant bit first. -/
def crc16Bit (r : BitVec 16) : BitVec 16 := if r.msb then (r <<< 1) ^^^ 0x1021#16 else r <<< 1

/-- Apply a function `n` times. -/
def repeatFn {α : Type} (f : α → α) : Nat → α → α
  | 0, x => x
  | n + 1, x => repeatFn f n (f x)

/-- CRC-16/CCITT-FALSE of bytes: initial value 0xFFFF, no reflection, no final inversion (R195). -/
def crc16 (b : List Byte) : BitVec 16 := b.foldl (fun r x => repeatFn crc16Bit 8 (r ^^^ ((x.setWidth 16 : BitVec 16) <<< 8))) 0xFFFF#16

/-- One bit of a reflected CRC-32. -/
def crc32Bit (poly r : BitVec 32) : BitVec 32 := if r.getLsbD 0 then (r >>> 1) ^^^ poly else r >>> 1

/-- A reflected CRC-32 with initial value and final inversion of all ones. -/
def crc32With (poly : BitVec 32) (b : List Byte) : BitVec 32 :=
  ~~~(b.foldl (fun r x => repeatFn (crc32Bit poly) 8 (r ^^^ x.setWidth 32)) 0xFFFFFFFF#32)

/-- The frame check sequence of IEEE 802.3. -/
def crc32 (b : List Byte) : BitVec 32 := crc32With 0xEDB88320#32 b

/-- CRC-32C. -/
def crc32c (b : List Byte) : BitVec 32 := crc32With 0x82F63B78#32 b

/-! ### SHA-256 -/

/-- The largest `r` of `i` bits added to `r` whose `k`-th power is at most `n`. -/
def rootBits (k n : Nat) : Nat → Nat → Nat
  | 0, r => r
  | i + 1, r => rootBits k n i (if (r + 2 ^ i) ^ k ≤ n then r + 2 ^ i else r)

/-- The first 32 bits of the fraction of the `k`-th root of a number below 2^10. -/
def rootFraction (k p : Nat) : BitVec 32 := BitVec.ofNat 32 (rootBits k (p * 2 ^ (32 * k)) 38 0)

/-- The primes below `n`, for `n` at most 18 squared. -/
def primesBelow (n : Nat) : List Nat :=
  (List.range n).filter (fun p => decide (2 ≤ p) && (List.range 18).all (fun d => decide (d < 2) || d == p || p % d != 0))

/-- The round constants: of the cube roots of the first 64 primes. -/
def shaK : List (BitVec 32) := (primesBelow 312).map (rootFraction 3)

/-- The working words as the two sequences that the rounds extend, each with its last four words, the newest first. -/
structure Sha where
  up : List (BitVec 32)
  down : List (BitVec 32)
  deriving DecidableEq, Repr

/-- The initial hash value: of the square roots of the first eight primes. -/
def shaInit : Sha := { up := [2, 3, 5, 7].map (rootFraction 2), down := [11, 13, 17, 19].map (rootFraction 2) }

/-- The exclusive OR of a word turned right by several amounts. -/
def turns (l : List Nat) (x : BitVec 32) : BitVec 32 := l.foldl (fun a n => a ^^^ x.rotateRight n) 0

/-- A word of a sequence. -/
def wordAt (l : List (BitVec 32)) (n : Nat) : BitVec 32 := (l[n]?).getD 0

/-- One round with the sum of its constant and schedule word. -/
def shaRound (s : Sha) (kw : BitVec 32) : Sha :=
  let u := wordAt s.up
  let d := wordAt s.down
  let pick := d 2 ^^^ (d 0 &&& (d 1 ^^^ d 2))
  let most := (u 0 &&& u 1) ||| (u 2 &&& (u 0 ||| u 1))
  let t := d 3 + turns [6, 11, 25] (d 0) + pick + kw
  { up := (t + turns [2, 13, 22] (u 0) + most) :: s.up.take 3, down := (u 3 + t) :: s.down.take 3 }

/-- The schedule word that follows 16 words. -/
def shaNext (w : List (BitVec 32)) : BitVec 32 :=
  let g := wordAt w
  g 0 + (turns [7, 18] (g 1) ^^^ (g 1 >>> 3)) + g 9 + (turns [17, 19] (g 14) ^^^ (g 14 >>> 10))

/-- The rounds of one block, the schedule kept as a window of 16 words. -/
def shaRounds : List (BitVec 32) → List (BitVec 32) → Sha → Sha
  | [], _, s => s
  | k :: ks, w, s => shaRounds ks (w.drop 1 ++ [shaNext w]) (shaRound s (k + wordAt w 0))

/-- The 32-bit words of bytes, most significant byte first. -/
def shaWords : Nat → List Byte → List (BitVec 32)
  | 0, _ => []
  | n + 1, b => BitVec.ofNat 32 (beNat (b.take 4)) :: shaWords n (b.drop 4)

/-- One block of 64 bytes. -/
def shaBlock (s : Sha) (b : List Byte) : Sha :=
  let t := shaRounds shaK (shaWords 16 b) s
  { up := List.zipWith (· + ·) s.up t.up, down := List.zipWith (· + ·) s.down t.down }

/-- `n` blocks. -/
def shaBlocks : Nat → List Byte → Sha → Sha
  | 0, _, s => s
  | n + 1, b, s => shaBlocks n (b.drop 64) (shaBlock s (b.take 64))

/-- A message padded to whole blocks. -/
def shaPad (b : List Byte) : List Byte :=
  b ++ [0x80] ++ List.replicate ((119 - b.length % 64) % 64) 0 ++ beBytes 8 (8 * b.length)

/-- SHA-256 of bytes. -/
def sha256 (b : List Byte) : List Byte :=
  let p := shaPad b
  let s := shaBlocks (p.length / 64) p shaInit
  ((s.up ++ s.down).map (fun w => beBytes 4 w.toNat)).flatten

/-- HMAC-SHA-256 of a message under a key of at most 64 bytes. -/
def hmac256 (key msg : List Byte) : List Byte :=
  let k := key ++ List.replicate (64 - key.length) 0
  sha256 (k.map (fun b => b ^^^ 0x5C) ++ sha256 (k.map (fun b => b ^^^ 0x36) ++ msg))

end Sys2Proof
end

