-- ==== Sys2Proof/Machine/Output.lean ====
section
/-! DEFINITION. What the output ports share (R127, R308, R310, R317, R320, R321): an item sent and its mark, an item cut
and returned to its queue, the end of entitlement, resume points, and the release of a port in a handover. -/

namespace Sys2Proof.Machine

open Sys2Proof

/-- Fabric cycles of a number of serial clock cycles of 73.728 MHz, rounded down. -/
def serialCycles (n : Nat) : Nat := n * 15625 / 2880

/-- Fabric cycles of sample ticks at a divider (R130). -/
def tickCycles (d n : Nat) : Nat := serialCycles (d * n)

/-- Fabric cycles of bit times at a divider. -/
def bitCycles (d n : Nat) : Nat := tickCycles d (16 * n)

/-- The CRC-32C of a record's raw text (R308). -/
def rawCrc (r : FibreRecord) : Nat := (crc32c r.raw).toNat

/-- The match window of R317 in 2^-32 s. -/
def State.matchWindow (s : State) : Nat := nsPos (1000 * s.cn 0x4000 6 0)

/-- The unit is the active one of a twin pair, with a standby to mirror to: ACTIVE or HANDOVER_OUT. -/
def State.mirrors (s : State) : Bool := decide (s.twin.role = 4 ∨ s.twin.role = 5)

/-- Two items are marks of one listener and class. -/
def sameMark (l cls : Nat) : MirrorItem → Bool
  | .mark m c _ _ _ => m == l && c == cls
  | _ => false

/-- An entry of a listener has been sent whole: counted, marked for the standby, and recognised as a duplicate where
the peer's last mark names it (R308, R317). -/
def State.entrySent (l : Nat) (e : Entry) (s : State) : State :=
  let p := e.rcd.pip.time
  let crc := rawCrc e.rcd
  let dup := match (s.lst l).marks.find? (fun m => m.1 == e.cls) with
    | some (_, q, src, c) => src == e.rcd.source && c == crc && decide ((posDiff p q).natAbs ≤ s.matchWindow)
    | none => false
  let s := (s.stat 0x4820 l 3 1).modLst l (fun x => { x with own := Tbl.put e.cls (p, e.rcd.source, crc) x.own })
  let s := if dup then s.stat 0x4880 0 0x0A 1 else s
  if s.mirrors && decide (l < 62) then
    { s with twin.dirty := s.twin.dirty.filter (fun m => !sameMark l e.cls m) ++ [.mark l e.cls e.rcd.source p crc] }
  else s

/-! ### Serial items -/

/-- The serial port of an item of a listener. -/
def State.itemPort (s : State) (l : Nat) (i : Item) : Option Nat :=
  match listenerKind s.uid (s.cfgAt i.entry.rcd.pip.time) l with
  | .serial p => some p
  | _ => none

/-- The listener with an item for a serial port, in its slot or in flight. -/
def State.portListener (s : State) (p : Nat) : Option Nat :=
  (s.bramble.listeners.find? (fun x =>
    (match x.2.inFlight with
      | some i => s.itemPort x.1 i == some p
      | none => false) ||
    (match x.2.slot with
      | some i => s.itemPort x.1 i == some p
      | none => false))).map (fun x => x.1)

/-- What stands in the transmit queue of a serial port is dropped from it. -/
def State.clearTx (p : Nat) (s : State) : State :=
  if (s.sp p).tx.isEmpty then s else s.dropPackets (0x18 + p) (s.sp p).tx.length

/-- A serial port gives up its drivers at once: the item in flight counts as not sent (R127). -/
def State.cutSerial (p : Nat) (s : State) : State :=
  let s := match s.portListener p with
    | some l =>
      let s := s.returnSlot l
      (match (s.lst l).inFlight with
        | some i => (s.returnEntry l i.entry).modLst l (fun x => { x with inFlight := none, line := i.line })
        | none => s)
    | none => s
  (s.clearTx p).modSp p (fun x => { x with
    busy := none, wire := [], aux := false, leadEnd := none, lagEnd := none, startAfter := none, sending := [], ownBreak := none })

/-! ### Ethernet and CAN items -/

/-- The composed datagrams that wait in one transmit queue go back to their listeners. -/
def State.returnQueue (p q : Nat) (s : State) : State :=
  let l := (s.ep p).txq q
  let s := ((s.modEp p (fun e => e.setTxq q (l.filter (fun f => !f.isDatagram)))).trackWatchdog p).withdrawn [0x38 + 8 * p + q] s
  l.reverse.foldl (fun s f => match f.kind with
    | .datagram n e => s.returnEntry n e
    | _ => s) s

/-- The composed datagrams of a port that have not begun go back to their listeners. -/
def State.returnDatagrams (p : Nat) (s : State) : State := (List.range 4).foldl (fun s q => s.returnQueue p q) s

/-- A frame composed by FE0, with its listener and entry. -/
def CanTx.fromFe (t : CanTx) : Option (Nat × Entry) :=
  match t.kind with
  | .fe l (some e) _ => some (l, e)
  | _ => none

/-- The first listener entry on its way to a CAN bus. -/
def CPort.firstEntry (c : CPort) : Option (Nat × Entry) := c.frames.findSome? CanTx.fromFe

/-- The entries of frames for a CAN bus, each once. -/
def canEntries : List CanTx → List (Nat × Entry)
  | [] => []
  | t :: ts =>
    match t.fromFe with
    | some x => x :: (canEntries ts).filter (fun y => y != x)
    | none => canEntries ts

/-- The messages of a CAN port that wait go back to their listeners; `keep` leaves the one at the head to end. -/
def State.returnMessages (p : Nat) (keep : Bool) (s : State) : State :=
  let c := s.cp p
  let head := if keep then c.firstEntry else none
  let stays (t : CanTx) : Bool := t.fromFe.isNone || t.fromFe == head
  let back := (canEntries c.frames).filter (fun x => some x != head)
  let s := (s.modCp p (fun c => { c with tx := c.tx.filter stays, txq := c.txq.filter stays })).canDropped p s
  back.reverse.foldl (fun s x => s.returnEntry x.1 x.2) s

/-- Entitlement ends at once on every port: items cut return to their queues (R127, ENTITLEMENT_END). -/
def State.endEntitlement (s : State) : State :=
  let s := (List.range 24).foldl (fun s p => s.cutSerial p) s
  let s := (List.range 2).foldl (fun s p => s.returnDatagrams p) s
  (List.range 2).foldl (fun s p => s.returnMessages p false) s

/-! ### Resume points (R316, R317) -/

/-- The rows of the enabled listeners on a port. -/
def State.listenersOn (s : State) (port : Nat) : List Nat :=
  (listenerRows s.cfg).filter (fun l => decide (l < 62) && listenerOn s.uid s.cfg l && s.cn 0x2520 3 l == port)

/-- The entries of a class that stay after the resume point, and how many are discarded (R317). -/
def resumeClass (w : Nat) (m : WheelPos × Nat × Nat) (q : List Entry) : List Entry :=
  let (pos, src, crc) := m
  let hit (e : Entry) : Bool := decide ((posDiff e.rcd.pip.time pos).natAbs ≤ w) && e.rcd.source == src && rawCrc e.rcd == crc
  match q.find? hit with
  | some e => q.filter (fun x => decide (e.order < x.order))
  | none => q.filter (fun x => decide (-(w : Int) ≤ posDiff x.rcd.pip.time pos))

/-- Apply the resume point of one class of a listener; discards count as sent. -/
def State.resumeQueue (l : Nat) (s : State) (m : Nat × WheelPos × Nat × Nat) : State :=
  let q := (s.lst l).queue
  let mine := q.filter (fun e => e.cls == m.1)
  let kept := resumeClass s.matchWindow m.2 mine
  let s := s.modLst l (fun x => { x with queue := q.filter (fun e => e.cls != m.1 || kept.contains e) })
  s.stat 0x4820 l 3 (mine.length - kept.length)

/-- Number queued entries from `n + 1` on, in order of queueing. -/
def renumber (n : Nat) (q : List Entry) : List Entry :=
  q.map (fun e => { e with seq := BitVec.ofNat 32 (n + 1 + (q.filter (fun x => decide (x.order < e.order))).length) })

/-- The mirrored counters of a listener take effect (R316). -/
def State.takeCounters (l : Nat) (s : State) : State :=
  match (s.lst l).held with
  | none => s
  | some c =>
    let n := (s.lst l).queue.length
    let s := s.modLst l (fun x => { x with
      seq := BitVec.ofNat 32 (c.lastSeq + n), queue := renumber c.lastSeq x.queue, line := c.line, sids := c.sids, held := none })
    match listenerKind s.uid s.cfg l with
    | .eth p => s.modEp p (fun e => { e with ipId := BitVec.ofNat 16 c.ipId })
    | .can p => s.modCp p (fun x => { x with fastSeq := c.fast })
    | _ => s

/-- A listener resumes at its resume point with its mirrored counters. -/
def State.resumeListener (s : State) (l : Nat) : State := ((s.lst l).marks.foldl (State.resumeQueue l) s).takeCounters l

/-- The listeners of a port resume. -/
def State.resumePort (port : Nat) (s : State) : State := (s.listenersOn port).foldl State.resumeListener s

/-! ### The release of a port in a handover (R320, R321) -/

/-- The listener ports: S0 to S23, E0, E1, C0 and C1. -/
def listenerPorts : List Nat := List.range 24 ++ [0x20, 0x21, 0x28, 0x29]

/-- The overlap O of a start-stop port in fabric cycles. -/
def State.overlap (s : State) (p : Nat) : Nat := Nat.max (bitCycles (s.sp p).txDiv (s.cn 0x4000 5 0)) 2000

/-- The final marks and counters of a listener (Table 14.3). -/
def State.finalItems (s : State) (l : Nat) : List MirrorItem :=
  let x := s.lst l
  let (ip, fast) := match listenerKind s.uid s.cfg l with
    | .eth p => ((s.ep p).ipId.toNat, [])
    | .can p => (0, (s.cp p).fastSeq)
    | _ => (0, [])
  x.own.map (fun m => .mark l m.1 m.2.2.1 m.2.1 m.2.2.2) ++
    [.counters l (x.seq.toNat - x.queue.length) x.line ip x.sids fast]

/-- No item is in flight on a port. -/
def State.portIdle (s : State) (port : Nat) : Bool :=
  if port ≤ 23 then
    let x := s.sp port
    x.busy.isNone && x.slot.isNone && x.sending.isEmpty && (match s.portListener port with
      | some l => (s.lst l).inFlight.isNone
      | none => true)
  else if port = 0x20 ∨ port = 0x21 then
    match (s.ep (port - 0x20)).inFlight with
    | some f => !f.isDatagram
    | none => true
  else (s.cp (port - 0x28)).firstEntry.isNone

/-- The unit leaves HANDOVER_OUT when its last port is released: it lets ARB_N go and is the standby. -/
def State.handoverDone (s : State) : State :=
  if s.twin.role = 5 ∧ listenerPorts.all (fun p => s.twin.released.contains p) = true then
    { s with
      twin.role := 2, twin.arbOwn := false, twin.released := [], twin.handover := none, twin.mirrorAt := none
      control.persistence := none }
  else s

/-! ### The Joile link carries frames (R304) -/

/-- The lanes in use by configuration. -/
def State.lanesUsed (s : State) : List Nat := (List.range 2).filter (fun n => (s.cn 0x4000 9 0).testBit n)

/-- The lanes in use that are up. -/
def State.lanesUp (s : State) : List Nat := s.lanesUsed.filter (fun n => Tbl.get false n s.twin.lanes)

/-- The link is up: every lane in use is up, or has failed after it came up while another stands. -/
def State.linkUp (s : State) : Bool :=
  !s.lanesUp.isEmpty && s.lanesUsed.all (fun n => s.twin.lanes.any (fun x => x.1 == n))

/-- The type of a Joile frame (Table 14.2). -/
def JFrame.type : JFrame → Nat
  | .hello _ => 0x01
  | .heartbeat _ => 0x02
  | .mirror _ => 0x03
  | .shadow _ _ => 0x04
  | .checkResult _ _ _ => 0x05
  | .set _ _ => 0x06
  | .setAck _ => 0x07
  | .handoverRequest _ => 0x08
  | .handoverAgree _ => 0x09
  | .portRelease _ _ => 0x0A

/-- The bytes of a Joile frame (Table 14.1, stored under R4). -/
def joileBytes (type flags seq : Nat) (at_ : WheelPos) (payload : List Byte) : List Byte :=
  let b := leBytes 1 type ++ leBytes 1 flags ++ leBytes 2 payload.length ++ leBytes 4 seq ++ leBytes 8 at_.toNat ++ payload
  b ++ leBytes 4 (crc32c b).toNat

/-- The flags byte of a frame that the unit sends. -/
def State.joileFlags (s : State) (f : JFrame) : Nat :=
  (if f.type = 0x04 then 2 else 0) + (if 3 ≤ s.twin.role ∧ s.twin.role ≤ 5 then 1 else 0)

/-- Queue a Joile frame to the peer, and note its bytes, whose payload the manual does not lay out (log entry 291);
without a link nothing is sent. A frame past the credit of queue 0x082 waits in SUP. -/
def State.sendJ (f : JFrame) (s : State) : State :=
  if s.up domJoile && s.linkUp && s.admits 0x82 then
    let seq := s.twin.txSeq + 1
    let wire := joileBytes f.type (s.joileFlags f) seq.toNat s.time ((Config.joilePayload s.free).take 512)
    ({ s.useFree with twin.out := s.twin.out ++ [f], twin.txSeq := seq, twin.wire := wire }).pushed 0x82
  else s

/-- JOILE has sent or dropped what queue 0x082 held. -/
def State.clearOut (s : State) : State :=
  if s.queued 0x82 = 0 ∨ s.yields 0x82 = false then s else ({ s with twin.out := [] }).popped 0x82 s

/-! ### Releases -/

/-- The outgoing unit releases one port (R320). -/
def State.releasePort (port : Nat) (s : State) : State :=
  if s.twin.role ≠ 5 ∨ s.twin.released.contains port = true then s
  else
    let items := ((s.listenersOn port).map (fun l => s.finalItems l)).flatten
    let s := ({ s with twin.released := s.twin.released ++ [port] }).sendJ (.portRelease port items)
    let s := if port ≤ 23 then
        s.modSp port (fun x => { x with
          aux := false, lagEnd := none
          overlapEnd := if s.portN port 1 = 1 then some (s.fc + s.overlap port) else none })
      else s
    s.handoverDone

/-- The outgoing unit releases a port as soon as nothing is in flight on it. -/
def State.releaseIdle (port : Nat) (s : State) : State :=
  if s.twin.role = 5 ∧ s.portIdle port = true then s.releasePort port else s

end Sys2Proof.Machine
end

