-- ==== Sys2Proof/Machine/Link.lean ====
section
/-! DEFINITION. What twin operation shares with other blocks (R301 to R313): the wires ARB_N and BEAT_OUT, the Joile
link's state, sending a Joile frame, the claim timer, and the roles a unit enters. -/

namespace Sys2Proof.Machine

open Sys2Proof

/-! ### The wires -/

/-- The level of ARB_N: high while neither unit holds it low. -/
def State.arbHigh (s : State) : Bool := !(s.twin.arbOwn || s.twin.arbPeer)

/-- The claim rank (R301). -/
def State.rank (s : State) : Nat := (if s.twin.prefN then 2 else 0) + (if s.twin.unitSel then 1 else 0)

/-- The claim delay (R312): 2 ms, 1.5 ms for each rank, and 20 ms more in RECOVERY and SAFE_LISTEN. -/
def State.claimDelay (s : State) : Nat :=
  800000 + 600000 * s.rank + (if s.boot.mode = 2 ∨ s.boot.mode = 3 then 8000000 else 0)

/-- A unit in JOINING starts its claim timer while ARB_N is high; one in TEST never claims. -/
def State.startClaim (s : State) : State :=
  if s.twin.role = 1 ∧ s.arbHigh = true ∧ s.boot.mode ≠ 4 then { s with twin.claimAt := some (s.now + s.claimDelay) }
  else { s with twin.claimAt := none }

/-- The unit drives ARB_N low, or lets it go; the moment at which the line rises is kept. -/
def State.driveArb (low : Bool) (s : State) : State :=
  let was := s.arbHigh
  let s : State := { s with twin.arbOwn := low }
  if was = false ∧ s.arbHigh = true then { s with twin.arbSince := s.now } else s

/-! ### The link (R304 to R306) -/

/-- The link is formed: each unit has accepted the other's HELLO. -/
def State.formed (s : State) : Bool := s.linkUp && s.twin.peerAccepted && s.twin.peerAccepts

/-- The link state of 0x4001:03. -/
def State.linkCode (s : State) : Nat :=
  if s.twin.link = 4 then 4
  else if s.formed then (if s.lanesUp.length = 2 then 2 else 3)
  else if s.up domJoile && !s.lanesUp.isEmpty then 1
  else 0

/-- The link is not formed any more: HELLOs are exchanged anew. What the peer said of itself stays known. -/
def State.linkDown (s : State) : State :=
  { s with
    twin.link := 0, twin.peerAccepted := false, twin.peerAccepts := false, twin.formedAt := none
    twin.beatsInRow := 0, twin.presentSince := none, twin.resyncSince := none, twin.resyncFailed := none, twin.mirrored := []
    twin.inBytes := [], twin.inReady := false, twin.helloSent := none }

/-- Every lane is lost (a reset of JOILE, or twin operation disabled). What queue 0x082 holds stays there until the queue
is realigned (R241, R242). -/
def State.dropLanes (s : State) : State :=
  let s : State := { s with twin.lanes := [] }
  s.linkDown

/-- SUP forgets the peer in a reset of its own. -/
def State.forgetPeer (s : State) : State :=
  { s.linkDown with
    twin.peer := none, twin.peerRole := 0xFF, twin.peerMode := 0xFF, twin.peerGen := 0, twin.beatGen := 0, twin.peerAlerts := 0
    twin.peerStates := 0, twin.peerBound := 0xFFFFFFFF, twin.peerTime := 0, twin.heartbeat := false, twin.lastBeat := none
    twin.lostAt := none, twin.beatIn := false, twin.offsets := [], twin.delays := [], twin.mirrorAt := none
    twin.witnessAt := none, twin.dirty := [], twin.inShadow := [] }

/-! ### The twin offset (R307) -/

/-- The mean of up to 16 values, 0 of none. -/
def meanRat (l : List Rat) : Rat := if l.isEmpty then 0 else l.foldl (fun (a b : Rat) => a + b) 0 / (l.length : Rat)

/-- The twin offset in force, peer minus own, in 2^-32 s. -/
def State.twinOffset (s : State) : Rat := meanRat s.twin.offsets

/-- A position of the peer's time wheel on the unit's own: R307 has the offset in force added, in the sense of
0x4001:07, own minus peer. -/
def State.translate (p : WheelPos) (s : State) : WheelPos := p - BitVec.ofInt 64 (roundReport s.twinOffset)

/-! ### The blocking cycle ends without a set point (R284) -/

/-- The cycle returns to IDLE with a result: the shadow is discarded and a requested set point cancelled. An owner that
did not command it is told at its next access. -/
def State.dropCycle (result : Nat) (tell : Bool) (s : State) : State :=
  let who := s.cycle.owner.bind (fun n => (s.dict.clients.find? (fun c => c.1 == n)).map (fun c => c.2.id))
  let gone := match who with
    | some i => if tell then s.dict.gone.filter (fun c => c != i) ++ [i] else s.dict.gone
    | none => s.dict.gone
  let s : State := { s with
    dict.gone := gone, appts.setRow := none
    cycle := { s.cycle with
      state := 0, owner := none, shadow := [], result := result, pending := none, committed := false, twinPass := none
      asked := false, found := none, twinCount := 0, twinFails := [], whole := false, acked := false, fromTwin := none } }
  s.modAppt 1016 (fun a => { a with next := none, back := none })

/-- A cycle that has not been committed is abandoned without the owner's command (R284). -/
def State.loseCycle (s : State) : State :=
  if s.cycle.state = 0 ∨ s.cycle.committed = true then s else s.dropCycle 4 true

/-- Raise an alert that does not stand already. -/
def State.raiseOnce (code a b : Nat) (s : State) : State := if s.alertOn code a then s else s.event code a b

/-- End an alert that stands. -/
def State.endOnce (code a : Nat) (s : State) : State := if s.alertOn code a then s.endAlert code a else s

/-- A span of milliseconds in 2^-32 s, rounded up. -/
def msPos (ms : Nat) : Nat := (ms * 2 ^ 32 + 999) / 1000

/-- Enter a handover set point of the unit's own time wheel in row 1017. -/
def State.enterHandover (sp : WheelPos) (s : State) : State :=
  let s : State := { s with appts.handRow := some sp, twin.handover := some sp, twin.handoverAsked := none }
  s.modAppt 1017 (fun a => (s.apptRow 1017).arm s.time { dispatches := a.dispatches, late := a.late })

/-- The active unit agrees to a handover that has been asked for, once no blocking cycle is open (R319). -/
def State.answerHandover (s : State) : State :=
  if s.twin.role = 4 ∧ s.twin.handoverAsked.isSome = true ∧ s.cycle.state = 0 ∧ s.cycle.writing.isNone = true ∧
      s.twin.handover.isNone = true then
    let sp := s.time + BitVec.ofNat 64 (msPos (s.cn 0x4000 4 0))
    (s.enterHandover sp).sendJ (.handoverAgree sp)
  else s

/-- A handover that was agreed is cancelled (R319). -/
def State.cancelHandover (s : State) : State :=
  let s : State := { s with appts.handRow := none, twin.handover := none, twin.handoverAsked := none }
  s.modAppt 1017 (fun a => { a with next := none, back := none })

/-! ### Roles (R311) -/

/-- The unit is the standby: it drives nothing, and lets ARB_N go. -/
def State.becomeStandby (s : State) : State :=
  let was := decide (s.twin.role = 3 ∨ s.twin.role = 4 ∨ s.twin.role = 5)
  let s := if s.twin.role = 4 then s.loseCycle else s
  let s : State := { s with
    twin.role := 2, twin.claimAt := none, twin.released := [], twin.handIn := false, twin.mirrorAt := none
    control.persistence := none }
  let s := s.cancelHandover
  let s := if was then s.endEntitlement else s
  s.driveArb false

/-- The unit is active: it holds ARB_N low; what it has to mirror begins anew. -/
def State.becomeActive (s : State) : State :=
  let s : State := { s with
    twin.role := 4, twin.claimAt := none, twin.released := [], twin.handIn := false, twin.mirrored := [], twin.dirty := []
    twin.mirrorAt := none }
  s.driveArb true

/-- The unit joins: in SOLO with twin operation disabled, otherwise in JOINING, and as standby where ARB_N is low (R302,
R311). -/
def State.join (s : State) : State :=
  let s : State := { s with
    twin.released := [], twin.handIn := false, twin.mirrorAt := none, twin.handover := none, twin.handoverAsked := none
    twin.steppedDown := false, twin.claimAt := none }
  let s := s.driveArb false
  if s.cn 0x4000 1 0 = 0 then { s with twin.role := 0, twin.beatOut := false }
  else if s.arbHigh then ({ s with twin.role := 1 }).startClaim
  else { s with twin.role := 2, control.persistence := none }

end Sys2Proof.Machine
end

