-- ==== Sys2Proof/Machine/Access.lean ====
section
/-! DEFINITION. What every access to the dictionary shares (R264 to R270, R286): the client slots, the counts of
Table 12.13, the limits of RECOVERY under the boot ROM (R341), and the answer. -/

namespace Sys2Proof.Machine

open Sys2Proof

/-- The path of a client: 0 SDO, 1 LAP, 2 SPI (0x5041:02, 0x4870:01). -/
def pathOf : ClientId → Nat
  | .sdo => 0
  | .lap _ _ _ => 1
  | .spi => 2

/-- The most a path carries in one access (Table 12.2). -/
def pathLimit : ClientId → Nat
  | .sdo => 4096
  | _ => 1024

/-- SUP serves accesses: its firmware runs, or the boot ROM in RECOVERY. -/
def State.serves (s : State) : Bool := s.up domSup && (s.boot.supRunning || s.boot.bootRom)

/-- The objects that can be reached under the boot ROM (R341). -/
def romReaches (index : Nat) : Bool := [0x1018, 0x5802, 0x5F00, 0x5F01, 0x5F10, 0x5F11, 0x5F20, 0x5F21].contains index

/-! ### Client slots (R269) -/

/-- The slot of an admitted client. -/
def State.slotOf (s : State) (who : ClientId) : Option Nat :=
  (s.dict.clients.find? (fun c => c.2.id == who)).map (fun c => c.1)

/-- The lowest free client slot. -/
def State.freeSlot (s : State) : Option Nat := (List.range 4).find? (fun n => !s.dict.clients.any (fun c => c.1 == n))

/-- The client in a slot. -/
def State.clientAt (s : State) (n : Nat) : Option Client := (s.dict.clients.find? (fun c => c.1 == n)).map (fun c => c.2)

/-- Change the client in a slot. -/
def State.modClient (n : Nat) (f : Client → Client) (s : State) : State :=
  { s with dict.clients := s.dict.clients.map (fun c => if c.1 = n then (c.1, f c.2) else c) }

/-- The slot in which a client makes an access: its own, or at its first access the lowest free one. -/
def State.takeSlot (who : ClientId) (s : State) : Option (Nat × State) :=
  match s.slotOf who with
  | some n => some (n, s.modClient n (fun c => { c with last := s.now }))
  | none =>
    match s.freeSlot with
    | some n =>
      let c : Client := { id := who, last := s.now }
      some (n, { s with dict.clients := Tbl.put n c s.dict.clients })
    | none => none

/-- An image slot. -/
def State.slot15 (s : State) (n : Nat) : Slot15 :=
  match n with
  | 0 => s.boot.slotA
  | 1 => s.boot.slotB
  | _ => {}

/-- An image update is open: its target is in WRITING. -/
def State.updateOpen (s : State) : Bool := (s.slot15 s.boot.target).state == 1

/-- The client's image update is closed; a target in WRITING stays so (R334). -/
def State.closeUpdate (n : Nat) (s : State) : State :=
  if s.boot.owner ≠ some n then s
  else if s.updateOpen then { s with boot.owner := none, boot.target := 0xFF, boot.status := 0 }
  else { s with boot.owner := none }

/-- A client is released (R269): selections, cursors and a segmented transfer are discarded, and its cycle abandoned. -/
def State.releaseClient (n : Nat) (s : State) : State :=
  match s.clientAt n with
  | none => s
  | some c =>
    let s := if s.cycle.owner = some n then s.loseCycle.answerHandover else s
    let s : State := if s.cycle.owner = some n then { s with cycle.owner := none } else s
    let s := s.closeUpdate n
    { s with
      dict.clients := s.dict.clients.filter (fun x => x.1 != n)
      dict.transfer := if c.id = .sdo then none else s.dict.transfer }

/-! ### Answers (R266, R286) -/

/-- An access is refused, and changes nothing. -/
def refuse (code : Nat) (s : State) : Reply × State := (.refused code, s)

/-- An access is done, without data. -/
def granted (s : State) : Reply × State := (.done [], s)

/-- The answer to a client's access. -/
def State.answer (who : ClientId) (r : Reply) (s : State) : State :=
  let s := match r with
    | .refused _ => s.stat 0x4870 (pathOf who) 3 1
    | .done _ => s
  { s with dict.reply := some (who, r) }

/-- An access of a client to an object. `act` is what it does, given the client's slot; a refusal that has to be kept
(R281) may come with a change of state. -/
def State.access (who : ClientId) (index : Nat) (act : Nat → State → Reply × State) (s : State) : State :=
  if s.serves then
    let s := s.stat 0x4870 (pathOf who) 2 1
    match s.takeSlot who with
    | none => (s.stat 0x4870 (pathOf who) 6 1).answer who (.refused abClients)
    | some (n, s) =>
      if s.dict.gone.contains who then
        ({ s with dict.gone := s.dict.gone.filter (fun c => c != who) }).answer who (.refused abAbandoned)
      else if s.boot.bootRom && !romReaches index then s.answer who (.refused abState)
      else
        let x := act n s
        x.2.answer who x.1
  else s

/-- CLIENT_RELEASE_TIMEOUT: the client has made no access for the release time. -/
def State.clientTimeout (n : Nat) (s : State) : State :=
  match s.clientAt n with
  | some c => if s.now < c.last + s.cn 0x5040 1 0 * cyclesPerSec then s else s.releaseClient n
  | none => s

/-- CLIENT_RELEASE_TIMEOUT. -/
def execClientReleaseTimeout (dt : Nat) (slot : Fin 4) (s : State) : Host.Outcome State Fault Refusal :=
  .next (if (s.elapse dt).serves then (s.elapse dt).clientTimeout slot.val else s.elapse dt)

/-- CLIENT_RELEASE: a client writes 1 to 0x5041:07 for the slot. -/
def execClientRelease (dt : Nat) (slot : Fin 4) (s : State) : Host.Outcome State Fault Refusal :=
  .next (if (s.elapse dt).serves then (s.elapse dt).releaseClient slot.val else s.elapse dt)

end Sys2Proof.Machine
end

