-- ==== Sys2Proof/Machine/Canopen.lean ====
section
/-! DEFINITION. CANopen on C2 (R213 to R221): SUP's share of the transmit queue, EMCY, the error register, NMT and the
heartbeat. -/

namespace Sys2Proof.Machine

open Sys2Proof

/-- The node ID on C2. -/
def State.nodeId (s : State) : Nat := s.cn 0x2260 1 0

/-! ### Frames from SUP (R216) -/

/-- SUP's waiting frames move into the transmit queue of C2 while it holds fewer than 3 of SUP's (R216). -/
def State.refillSup (s : State) : State :=
  s.canOpen.waiting.foldl (fun s f =>
    if decide (((s.cp 2).frames.filter CanTx.fromSup).length < 3) && s.hasRoom 0x56 then
      ({ s with canOpen.waiting := s.canOpen.waiting.drop 1 }).queueCan 2 f
    else s) s

/-- What waits for a controller moves up: packets, and frames that SUP holds (R203, R216). -/
def State.letCanIn (p : Nat) (s : State) : State := if p = 2 then (s.fillCan 2).refillSup else s.fillCan p

/-- SUP sends a frame on C2: into the queue, or it waits in SUP (R216). -/
def State.supSend (f : CanTx) (s : State) : State :=
  ({ s with canOpen.waiting := s.canOpen.waiting ++ [f] }).refillSup

/-! ### EMCY (R219) -/

/-- The error register 0x1001 (R219). -/
def State.errorRegister (s : State) : Nat :=
  let alert := s.health.alerts.any (fun a => a.2.state == 1 || a.2.state == 2)
  let bus := (List.range 3).any (fun p => s.canOn p && decide (2 ≤ (s.cp p).state ∧ (s.cp p).state ≤ 4)) ||
    (List.range 2).any (fun p => (s.cp p).addrState == 3)
  let hold := (List.range 16).any (fun c => (s.casc c).state == 2)
  (if alert then 1 else 0) + (if bus then 16 else 0) + (if hold then 128 else 0)

/-- The EMCY frame of an error code, a register value and an event code. -/
def State.emcyFrame (s : State) (e : Nat × Nat × Nat) : CanTx :=
  { frame := baseFrame (s.cn 0x1014 0 0 % 2048) (leBytes 2 e.1 ++ leBytes 1 e.2.1 ++ leBytes 2 e.2.2 ++ [0, 0, 0]), kind := .sup }

/-- The inhibit time has passed since the last EMCY. -/
def State.emcyFree (s : State) : Bool :=
  match s.canOpen.lastEmcy with
  | none => true
  | some t => decide (s.cn 0x1015 0 0 * 40000 ≤ s.fc - t)

/-- An EMCY: sent, or kept among up to 8 that wait for the inhibit time, or dropped and counted (R219). -/
def State.emcy (code event : Nat) (s : State) : State :=
  if s.up domCan = false ∨ s.canOn 2 = false ∨ (s.cn 0x1014 0 0).testBit 31 = true ∨ ¬ (s.canOpen.nmt = 127 ∨ s.canOpen.nmt = 5) then s
  else
    let e := (code, s.errorRegister, event)
    if s.canOpen.emcy.isEmpty && s.emcyFree then
      ({ s with canOpen.lastEmcy := some s.fc }).supSend (s.emcyFrame e)
    else if s.canOpen.emcy.length < 8 then { s with canOpen.emcy := s.canOpen.emcy ++ [e] }
    else { s with canOpen.emcyDropped := s.canOpen.emcyDropped + 1 }

/-- The error register as SUP last saw it; its return to 0 sends an EMCY with error code 0 (R219). -/
def State.trackErrors (s : State) : State :=
  let r := s.errorRegister
  let old := s.canOpen.errReg
  let s := { s with canOpen.errReg := r }
  if old ≠ 0 ∧ r = 0 then s.emcy 0 0 else s

/-- EMCY_INHIBIT_EXPIRY: the next waiting EMCY is sent, in Pre-operational or Operational (Table 9.4). -/
def State.emcyNext (s : State) : State :=
  match s.canOpen.emcy with
  | [] => s
  | e :: rest =>
    if s.emcyFree && (s.canOpen.nmt == 127 || s.canOpen.nmt == 5) then ({ s with canOpen.emcy := rest, canOpen.lastEmcy := some s.fc }).supSend (s.emcyFrame e) else s

/-- EMCY_INHIBIT_EXPIRY. -/
def execEmcyInhibitExpiry (dt : Nat) (s : State) : Host.Outcome State Fault Refusal :=
  .next ((s.elapse dt).whenUp domSup (State.whenUp domCan State.emcyNext))

/-! ### NMT (R214) -/

/-- Pre-operational, and Operational by itself where self-start is 1 (R214). -/
def State.enterPreOp (s : State) : State := { s with canOpen.nmt := if s.cn 0x2260 2 0 = 1 then 5 else 127 }

/-- Initialisation: the transmit queue is emptied, the boot-up message sent, and the port enters pre-operational. -/
def State.nmtInit (s : State) : State :=
  let s := (s.modCp 2 (fun c => { c with tx := [], txq := [] })).canDropped 2 s
  let s := { s with canOpen.waiting := [], canOpen.nmt := 0, canOpen.lastBeat := s.fc }
  (s.supSend { frame := baseFrame (0x700 + s.nodeId) [0], kind := .sup }).enterPreOp

/-- Stopped: frames that have not begun are discarded but for the heartbeat. -/
def State.nmtStop (s : State) : State :=
  let keep (f : CanTx) : Bool := f.kind == .heartbeat
  let s := ((s.requeue 2 (((s.cp 2).waiting s.fc).filter keep)).modCp 2 (fun c => { c with txq := c.txq.filter keep })).canDropped 2 s
  { s with canOpen.waiting := s.canOpen.waiting.filter keep, canOpen.nmt := 4 }

/-- An NMT command for the node: SUP takes the frame from its object, and acts where it is addressed to the node ID or
to 0 and C2 is enabled. -/
def State.nmt (node : Byte) (act : State → State) (s : State) : State :=
  if s.works domSup = false ∨ s.canOn 2 = false then s
  else
    let n := ((s.cp 2).supIn.filter (fun f => f.id == 0)).length
    let s := (s.modCp 2 (fun c => { c with supIn := c.supIn.filter (fun f => f.id != 0) })).passed 0x4D n
    if node.toNat = 0 ∨ node.toNat = s.nodeId then act s else s

/-- NMT_START: Operational. -/
def execNmtStart (dt : Nat) (node : Byte) (s : State) : Host.Outcome State Fault Refusal :=
  .next ((s.elapse dt).whenUp domCan (State.nmt node (fun s => { s with canOpen.nmt := 5 })))

/-- NMT_STOP. -/
def execNmtStop (dt : Nat) (node : Byte) (s : State) : Host.Outcome State Fault Refusal :=
  .next ((s.elapse dt).whenUp domCan (State.nmt node State.nmtStop))

/-- NMT_ENTER_PRE_OPERATIONAL: the command itself leaves the port in Pre-operational until it is told otherwise. -/
def execNmtEnterPreOperational (dt : Nat) (node : Byte) (s : State) : Host.Outcome State Fault Refusal :=
  .next ((s.elapse dt).whenUp domCan (State.nmt node (fun s => { s with canOpen.nmt := 127 })))

/-- NMT_RESET_NODE. -/
def execNmtResetNode (dt : Nat) (node : Byte) (s : State) : Host.Outcome State Fault Refusal :=
  .next ((s.elapse dt).whenUp domCan (State.nmt node State.nmtInit))

/-- NMT_RESET_COMMUNICATION. -/
def execNmtResetCommunication (dt : Nat) (node : Byte) (s : State) : Host.Outcome State Fault Refusal :=
  .next ((s.elapse dt).whenUp domCan (State.nmt node State.nmtInit))

/-! ### Heartbeat (R220) -/

/-- CANOPEN_HEARTBEAT: after a period, C2 sends its state in Pre-operational, Operational and Stopped. -/
def State.heartbeat (s : State) : State :=
  let period := s.cn 0x1017 0 0
  if period = 0 ∨ s.canOn 2 = false ∨ s.canOpen.nmt = 0 ∨ s.fc - s.canOpen.lastBeat < msCycles period then s
  else
    ({ s with canOpen.lastBeat := s.fc }).supSend
      { frame := baseFrame (0x700 + s.nodeId) [BitVec.ofNat 8 s.canOpen.nmt], kind := .heartbeat }

/-- CANOPEN_HEARTBEAT. -/
def execCanopenHeartbeat (dt : Nat) (s : State) : Host.Outcome State Fault Refusal :=
  .next ((s.elapse dt).whenUp domSup (State.whenUp domCan State.heartbeat))

end Sys2Proof.Machine
end

