-- ==== Sys2Proof/WellFormed.lean ====
section
/-! DEFINITION. Which commands the outside can give: the bounds of the operands of variable length. -/

namespace Sys2Proof

/-- A CAN frame the bus can carry: at most 8 data bytes, none in a remote frame, an identifier of 11 or 29 bits
(R201). -/
def CanFrame.wellFormed (f : CanFrame) : Bool :=
  decide (f.data.length ≤ 8) && decide (f.id < (if f.ext then 2 ^ 29 else 2 ^ 11)) &&
    (!f.remote || f.data.isEmpty)

/-- A classification window with samples in it (R162). -/
def WindowObs.wellFormed (o : WindowObs) : Bool := decide (0 < o.count)

/-- The line of a received character or start bit: some time passes on it (R132). -/
def lineWellFormed (line : List WireRun) : Bool := line.any (fun r => decide (0 < r.cycles))

/-- The data of an expedited download: 1 to 4 bytes, and all 4 without a size indication (R271). -/
def expeditedWellFormed (sized : Bool) (data : List Byte) : Bool :=
  if sized then decide (1 ≤ data.length ∧ data.length ≤ 4) else decide (data.length = 4)

/-- The data of a download segment: at most 7 bytes (R271). -/
def segmentWellFormed (data : List Byte) : Bool := decide (data.length ≤ 7)

/-- The command is one the outside can give. -/
def Instr.wellFormed : Instr → Bool
  | .canFrameReceived _ _ f => f.wellFormed
  | .classificationWindowEnd _ _ o => o.wellFormed
  | .serialCharacterReceived _ _ line => lineWellFormed line
  | .falseStart _ _ line => lineWellFormed line
  | .ethFrameReceived _ _ bytes _ => !bytes.isEmpty
  | .sdoExpeditedDownload _ _ _ sized data => expeditedWellFormed sized data
  | .sdoDownloadSegment _ _ _ data => segmentWellFormed data
  | _ => true

end Sys2Proof
end

