-- ==== Sys2Proof/Machine/Can.lean ====
section
/-! DEFINITION. The CAN controllers (R201 to R212, R217): frames received and sent, error confinement, address claim
and its messages, fast-packet and BAM assemblies. Formats of the claim, request, acknowledgement and transport messages
beyond the manual's words are those of ISO 11783 (PRESUMED). -/

namespace Sys2Proof.Machine

open Sys2Proof

/-! ### Address claim (R206, R207) -/

/-- The port's own NAME. -/
def State.ownName (s : State) (p : Nat) : Nat := s.cn (0x2244 + p) 1 0

/-- A frame that SUP sends on C0 or C1, with priority 6. -/
def supFrame (pgn dest src : Nat) (d : List Byte) : CanTx := { frame := extFrame (canId 6 pgn dest src) d, kind := .sup }

/-- The address claim of a port, from an address. -/
def State.claimFrame (s : State) (p addr : Nat) : CanTx := supFrame 60928 255 addr (leBytes 8 (s.ownName p))

/-- Claim an address; the port leaves address state 3, which the error register shows (R219). -/
def State.claim (p addr : Nat) (s : State) : State :=
  ((s.modCp p (fun c => { c with addr := addr, addrState := 1, claimAt := none })).queueCan p (s.claimFrame p addr)).trackErrors

/-- The port claims its preferred address; after a start or a CAN domain reset it also asks all nodes for theirs. -/
def State.claimStart (p : Nat) (ask : Bool) (s : State) : State :=
  let a := s.cn (0x2244 + p) 2 0
  let s := (s.modCp p (fun c => { c with tried := 1 })).claim p a
  if ask then s.queueCan p (supFrame 59904 255 a (leBytes 3 60928)) else s

/-- Begin CAN on a port that has been enabled, or whose domain has left reset (R207, R214). -/
def State.canStart (p : Nat) (s : State) : State :=
  if s.canOn p = false then s
  else if p = 2 then s.nmtInit
  else s.claimStart p true

/-- Frames of fulling that have not begun are discarded; messages of which none has begun go to no one (R212). -/
def State.dropMessages (p : Nat) (s : State) : State :=
  let c := s.cp p
  let begun := canEntries (c.begun s.fc)
  let lost := (canEntries (c.waiting s.fc ++ c.txq)).filter (fun e => !begun.contains e)
  let rest (l : List CanTx) : List CanTx := l.filter (fun t => t.fromFe.isNone)
  (((s.requeue p (rest (c.waiting s.fc))).modCp p (fun c => { c with txq := rest c.txq })).canDropped p s).stat
    0x4840 p 3 lost.length

/-- The next address upwards that the table does not show as claimed. -/
def State.nextAddress (s : State) (p : Nat) : Option Nat :=
  let c := s.cp p
  ((List.range 253).map (fun k => (c.addr + 1 + k) % 254)).find? (fun a => !c.names.any (fun x => x.1 == a))

/-- The LN2430 loses its address: the next one, or cannot claim (R207). -/
def State.loseAddress (p : Nat) (s : State) : State :=
  let s := (s.modCp p (fun c => { c with addrLost := c.addrLost + 1 })).dropMessages p
  let cannot (s : State) : State :=
    ((s.modCp p (fun c => { c with addr := 254, addrState := 3 })).queueCan p (s.claimFrame p 254)).event 0x8004 p 0
  if 254 ≤ (s.cp p).tried then cannot s
  else
    match s.nextAddress p with
    | none => cannot s
    | some a => (s.modCp p (fun c => { c with tried := c.tried + 1 })).claim p a

/-- The NAME held for an address. -/
def CPort.nameAt (c : CPort) (a : Nat) : Option Nat := (c.names.find? (fun x => x.1 == a)).map (fun x => x.2)

/-- An assembly fails: counted and reported to carding (R210). The report is CE3's own and needs no credit of the port. -/
def State.assemblyFails (p : Nat) (a : Assembly) (s : State) : State :=
  let m : CanMsg := { ok := false, src := a.src, name := (s.cp p).nameAt a.src, pgn := a.pgn, priority := a.priority,
                      data := a.data, pip := s.pip, states := s.wheelByte }
  ((s.stat 0x4840 p 8 1).modCp p (fun c => { c with rxMsgs := c.rxMsgs ++ [m] })).pushed (0x48 + p)

/-- An address claim, or a cannot-claim from address 254, heard on the bus (R207, R208). -/
def State.heardClaim (p src name : Nat) (s : State) : State :=
  let c := s.cp p
  let others : Tbl Nat := c.names.filter (fun x => x.2 != name)
  if 254 ≤ src then s.modCp p (fun c => { c with names := others })
  else
    let broken := c.fast.filter (fun a => a.src == src && a.name.isSome && a.name != some name)
    let s := broken.foldl (fun s a => s.assemblyFails p a) s
    let s := s.modCp p (fun c => { c with
      names := Tbl.put src name others
      fast := (c.fast.filter (fun a => !broken.contains a)).map (fun a => if a.src = src then { a with name := some name } else a) })
    if src = c.addr ∧ (c.addrState = 1 ∨ c.addrState = 2) then
      if name < s.ownName p then s.loseAddress p
      else if c.addrState = 1 then (s.modCp p (fun c => { c with names := Tbl.del src c.names })).claim p c.addr
      else (s.modCp p (fun c => { c with names := Tbl.del src c.names })).queueCan p (s.claimFrame p c.addr)
    else s

/-- SUP takes the oldest frame of a port's receive queue, where it is of this PGN; a read of an empty queue is an
underrun (R228). -/
def State.takeSup (p pgn : Nat) (f : CanFrame → State → State) (s : State) : State :=
  if s.yields (0x4B + p) = false then s
  else match (s.cp p).supIn with
    | [] => s.readEmpty (0x4B + p)
    | x :: rest =>
      if pgnOfId x.id = pgn then f x ((s.modCp p (fun c => { c with supIn := rest })).popped (0x4B + p) s) else s

/-- ADDRESS_CLAIM. -/
def execAddressClaim (dt : Nat) (c : Fin 2) (s : State) : Host.Outcome State Fault Refusal :=
  .next ((s.elapse dt).whenUp domSup (State.whenUp domCan
    (State.takeSup c.val 60928 (fun x => State.heardClaim c.val (x.id % 256) (leNat x.data)))))

/-- 250 ms have passed since the claim was sent, uncontested: the address is claimed. -/
def State.claimComplete (p : Nat) (s : State) : State :=
  match (s.cp p).claimAt with
  | some t =>
    if (s.cp p).addrState = 1 ∧ msCycles 250 ≤ s.fc - t then s.modCp p (fun c => { c with addrState := 2, tried := 1 }) else s
  | none => s

/-- ADDRESS_CLAIM_COMPLETE. -/
def execAddressClaimComplete (dt : Nat) (c : Fin 2) (s : State) : Host.Outcome State Fault Refusal :=
  .next ((s.elapse dt).whenUp domSup (State.whenUp domCan (State.claimComplete c.val)))

/-- A request for a PGN, from `src` to `dest` (R207). -/
def State.heardRequest (p src dest pgn : Nat) (s : State) : State :=
  let c := s.cp p
  let own := c.addrState == 2 && dest == c.addr
  if pgn = 60928 then
    if dest = 255 ∨ dest = c.addr then
      match c.addrState with
      | 0 => s
      | 3 => s.claimStart p false
      | _ => s.queueCan p (s.claimFrame p c.addr)
    else s
  else if own then s.queueCan p (supFrame 59392 255 c.addr ([1, 0xFF, 0xFF, 0xFF, BitVec.ofNat 8 src] ++ leBytes 3 pgn))
  else s

/-- PGN_REQUEST. -/
def execPgnRequest (dt : Nat) (c : Fin 2) (s : State) : Host.Outcome State Fault Refusal :=
  .next ((s.elapse dt).whenUp domSup (State.whenUp domCan
    (State.takeSup c.val 59904 (fun x => State.heardRequest c.val (x.id % 256) (x.id / 256 % 256) (leNat (x.data.take 3))))))

/-! ### Assemblies (R209 to R211) -/

/-- A receive overrun: counted, and flagged; on C2 an EMCY tells it (R203, Table 9.6). -/
def State.canOverrun (p : Nat) (s : State) : State :=
  let s := (s.stat 0x4840 p 4 1).modCp p (fun c => { c with flags := setBit c.flags 0 true })
  if p = 2 then s.emcy 0x8110 0 else s

/-- A complete message goes to carding, with the NAME held for its source address (R208); without credit it is dropped
and counted at the port (R227). -/
def State.messageIn (p src pgn priority : Nat) (d : List Byte) (s : State) : State :=
  let m : CanMsg := { ok := true, src := src, name := (s.cp p).nameAt src, pgn := pgn, priority := priority, data := d,
                      pip := s.pip, states := s.wheelByte }
  if s.hasRoom (0x48 + p) then (s.modCp p (fun c => { c with rxMsgs := c.rxMsgs ++ [m] })).pushed (0x48 + p)
  else s.canOverrun p

/-- The assembly that has waited longest. -/
def oldestAssembly (l : List Assembly) : Option Assembly :=
  l.foldl (fun b a => match b with
    | none => some a
    | some x => if a.last < x.last then some a else b) none

/-- Room for one more assembly among `n`: the one that has waited longest fails. -/
def State.roomFast (p n : Nat) (s : State) : State :=
  if (s.cp p).fast.length < n then s
  else match oldestAssembly (s.cp p).fast with
    | some a => (s.modCp p (fun c => { c with fast := c.fast.erase a })).assemblyFails p a
    | none => s

/-- The same for BAM assemblies. -/
def State.roomBam (p n : Nat) (s : State) : State :=
  if (s.cp p).bam.length < n then s
  else match oldestAssembly (s.cp p).bam with
    | some a => (s.modCp p (fun c => { c with bam := c.bam.erase a })).assemblyFails p a
    | none => s

/-- A fast-packet frame (R210). -/
def State.fastFrame (p src pgn priority : Nat) (d : List Byte) (s : State) : State :=
  match d with
  | [] => s
  | h :: body =>
    let ctr := h.toNat / 32
    let k := h.toNat % 32
    let open_ := (s.cp p).fast.find? (fun a => a.src == src && a.pgn == pgn && a.seqCtr == ctr)
    let s := match open_ with
      | some a => s.modCp p (fun c => { c with fast := c.fast.erase a })
      | none => s
    if k = 0 then
      let s := match open_ with
        | some a => s.assemblyFails p a
        | none => s
      let total := byteAt 0 body
      let data := (body.drop 1).take total
      if total = 0 ∨ 223 < total then s.stat 0x4840 p 8 1
      else if total ≤ data.length then s.messageIn p src pgn priority data
      else
        let a : Assembly := { src := src, pgn := pgn, seqCtr := ctr, next := 1, total := total, data := data, last := s.fc,
                              priority := priority, name := (s.cp p).nameAt src }
        (s.roomFast p 32).modCp p (fun c => { c with fast := c.fast ++ [a] })
    else
      match open_ with
      | none => s
      | some a =>
        let data := (a.data ++ body).take a.total
        if k ≠ a.next then s.assemblyFails p a
        else if a.total ≤ data.length then s.messageIn p src pgn priority data
        else s.modCp p (fun c => { c with fast := c.fast ++ [{ a with next := k + 1, data := data, last := s.fc, priority := priority }] })

/-- A connection-management frame: a BAM, or a request to send that is answered with an abort (R211). -/
def State.connection (p src dest priority : Nat) (d : List Byte) (s : State) : State :=
  let pgn := leNat ((d.drop 5).take 3)
  let c := s.cp p
  if byteAt 0 d = 32 ∧ dest = 255 then
    let total := leNat ((d.drop 1).take 2)
    let s := match c.bam.find? (fun a => a.src == src) with
      | some a => (s.modCp p (fun c => { c with bam := c.bam.erase a })).assemblyFails p a
      | none => s
    if total < 9 ∨ 223 < total then s.stat 0x4840 p 8 1
    else
      let a : Assembly := { src := src, pgn := pgn, seqCtr := 0, next := 1, total := total, data := [], last := s.fc,
                            priority := priority, name := (s.cp p).nameAt src }
      (s.roomBam p 4).modCp p (fun c => { c with bam := c.bam ++ [a] })
  else if byteAt 0 d = 16 ∧ c.addrState = 2 ∧ dest = c.addr then
    let reason : Byte := BitVec.ofNat 8 s.freeNat
    s.useFree.queueCan p { frame := extFrame (canId 7 60416 src c.addr) ([255, reason, 0xFF, 0xFF, 0xFF] ++ leBytes 3 pgn), kind := .sup }
  else s

/-- A data packet of a BAM (R211). -/
def State.bamPacket (p src dest : Nat) (d : List Byte) (s : State) : State :=
  match (s.cp p).bam.find? (fun a => a.src == src) with
  | none => s
  | some a =>
    if dest ≠ 255 then s
    else
      let s := s.modCp p (fun c => { c with bam := c.bam.erase a })
      let data := (a.data ++ d.drop 1).take a.total
      if byteAt 0 d ≠ a.next then s.assemblyFails p a
      else if a.total ≤ data.length then s.messageIn p src a.pgn a.priority data
      else s.modCp p (fun c => { c with bam := c.bam ++ [{ a with next := a.next + 1, data := data, last := s.fc }] })

/-- CE3 takes a frame: whole, or as part of an assembly (R209). -/
def State.cardFrame (p : Nat) (f : CanFrame) (s : State) : State :=
  let pgn := pgnOfId f.id
  let src := f.id % 256
  let dest := f.id / 256 % 256
  let pr := f.id / 2 ^ 26 % 8
  let pdu1 := decide (f.id / 2 ^ 16 % 256 < 240)
  if pdu1 = true ∧ ¬ (dest = 255 ∨ ((s.cp p).addrState = 2 ∧ dest = (s.cp p).addr)) then s
  else if pgn = 60416 then s.connection p src dest pr f.data
  else if pgn = 60160 then s.bamPacket p src dest f.data
  else if s.isFast pgn then s.fastFrame p src pgn pr f.data
  else s.messageIn p src pgn pr f.data

/-- An extended frame on C0 or C1: for SUP, or for CE3 (R207, R209). The claim messages go to queue 0x04B or 0x04C of 64
frames, the others to 0x048 or 0x049; a consumer that does not run leaves no credit (R240). -/
def State.navFrame (p : Nat) (f : CanFrame) (s : State) : State :=
  let s := s.stat 0x4840 p 2 1
  let pgn := pgnOfId f.id
  if pgn = 60928 ∨ pgn = 59904 then
    if s.up domSup && s.hasRoom (0x4B + p) then
      (s.modCp p (fun c => { c with supIn := c.supIn ++ [f] })).pushed (0x4B + p)
    else s.canOverrun p
  else if pgn = 59392 then s
  else if s.up domCardA && s.admits (0x48 + p) then s.cardFrame p f
  else s.canOverrun p

/-- An enabled source row of key kind 6 has this COB-ID as its key number (R217). -/
def State.pdoRow (s : State) (id : Nat) : Bool :=
  (Cfg.live s.cfg 0x2310 44).any (fun r =>
    s.cn 0x2310 2 r == 1 && s.cn 0x2310 3 r == 0x2A && s.cn 0x2310 4 r == 6 && s.cn 0x2310 6 r == id)

/-- A base frame on C2: each receive object takes one COB-ID, and a frame not yet taken is overwritten (R203, R217,
R218). -/
def State.fieldFrame (f : CanFrame) (s : State) : State :=
  let c := s.cp 2
  if f.id = 0 ∨ f.id = 0x600 + s.nodeId then
    let s := s.stat 0x4840 2 2 1
    let lost := c.supIn.any (fun x => x.id == f.id)
    let s := s.modCp 2 (fun c => { c with supIn := c.supIn.filter (fun x => x.id != f.id) ++ [f] })
    if lost then s.canOverrun 2 else s
  else if s.pdoRow f.id then
    let s := s.stat 0x4840 2 2 1
    let lost := c.pdos.any (fun x => x.1 == f.id)
    let s := s.modCp 2 (fun c => { c with pdos := c.pdos.filter (fun x => x.1 != f.id) ++ [(f.id, f.data, s.pip, s.wheelByte)] })
    if lost then s.canOverrun 2 else s
  else s

/-- The receive error count after a frame received without error (ISO 11898-1): one less, or, above 127, some value
from 119 to 127. -/
def State.rxGood (p : Nat) (s : State) : State :=
  let r := (s.cp p).rxErr
  if 127 < r then s.useFree.modCp p (fun c => { c with rxErr := 119 + s.freeNat % 9 })
  else s.modCp p (fun c => { c with rxErr := c.rxErr - 1 })

/-- The error state follows the counters (R205, ISO 11898-1); in bus-off the frames queued are discarded and counted as
sent to no one (Table 17.5), and no address is claimed any more. -/
def State.errorState (p : Nat) (s : State) : State :=
  let c := s.cp p
  let passive := decide (127 < c.txErr ∨ 127 < c.rxErr)
  if 255 < c.txErr then
    let t := ((s.stat 0x4840 p 5 1).stat 0x4840 p 3 c.frames.length).modCp p (fun c => { c with
      state := 3, busOffAt := s.fc, flags := setBit c.flags 2 true, tx := [], txq := []
      addrState := if c.addrState = 3 then 3 else 0, claimAt := none })
    ((t.canDropped p s).event 0x8001 p 0).letCanIn p
  else if passive = true ∧ c.state = 1 then
    let s := ((s.stat 0x4840 p 6 1).modCp p (fun c => { c with state := 2, flags := setBit c.flags 1 true })).event 0x8002 p 0
    if p = 2 then s.emcy 0x8120 0x8002 else s
  else if passive = false ∧ c.state = 2 then (s.modCp p (fun c => { c with state := 1 })).event 0x8003 p 0
  else s

/-- CAN_FRAME_RECEIVED: remote frames and frames of the other format are ignored (R201). -/
def State.canReceived (p : Nat) (f : CanFrame) (s : State) : State :=
  if s.canOn p = false ∨ (s.cp p).state = 3 ∨ (s.cp p).state = 4 then s
  else
    let s := (s.rxGood p).errorState p
    if f.remote then s
    else if f.ext ≠ decide (p < 2) then s.stat 0x4840 p 7 1
    else if p < 2 then s.navFrame p f
    else s.fieldFrame f

/-- The frame that a bus can carry in place of one that it cannot: `n` stands for the identifier and the data that the
manual does not give it (log entry 9). -/
def legalFrame (n : Nat) (f : CanFrame) : CanFrame :=
  if f.wellFormed then f
  else { f with
    id := if f.id < (if f.ext then 2 ^ 29 else 2 ^ 11) then f.id else n % (if f.ext then 2 ^ 29 else 2 ^ 11)
    data := if f.remote then [] else if f.data.length ≤ 8 then f.data else leBytes 8 n }

/-- CAN_FRAME_RECEIVED. -/
def execCanFrameReceived (dt : Nat) (c : Fin 3) (frame : CanFrame) (s : State) : Host.Outcome State Fault Refusal :=
  .next (((s.elapse dt).spend (!frame.wellFormed)).whenUp domCan (State.canReceived c.val (legalFrame s.freeNat frame)))

/-- FAST_PACKET_TIMEOUT: assemblies whose last frame is more than 750 ms past fail (R210). -/
def State.fastTimeout (p : Nat) (s : State) : State :=
  let late (a : Assembly) : Bool := decide (msCycles 750 < s.fc - a.last)
  let l := (s.cp p).fast.filter late
  l.foldl (fun s a => s.assemblyFails p a) (s.modCp p (fun c => { c with fast := c.fast.filter (fun a => !late a) }))

/-- FAST_PACKET_TIMEOUT. -/
def execFastPacketTimeout (dt : Nat) (c : Fin 2) (s : State) : Host.Outcome State Fault Refusal :=
  .next ((s.elapse dt).whenUp domCardA (State.fastTimeout c.val))

/-- BAM_TIMEOUT: the same for BAM assemblies (R211). -/
def State.bamTimeout (p : Nat) (s : State) : State :=
  let late (a : Assembly) : Bool := decide (msCycles 750 < s.fc - a.last)
  let l := (s.cp p).bam.filter late
  l.foldl (fun s a => s.assemblyFails p a) (s.modCp p (fun c => { c with bam := c.bam.filter (fun a => !late a) }))

/-- BAM_TIMEOUT. -/
def execBamTimeout (dt : Nat) (c : Fin 2) (s : State) : Host.Outcome State Fault Refusal :=
  .next ((s.elapse dt).whenUp domCardA (State.bamTimeout c.val))

/-! ### Transmission and errors (R203, R205) -/

/-- The frame is the claim of the address that the port is claiming. -/
def CPort.isClaim (c : CPort) (t : CanTx) : Bool :=
  c.addrState == 1 && t.kind == .sup && t.frame.ext && pgnOfId t.frame.id == 60928 && t.frame.id % 256 == c.addr

/-- CAN_FRAME_SENT: the frame at the head has been sent and the next is offered; the last frame of a message ends its
entry (R212, R308), the time of a claim runs from here (R207), and a port in a handover is released (R320). -/
def State.canSent (p : Nat) (s : State) : State :=
  let c := s.cp p
  if s.canOn p = false ∨ c.state = 3 ∨ c.state = 4 then s
  else
    match c.tx with
    | [] => s
    | t :: rest =>
      let s0 := s
      let s := s.modCp p (fun c => { c with
        tx := rest, offeredAt := s.fc, txErr := c.txErr - 1, claimAt := if c.isClaim t then some s.fc else c.claimAt })
      let s := (s.stat 0x4840 p 3 1).errorState p
      let s := match t.kind with
        | .fe l (some e) true => s.entrySent l e
        | _ => s
      if p = 2 then s.letCanIn 2 else ((s.letCanIn p).releaseIdle (0x28 + p)).regain s0

/-- CAN_FRAME_SENT. -/
def execCanFrameSent (dt : Nat) (c : Fin 3) (s : State) : Host.Outcome State Fault Refusal :=
  .next ((s.elapse dt).whenUp domCan (State.canSent c.val))

/-- CAN_BUS_ERROR: the counters rise by what ISO 11898-1 says of the error. -/
def State.busError (p : Nat) (e : CanErr) (s : State) : State :=
  if s.canOn p = false ∨ (s.cp p).state = 3 ∨ (s.cp p).state = 4 then s
  else ((s.modCp p (fun c => { c with txErr := c.txErr + e.txUp, rxErr := Nat.min 255 (c.rxErr + e.rxUp) })).errorState p).regain s

/-- CAN_BUS_ERROR. -/
def execCanBusError (dt : Nat) (c : Fin 3) (err : CanErr) (s : State) : Host.Outcome State Fault Refusal :=
  .next ((s.elapse dt).whenUp domCan (State.busError c.val err))

/-- BUS_OFF_DELAY: recovery starts after the delay. -/
def State.busOffDelay (p : Nat) (s : State) : State :=
  if (s.cp p).state = 3 ∧ msCycles (s.cn (0x2240 + p) 3 0) ≤ s.fc - (s.cp p).busOffAt then
    s.modCp p (fun c => { c with state := 4 })
  else s

/-- BUS_OFF_DELAY. -/
def execBusOffDelay (dt : Nat) (c : Fin 3) (s : State) : Host.Outcome State Fault Refusal :=
  .next ((s.elapse dt).whenUp domCan (State.busOffDelay c.val))

/-- BUS_OFF_RECOVERED: the controller is error active and transmits again; C0 and C1 claim the address held before. -/
def State.busOffRecovered (p : Nat) (s : State) : State :=
  if (s.cp p).state ≠ 4 then s
  else
    let s := (s.modCp p (fun c => { c with state := 1, txErr := 0, rxErr := 0, offeredAt := s.fc })).event 0x8003 p 0
    if p = 2 then s.emcy 0x8140 0x8003
    else if (s.cp p).addrState = 3 then s
    else s.claim p (s.cp p).addr

/-- BUS_OFF_RECOVERED. -/
def execBusOffRecovered (dt : Nat) (c : Fin 3) (s : State) : Host.Outcome State Fault Refusal :=
  .next ((s.elapse dt).whenUp domCan (State.busOffRecovered c.val))

end Sys2Proof.Machine
end

