-- ==== Sys2Proof/Machine/Fabric.lean ====
section
/-! DEFINITION. The queue fabric's own commands (R234, R235, R239, R242, R243): the scrubber, crossings that do not
settle, external clocks, and the realignment of a queue in the four phases of Table 10.5. -/

namespace Sys2Proof.Machine

open Sys2Proof

/-! ### Scrubbing (R234) -/

/-- The bytes of queue memory: 16 MiB (Table 1.3). -/
abbrev queueMemory : Nat := 2 ^ 24

/-- The scrubber may read the word at a byte offset: the next one of its pass, and the first one only when the scrub
period has passed since the pass before began. -/
def State.scrubDue (addr : BitVec 24) (s : State) : Bool :=
  decide (addr.toNat / 16 = s.fabric.scrubAt) &&
    (decide (s.fabric.scrubAt ≠ 0) || match s.fabric.scrubFrom with
      | some t => decide (s.cn 0x5810 6 0 * cyclesPerSec ≤ s.fc - t)
      | none => true)

/-- What the scrubber finds in a word: a single-bit error is corrected, a double-bit error outside any live packet or
record is counted and the word rewritten as zero; one inside is left for its consumer to meet. -/
def State.scrubWord (addr : BitVec 24) (e : Ecc) (live : Bool) (s : State) : State :=
  match e with
  | .clean => s
  | .single => s.corrected addr.toNat
  | _ => if live then s else s.uncorrectable addr.toNat

/-- A word read by the scrubber; the last word of queue memory completes a pass. -/
def State.scrub (addr : BitVec 24) (e : Ecc) (live : Bool) (s : State) : State :=
  if s.scrubDue addr = false then s
  else
    let from_ := if s.fabric.scrubAt = 0 then some s.fc else s.fabric.scrubFrom
    let s := s.scrubWord addr e live
    if s.fabric.scrubAt + 1 = queueMemory / 16 then
      { s with fabric.scrubAt := 0, fabric.scrubFrom := from_, fabric.scrubPasses := s.fabric.scrubPasses + 1 }
    else { s with fabric.scrubAt := s.fabric.scrubAt + 1, fabric.scrubFrom := from_ }

/-- SCRUB_READ. -/
def execScrubRead (dt : Nat) (addr : BitVec 24) (ecc : Ecc) (live : Bool) (s : State) : Host.Outcome State Fault Refusal :=
  .next ((s.elapse dt).whenUp domFabric (State.scrub addr ecc live))

/-! ### Crossings (R235, R239) -/

/-- A crossing that did not settle in 64 sample pairs: counted, recorded, and an event (R235). -/
def State.notSettled (crossing : BitVec 16) (s : State) : State :=
  let n := s.fabric.unsettled + 1
  ({ s with fabric.unsettled := n, fabric.lastUnsettled := crossing.toNat }).event 0x9006 crossing.toNat n.toNat

/-- UNSETTLED. -/
def execUnsettled (dt : Nat) (crossing : BitVec 16) (s : State) : Host.Outcome State Fault Refusal :=
  .next ((s.elapse dt).whenUp domFabric (State.notSettled crossing))

/-- EXTERNAL_CLOCK_STOP: nothing arrives with the clock any more, and exchanges that need it wait. -/
def execExternalClockStop (dt : Nat) (clk : ExtClock) (s : State) : Host.Outcome State Fault Refusal :=
  let s := s.elapse dt
  .next { s with fabric.stopped := s.fabric.stopped.filter (fun c => c != clk) ++ [clk] }

/-- EXTERNAL_CLOCK_RESUME. -/
def execExternalClockResume (dt : Nat) (clk : ExtClock) (s : State) : Host.Outcome State Fault Refusal :=
  let s := s.elapse dt
  .next { s with fabric.stopped := s.fabric.stopped.filter (fun c => c != clk) }

/-! ### Realignment (R242, R243, Table 10.5) -/

/-- The external clock of one end of a queue, where it has one (Tables 10.1, 10.2). -/
def queueClock (q : Nat) : Side → Option ExtClock
  | .producer =>
    if q = 0x30 ∨ q = 0x31 ∨ q = 0x34 then some .rx0 else if q = 0x32 ∨ q = 0x33 ∨ q = 0x35 then some .rx1
    else if q = 0x83 then some .joile else if q = 0x84 then some .spi else none
  | .consumer => if q = 0x85 then some .spi else none

/-- A side of a queue runs: its domain is out of reset with its clock on, and no external clock of its end stands. -/
def State.sideRuns (s : State) (q : Nat) (side : Side) : Bool :=
  match queueEnds q with
  | none => false
  | some (p, c) =>
    s.up (match side with
      | .producer => p
      | .consumer => c) &&
    (match queueClock q side with
      | some k => !s.fabric.stopped.contains k
      | none => true)

/-- The other side. -/
def otherSide : Side → Side
  | .producer => .consumer
  | .consumer => .producer

/-- REALIGN_REQUEST: the side for whose reset the queue is to be realigned raises its request. Where both sides were
reset, the exchange is the consumer's; a producer that returns first raises its request and waits for it (R243). -/
def State.realignRequest (q : Nat) (side : Side) (s : State) : State :=
  let x := s.que q
  if x.phase ≠ 0 ∨ s.sideRuns q side = false then s
  else if x.wasReset = some side then s.modQue q (fun x => { x with phase := 1 })
  else if x.wasReset.isSome && x.both then s.modQue q (fun x => { x with raised := true })
  else s

/-- REALIGN_REQUEST. -/
def execRealignRequest (dt : Nat) (q : Fin 512) (side : Side) (s : State) : Host.Outcome State Fault Refusal :=
  .next ((s.elapse dt).whenUp domFabric (State.realignRequest q.val side))

/-- REALIGN_ACKNOWLEDGE: the other side freezes and presents its pointer and packet count: the packets that had been
committed as the side entered reset and are still there. -/
def State.realignAck (q : Nat) (s : State) : State :=
  match (s.que q).wasReset with
  | none => s
  | some side =>
    if (s.que q).phase = 1 ∧ s.sideRuns q (otherSide side) = true then
      s.modQue q (fun x => { x with phase := 2, presented := Nat.min x.frozen (s.queued q) })
    else s

/-- REALIGN_ACKNOWLEDGE. -/
def execRealignAcknowledge (dt : Nat) (q : Fin 512) (s : State) : Host.Outcome State Fault Refusal :=
  .next ((s.elapse dt).whenUp domFabric (State.realignAck q.val))

/-- Packets discarded at a realignment: counted, and an event. -/
def State.countRealigned (q n : Nat) (s : State) : State :=
  if n = 0 then s else (s.stat 0x4850 q 4 n).event 0x9003 q n

/-- The packets presented are discarded; where a MAC has no frame left its pause watchdog is cleared (R189, R242). -/
def State.discardRealigned (q n : Nat) (s : State) : State :=
  let s := (s.dropPackets q n).countRealigned q n
  if 0x38 ≤ q ∧ q ≤ 0x47 then s.trackWatchdog ((q - 0x38) / 8) else s

/-- REALIGN_ACCEPT: the returning side sets its pointers; a consumer that was reset discards the packets presented. -/
def State.realignAccept (q : Nat) (s : State) : State :=
  match (s.que q).wasReset with
  | none => s
  | some side =>
    if (s.que q).phase = 2 ∧ s.sideRuns q side = true then
      let n := (s.que q).presented
      let s := match side with
        | .consumer => s.discardRealigned q n
        | .producer => s
      s.modQue q (fun x => { x with phase := 3 })
    else s

/-- REALIGN_ACCEPT. -/
def execRealignAccept (dt : Nat) (q : Fin 512) (s : State) : Host.Outcome State Fault Refusal :=
  .next ((s.elapse dt).whenUp domFabric (State.realignAccept q.val))

/-- The SUP side of an Ethernet or CAN transmit queue fills it again with what it holds (R185, R203, R227). -/
def State.refill (q : Nat) (s : State) : State :=
  if 0x38 ≤ q ∧ q ≤ 0x47 then s.letFramesIn ((q - 0x38) / 8)
  else if q = 0x52 ∨ q = 0x53 then s.letCanIn (q - 0x52)
  else if q = 0x56 then s.letCanIn 2
  else s

/-- REALIGN_RESUME: credits and the empty flag are loaded from the new pointers, and both sides resume. What a producer
has held until then is committed. -/
def State.realignResume (q : Nat) (s : State) : State :=
  match (s.que q).wasReset with
  | none => s
  | some side =>
    if (s.que q).phase = 3 ∧ s.sideRuns q side = true ∧ s.sideRuns q (otherSide side) = true then
      let old := s.visible q
      let before := s
      let s := (s.stat 0x4850 q 7 1).modQue q (fun x => { x with
        wasReset := none, both := false, raised := false, phase := 0, presented := 0, frozen := 0
        since := if watchedQueue q ∧ s.queued q ≠ 0 then some s.fc else none })
      ((s.notices q (s.visible q - old)).refill q).regain before
    else s

/-- REALIGN_RESUME. -/
def execRealignResume (dt : Nat) (q : Fin 512) (s : State) : Host.Outcome State Fault Refusal :=
  .next ((s.elapse dt).whenUp domFabric (State.realignResume q.val))

end Sys2Proof.Machine
end

