-- ==== Sys2Proof/Machine/Journal.lean ====
section
/-! DEFINITION. The felt journal (R245 to R261): the layout of fibre and journal records, the staging ring and its
flush, the device with its faults and its states, mounting and formatting, and retrieval. The commands that a
dictionary client gives stand in Machine/DictWrite.lean. -/

namespace Sys2Proof.Machine

open Sys2Proof

/-! ### Layouts (Tables 2.10, 3.6, 11.1) -/

/-- A pip as bytes (Table 2.10). -/
def Pip.bytes (p : Pip) : List Byte :=
  leBytes 8 p.time.toNat ++ leBytes 8 p.shaft.toNat ++ leBytes 8 p.mains.toNat ++ leBytes 8 p.sea.toNat ++ leBytes 8 p.cycle.toNat

/-- A text cut or padded with zeros to a length. -/
def padText (n : Nat) (t : Text) : List Byte := (t.take n) ++ List.replicate (n - t.length) 0

/-- The slot mask of a record (Table 3.6). -/
def slotMask (l : List (Option Int)) : Nat :=
  (List.range 10).foldl (fun (m i : Nat) => if (slotAt l i).isSome then m + 2 ^ i else m) 0

/-- A fibre record as bytes, with its raw handle 0 (Tables 3.6, 11.1). -/
def FibreRecord.bytes (r : FibreRecord) : List Byte :=
  r.pip.bytes ++ leBytes 2 r.source ++ leBytes 2 r.chosenFrom ++ leBytes 1 r.kind ++ leBytes 1 r.port ++ leBytes 1 r.group ++
    leBytes 1 (r.gen % 4 * 4 + r.cls % 4) ++ leBytes 1 r.states ++ leBytes 1 r.score ++ leBytes 2 r.flags.toNat ++ leBytes 4 r.seq ++
    padText 6 r.address ++ leBytes 2 r.formatter ++ leBytes 4 0 ++ leBytes 1 r.raw.length ++ leBytes 1 r.tag.length ++
    leBytes 2 (slotMask r.slots) ++ leBytes 8 r.tagC ++ padText 6 r.tagS ++ leBytes 1 r.tagGn ++ leBytes 1 r.tagGm ++
    ((List.range 10).flatMap (fun i => leBytes 4 (ofSigned 32 ((slotAt r.slots i).getD 0))))

/-- Zeros up to a whole 16-byte word. -/
def padWord (b : List Byte) : List Byte := b ++ List.replicate ((16 - b.length % 16) % 16) 0

/-- The bytes of a journal record's length. -/
def recSize (r : JRecord) : Nat := 32 + r.body.length

/-- A journal record as bytes (Table 11.1). -/
def recBytes (r : JRecord) : List Byte :=
  leBytes 2 (recSize r) ++ leBytes 1 r.type ++ leBytes 1 r.cls ++ leBytes 8 r.seq ++ leBytes 4 r.dseq ++ leBytes 8 r.taken.toNat ++
    leBytes 8 0 ++ r.body

/-- The body of a fibre record in the journal. -/
def journalBody (r : FibreRecord) : List Byte := r.bytes ++ padWord (r.tag ++ r.raw)

/-- The body of a marker: its pip and payload. -/
def markerBody (p : Pip) (payload : List Byte) : List Byte := p.bytes ++ padText 8 payload

/-! ### States and alerts (Table 11.5) -/

/-- The alert that a journal state stands for. -/
def journalAlert (state : Nat) : Option Nat :=
  match state with
  | 4 => some 0xA001
  | 5 => some 0xA002
  | 6 => some 0xA004
  | 7 => some 0xA003
  | _ => none

/-- The journal enters a state: the old state's alert ends and the new one's is raised. -/
def State.setJournal (n : Nat) (s : State) : State :=
  if s.journal.state = n then s
  else
    let s := match journalAlert s.journal.state with
      | some c => s.endAlert c 0
      | none => s
    let s := { s with journal.state := n }
    match journalAlert n with
    | some c => s.event c 0 (if n = 5 then s.journal.retired else 0)
    | none => s

/-- Records are programmed to the NAND (Table 11.5). -/
def State.recording (s : State) : Bool := decide (s.journal.state = 3 ∨ s.journal.state = 5)

/-! ### The staging ring (R248, R250) -/

/-- The bytes that records of the ring hold. -/
def ringBytes (l : List RingRec) : Nat := l.foldl (fun (n : Nat) r => n + recSize r.rcd) 0

/-- The bytes of the ring not yet flushed. -/
def State.unflushed (s : State) : Nat := ringBytes (s.journal.ring.filter (fun r => r.page.isNone))

/-- Drop records from the head of the ring, by a test, until `need` bytes fit in `size`. -/
def makeRoom (drop : RingRec → Bool) (size need : Nat) : List RingRec → List RingRec
  | [] => []
  | r :: t => if ringBytes (r :: t) + need ≤ size then r :: t else if drop r then makeRoom drop size need t else r :: t

/-- The ring with room for `need` more bytes: flushed records give way; without a device the oldest do (R248, R256). -/
def State.roomFor (s : State) (need : Nat) : List RingRec :=
  let ringOnly := decide (s.journal.state = 6 ∨ s.journal.state = 7)
  makeRoom (fun r => ringOnly || r.page.isSome) (s.cn 0x3800 2 0 * 2 ^ 20) need s.journal.ring

/-! ### Pages (R249, R253, R254) -/

/-- The longest prefix of records whose sizes fit. -/
def fitting : Nat → List JRecord → List JRecord
  | _, [] => []
  | n, r :: t => if recSize r ≤ n then r :: fitting (n - recSize r) t else []

/-- The data area of a page: the header of Table 11.4, whole records, and zeros. -/
def pageBytes (size seq formatId : Nat) (recs : List JRecord) : List Byte :=
  let body := recs.flatMap recBytes
  let head := ascii "FELT" ++ leBytes 8 seq ++ leBytes 8 ((recs.head?.map (fun r => r.seq)).getD 0) ++ leBytes 2 (32 + body.length) ++
    leBytes 2 recs.length ++ leBytes 4 formatId
  let used := head ++ leBytes 4 (crc32c (head ++ body)).toNat ++ body
  used ++ List.replicate (size - used.length) 0

/-- Start the next page, where a flush has records to program, or early flushing has a whole page (R249). A page goes into
an erased block or behind the pages of its block; while its block is still to be erased it waits. -/
def State.startPage (s : State) : State :=
  let j := s.journal
  if s.recording = false ∨ j.programming.isSome = true ∨ (j.pageInBlock = 0 ∧ j.erased.contains j.blockNo = false) then s
  else
    let todo := (j.ring.filter (fun r => r.page.isNone)).map (fun r => r.rcd)
    let page := fitting (j.pageSize - 32) todo
    let whole := decide (page.length < todo.length)
    match page with
    | [] => { s with journal.early := false }
    | r :: _ =>
      if r.seq ≤ j.flushTo ∨ (j.early = true ∧ whole = true) then
        { s with
          journal.programming := some page, journal.load := pageBytes j.pageSize j.pageSeq j.formatId page, journal.progAt := s.now }
      else { s with journal.early := false }

/-- Where the unflushed content has reached the early-flush threshold, the whole pages that are ready are programmed
(R249). -/
def State.earlyFlush (s : State) : State :=
  if s.cn 0x3800 4 0 * 1024 ≤ s.unflushed then ({ s with journal.early := true }).startPage else s

/-! ### Records and markers (R247, R248) -/

/-- A record takes the next journal sequence number, of which SUP keeps a copy, and enters the ring (R248). -/
def State.ringAppend (type cls dseq : Nat) (body : List Byte) (s : State) : State :=
  let r : JRecord := { type := type, cls := cls, seq := s.journal.nextSeq, dseq := dseq, taken := s.time, body := body }
  let ring := s.roomFor (recSize r) ++ [⟨r, none⟩]
  { s with
    journal.ring := ring
    journal.nextSeq := s.journal.nextSeq + 1
    journal.supNext := if s.up domSup then s.journal.nextSeq + 1 else s.journal.supNext }

/-- A marker that DRAMIF writes (R247). -/
def State.journalMarker (type : Nat) (payload : List Byte) (s : State) : State :=
  if s.up domDram = false ∨ s.journal.state = 0 ∨ s.journal.state = 4 then s
  else (s.ringAppend type 0 0 (markerBody s.pip payload)).earlyFlush

/-- A loss marker, and its count (Table 11.2, 0x4860:03). -/
def State.lossMarker (n cause : Nat) (s : State) : State :=
  (s.stat 0x4860 0 3 n).journalMarker 2 (leBytes 4 n ++ leBytes 1 cause)

/-- The start marker that is due (R247), and after it the loss marker of a DRAMIF reset (R251). -/
def State.startMarker (s : State) : State :=
  match s.journal.startReason with
  | some n =>
    let s := ({ s with journal.startReason := none }).journalMarker 4 (leBytes 1 n)
    match s.journal.lostPending with
    | some k => ({ s with journal.lostPending := none }).journalMarker 2 (leBytes 4 k ++ leBytes 1 1)
    | none => s
  | none => s

/-! ### Flushes (R249) -/

/-- A flush of every record not yet flushed (R249). -/
def State.flushAll (s : State) : State :=
  if s.recording then ({ s with journal.flushTo := s.journal.nextSeq - 1 }).startPage else s

/-- JOURNAL_FLUSH: a dispatch of row 1018. -/
def execJournalFlush (dt : Nat) (s : State) : Host.Outcome State Fault Refusal :=
  .next ((s.elapse dt).whenUp domFabric (State.withDispatch 0x0700 (fun _ s => s.whenUp domDram State.flushAll)))

/-- FLUSH_NOW. -/
def execFlushNow (dt : Nat) (s : State) : Host.Outcome State Fault Refusal :=
  .next ((s.elapse dt).whenUp domSup (State.whenUp domDram State.flushAll))

/-- DRAMIF takes a packet of queue 0x081 into the ring, or discards it, or waits for room (R248, R250, Table 11.5). -/
def State.journalTake (s : State) : State :=
  if s.yields 0x81 = false then s
  else match s.journal.inbox with
  | [] => s.readEmpty 0x81
  | (r, cls, dseq) :: rest =>
    let took := ({ s with journal.inbox := rest }).popped 0x81 s
    if s.journal.state = 0 ∨ s.journal.state = 4 then took.stat 0x4860 0 7 1
    else
      let body := journalBody r
      let need := 32 + body.length
      if s.cn 0x3800 2 0 * 2 ^ 20 < ringBytes (s.roomFor need) + need then s
      else ((took.stat 0x4860 0 1 1).ringAppend 1 cls dseq body).earlyFlush

/-- JOURNAL_TAKE_RECORD. -/
def execJournalTakeRecord (dt : Nat) (s : State) : Host.Outcome State Fault Refusal :=
  .next ((s.elapse dt).whenUp domDram State.journalTake)

/-! ### Device faults (R256) -/

/-- Every record on the NAND. -/
def nandRecs (l : List JPage) : List JRecord := l.flatMap (fun p => p.recs)

/-- The records of pages that the ring no longer holds. -/
def State.notInRing (s : State) (l : List JPage) : List JRecord :=
  (nandRecs l).filter (fun r => !s.journal.ring.any (fun x => x.rcd.seq == r.seq))

/-- The device has failed: the ring alone serves as the journal. -/
def State.journalFails (s : State) : State :=
  let lost := (s.notInRing s.journal.nand).length
  let s := { s with journal.programming := none, journal.load := [], journal.erasing := none }
  (s.setJournal 7).lossMarker lost 3

/-- The good block after a block, wrapping to block 2, and whether it wrapped (R254). -/
def State.nextBlock (s : State) (b : Nat) : Nat × Bool :=
  let good := (List.range s.journal.blocks).filter (fun x => decide (2 ≤ x) && !s.journal.bad.contains x)
  match good.find? (fun x => decide (b < x)) with
  | some x => (x, false)
  | none => (good.headD 2, true)

/-- The two good blocks after a block. -/
def State.blocksAhead (s : State) (b : Nat) : List Nat := [(s.nextBlock b).1, (s.nextBlock (s.nextBlock b).1).1]

/-- Move the write point to the next good block. -/
def State.advanceBlock (s : State) : State :=
  let n := s.nextBlock s.journal.blockNo
  { s with
    journal.blockNo := n.1, journal.pageInBlock := 0
    journal.passes := if n.2 then s.journal.passes + 1 else s.journal.passes }

/-- Two good blocks are kept erased ahead of the write point: begin to erase the first of the write point's block and the two
ahead that is not, or stop under full policy 1 where it holds records (R254, R255). -/
def State.eraseAhead (s : State) : State :=
  let here := if s.journal.pageInBlock = 0 then [s.journal.blockNo] else []
  if s.recording = false ∨ s.journal.erasing.isSome = true then s
  else match (here ++ s.blocksAhead s.journal.blockNo).find? (fun b => !s.journal.erased.contains b) with
    | none => s
    | some b =>
      if s.cn 0x3800 5 0 = 1 ∧ s.journal.nand.any (fun p => p.block == b) = true then s.setJournal 4
      else { s with journal.erasing := some b, journal.eraseAt := s.now }

/-- Good blocks remain enough, and retired ones are within the limit; otherwise FAILED or DEGRADED. -/
def State.judgeBlocks (s : State) : State :=
  let j := s.journal
  if j.blocks - j.bad.length < 16 then s.journalFails
  else if s.cn 0x3800 8 0 * j.blocks < 1000 * j.retired ∧ j.state = 3 then s.setJournal 5
  else s

/-- Retire a block for a cause: its records in the ring are programmed again, the others reported lost (R256). -/
def State.retireBlock (b cause : Nat) (s : State) : State :=
  let pages := s.journal.nand.filter (fun p => p.block == b)
  let lost := (s.notInRing pages).length
  let mine (r : RingRec) : Bool := pages.any (fun p => r.page == some p.seq)
  let s := { s with
    journal.bad := s.journal.bad ++ [b], journal.retired := s.journal.retired + 1, journal.tableGen := s.journal.tableGen + 1
    journal.nand := s.journal.nand.filter (fun p => p.block != b), journal.erased := s.journal.erased.filter (fun x => x != b)
    journal.ring := s.journal.ring.map (fun r => if mine r then { r with page := none } else r) }
  let s := s.journalMarker 5 (leBytes 4 b ++ leBytes 1 cause)
  let s := if lost = 0 then s else s.lossMarker lost 2
  let s := if b = s.journal.blockNo then s.advanceBlock else s
  s.judgeBlocks.eraseAhead

/-- The allowance in bytes per second, cut off (R259). -/
def State.allowance (s : State) : Nat := s.journal.capacity * s.cn 0x3800 7 0 / 946080000

/-- Wear use in 0.1 % of the allowance: the mean of bytes programmed per second over the last 24 hours (R259). -/
def State.wearUse (s : State) : Nat :=
  let bytes := s.journal.programmed.foldl (fun (n : Nat) x => if s.fc - x.1 ≤ 86400 * cyclesPerSec then n + x.2 else n) 0
  if s.allowance = 0 then 0 else bytes * 1000 / (86400 * s.allowance)

/-- A page more counts towards the wear; above the allowance an event is raised (R259). -/
def State.countWear (s : State) : State :=
  let near := s.journal.programmed.filter (fun x => decide (s.fc - x.1 ≤ 86400 * cyclesPerSec))
  let s : State := { s.stat 0x4860 0 2 s.journal.pageSize with journal.programmed := near ++ [(s.fc, s.journal.pageSize)] }
  let w : Nat := s.wearUse
  let s := if 1000 < w ∧ s.journal.worn = false then s.event 0xA005 0 w else s
  { s with journal.worn := decide (1000 < w) }

/-- PAGE_PROGRAMMED: the page is part of the journal and the next one starts; a failure retires the block. -/
def State.pageDone (ok : Bool) (s : State) : State :=
  match s.journal.programming with
  | none => s
  | some recs =>
    let s := { s with journal.programming := none, journal.load := [], journal.timeouts := 0 }
    if ok then
      let n := s.journal.pageSeq
      let page : JPage := { seq := n, block := s.journal.blockNo, recs := recs }
      let s := { s with
        journal.nand := s.journal.nand ++ [page], journal.pageSeq := n + 1, journal.pageInBlock := s.journal.pageInBlock + 1
        journal.erased := s.journal.erased.filter (fun x => x != s.journal.blockNo)
        journal.ring := s.journal.ring.map (fun (r : RingRec) => if recs.any (fun x => x.seq == r.rcd.seq) then { r with page := some n } else r) }
      let s := s.countWear
      (if s.journal.pageInBlock = 64 then s.advanceBlock.eraseAhead else s).startPage
    else ((s.stat 0x4860 0 4 1).retireBlock s.journal.blockNo 1).startPage

/-- PAGE_PROGRAMMED. -/
def execPageProgrammed (dt : Nat) (ok : Bool) (s : State) : Host.Outcome State Fault Refusal :=
  .next ((s.elapse dt).whenUp domDram (State.pageDone ok))

/-- BLOCK_ERASED: the records the block held are gone; a failure retires it. -/
def State.blockDone (ok : Bool) (s : State) : State :=
  match s.journal.erasing with
  | none => s
  | some b =>
    let s := { s with journal.erasing := none, journal.timeouts := 0 }
    if ok then
      ({ s with journal.nand := s.journal.nand.filter (fun p => p.block != b), journal.erased := s.journal.erased ++ [b] }).eraseAhead.startPage
    else (s.stat 0x4860 0 5 1).retireBlock b 2

/-- BLOCK_ERASED. -/
def execBlockErased (dt : Nat) (ok : Bool) (s : State) : Host.Outcome State Fault Refusal :=
  .next ((s.elapse dt).whenUp domDram (State.blockDone ok))

/-- The operation has taken longer than its timeout (Table 11.3): 1 ms a page read, 2 ms a program, 20 ms an erase. When a
read began is not held. -/
def State.nandLate (op : NandOp) (s : State) : Bool :=
  match op with
  | .read _ => true
  | .program => s.journal.programming.isSome && decide (s.journal.progAt + 2 * cyclesPerMs ≤ s.now)
  | .erase => s.journal.erasing.isSome && decide (s.journal.eraseAt + 20 * cyclesPerMs ≤ s.now)

/-- NAND_TIMEOUT: the block concerned is retired; three operations in a row that time out fail the device (R256). -/
def State.nandTimeout (op : NandOp) (s : State) : State :=
  if s.journal.state = 0 ∨ s.journal.state = 6 ∨ s.journal.state = 7 ∨ s.nandLate op = false then s
  else
    let s := (s.stat 0x4860 0 5 1)
    let s := { s with journal.timeouts := s.journal.timeouts + 1 }
    if 3 ≤ s.journal.timeouts then s.journalFails
    else
      match op with
      | .read b => if 2 ≤ b ∧ b < s.journal.blocks ∧ s.journal.bad.contains b = false then s.retireBlock b 3 else s
      | .program => (({ s with journal.programming := none, journal.load := [] }).retireBlock s.journal.blockNo 3).startPage
      | .erase => ({ s with journal.erasing := none }).retireBlock (s.journal.erasing.getD 0) 3

/-- NAND_TIMEOUT. -/
def execNandTimeout (dt : Nat) (op : NandOp) (s : State) : Host.Outcome State Fault Refusal :=
  .next ((s.elapse dt).whenUp domDram (State.nandTimeout op))

/-! ### Mounting and formatting (R248, R258) -/

/-- Number the records of the ring from `n` on. -/
def renumberRing (n : Nat) : List RingRec → List RingRec
  | [] => []
  | r :: t => { r with rcd := { r.rcd with seq := n } } :: renumberRing (n + 1) t

/-- The ring's records, and those to come, are numbered from `n` on. -/
def State.numberFrom (n : Nat) (s : State) : State :=
  let next := n + s.journal.ring.length
  { s with
    journal.ring := renumberRing n s.journal.ring, journal.nextSeq := next
    journal.supNext := if s.up domSup then next else s.journal.supNext }

/-- A format begins: nothing on the device or in the ring before it belongs to the journal any more. -/
def State.beginFormat (keepRing : Bool) (s : State) : State :=
  let s := { s with
    journal.nand := [], journal.retired := 0, journal.programming := none, journal.load := [], journal.erasing := none, journal.flushTo := 0
    journal.early := false, journal.ring := if keepRing then s.journal.ring else [] }
  (s.setJournal 2).numberFrom 1

/-- A device within the limits of Table 11.3: 128 MiB to 16 GiB, pages of 2048 or 4096 bytes, 64 of them to a block. -/
def supportedNand (f : MountFound) : Bool :=
  decide (2 ^ 27 ≤ f.capacity ∧ f.capacity ≤ 2 ^ 34) && (f.pageSize == 2048 || f.pageSize == 4096) &&
    f.capacity == f.blocks * 64 * f.pageSize

/-- MOUNT_COMPLETE: no device, a device to be formatted, or the head of the ring found and recording begun. A device that
does not answer Read ID after it was mounted has failed (R256). -/
def State.mount (f : MountFound) (s : State) : State :=
  if s.journal.state ≠ 1 then
    (if f.answered = false ∧ 3 ≤ s.journal.state ∧ s.journal.state ≤ 5 then s.journalFails else s)
  else if f.answered = false ∨ supportedNand f = false then (s.setJournal 6).startMarker
  else
    let s := { s with
      journal.capacity := f.capacity, journal.pageSize := f.pageSize, journal.blocks := f.blocks, journal.bad := f.bad
      journal.timeouts := 0 }
    if f.tableValid = false then s.beginFormat true
    else
      let highest := (nandRecs f.pages).foldl (fun (a : Nat) r => Nat.max a r.seq) 0
      let page : Option JPage := f.pages.getLast?
      let s : State := { s with
        journal.retired := f.retired, journal.tableGen := f.tableGen, journal.formatId := f.formatId, journal.nand := f.pages
        journal.pageSeq := (match page with
          | some p => p.seq + 1
          | none => 1)
        journal.blockNo := (match page with
          | some p => p.block
          | none => 2)
        journal.pageInBlock := (match page with
          | some p => (f.pages.filter (fun (x : JPage) => x.block == p.block)).length
          | none => 0) }
      let s : State := s.numberFrom (Nat.max (s.journal.nextSeq - s.journal.ring.length) (highest + 1))
      let s := if s.journal.pageInBlock = 64 then s.advanceBlock else s
      let here := if s.journal.pageInBlock = 0 then [s.journal.blockNo] else []
      let s := { s with journal.erased :=
        (here ++ s.blocksAhead s.journal.blockNo).filter (fun b => !f.pages.any (fun p => p.block == b)) }
      ((s.setJournal 3).startMarker).judgeBlocks.eraseAhead

/-- MOUNT_COMPLETE. -/
def execMountComplete (dt : Nat) (found : MountFound) (s : State) : Host.Outcome State Fault Refusal :=
  .next ((s.elapse dt).whenUp domDram (State.mount found))

/-- FORMAT_COMPLETE: both table copies carry a new format identity taken from the fabric cycle count, and a start marker
with reason 2 is written. The blocks at and ahead of the write point are left erased. -/
def State.formatDone (s : State) : State :=
  if s.journal.state ≠ 2 then s
  else
    let s := { s with
      journal.formatId := s.count.toNat % 2 ^ 32, journal.tableGen := s.journal.tableGen + 1, journal.startReason := some 2
      journal.blockNo := (s.nextBlock 1).1, journal.pageInBlock := 0, journal.pageSeq := 1, journal.passes := 0
      journal.erased := (s.nextBlock 1).1 :: s.blocksAhead (s.nextBlock 1).1 }
    ((s.setJournal 3).startMarker).judgeBlocks

/-- FORMAT_COMPLETE. -/
def execFormatComplete (dt : Nat) (s : State) : Host.Outcome State Fault Refusal :=
  .next ((s.elapse dt).whenUp domDram State.formatDone)

/-- The journal follows its enable (0x3800:01): enabled it mounts, disabled it stops (Table 11.5). -/
def State.journalEnable (s : State) : State :=
  if s.cn 0x3800 1 0 = 0 then { (s.setJournal 0) with journal.programming := none, journal.load := [], journal.erasing := none }
  else if s.journal.state = 0 then { (s.setJournal 1) with journal.startReason := some 0 }
  else s

/-! ### Retrieval (R260, R261) -/

/-- The records that can be read back, oldest first: those on the NAND, then those only in the ring. -/
def State.retrievable (s : State) : List JRecord :=
  let ring := s.journal.ring.map (fun r => r.rcd)
  if s.journal.state = 6 ∨ s.journal.state = 7 then ring
  else
    let nand := nandRecs s.journal.nand
    nand ++ ring.filter (fun r => !nand.any (fun x => x.seq == r.seq))

/-- The oldest retrievable sequence, 0 with none. -/
def State.oldestSeq (s : State) : Nat := (s.retrievable.head?.map (fun r => r.seq)).getD 0

/-- Where a seek places the cursor (R260). -/
def State.seekCursor (s : State) (mode seq : Nat) (time : WheelPos) : Nat :=
  let l := s.retrievable
  let past := s.journal.nextSeq
  let oldest := (l.head?.map (fun r => r.seq)).getD past
  match mode with
  | 0 => if seq < oldest then oldest else if past ≤ seq then past else seq
  | 1 => ((l.find? (fun r => posAtOrAfter r.taken time)).map (fun r => r.seq)).getD past
  | 2 => oldest
  | _ => (l.getLast?.map (fun r => r.seq)).getD past

/-- A loss marker made up in retrieval. -/
def State.madeUp (s : State) (seq n cause : Nat) : JRecord :=
  { type := 2, cls := 0, seq := seq, dseq := 0, taken := s.time, body := markerBody s.pip (leBytes 4 n ++ leBytes 1 cause) }

/-- Records as retrieval meets them, each with the cursor after it: unreadable ones are replaced by one loss marker of
cause 6, from `gap` on, whose count is the gap to the next readable record. -/
def State.met (s : State) (gap : Option Nat) : List (JRecord × Bool) → List (JRecord × Nat)
  | [] => match gap with
    | some q => [(s.madeUp q (s.journal.nextSeq - q) 6, s.journal.nextSeq)]
    | none => []
  | (r, true) :: t => s.met (some (gap.getD r.seq)) t
  | (r, false) :: t =>
    let here := (r, r.seq + 1) :: s.met none t
    match gap with
    | some q => (s.madeUp q (r.seq - q) 6, r.seq) :: here
    | none => here

/-- Whole records from a list up to a number of bytes. -/
def takeWhole : Nat → List (JRecord × Nat) → List (JRecord × Nat)
  | _, [] => []
  | n, r :: t => if recSize r.1 ≤ n then r :: takeWhole (n - recSize r.1) t else []

/-- A read from a cursor, with the pages that cannot be read: the bytes, the cursor after them, and how many unreadable
pages were met (R261). -/
def State.journalRead (s : State) (cursor limit : Nat) (bad : List Nat) : List Byte × Nat × Nat :=
  let broken (p : JPage) : Bool := bad.contains p.seq
  let lost (r : JRecord) : Bool :=
    s.journal.nand.any (fun p => broken p && p.recs.contains r) && !s.journal.ring.any (fun x => x.rcd.seq == r.seq)
  let oldest := s.oldestSeq
  let gone : List (JRecord × Nat) := if cursor < oldest then [(s.madeUp cursor (oldest - cursor) 5, oldest)] else []
  let ahead := s.retrievable.filter (fun r => decide (cursor ≤ r.seq))
  let got := takeWhole limit (gone ++ s.met none (ahead.map (fun r => (r, lost r))))
  let next := (got.getLast?.map (fun x => x.2)).getD cursor
  let pages := s.journal.nand.filter (fun p => broken p && p.recs.any (fun r => decide (cursor ≤ r.seq ∧ r.seq < next) && lost r))
  (got.flatMap (fun x => recBytes x.1), next, pages.length)

end Sys2Proof.Machine
end

