-- ==== Sys2Proof/Machine/Alerts.lean ====
section
/-! DEFINITION. Events, alerts and device reports (R79, R292 to R299): the event log, the alert table, ALARM_N, the
sentences of the device source, acknowledgement, and the PHLX reports. -/

namespace Sys2Proof.Machine

open Sys2Proof

/-! ### Sentences of the device source (R79) -/

/-- The device's talker (R296). -/
def State.talker (s : State) : Text := (s.ct 0x2500 1 0).take 2

/-- A sentence of the device enters Bramble as a record of the device source. Its health score is not stated: a free
value. -/
def State.deviceRecord (code cls : Nat) (address : Text) (fields : List Text) (p : Pip) (s : State) : State :=
  let text := closeSentence (joinComma ((ascii "$" ++ address) :: fields))
  let slots := match (if code = 0x00FE then .ok [] else extract code false fields) with
    | .ok ((v, _) :: _) => v
    | _ => []
  let n := s.health.deviceSeq + 1
  let r : FibreRecord := {
    pip := p, source := 0x240, chosenFrom := 0x240, kind := 1, port := 0xFF, gen := 3, cls := cls, states := s.wheelByte,
    score := s.freeNat % 256, seq := n.toNat, address := address, formatter := code, raw := text, slots := slots }
  let s := { s.useFree with health.deviceSeq := n }
  ({ s with bramble.inputs := Tbl.mod [] 10 (fun l => l ++ [r]) s.bramble.inputs }).pushed 0x6A

/-- The upper-case hexadecimal digits of a number, to a width. -/
def hexText : Nat → Nat → Text
  | 0, _ => []
  | w + 1, n => hexText w (n / 16) ++ [(hexByte (n % 16)).getLastD 0x30]

/-- The UTC time of a position, hhmmss.ss (R93). -/
def State.clockAt (s : State) (p : WheelPos) : Text := clockText (dayCentis p (s.leapAt p))

/-- The state letter of an alert (Table 13.5). -/
def stateLetter (st : Nat) : Text :=
  match st with
  | 1 => ascii "V"
  | 2 => ascii "A"
  | 3 => ascii "U"
  | _ => ascii "N"

/-- The ALF sentence of an alert (R296). -/
def State.sendAlf (x : Alert) (s : State) : State :=
  s.deviceRecord 0x10 0 (s.talker ++ ascii "ALF")
    [ascii "1", ascii "1", ascii "0", s.clockAt x.changed, ascii "B", if evPriority x.code = 1 then ascii "A" else ascii "W",
      stateLetter x.state, ascii "HLX", decText x.code, decText x.instance_, decText x.revision, ascii "0",
      ascii "EVENT " ++ hexText 4 x.code ++ ascii " ARG " ++ hexText 8 x.a] s.pip

/-- The ACN sentence of an acknowledgement through the dictionary (R296). -/
def State.sendAcn (x : Alert) (s : State) : State :=
  s.deviceRecord 0x12 0 (s.talker ++ ascii "ACN")
    [s.clockAt s.time, ascii "HLX", decText x.code, decText x.instance_, ascii "A", ascii "C"] s.pip

/-! ### The event log (R292, R293) -/

/-- Where and when an event arose, as its log record keeps it. -/
structure LogMark where
  at_ : WheelPos
  wstate : Nat
  start : Nat
  deriving DecidableEq, Repr

/-- The mark of this moment. -/
def State.markNow (s : State) : LogMark := ⟨s.time, s.wheels.time.state.code, s.dict.startCount⟩

/-- Write a record at the head of the log, a ring of 16 384. -/
def State.logWrite (m : LogMark) (kind astate code a b : Nat) (s : State) : State :=
  let r : LogRec := { seq := s.health.nextSeq, at_ := m.at_, code := code, wstate := m.wstate, kind := kind, astate := astate, a := a, b := b, start := m.start }
  let l := s.health.log ++ [r]
  { s with health.log := l.drop (l.length - 16384), health.nextSeq := s.health.nextSeq + 1 }

/-- The bytes of a log record (Table 13.4). -/
def LogRec.bytes (r : LogRec) : List Byte :=
  let b := leBytes 4 r.seq.toNat ++ leBytes 8 r.at_.toNat ++ leBytes 2 r.code ++ leBytes 1 (r.wstate * 4 + r.kind) ++
    leBytes 1 r.astate ++ leBytes 4 r.a ++ leBytes 4 r.b ++ leBytes 4 r.start
  b ++ leBytes 4 (crc32c b).toNat

/-- An event is logged unless 16 of its code were within the last second (R293). -/
def State.logEvent (m : LogMark) (e : Event) (s : State) : State :=
  let near := (Tbl.get [] e.code s.health.rates).filter (fun t => decide (e.fc < t + cyclesPerSec))
  if 16 ≤ near.length then { s with health.suppressed := s.health.suppressed + 1 }
  else ({ s with health.rates := Tbl.put e.code (near ++ [e.fc]) s.health.rates }).logWrite m 0 0 e.code e.a e.b

/-! ### The alert table (R294) -/

/-- The row of an alert. -/
def State.alertRow (s : State) (code instance_ : Nat) : Option Nat :=
  (s.health.alerts.find? (fun x => x.2.code == code && x.2.instance_ == instance_)).map (fun x => x.1)

/-- An alert changes to a state: its revision advances, the change is logged, ALF tells it, and N leaves the table. -/
def State.changeRow (m : LogMark) (kind row st : Nat) (s : State) : State :=
  match s.health.alerts.find? (fun x => x.1 == row) with
  | none => s
  | some (_, x) =>
    let x : Alert := { x with state := st, revision := x.revision % 99 + 1, changed := m.at_, sentAt := s.fc }
    let s := s.logWrite m kind st x.code x.a x.b
    let s := { s with health.alerts := if st = 4 then Tbl.del row s.health.alerts else Tbl.put row x s.health.alerts }
    s.sendAlf x

/-- The end of the condition of an alert: V becomes U, and A becomes N. -/
def State.endRow (m : LogMark) (row : Nat) (s : State) : State :=
  match (s.health.alerts.find? (fun x => x.1 == row)).map (fun x => x.2.state) with
  | some 1 => s.changeRow m 2 row 3
  | some 2 => s.changeRow m 2 row 4
  | _ => s

/-- Alert 0xE0FF ends when fewer than 63 others stand. -/
def State.judgeFull (m : LogMark) (s : State) : State :=
  if (s.health.alerts.filter (fun x => decide (x.1 < 63))).length < 63 then s.endRow m 63 else s

/-- Acknowledge the alert of a row: V becomes A, and U becomes N. -/
def State.ackRow (row : Nat) (s : State) : State :=
  match (s.health.alerts.find? (fun x => x.1 == row)).map (fun x => x.2.state) with
  | some 1 => s.changeRow s.markNow 2 row 2
  | some 3 => (s.changeRow s.markNow 2 row 4).judgeFull s.markNow
  | _ => s

/-- Put a new alert in a row, in state V. -/
def State.newAlert (m : LogMark) (row code instance_ a b : Nat) (s : State) : State :=
  let x : Alert := { code := code, instance_ := instance_, state := 1, revision := 1, raised := m.at_, a := a, b := b, sentAt := s.fc, changed := m.at_ }
  ({ s.logWrite m 1 1 code a b with health.alerts := Tbl.put row x s.health.alerts }).sendAlf x

/-- A raise that finds no row: logged, and alert 0xE0FF stands in row 63. While it stands it is not raised again. -/
def State.tableFull (m : LogMark) (code a b : Nat) (s : State) : State :=
  let s := s.logWrite m 1 1 code a b
  if (s.alertRow 0xE0FF 1).isSome then s else (s.newAlert m 63 0xE0FF 1 0 0).emcy 0xFF00 0xE0FF

/-- The alert of a row takes the position and the arguments of a new raise. -/
def State.renewRow (m : LogMark) (row a b : Nat) (s : State) : State :=
  match s.health.alerts.find? (fun x => x.1 == row) with
  | some (_, x) => { s with health.alerts := Tbl.put row { x with raised := m.at_, a := a, b := b } s.health.alerts }
  | none => s

/-- An alert is raised (R294): it stands in V, from U returns to V, and for an occurrence passes to U at once, so that its
EMCY shows no condition of it standing (R219). -/
def State.raiseAlert (m : LogMark) (code a b : Nat) (s : State) : State :=
  let inst := a % 0x10000 + 1
  let occurrence := evKind code == .occurrence
  match s.alertRow code inst with
  | some r =>
    match (s.health.alerts.find? (fun x => x.1 == r)).map (fun x => x.2.state) with
    | some 3 =>
      let s := (s.renewRow m r a b).changeRow m 1 r 1
      (if occurrence then s.endRow m r else s).emcy 0xFF00 code
    | _ => s
  | none =>
    let full := (s.alertRow 0xE0FF 1).isSome
    match (if full then none else (List.range 63).find? (fun r => !s.health.alerts.any (fun x => x.1 == r))) with
    | some r =>
      let s := s.newAlert m r code inst a b
      (if occurrence then s.endRow m r else s).emcy 0xFF00 code
    | none => (s.emcy 0xFF00 code).tableFull m code a b

/-- The condition of an alert has ended. -/
def State.ended (m : LogMark) (code a : Nat) (s : State) : State :=
  match s.alertRow code (a % 0x10000 + 1) with
  | some r => (s.endRow m r).judgeFull m
  | none => s

/-- EVENT_LOG_WRITE: SUP takes the oldest event raised and writes it, with its alert's state change, sentence and EMCY;
the error register follows. -/
def State.writeEvent (s : State) : State :=
  match s.health.waiting with
  | [] => s
  | e :: rest =>
    let s := { s with health.waiting := rest }
    let m : LogMark := ⟨e.at_, e.wstate, e.start⟩
    let s := match e.kind with
      | 0 => s.logEvent m e
      | 1 => s.raiseAlert m e.code e.a e.b
      | _ => s.ended m e.code e.a
    s.trackErrors

/-- EVENT_LOG_WRITE. -/
def execEventLogWrite (dt : Nat) (s : State) : Host.Outcome State Fault Refusal :=
  .next ((s.elapse dt).whenUp domSup State.writeEvent)

/-- SUP has not started since the device left reset: it is held in reset, or the boot ROM runs. -/
def State.notStarted (s : State) : Bool :=
  !s.boot.resetN || !s.boot.internal || s.boot.bootRom || s.power.shutdownAt.isSome || s.dom domAo != 3

/-- ALARM_N is driven low (R295). In a low power state AO holds the level it had at entry. -/
def State.alarmLow (s : State) : Bool :=
  if 2 ≤ s.power.state then s.health.alarm
  else s.notStarted || s.health.supReset || s.health.alerts.any (fun x => evPriority x.2.code == 1)

/-! ### Acknowledgement (R294, R296, R297) -/

/-- Acknowledge one alert through the dictionary. -/
def State.ackAlert (row : Nat) (s : State) : State :=
  match s.health.alerts.find? (fun x => x.1 == row) with
  | none => s
  | some (_, x) => if x.state = 1 ∨ x.state = 3 then ((s.ackRow row).sendAcn x).trackErrors else s

/-- ALERT_ACKNOWLEDGE. -/
def execAlertAcknowledge (dt : Nat) (row : Fin 64) (s : State) : Host.Outcome State Fault Refusal :=
  .next ((s.elapse dt).whenUp domSup (State.ackAlert row.val))

/-- Acknowledge every alert. -/
def State.ackAll (s : State) : State := (s.health.alerts.map (fun x => x.1)).foldl (fun s r => s.ackAlert r) s

/-- ACKNOWLEDGE_ALL. -/
def execAcknowledgeAll (dt : Nat) (s : State) : Host.Outcome State Fault Refusal :=
  .next ((s.elapse dt).whenUp domSup State.ackAll)

/-- The fields of a received ACN: mnemonic, identifier, instance and command. -/
def acnFields (r : FibreRecord) : Text × Nat × Nat × Text :=
  let f := match (splitFirst 0x2C (partsOf r.raw).body).2 with
    | some rest => splitAll 0x2C rest
    | none => []
  let g (n : Nat) : Text := (f[n]?).getD []
  (g 1, decVal (g 2), decVal (g 3), g 4)

/-- SUP takes the first ACN whose command is Q, or is not Q, and acts on the alert it names. -/
def State.takeAcn (repeat_ : Bool) (act : Nat → State → State) (s : State) : State :=
  match s.health.acnIn.find? (fun r => decide ((acnFields r).2.2.2 = ascii "Q") == repeat_) with
  | none => s
  | some r =>
    let s := { s with health.acnIn := s.health.acnIn.erase r }
    let f := acnFields r
    if f.1 = ascii "HLX" ∧ (f.2.2.2 = ascii "A" ∨ f.2.2.2 = ascii "Q") then
      match s.alertRow f.2.1 f.2.2.1 with
      | some row => act row s
      | none => s
    else s

/-- ACN_ACKNOWLEDGE. -/
def execAcnAcknowledge (dt : Nat) (s : State) : Host.Outcome State Fault Refusal :=
  .next ((s.elapse dt).whenUp domSup (State.takeAcn false (fun r s => (s.ackRow r).trackErrors)))

/-- Emit the ALF of a row's alert. -/
def State.repeatAlf (row : Nat) (s : State) : State :=
  match s.health.alerts.find? (fun x => x.1 == row) with
  | none => s
  | some (_, x) => ({ s with health.alerts := Tbl.put row { x with sentAt := s.fc } s.health.alerts }).sendAlf x

/-- ACN_REPEAT_REQUEST. -/
def execAcnRepeatRequest (dt : Nat) (s : State) : Host.Outcome State Fault Refusal :=
  .next ((s.elapse dt).whenUp domSup (State.takeAcn true State.repeatAlf))

/-- ALF_REPEAT: a row's ALF is emitted again every repeat interval while its alert stands in V or U. -/
def State.alfDue (row : Nat) (s : State) : State :=
  match s.health.alerts.find? (fun x => x.1 == row) with
  | none => s
  | some (_, x) =>
    let iv := s.cn 0x5800 5 0
    if iv ≠ 0 ∧ (x.state = 1 ∨ x.state = 3) ∧ iv * cyclesPerSec ≤ s.fc - x.sentAt then s.repeatAlf row else s

/-- ALF_REPEAT. -/
def execAlfRepeat (dt : Nat) (row : Fin 64) (s : State) : Host.Outcome State Fault Refusal :=
  .next ((s.elapse dt).whenUp domSup (State.alfDue row.val))

/-- A list cut into parts of four. -/
def fours {α : Type} : Nat → List α → List (List α)
  | 0, _ => []
  | _ + 1, [] => []
  | n + 1, l => l.take 4 :: fours n (l.drop 4)

/-- ALC_EMISSION: the list of standing alerts, four entries to a sentence (R296). -/
def State.alc (s : State) : State :=
  let iv := s.cn 0x5800 6 0
  if iv = 0 ∨ s.fc - s.health.lastAlc < iv * cyclesPerSec then s
  else
    let s := { s with health.lastAlc := s.fc }
    let l := s.health.alerts.map (fun x => x.2)
    if l.isEmpty then s
    else
      let id := s.health.alcId
      let parts := fours 16 l
      let s := { s with health.alcId := (id + 1) % 10 }
      parts.zipIdx.foldl (fun s x =>
        s.deviceRecord 0x11 0 (s.talker ++ ascii "ALC")
          ([decText parts.length, decText (x.2 + 1), decText id, decText x.1.length] ++
            x.1.flatMap (fun (a : Alert) => [ascii "HLX", decText a.code, decText a.instance_, decText a.revision])) s.pip) s

/-- ALC_EMISSION. -/
def execAlcEmission (dt : Nat) (s : State) : Host.Outcome State Fault Refusal :=
  .next ((s.elapse dt).whenUp domSup State.alc)

/-! ### Device reports (R299, Table 13.7) -/

/-- The position of the multiple of an interval that the time wheel has come to last. -/
def State.reportAt (s : State) (ms : Nat) : WheelPos := multipleAt ms (intervalOf ms s.time)

/-- The letter of the operating mode. -/
def modeLetter (m : Nat) : Text :=
  match m with
  | 0 => ascii "C"
  | 1 => ascii "N"
  | 2 => ascii "R"
  | 3 => ascii "L"
  | _ => ascii "T"

/-- The letter of the role. -/
def roleLetter (r : Nat) : Text :=
  match r with
  | 0 => ascii "I"
  | 4 => ascii "A"
  | 5 => ascii "A"
  | _ => ascii "S"

/-- PHLX_STATUS: at every multiple of the status interval. -/
def State.phlxStatus (s : State) : State :=
  let ms := s.cn 0x5803 1 0
  if s.health.statusGrid.due ms s.time = false then s
  else
    let s := { s with health.statusGrid := s.health.statusGrid.sampled ms s.time }
    s.deviceRecord 0xFE 2 (ascii "PHLX")
      [ascii "ST", modeLetter s.boot.mode, roleLetter s.twin.role, decText s.cycle.generation, decText s.health.alerts.length,
        intText (roundReport ((s.power.junction : Rat) / 10)), if s.power.state = 1 then ascii "U" else ascii "R"]
      { s.pip with time := s.reportAt ms }

/-- PHLX_STATUS. -/
def execPhlxStatus (dt : Nat) (s : State) : Host.Outcome State Fault Refusal :=
  .next ((s.elapse dt).whenUp domSup (State.whenUp domFabric State.phlxStatus))

/-- A position of a pip by wheel number. -/
def Pip.wheel (p : Pip) (w : Nat) : WheelPos :=
  match w with
  | 0 => p.time
  | 1 => p.shaft
  | 2 => p.mains
  | _ => p.sea

/-- PHLX_WHEEL_REPORT: one sentence for each wheel selected, in wheel order. -/
def State.phlxWheels (s : State) : State :=
  let ms := s.cn 0x5803 2 0
  if s.health.wheelGrid.due ms s.time = false then s
  else
    let s := { s with health.wheelGrid := s.health.wheelGrid.sampled ms s.time }
    let p : Pip := { s.pip with time := s.reportAt ms }
    ((List.range 4).filter (fun w => (s.cn 0x5803 3 0).testBit w)).foldl (fun s w =>
      s.deviceRecord 0xFE 2 (ascii "PHLX")
        [ascii "WH", decText w, decText (s.wheels.get w).state.code, decText (posRev (p.wheel w)), hexText 8 (posFrac (p.wheel w)),
          hexText 8 (s.errorBound w)] p) s

/-- PHLX_WHEEL_REPORT. -/
def execPhlxWheelReport (dt : Nat) (s : State) : Host.Outcome State Fault Refusal :=
  .next ((s.elapse dt).whenUp domSup (State.whenUp domFabric State.phlxWheels))

end Sys2Proof.Machine
end

