-- ==== Sys2Proof/Machine/Serial.lean ====
section
/-! DEFINITION. Serial ports (R126 to R148): dividers, the receiver, breaks and stuck lines, autobaud, the transmitter
with its driver enable, the levels of SER_TXD and SER_AUX, and the commands SERIAL_CHARACTER_RECEIVED, FALSE_START,
BREAK_END, STUCK_LOW, STUCK_PROBE, LINE_RECOVERED, RECEIVE_MARK_IDLE, AUTOBAUD_MEASUREMENT, SERIAL_TX_START,
SERIAL_TX_DONE, DRIVER_LEAD_EXPIRY and DRIVER_LAG_EXPIRY. -/

namespace Sys2Proof.Machine

open Sys2Proof

/-- A schedule slot of a frame-mode port is not over (R126, R131, R150). -/
def State.slotOpen (s : State) (p : Nat) : Bool :=
  decide (intervalOf (s.portN p 0x16) s.time < (s.sp p).nextSlot) && decide ((s.sp p).line ≠ 6)

/-- A schedule slot is not over, or a frame that another commander began is being received: nothing changes yet (R126,
R131). -/
def State.slotBusy (s : State) (p : Nat) : Bool := s.slotOpen p || (!s.entitledPort p && (s.sp p).slot.isSome)

/-! ### Dividers (R131) -/

/-- The transmitter takes a pending divider. -/
def State.takeTx (p : Nat) (s : State) : State :=
  s.modSp p (fun x => match x.pendTx with
    | some d => { x with txDiv := d, txAuto := x.pendAuto, pendTx := none }
    | none => x)

/-- What the receiver has in force. -/
def SPort.rxForm (x : SPort) : RxForm := { div := x.rxDiv, eightN1 := x.rxAuto, inverted := x.inverted }

/-- The receiver takes a pending divider; a character in progress keeps the one before. -/
def State.takeRx (p : Nat) (s : State) : State :=
  s.modSp p (fun x => match x.pendRx with
    | some d => { x with rxDiv := d, rxAuto := x.pendAuto, pendRx := none, rxWas := some (x.rxForm, s.fc) }
    | none => x)

/-- A divider comes to a port: each direction takes it at once where it may, or holds it pending. -/
def State.offerDivider (p d : Nat) (s : State) : State :=
  let s := s.modSp p (fun x => { x with pendTx := some d, pendRx := some d })
  let x := s.sp p
  match s.portMode p with
  | 1 =>
    let s := if x.busy.isNone then s.takeTx p else s
    if (x.line = 1 ∧ x.markIdle = true) ∨ x.line = 4 then s.takeRx p else s
  | 3 => if s.slotBusy p then s else (s.takeTx p).takeRx p
  | _ => if x.busy.isNone then (s.takeTx p).takeRx p else s

/-- A written divider ends a measured one (R131, R148). -/
def State.writeDivider (p d : Nat) (s : State) : State :=
  (s.modSp p (fun x => { x with autoDiv := none, pendAuto := false })).offerDivider p d

/-! ### Autobaud (R148) -/

/-- Autobaud runs on the port: COMMISSIONING, start-stop, not address mode, and set. -/
def State.autobaudSet (s : State) (p : Nat) : Bool :=
  decide (s.boot.mode = 0) && decide (s.portMode p = 1) && decide (s.portN p 4 ≠ 5) && decide (s.portN p 0x0E = 1)

/-- A port begins to measure. -/
def State.enterAutobaud (p : Nat) (s : State) : State :=
  s.modSp p (fun x => { x with line := 5, autoRate := 0, autoPair := none, autoFaults := 0 })

/-- The listed rates. -/
def autoRates : List Nat := [4800, 9600, 19200, 38400, 57600, 115200]

/-- The listed rate nearest to a measured one. -/
def nearestRate (r : Rat) : Nat :=
  autoRates.foldl (fun (a b : Nat) => if ((b : Rat) - r).abs < ((a : Rat) - r).abs then b else a) 4800

/-- What one measurement says: no `$`, a `$` that does not count, or a counted `$` of a listed rate. -/
inductive AutoRead where
  | noDollar | uncounted | counted (rate : Nat)
  deriving DecidableEq, Repr

/-- Judge the intervals of a measurement, in serial clock cycles. -/
def judgeDollar (l1 h1 l2 h2 : Nat) : AutoRead :=
  let u : Rat := ((l1 + h1 + l2 + h2 : Nat) : Rat) / 7
  let near (v : Nat) (n : Rat) : Bool := decide (((v : Rat) - n * u).abs ≤ u / 2)
  if decide (0 < u) && near l1 3 && near h1 1 && near l2 2 && near h2 1 then
    let r := 73728000 / u
    let n := nearestRate r
    if ((n : Rat) - r).abs * 100 ≤ 3 * (n : Rat) then .counted n else .uncounted
  else .noDollar

/-- Two counted measurements of one rate lock the port (AUTOBAUD_LOCKED). -/
def State.lockAuto (p rate : Nat) (s : State) : State :=
  let d := 4608000 / rate
  let s := s.modSp p (fun x => { x with
    line := 1, autoRate := rate, autoDiv := some d, autoPair := none, autoFaults := 0, markIdle := false, pendAuto := true
    huntFrom := s.fc })
  (s.offerDivider p d).event 0x5005 p rate

/-- AUTOBAUD_MEASUREMENT. -/
def State.autoMeasure (p l1 h1 l2 h2 : Nat) (s : State) : State :=
  if (s.sp p).line ≠ 5 then s
  else match judgeDollar l1 h1 l2 h2 with
    | .noDollar => s
    | .uncounted => s.modSp p (fun x => { x with autoPair := none })
    | .counted r =>
      if (s.sp p).autoPair = some r then s.lockAuto p r else s.modSp p (fun x => { x with autoPair := some r })

/-- AUTOBAUD_MEASUREMENT. -/
def execAutobaudMeasurement (dt : Nat) (port : Fin 24) (l1 h1 l2 h2 : Nat) (s : State) : Host.Outcome State Fault Refusal :=
  .next ((s.elapse dt).whenUp domSerial (State.autoMeasure port.val l1 h1 l2 h2))

/-! ### The receiver (R128, R132 to R136) -/

/-- Runs of one level joined. -/
def joinRuns : List (Bool × Nat) → List (Bool × Nat)
  | [] => []
  | (b, n) :: t =>
    match joinRuns t with
    | [] => [(b, n)]
    | (c, m) :: u => if b = c then (b, n + m) :: u else (b, n) :: (c, m) :: u

/-- The glitch filter, with the level that stands and for how long: a level that lasts less than 3 serial clock cycles is
ignored (R132). -/
def filterRuns : Bool → Nat → List (Bool × Nat) → List (Bool × Nat)
  | b, n, [] => [(b, n)]
  | b, n, (c, m) :: t => if c = b ∨ m < 3 then filterRuns b (n + m) t else (b, n) :: filterRuns c m t

/-- SER_RXD behind the filter and the inverter, from a line at mark: levels with their lengths in serial clock cycles. -/
def lineRuns (inverted : Bool) (l : List WireRun) : List (Bool × Nat) :=
  filterRuns true 0 (joinRuns (l.map (fun r => (r.rxd != inverted, r.cycles))))

/-- The level of a line at a serial clock cycle; the last level stays. -/
def levelAt : List (Bool × Nat) → Nat → Bool
  | [], _ => true
  | [(b, _)], _ => b
  | (b, n) :: t, x => if x < n then b else levelAt t (x - n)

/-- The serial clock cycles of the falling edges, from the level before and the cycle reached. -/
def fallsAt : Bool → Nat → List (Bool × Nat) → List Nat
  | _, _, [] => []
  | before, x, (b, n) :: t => if before && !b then x :: fallsAt b (x + n) t else fallsAt b (x + n) t

/-- The three centre samples of a bit whose phase 0 is at serial clock cycle `t`, at divider `d` (R135). -/
def centreSamples (d : Nat) (level : Nat → Bool) (t : Nat) : List Bool := [7, 8, 9].map (fun p => level (t + p * d))

/-- The samples of the bits of a character of `n` bits, from bit `k` on, whose phase is 0 at serial clock cycle `t`: every
later falling edge resynchronises the receiver (R134). The last bit may be ended by an edge. -/
def sampleBits (d n : Nat) (level : Nat → Bool) : List Nat → Nat → Nat → List (List Bool)
  | [], t, k => (List.range (n - k)).map (fun j => centreSamples d level (t + 16 * d * j))
  | e :: es, t, k =>
    let m := (e - t) / d / 16
    let p := (e - t) / d % 16
    let whole := (List.range (Nat.min m (n - k))).map (fun j => centreSamples d level (t + 16 * d * j))
    if n ≤ k + m then whole
    else if p ≤ 6 then whole ++ sampleBits d n level es e (k + m)
    else whole ++ ([7, 8, 9].filter (fun i => decide (i ≤ p))).map (fun i => level (t + (16 * m + i) * d)) ::
      sampleBits d n level es e (k + m + 1)

/-- The samples of a start-stop character: from the first falling edge, the start of its start bit (R133). -/
def startStopSamples (d n : Nat) (runs : List (Bool × Nat)) : List (List Bool) :=
  match fallsAt true 0 runs with
  | [] => []
  | e :: es => sampleBits d n (levelAt runs) es e 0

/-- The levels of SER_RXD at the sampling edges of the bit clock, which is seen at SER_AUX: rising edges, or falling ones
(R146). -/
def clockSamples (rising : Bool) (level : Nat → Bool) : Bool → Nat → List WireRun → List Bool
  | _, _, [] => []
  | before, x, r :: t =>
    if r.aux = rising ∧ before ≠ r.aux then level x :: clockSamples rising level r.aux (x + r.cycles) t
    else clockSamples rising level r.aux (x + r.cycles) t

/-- The samples of a synchronous character: one for a bit, from the first one at space (R146). Clock polarity 0 samples on
rising edges, and SER_TXD changes on the others; polarity 1 exchanges the two. -/
def syncSamples (polarity n : Nat) (runs : List (Bool × Nat)) (l : List WireRun) : List (List Bool) :=
  let first := ((l.head?).map (fun r => r.aux)).getD false
  (((clockSamples (decide (polarity = 0)) (levelAt runs) first 0 l).dropWhile (fun b => b)).take n).map (fun b => [b])

/-- The serial clock cycles that a line spans. -/
def lineCycles (l : List WireRun) : Nat := l.foldl (fun n r => n + r.cycles) 0

/-- The decision of one bit: its level and whether it is noisy. Start-stop takes the majority of three samples, one not
taken counting as space; synchronous takes one sample (R135, R146). -/
def decideBit (sync : Bool) (b : List Bool) : Bool × Bool :=
  if sync then ((b.head?).getD false, false)
  else
    let l := (b ++ [false, false, false]).take 3
    let marks := (l.filter (fun x => x)).length
    (decide (2 ≤ marks), decide (b.length < 3) || (decide (marks ≠ 0) && decide (marks ≠ 3)))

/-- The decisions of the `n` bits of a character. -/
def decideBits (sync : Bool) (n : Nat) (bits : List (List Bool)) : List (Bool × Bool) :=
  (List.range n).map (fun k => decideBit sync ((bits[k]?).getD []))

/-- The number of bits given, least significant first. -/
def bitsNat : List Bool → Nat
  | [] => 0
  | b :: t => b.toNat + 2 * bitsNat t

/-- A character as taken: value, address bit, and the tags break, noise, parity and framing (Tables 6.3, 6.4). -/
structure RxTaken where
  value : Nat
  address : Bool
  brk : Bool
  noise : Bool
  parity : Bool
  framing : Bool
  deriving DecidableEq, Repr

/-- The number of ones of a character is odd. -/
def oddOnes (value : Nat) : Bool := decide ((fields 1 8 value).foldl (fun a b => a + b) 0 % 2 = 1)

/-- The parity bit disagrees with the setting (R128). -/
def parityBad (setting value : Nat) (bit : Bool) : Bool :=
  let odd := oddOnes value
  match setting with
  | 1 => bit != odd
  | 2 => bit == odd
  | 3 => !bit
  | 4 => bit
  | _ => false

/-- The character that decided bits make, with `data` data bits and a parity setting (R136, R140). -/
def takeChar (data parity : Nat) (ds : List (Bool × Bool)) : RxTaken :=
  let lv := ds.map (fun d => d.1)
  let v := bitsNat ((lv.drop 1).take data)
  let pbit := (lv[1 + data]?).getD false
  if lv.all (fun b => !b) then ⟨0, false, true, false, false, true⟩
  else ⟨v, decide (parity = 5) && pbit, false, ds.any (fun d => d.2), parityBad parity v pbit, !((lv.getLast?).getD false)⟩

/-- A receive queue entry (Table 6.3). -/
def RxTaken.word (c : RxTaken) : BitVec 16 :=
  BitVec.ofNat 16 (4096 * c.brk.toNat + 2048 * c.noise.toNat + 1024 * c.parity.toNat + 512 * c.framing.toNat +
    256 * c.address.toNat + c.value)

/-- The character carries a tag. -/
def RxTaken.tagged (c : RxTaken) : Bool := c.brk || c.noise || c.parity || c.framing

/-- Data bits and parity setting of received characters under a configuration: 8N1 in frame mode and while a measured
divider is in force (R148, R150). -/
def State.formatIn (s : State) (p : Nat) (c : Cfg) (auto_ : Bool) : Nat × Nat :=
  if s.modeOf p c = 3 ∨ auto_ = true then (8, 0) else (s.portC c p 3, s.portC c p 4)

/-- The character's counts (Table 6.10). -/
def State.countChar (p : Nat) (c : RxTaken) (s : State) : State :=
  let s := s.stat 0x4800 p 2 1
  let s := if c.framing then s.stat 0x4800 p 3 1 else s
  let s := if c.parity then s.stat 0x4800 p 4 1 else s
  let s := if c.noise then s.stat 0x4800 p 5 1 else s
  if c.brk then s.stat 0x4800 p 6 1 else s

/-- Queue a character for carding; with no credit it is discarded and counted, and a queue that is full sets its flag
(R139, R227, R240). -/
def State.queueRx (p : Nat) (w : BitVec 16) (s : State) : State :=
  if s.up (engineDom (engineOf p false)) && s.hasRoom p then
    let e : RxChar := { data := w, pip := s.pip, states := s.wheelByte }
    (s.modSp p (fun x => { x with rx := x.rx ++ [e] })).pushed p
  else if s.up (engineDom (engineOf p false)) && s.admits p then
    (s.modSp p (fun x => { x with flags := setBit x.flags 0 true })).stat 0x4800 p 8 1
  else s.stat 0x4800 p 8 1

/-- An address matches a match register (R144). -/
def addressMatches (a m k : Nat) : Bool := decide (k % 512 ≠ 0) && ((a &&& (k % 512)) == (m &&& (k % 512)))

/-- Address mode: an untagged address mutes or unmutes; data is queued while unmuted (R144). -/
def State.addressChar (p : Nat) (c : Cfg) (x : RxTaken) (s : State) : State :=
  if s.portC c p 0x0E ≠ 1 then s.queueRx p x.word
  else if x.address && !x.tagged then
    let a := 256 + x.value
    if addressMatches a (s.portC c p 0x0F) (s.portC c p 0x10) || addressMatches a (s.portC c p 0x11) (s.portC c p 0x12) then
      s.modSp p (fun x => { x with muted := false })
    else (s.modSp p (fun x => { x with muted := true })).stat 0x4800 p 0x0D 1
  else if (s.sp p).muted then s else s.queueRx p x.word

/-- A break: stored once, and the port is in BREAK, timed from the falling edge of its start bit at `from_` (R140, R141). -/
def State.enterBreak (p from_ : Nat) (s : State) : State :=
  s.modSp p (fun y => { y with line := 3, breakAt := some from_, markIdle := false })

/-- Eight characters in a row with a framing or noise tag end an autobaud lock (R148). -/
def State.autoFault (p : Nat) (c : RxTaken) (s : State) : State :=
  if s.autobaudSet p && decide ((s.sp p).autoRate ≠ 0) then
    if c.framing || c.noise then
      let n := (s.sp p).autoFaults + 1
      if 8 ≤ n then s.enterAutobaud p else s.modSp p (fun x => { x with autoFaults := n })
    else s.modSp p (fun x => { x with autoFaults := 0 })
  else s

/-- A start-stop or synchronous character ends, which began at `from_`, under the configuration `c`; `nine` says that its
ninth bit is the address bit (R136, R144, R146). -/
def State.charTaken (p from_ : Nat) (c : Cfg) (nine : Bool) (x : RxTaken) (s : State) : State :=
  let s := (s.countChar p x).modSp p (fun y => { y with markIdle := false })
  let s := if nine then s.addressChar p c x else s.queueRx p x.word
  let s := if x.brk then s.enterBreak p from_ else s
  let s := s.autoFault p x
  if s.portMode p = 2 ∧ (s.sp p).busy.isNone = true then (s.takeTx p).takeRx p else s

/-- A character read back by a frame-mode commander: it must equal the one sent (R153, BIT_ERROR). -/
def State.readBack (p : Nat) (c : RxTaken) (b : Byte) (rest : List Byte) (s : State) : State :=
  if c.brk = false ∧ c.framing = false ∧ c.value = b.toNat then s.modSp p (fun x => { x with sending := rest })
  else (s.modSp p (fun x => { x with sending := [], wire := [], slot := none })).stat 0x4800 p 0x13 1

/-- A byte for the frame that is expected: queued by the deadline, and later noted where its start bit came by then
(R153, Table 6.8). -/
def State.frameQueue (p from_ : Nat) (c : RxTaken) (s : State) : State :=
  match (s.sp p).slot with
  | some f =>
    if s.fc ≤ f.deadline then s.queueRx p c.word
    else if from_ ≤ f.deadline then s.modSp p (fun x => { x with slot := some { f with begun := true } })
    else s
  | none => s

/-- A byte that a commander reads back while it sends: bus time at dominant counts from here on, and an all-space
character is a break (R140, R153, R156). -/
def State.ownChar (p : Nat) (low : Option Nat) (c : RxTaken) (b : Byte) (rest : List Byte) (s : State) : State :=
  let s := ((s.countChar p c).readBack p c b rest).modSp p (fun y => { y with ownBreak := none, breakAt := low.map (fun _ => s.fc) })
  if c.brk then s.enterBreak p s.fc else s

/-- A character on a frame-mode bus, which began at `from_`: the commander's own break, a byte read back, or a byte of a
frame; `low` tells since when the bus is dominant, where it is so at the end. -/
def State.frameChar (p from_ : Nat) (low : Option Nat) (c : RxTaken) (s : State) : State :=
  let x := s.sp p
  match x.sending with
  | b :: rest =>
    match (if c.brk then x.ownBreak else none) with
    | some t => s.modSp p (fun y => { y with ownBreak := none, breakAt := low.map (fun _ => t) })
    | none => s.ownChar p low c b rest
  | [] =>
    let s := ((s.countChar p c).frameQueue p from_ c).modSp p (fun y => { y with breakAt := low })
    if c.brk then s.enterBreak p from_ else s

/-- Since when the line is at space, where it is so at the end of its runs (R156). -/
def lowSince (now : Nat) (runs : List (Bool × Nat)) : Option Nat :=
  match runs.getLast? with
  | some (false, n) => some (now - serialCycles n)
  | _ => none

/-- What the receiver has in force for a character that began at `from_` (R131, R143). -/
def SPort.formFor (x : SPort) (from_ : Nat) : RxForm :=
  match x.rxWas with
  | some (f, t) => if from_ < t then f else x.rxForm
  | none => x.rxForm

/-- The receiver goes on at the divider of the character it has completed, and holds the other one pending (R131). -/
def State.keepRx (p : Nat) (f : RxForm) (s : State) : State :=
  s.modSp p (fun x => if f.div = x.rxDiv then { x with rxWas := none }
    else { x with rxDiv := f.div, rxAuto := f.eightN1, pendRx := some (x.pendRx.getD x.rxDiv), rxWas := none })

/-- The decided bits of the character that a line brings under a configuration and a form: none where no character is
complete. -/
def State.charBits (s : State) (p : Nat) (c : Cfg) (f : RxForm) (line : List WireRun) : Option (List (Bool × Bool)) :=
  let sync := decide (s.modeOf p c = 2)
  let (data, parity) := s.formatIn p c f.eightN1
  let n := data + (if parity = 0 then 2 else 3)
  let runs := lineRuns f.inverted line
  let bits := if sync then syncSamples (s.portC c p 0x14) n runs line else startStopSamples f.div n runs
  if bits.length = n then some (decideBits sync n bits) else none

/-- SERIAL_CHARACTER_RECEIVED: the line of a port from before the falling edge of a start bit to the reference event of the
character, which is now (R132 to R137). It is taken under what was in force when it began (R20, R126, R131, R143). -/
def State.charReceived (p : Nat) (line : List WireRun) (s : State) : State :=
  let x := s.sp p
  let span := serialCycles (lineCycles line)
  let from_ := s.fc - span
  let c := s.cfgAt (s.wheels.time.ago span)
  let f := x.formFor from_
  let mode := s.modeOf p c
  if mode = 0 ∨ x.line ≠ 1 ∨ x.wakeHunt = true ∨ from_ < x.huntFrom then s
  else match s.charBits p c f line with
    | none => s
    | some ds =>
      if ((ds.head?).map (fun d => d.1)).getD false then (if mode = 2 then s else s.stat 0x4800 p 7 1)
      else
        let (data, parity) := s.formatIn p c f.eightN1
        let t := takeChar data parity ds
        let s := s.keepRx p f
        if mode = 3 then s.frameChar p from_ (lowSince s.fc (lineRuns f.inverted line)) t
        else s.charTaken p from_ c (decide (parity = 5)) t

/-- SERIAL_CHARACTER_RECEIVED. -/
def execSerialCharacterReceived (dt : Nat) (port : Fin 24) (line : List WireRun) (s : State) : Host.Outcome State Fault Refusal :=
  .next ((s.elapse dt).whenUp domSerial (State.charReceived port.val line))

/-- The start bit that a line brings is false: the majority of its centre samples is mark (R133). -/
def falseBit (d : Nat) (runs : List (Bool × Nat)) : Bool :=
  match startStopSamples d 1 runs with
  | b :: _ => (decideBit false b).1
  | [] => false

/-- FALSE_START: a start bit whose centre majority is mark (R133); in synchronous mode a first sample at mark is no start
bit (R146). -/
def State.falseStart (p : Nat) (line : List WireRun) (s : State) : State :=
  let x := s.sp p
  if (s.portMode p = 1 ∨ s.portMode p = 3) ∧ x.line = 1 ∧ x.wakeHunt = false ∧ falseBit x.rxDiv (lineRuns x.inverted line) = true
  then s.stat 0x4800 p 7 1 else s

/-- FALSE_START. -/
def execFalseStart (dt : Nat) (port : Fin 24) (line : List WireRun) (s : State) : Host.Outcome State Fault Refusal :=
  .next ((s.elapse dt).whenUp domSerial (State.falseStart port.val line))

/-! ### Breaks, stuck lines, idle lines (R131, R140 to R142) -/

/-- BREAK_END. -/
def State.breakEnd (p : Nat) (s : State) : State :=
  if (s.sp p).line = 3 then
    let s := s.modSp p (fun x => { x with line := 1, breakAt := none, markIdle := true, wakeHunt := false, huntFrom := s.fc })
    if s.portMode p = 1 then s.takeRx p else s
  else s

/-- BREAK_END. -/
def execBreakEnd (dt : Nat) (port : Fin 24) (s : State) : Host.Outcome State Fault Refusal :=
  .next ((s.elapse dt).whenUp domSerial (State.breakEnd port.val))

/-- The stuck time of a port in fabric cycles. -/
def State.stuckTime (s : State) (p : Nat) : Nat := msCycles (s.portN p 0x0C)

/-- STUCK_LOW: BREAK has lasted the stuck time (R141). -/
def State.stuckLow (p : Nat) (s : State) : State :=
  let x := s.sp p
  let from_ := x.breakAt.getD s.fc
  if x.line = 3 ∧ s.portMode p ≠ 3 ∧ from_ + s.stuckTime p ≤ s.fc then
    let ev := s.pairEvidence p
    let s := s.modSp p (fun x => { x with
      line := 4, flags := setBit (setBit x.flags 1 true) 3 true, stuckClass := ev
      probeAt := from_ + 2 * s.stuckTime p })
    let s := (s.stat 0x4800 p 0x0A 1).event 0x5001 p ev
    if s.portMode p = 1 then s.takeRx p else s
  else s

/-- STUCK_LOW. -/
def execStuckLow (dt : Nat) (port : Fin 24) (s : State) : Host.Outcome State Fault Refusal :=
  .next ((s.elapse dt).whenUp domSerial (State.stuckLow port.val))

/-- STUCK_PROBE: a fresh classification once per stuck time (R141, R156). -/
def State.stuckProbe (p : Nat) (s : State) : State :=
  let x := s.sp p
  if (x.line = 4 ∨ x.line = 6) ∧ x.probeAt ≤ s.fc then
    let ev := s.pairEvidence p
    let s := s.modSp p (fun x => { x with probeAt := x.probeAt + s.stuckTime p, stuckClass := ev })
    if ev = x.stuckClass then s else s.event 0x5002 p ev
  else s

/-- STUCK_PROBE. -/
def execStuckProbe (dt : Nat) (port : Fin 24) (s : State) : Host.Outcome State Fault Refusal :=
  .next ((s.elapse dt).whenUp domSerial (State.stuckProbe port.val))

/-- LINE_RECOVERED: two character times of mark end STUCK_LOW or BUS_SHORT (R142, R156). -/
def State.lineRecovered (p : Nat) (s : State) : State :=
  let x := s.sp p
  if x.line = 4 ∨ x.line = 6 then
    let s := (s.modSp p (fun x => { x with
      line := 1, flags := setBit x.flags 3 false, breakAt := none, markIdle := true, huntFrom := s.fc })).event 0x5003 p 0
    let s := if s.portMode p = 3 then s.modSp p (fun x => { x with nextSlot := intervalOf (s.portN p 0x16) s.time + 1 })
      else if s.portMode p = 1 then s.takeRx p else s
    if x.line = 4 && s.autobaudSet p && decide (x.autoRate ≠ 0) then s.enterAutobaud p else s
  else s

/-- LINE_RECOVERED. -/
def execLineRecovered (dt : Nat) (port : Fin 24) (s : State) : Host.Outcome State Fault Refusal :=
  .next ((s.elapse dt).whenUp domSerial (State.lineRecovered port.val))

/-- RECEIVE_MARK_IDLE: 16 sample ticks at mark outside BREAK; after a wake the port begins to hunt (R131, R147). -/
def State.receiveMarkIdle (p : Nat) (s : State) : State :=
  let x := s.sp p
  if s.portMode p = 0 ∨ x.line = 3 ∨ x.line = 4 ∨ x.line = 6 then s
  else
    let s := s.modSp p (fun x => { x with markIdle := true, wakeHunt := false, huntFrom := if x.wakeHunt then s.fc else x.huntFrom })
    if s.portMode p = 1 then s.takeRx p else s

/-- RECEIVE_MARK_IDLE. -/
def execReceiveMarkIdle (dt : Nat) (port : Fin 24) (s : State) : Host.Outcome State Fault Refusal :=
  .next ((s.elapse dt).whenUp domSerial (State.receiveMarkIdle port.val))

/-! ### The transmitter (R127 to R129) -/

/-- A character is available to a port's transmitter: in its queue, or of an item in flight, or of an item that may
begin; and the queue shows its packets (R240). -/
def State.charReady (s : State) (p : Nat) : Bool :=
  s.entitledPort p && s.yields (0x18 + p) && (!(s.sp p).tx.isEmpty || (s.admits (0x18 + p) && (match s.portListener p with
    | some l =>
      let x := s.lst l
      (match x.inFlight with
        | some i => decide (i.sent < i.chars.length)
        | none => s.mayBegin p && x.slot.isSome)
    | none => false)))

/-- FE0 hands characters of the item in flight to the transmit queue, as far as it has credit (R129, R227). -/
def State.feed (p l : Nat) (s : State) : State :=
  match (s.lst l).inFlight with
  | none => s
  | some i =>
    let n := if s.admits (0x18 + p) then Nat.min (64 - (s.sp p).tx.length) (i.chars.length - i.sent) else 0
    (((s.modLst l (fun x => { x with inFlight := some { i with sent := i.sent + n } })).modSp p (fun x => { x with
      tx := x.tx ++ (i.chars.drop i.sent).take n })).notices (0x18 + p) n)

/-- The bits of a number, least significant first. -/
def lowBits (n v : Nat) : List Bool := (List.range n).map (fun k => v.testBit k)

/-- The levels of a character on the line: start bit, data, parity or address bit, stop bits and extra idle bits (R128). -/
def sentBits (data parity stop idle : Nat) (c : BitVec 9) : List Bool :=
  let v := c.toNat % 2 ^ data
  false :: lowBits data v ++ (match parity with
    | 0 => []
    | 1 => [oddOnes v]
    | 2 => [!oddOnes v]
    | 3 => [true]
    | 4 => [false]
    | _ => [c.getLsbD 8]) ++ List.replicate (stop + idle) true

/-- A character as a port sends it: in the configured format, or 8N1 at a measured divider (R128, R148). -/
def State.txBits (s : State) (p : Nat) (c : BitVec 9) : List Bool :=
  if (s.sp p).txAuto then sentBits 8 0 1 (s.portN p 0x0B) c
  else sentBits (s.portN p 3) (s.portN p 4) (s.portN p 5) (s.portN p 0x0B) c

/-- The next character of a port's queue is on the line. In driver-enable mode 2 SER_AUX is high with it (R127). -/
def State.putChar (p : Nat) (s : State) : State :=
  match (s.sp p).tx with
  | [] => s
  | c :: rest =>
    (s.modSp p (fun x => { x with
      busy := some c, wire := s.txBits p c, tx := rest, lagEnd := none, leadEnd := none
      aux := x.aux || (decide (s.portMode p = 1) && decide (s.portN p 8 = 2)) })).popped (0x18 + p) s

/-- The next character of a port is on the line; a composed item begins where none is in flight, and FE0 fills the queue
again. What the slot of a listener gains counts as credit (R231). -/
def State.startChar (p : Nat) (s : State) : State :=
  match s.portListener p with
  | none => s.putChar p
  | some l =>
    let t := if (s.lst l).inFlight.isNone && (s.sp p).tx.isEmpty then s.modLst l (fun x => { x with inFlight := x.slot, slot := none }) else s
    ((((t.feed p l).putChar p).feed p l)).regain s

/-- The port's mode has a transmitter of items: start-stop or synchronous. -/
def State.sends (s : State) (p : Nat) : Bool := decide (s.portMode p = 1 ∨ s.portMode p = 2)

/-- The driver-enable mode 2 lead of a start-stop port (R127). -/
def State.needsLead (s : State) (p : Nat) : Bool :=
  decide (s.portMode p = 1) && decide (s.portN p 8 = 2) && !(s.sp p).aux

/-- SERIAL_TX_START: a character becomes available to an idle transmitter. In driver-enable mode 2 SER_AUX rises first,
and the character waits for the lead time. -/
def State.txStart (p : Nat) (s : State) : State :=
  let x := s.sp p
  if s.sends p = false ∨ x.busy.isSome = true ∨ x.leadEnd.isSome = true ∨ x.startAfter.isSome = true ∨ s.charReady p = false then s
  else if s.needsLead p then
    let s := s.modSp p (fun x => { x with aux := true })
    if s.portN p 9 = 0 then s.startChar p
    else s.modSp p (fun x => { x with leadEnd := some (s.fc + tickCycles x.txDiv (s.portN p 9)) })
  else s.startChar p

/-- SERIAL_TX_START. -/
def execSerialTxStart (dt : Nat) (port : Fin 24) (s : State) : Host.Outcome State Fault Refusal :=
  .next ((s.elapse dt).whenUp domSerial (State.txStart port.val))

/-- DRIVER_LEAD_EXPIRY: the start bit follows the lead time. -/
def State.leadExpiry (p : Nat) (s : State) : State :=
  match (s.sp p).leadEnd with
  | some t =>
    if t ≤ s.fc then
      let s := s.modSp p (fun x => { x with leadEnd := none })
      if s.charReady p then s.startChar p else s
    else s
  | none => s

/-- DRIVER_LEAD_EXPIRY. -/
def execDriverLeadExpiry (dt : Nat) (port : Fin 24) (s : State) : Host.Outcome State Fault Refusal :=
  .next ((s.elapse dt).whenUp domSerial (State.leadExpiry port.val))

/-- DRIVER_LAG_EXPIRY: SER_AUX falls. -/
def State.lagExpiry (p : Nat) (s : State) : State :=
  match (s.sp p).lagEnd with
  | some t => if t ≤ s.fc then s.modSp p (fun x => { x with aux := false, lagEnd := none }) else s
  | none => s

/-- DRIVER_LAG_EXPIRY. -/
def execDriverLagExpiry (dt : Nat) (port : Fin 24) (s : State) : Host.Outcome State Fault Refusal :=
  .next ((s.elapse dt).whenUp domSerial (State.lagExpiry port.val))

/-- The item in flight of a port has left whole (R308). -/
def State.itemDone (p : Nat) (s : State) : State :=
  match s.portListener p with
  | none => s
  | some l =>
    match (s.lst l).inFlight with
    | some i =>
      if i.chars.length ≤ i.sent ∧ (s.sp p).tx = [] then (s.modLst l (fun x => { x with inFlight := none })).entrySent l i.entry else s
    | none => s

/-- SERIAL_TX_DONE: a character has ended; a pending divider is taken, and the next character follows without a gap. -/
def State.txDone (p : Nat) (s : State) : State :=
  if (s.sp p).busy.isNone then s
  else
    let before := s
    let s := ((s.modSp p (fun x => { x with busy := none, wire := [] })).stat 0x4800 p 9 1).takeTx p
    let s := if s.portMode p = 2 then s.takeRx p else s
    let s := ((s.itemDone p).releaseIdle p).regain before
    if s.sends p && s.charReady p then s.startChar p
    else if s.portMode p = 1 ∧ s.portN p 8 = 2 then
      s.modSp p (fun x => { x with lagEnd := if x.aux then some (s.fc + tickCycles x.txDiv (s.portN p 0x0A)) else none })
    else s

/-- SERIAL_TX_DONE. -/
def execSerialTxDone (dt : Nat) (port : Fin 24) (s : State) : Host.Outcome State Fault Refusal :=
  .next ((s.elapse dt).whenUp domSerial (State.txDone port.val))

/-! ### Starts and modes (R126, R139) -/

/-- A serial port as it starts: hunting or measuring, at its configured divider and fixed polarity, with what its queues
hold (R139, R143, R148). -/
def State.startPort (p : Nat) (s : State) : State :=
  let d := s.portN p 2
  let s := s.modSp p (fun x => {
      rx := x.rx, tx := x.tx, flags := x.flags, txDiv := d, rxDiv := d, line := 1, huntFrom := s.fc
      inverted := decide (s.portN p 6 = 1), nextSlot := intervalOf (s.portN p 0x16) s.time + 1 })
  if s.autobaudSet p then s.enterAutobaud p else s

/-- A port takes a changed mode: what it sends and receives now is completed; the rest of what a port without items holds is
dropped, and carding discards the partial sentence of a disabled port (R126). -/
def State.changeMode (p : Nat) (s : State) : State :=
  let x := s.sp p
  let was : Option (RxForm × Nat) := some (x.rxForm, s.fc)
  let s := if s.sends p then s else s.clearTx p
  if s.portMode p = 0 then
    let s : State := { s with carding.framers := Tbl.del p s.carding.framers }
    s.modSp p (fun x => { x with
      line := 1, aux := false, leadEnd := none, lagEnd := none, sending := [], ownBreak := none, slot := none, breakAt := none
      wakeHunt := false, wire := if x.busy.isSome then x.wire else [], rxWas := was })
  else (s.startPort p).modSp p (fun y => { y with busy := x.busy, wire := if x.busy.isSome then x.wire else [], rxWas := was, huntFrom := x.huntFrom })

/-! ### Pins (R127, R146, R150) -/

/-- What the device drives on a ball: a level, high impedance, electrical idle, a clock, or what its chapter sends. -/
inductive Drive where
  | low | high | highZ | idle | clock | data
  deriving DecidableEq, Repr

/-- SER_AUX of a port (R127, R321). -/
def State.serAux (s : State) (p : Nat) : Drive :=
  let x := s.sp p
  if s.up domSerial = false then .low
  else match s.portMode p with
    | 1 =>
      if s.entitledPort p then
        if x.startAfter.isSome then .high
        else match s.portN p 8 with
          | 0 => .low
          | 1 => .high
          | _ => if x.aux then .high else .low
      else if x.overlapEnd.isSome then .high else .low
    | 2 => if s.entitledPort p then .clock else .highZ
    | 3 => .high
    | _ => .low

/-- SER_TXD of a port; mark is high before the transmit inversion of 0x2100:07. -/
def State.serTxd (s : State) (p : Nat) : Drive :=
  let x := s.sp p
  let mark : Drive := if s.portN p 7 = 1 then .low else .high
  match s.portMode p with
  | 2 => if s.entitledPort p then (if x.busy.isSome then .data else mark) else .highZ
  | 3 => if s.entitledPort p && !x.sending.isEmpty then .data else .high
  | _ => if x.busy.isSome then .data else mark

/-- The line state of a port (Table 6.5). -/
def State.lineState (s : State) (p : Nat) : Nat :=
  let x := s.sp p
  if s.portMode p = 0 then 0
  else if x.line = 1 ∧ (x.busy.isSome = true ∨ s.portMode p = 3 ∧ (x.slot.isSome = true ∨ x.sending.isEmpty = false)) then 2
  else x.line

/-- The port is a wake source in Doze and Listen (R147). -/
def State.wakePort (s : State) (p : Nat) : Bool :=
  decide (s.portN p 0x0D = 1) && decide (s.portMode p = 1) && decide ((s.sp p).line ≠ 4)

end Sys2Proof.Machine
end

