-- ==== Sys2Proof/Machine/FrameMode.lean ====
section
/-! DEFINITION. Frame mode (R149 to R156) and the serial intake of carding (R51): headers, protected identifiers and
checksums, the outcomes of Table 6.8, and the commands FRAME_SLOT_START, FRAME_RESPONSE_DEADLINE,
FRAME_HEADER_OBSERVED, BUS_SHORT and CARD_SERIAL_CHARACTER. -/

namespace Sys2Proof.Machine

open Sys2Proof

/-- The protected identifier of an identifier (R151). -/
def protectedId (id : Nat) : Nat :=
  let b (n : Nat) : Bool := id.testBit n
  let p0 := (b 0 != b 1) != (b 2 != b 4)
  let p1 := !((b 1 != b 3) != (b 4 != b 5))
  id % 64 + 64 * p0.toNat + 128 * p1.toNat

/-- Add a byte with the carry out of bit 7 added back into bit 0. -/
def carryAdd (a : Nat) (b : Byte) : Nat :=
  let n := a + b.toNat
  if 256 ≤ n then n - 255 else n

/-- The frame checksum over data, and over the protected identifier where it is enhanced (R152). -/
def frameSum (enhanced : Bool) (id : Nat) (data : List Byte) : Nat :=
  let start := if enhanced && decide (id ≠ 60) then protectedId id else 0
  255 - data.foldl carryAdd start

/-- A field of a schedule row (Table 6.10). -/
def State.entryN (s : State) (p sub e : Nat) : Nat := s.cn 0x2140 sub (32 * (p - 20) + e)

/-- The number of rows of a port's schedule, up to the first of kind 0 (R150). -/
def State.scheduleLen (s : State) (p : Nat) : Nat := ((List.range 32).takeWhile (fun e => s.entryN p 2 e != 0)).length

/-- The response deadline of a frame of `n` data bytes in fabric cycles from the start of the break (R153). -/
def State.frameTime (s : State) (p n : Nat) : Nat :=
  (34 + 10 * (n + 1)) * (100 + s.portN p 0x17) * 16 * (s.sp p).rxDiv * 15625 / (100 * 2880)

/-- What the frames of a port share as records (R54, R65). -/
def frameIntake (p : Nat) (pip : Pip) (states : Nat) : Intake :=
  { port := p, gen := 0, kind := 5, engine := engineOf p false, pip := pip, states := states }

/-- A frame is rejected and charged to the row of its identifier (R153). -/
def State.rejectFrame (p : Nat) (f : Slot) (reason offset : Nat) (pip : Pip) (states : Nat) (s : State) : State :=
  let c := s.cfgAt pip.time
  let row := match matchSource s.uid c p (some (.frame f.id)) with
    | .ok r => some r
    | .error _ => none
  let s := (s.modSp p (fun x => { x with slot := none })).discover c p (.frame f.id) pip.time
  s.reject (frameIntake p pip states) c row reason offset [] [] f.got

/-- All bytes of a frame are in: its checksum decides (R152 to R154, FRAME_COMPLETE). -/
def State.completeFrame (p : Nat) (f : Slot) (pip : Pip) (states : Nat) (s : State) : State :=
  let data := f.got.take f.length
  let sum := frameSum (s.entryN p 5 f.entry == 1) f.id data
  if (f.got[f.length]?).map BitVec.toNat = some sum then
    ((s.modSp p (fun x => { x with slot := none })).stat 0x4800 p 0x0E 1).acceptLocal (frameIntake p pip states) (.frame f.id)
      [dataSlot 0 data, dataSlot 4 data, some (f.id : Int), some (f.length : Int)] 0
  else (s.stat 0x4800 p 0x11 1).rejectFrame p f 0x09 f.length pip states

/-- One byte of a response reaches carding (R153). -/
def State.frameByte (p : Nat) (c : RxChar) (s : State) : State :=
  match (s.sp p).slot with
  | none => s
  | some f =>
    if c.data.toNat / 512 ≠ 0 then s.rejectFrame p f 0x01 f.got.length c.pip c.states
    else
      let f : Slot := { f with got := f.got ++ [c.data.setWidth 8] }
      let s := s.modSp p (fun x => { x with slot := some f })
      if f.length < f.got.length then s.completeFrame p f c.pip c.states else s

/-! ### Carding of serial characters (R51) -/

/-- The rejection that a character's tag causes: BREAK, CHAR_ERROR or none. -/
def tagReason (w : BitVec 16) : Option Nat :=
  if w.getLsbD 12 then some 0x02 else if w.toNat / 512 % 8 = 0 then none else some 0x01

/-- One character of a start-stop or synchronous port through its framer. -/
def State.sentenceChar (p : Nat) (c : RxChar) (s : State) : State :=
  let o := (Tbl.get ({} : Framer) p s.carding.framers).take (c.data.setWidth 8) (tagReason c.data)
  let s := { s with carding.framers := Tbl.put p o.framer s.carding.framers }
  let s := if o.noise then s.stat 0x4810 p 3 1 else s
  match o.taken with
  | some t =>
    s.cardSentence { port := p, gen := 0, kind := 1, engine := engineOf p false, pip := c.pip, states := c.states } t none
  | none => s

/-- An engine takes the oldest character of a receive queue. -/
def State.takeChar (p : Nat) (s : State) : State :=
  match (s.sp p).rx with
  | [] => s.readEmpty p
  | c :: rest =>
    let s := (s.modSp p (fun x => { x with rx := rest })).popped p s
    if s.portMode p = 3 then s.frameByte p c else s.sentenceChar p c

/-- CARD_SERIAL_CHARACTER: the engine of a port takes a character, with credit (R227). -/
def State.cardSerial (p : Nat) (s : State) : State :=
  let e := engineOf p false
  if s.engineTakes e p then s.cardsWith e (State.takeChar p) else s

/-- CARD_SERIAL_CHARACTER. -/
def execCardSerialCharacter (dt : Nat) (port : Fin 24) (s : State) : Host.Outcome State Fault Refusal :=
  .next ((s.elapse dt).whenUp domFabric (State.cardSerial port.val))

/-! ### Slots (R150, R153, R155, R156) -/

/-- The engine of a port takes the bytes that wait for a frame. -/
def State.takeBytes (p : Nat) (s : State) : State :=
  if s.engineTakes (engineOf p false) p then
    (s.sp p).rx.foldl (fun s c => s.frameByte p c) ((s.modSp p (fun x => { x with rx := [] })).popped p s)
  else s

/-- The response deadline of a frame: the bytes received by then decide it, and without one whether a start bit had come,
as `started` or a later byte tells (Table 6.8). With its carding domain in reset it is rejected by no one. -/
def State.frameDeadline (p : Nat) (started : Bool) (s : State) : State :=
  match (s.sp p).slot with
  | none => s
  | some f =>
    if s.fc < f.deadline then s
    else
      let s := s.takeBytes p
      match (s.sp p).slot with
      | none => s
      | some f =>
        if f.got.isEmpty && !started && !f.begun then (s.modSp p (fun x => { x with slot := none })).stat 0x4800 p 0x0F 1
        else
          let s := s.stat 0x4800 p 0x10 1
          if s.up (engineDom (engineOf p false)) then s.rejectFrame p f 0x04 f.got.length s.pip s.wheelByte
          else s.modSp p (fun x => { x with slot := none })

/-- The deadline of a frame, after which an outgoing unit releases the port (R320). -/
def State.frameExpiry (p : Nat) (started : Bool) (s : State) : State :=
  if s.portMode p = 3 then (s.frameDeadline p started).releaseIdle p else s

/-- FRAME_RESPONSE_DEADLINE. -/
def execFrameResponseDeadline (dt : Nat) (at_ : FrameDeadline) (s : State) : Host.Outcome State Fault Refusal :=
  .next ((s.elapse dt).whenUp domSerial (State.frameExpiry (20 + at_.port.val) at_.started))

/-- The levels of a header and the bytes after it: a break of 0x2100:15 bit times, the delimiter, and 8N1 characters without
gaps (R150). -/
def headerBits (brk : Nat) (bytes : List Byte) : List Bool :=
  List.replicate brk false ++ true :: bytes.flatMap (fun b => sentBits 8 0 1 0 (b.setWidth 9))

/-- The commander sends bytes behind a break and its delimiter (R150). -/
def State.sendBus (p : Nat) (bytes : List Byte) (f : Option Slot) (s : State) : State :=
  let brk := s.portN p 0x15
  s.modSp p (fun x => { x with
    sending := bytes, wire := headerBits brk bytes, slot := f, ownBreak := some (s.fc + bitCycles x.txDiv brk) })

/-- The commander sends the header of an entry, and the data and checksum of a publish entry (R150). -/
def State.sendHeader (p e : Nat) (s : State) : State :=
  let id := s.entryN p 3 e
  let n := s.entryN p 4 e
  let head : List Byte := [0x55, BitVec.ofNat 8 (protectedId id)]
  if s.entryN p 2 e = 1 then
    let data := leBytes n (s.entryN p 7 e)
    s.sendBus p (head ++ data ++ [BitVec.ofNat 8 (frameSum (s.entryN p 5 e == 1) id data)]) none
  else s.sendBus p head (some { entry := e, id := id, length := n, deadline := s.fc + s.frameTime p n, got := [] })

/-- The end of a schedule slot: dividers are taken, and a mode that a set point has given (R126, R131). -/
def State.slotEnd (p : Nat) (s : State) : State :=
  let s := ((s.frameDeadline p false).takeTx p).takeRx p
  if (s.sp p).held then (s.modSp p (fun x => { x with held := false })).changeMode p else s

/-- FRAME_SLOT_START: the time wheel is at the multiple at which the next entry is due. A port that may not begin only ends
its slot. -/
def State.slotStart (p : Nat) (s : State) : State :=
  if s.portMode p ≠ 3 ∨ (s.sp p).line = 6 ∨ s.slotOpen p = true then s
  else
    let s := s.slotEnd p
    let k := intervalOf (s.portN p 0x16) s.time
    let n := s.scheduleLen p
    if s.portMode p ≠ 3 ∨ s.mayBegin p = false ∨ n = 0 then s
    else
      let e := (s.sp p).sched % n
      let s := s.modSp p (fun x => { x with sched := (e + 1) % n, nextSlot := k + s.entryN p 6 e })
      s.sendHeader p e

/-- FRAME_SLOT_START. -/
def execFrameSlotStart (dt : Nat) (p : Fin 4) (s : State) : Host.Outcome State Fault Refusal :=
  .next ((s.elapse dt).whenUp domSerial (State.slotStart (20 + p.val)))

/-- FRAME_HEADER_OBSERVED: a header on the bus of a port that is not entitled, at the end of its identifier (R155). -/
def State.headerObserved (p dominant : Nat) (sync pid : Byte) (s : State) : State :=
  if s.portMode p ≠ 3 ∨ s.entitledPort p = true ∨ (s.sp p).line = 6 ∨ dominant < 11 ∨ sync ≠ 0x55 then s
  else if protectedId pid.toNat ≠ pid.toNat then s.stat 0x4800 p 0x12 1
  else
    let id := pid.toNat % 64
    let s := (s.frameDeadline p false).modSp p (fun x => { x with slot := none, sending := [], wire := [] })
    match (List.range (s.scheduleLen p)).find? (fun e => s.entryN p 3 e == id) with
    | none => s
    | some e =>
      if s.entryN p 2 e ≠ 2 then s
      else
        let n := s.entryN p 4 e
        let gone := bitCycles (s.sp p).rxDiv (dominant + 21)
        let f : Slot := { entry := e, id := id, length := n, deadline := s.fc + s.frameTime p n - gone, got := [] }
        s.modSp p (fun x => { x with slot := some f })

/-- FRAME_HEADER_OBSERVED. -/
def execFrameHeaderObserved (dt : Nat) (p : Fin 4) (dominantBits : Nat) (sync pid : Byte) (s : State) :
    Host.Outcome State Fault Refusal :=
  .next ((s.elapse dt).whenUp domSerial (State.headerObserved (20 + p.val) dominantBits sync pid))

/-- BUS_SHORT: the bus has been dominant for the stuck time, the commander's own sending apart (R156). -/
def State.busShort (p : Nat) (s : State) : State :=
  match (s.sp p).breakAt with
  | none => s
  | some from_ =>
    if s.portMode p = 3 ∧ (s.sp p).line ≠ 6 ∧ from_ + s.stuckTime p ≤ s.fc then
      let s := s.modSp p (fun x => { x with
        line := 6, slot := none, sending := [], wire := [], ownBreak := none, probeAt := from_ + 2 * s.stuckTime p })
      (s.stat 0x4800 p 0x0A 1).event 0x5006 p 0
    else s

/-- BUS_SHORT. -/
def execBusShort (dt : Nat) (p : Fin 4) (s : State) : Host.Outcome State Fault Refusal :=
  .next ((s.elapse dt).whenUp domSerial (State.busShort (20 + p.val)))

end Sys2Proof.Machine
end

