-- ==== Sys2Proof/Machine/Check.lean ====
section
/-! DEFINITION. The check stage of the blocking cycle (R280): every refusal that the chapters assign to it, as entries
of window 0x5001 with the reasons of Table 12.9. -/

namespace Sys2Proof.Machine

open Sys2Proof

/-- What the check judges: the shadow with the BND values in force, the position that one-shot rows are held against
(R41, R281), and the unit's identity for defaults. -/
structure Check where
  u : UnitId
  c : Cfg
  point : WheelPos
  deriving DecidableEq, Repr

/-- A value of the judged configuration. -/
def Check.n (k : Check) (index sub row : Nat) : Nat := Cfg.nat k.u k.c index sub row
/-- The same as an integer. -/
def Check.i (k : Check) (index sub row : Nat) : Int := Cfg.int k.u k.c index sub row
/-- The same as a REAL32. -/
def Check.r (k : Check) (index sub row : Nat) : Rat := Cfg.real k.u k.c index sub row
/-- The same as text. -/
def Check.t (k : Check) (index sub row : Nat) : List Byte := Cfg.text k.u k.c index sub row

/-- The reasons of Table 12.9. -/
abbrev rsRange : Nat := 1
/-- Names something that is not enabled. -/
abbrev rsMissing : Nat := 2
/-- Two rows claim one thing. -/
abbrev rsDuplicate : Nat := 3
/-- A combination forbidden there. -/
abbrev rsNotAllowed : Nat := 4
/-- Out of order. -/
abbrev rsOrder : Nat := 5
/-- The compute budget of R122. -/
abbrev rsBudget : Nat := 6
/-- Timing. -/
abbrev rsTiming : Nat := 7
/-- More rows than a resource allows. -/
abbrev rsCapacity : Nat := 8
/-- The standby's check failed. -/
abbrev rsTwin : Nat := 9

/-- A failure where the condition holds. -/
def failIf (b : Bool) (index sub row reason : Nat) : List CheckEntry := if b then [⟨index, sub, row, reason⟩] else []

/-- The row of an entry about an object that is no window. -/
abbrev noRow : Nat := 0xFFFF

/-- The elements of a list that repeat an earlier one under `same`. -/
def repeats {α : Type} (same : α → α → Bool) (l : List α) : List α :=
  (l.foldl (fun (p : List α × List α) x => if p.1.any (fun y => same y x) then (p.1, p.2 ++ [x]) else (p.1 ++ [x], p.2)) ([], [])).2

/-! ### What is enabled in the judged configuration -/

/-- The enabled user rows of the appointment table. -/
def Check.apptRows (k : Check) : List Nat := (Cfg.rows 0x2010 k.c).filter (fun r => decide (r ≤ 1015) && k.n 0x2010 3 r != 0)
/-- The enabled row whose consumer is the one named. -/
def Check.rowFor (k : Check) (consumer : Nat) : Option Nat := k.apptRows.find? (fun r => k.n 0x2010 7 r == consumer)
/-- A source row is enabled. -/
def Check.sourceOn (k : Check) (r : Nat) : Bool := decide (r ≤ 511) && k.n 0x2310 2 r == 1
/-- A quantity group is enabled. -/
def Check.groupOn (k : Check) (g : Nat) : Bool := decide (g ≤ 63) && k.n 0x2320 2 g == 1
/-- A tank is enabled. -/
def Check.tankOn (k : Check) (t : Nat) : Bool := decide (t ≤ 95) && k.n 0x3110 2 t == 1
/-- The enabled tanks. -/
def Check.tanks (k : Check) : List Nat := (Cfg.rows 0x3110 k.c).filter k.tankOn
/-- The enabled cascades. -/
def Check.cascades (k : Check) : List Nat := (List.range 16).filter (fun c => k.n 0x3010 2 c == 1)
/-- The source rows that may be enabled. -/
def Check.sources (k : Check) : List Nat := (Cfg.live k.c 0x2310 44).filter (fun r => decide (r ≤ 511))
/-- The enabled listener rows. -/
def Check.listeners (k : Check) : List Nat := (listenerRows k.c).filter (listenerOn k.u k.c)
/-- The enabled rows of the datagram groups of a port. -/
def Check.groupRows (k : Check) (p : Nat) : List Nat := (Cfg.rows (0x2210 + p) k.c).filter (fun g => k.n (0x2210 + p) 2 g == 1)
/-- The enabled listeners of an Ethernet port. -/
def Check.ethListeners (k : Check) (p : Nat) : List Nat := k.listeners.filter (fun l => listenerKind k.u k.c l == .eth p)
/-- An IPv4 multicast address (R78). -/
def isMulticast (ip : Nat) : Bool := ip / 2 ^ 28 == 14

/-! ### Appointments (R18, R41) -/

/-- A consumer code of Table 2.9. -/
def consumerKnown (x : Nat) : Bool :=
  match x / 0x100 with
  | 0 => x == 0
  | 1 => decide (x % 0x100 ≤ 0x0F)
  | 2 => decide (x % 0x100 ≤ 0x1F)
  | 3 => x == 0x0300
  | 4 => true
  | 6 => decide (x % 0x100 ≤ 7)
  | 7 => x == 0x0700
  | 8 => x == 0x0800
  | 9 => x == 0x0900
  | _ => false

/-- The period of a periodic row in revolutions. -/
def Check.period (k : Check) (r : Nat) : Rat :=
  if k.n 0x2010 6 r ≠ 0 then 1 / (k.n 0x2010 6 r : Rat) else (k.n 0x2010 5 r : Rat) / 2 ^ 32

/-- The nominal rate of a wheel in revolutions a second; the shaft has none (R16). -/
def Check.nominal (k : Check) (wheel : Nat) : Option Rat :=
  match wheel with
  | 0 => some 1
  | 2 => some (k.n 0x200A 1 0 : Rat)
  | 3 => some (1000 / (k.n 0x200B 2 0 : Rat))
  | _ => none

/-- The pulse of a WHL_EVT row is not shorter than the row's period. -/
def Check.wideEvt (k : Check) (r : Nat) : Bool :=
  match k.nominal (k.n 0x2010 2 r) with
  | some rate => decide (k.period r ≤ (k.n 0x2019 (9 + k.n 0x2010 7 r % 0x100) 0 : Rat) * rate / 1000000000)
  | none => false

/-- R41 for one enabled row, but for the one-shot phase. -/
def Check.appt (k : Check) (r : Nat) : List CheckEntry :=
  let wheel := k.n 0x2010 2 r
  let x := k.n 0x2010 7 r
  let periodic := k.n 0x2010 3 r == 2
  failIf ((x / 0x100 == 1 || x == 0x0300) && wheel != 0) 0x2010 2 r rsNotAllowed ++
  failIf (periodic && k.n 0x2010 6 r == 0 && decide (k.n 0x2010 5 r < if wheel = 0 then 0xA7C6 else 0x10000)) 0x2010 5 r rsRange ++
  failIf (!consumerKnown x) 0x2010 7 r rsRange ++
  failIf (x == 0x0700 || x == 0x0800 || x == 0x0900) 0x2010 7 r rsNotAllowed ++
  failIf (periodic && x / 0x100 == 6 && consumerKnown x && k.wideEvt r) 0x2010 7 r rsRange ++
  failIf (k.n 0x2010 8 r != 0 && wheel != 1) 0x2010 8 r rsNotAllowed

/-- A one-shot row on the time wheel whose phase is not after the set point (R41, R281). -/
def Check.oneShots (k : Check) : List CheckEntry :=
  k.apptRows.flatMap (fun r =>
    failIf (k.n 0x2010 3 r == 1 && k.n 0x2010 2 r == 0 && !posAfter (BitVec.ofInt 64 (k.i 0x2010 4 r)) k.point) 0x2010 4 r rsTiming)

/-- The appointment table (R41). -/
def Check.appts (k : Check) : List CheckEntry :=
  k.apptRows.flatMap k.appt ++ k.oneShots ++
  (repeats (fun a b => k.n 0x2010 7 a == k.n 0x2010 7 b) (k.apptRows.filter (fun r => k.n 0x2010 7 r != 0))).map
    (fun r => ⟨0x2010, 7, r, rsDuplicate⟩)

/-! ### Sources and groups (R57, R69, R222) -/

/-- Key kinds allowed on a port (Table 3.4). -/
def keyAllowed (kind port : Nat) : Bool :=
  let serial := decide (port ≤ 0x17)
  let eth := port == 0x20 || port == 0x21
  let can := port == 0x28 || port == 0x29
  match kind with
  | 0 => serial || eth || can
  | 1 => serial
  | 2 => eth
  | 3 => can
  | 4 => decide (0x30 ≤ port ∧ port ≤ 0x40)
  | 5 => decide (0x14 ≤ port ∧ port ≤ 0x17)
  | 6 => port == 0x2A
  | _ => false

/-- An upper-case letter or a digit. -/
def upperDigit (b : Byte) : Bool := upper b || digit b

/-- The key text has the form of its kind (Table 3.4). -/
def keyForm (kind : Nat) (t : List Byte) : Bool :=
  match kind with
  | 1 => (t.length == 2 && t.all upperDigit) || (t.length == 4 && t.take 1 == ascii "P" && t.all upperDigit)
  | 2 => decide (1 ≤ t.length ∧ t.length ≤ 15)
  | _ => true

/-- Two rows claim one port and key (R57). -/
def Check.sameKey (k : Check) (a b : Nat) : Bool :=
  let kind := k.n 0x2310 4 a
  k.n 0x2310 3 a == k.n 0x2310 3 b && kind == k.n 0x2310 4 b &&
    (match kind with
     | 1 => k.t 0x2310 5 a == k.t 0x2310 5 b
     | 2 => k.t 0x2310 5 a == k.t 0x2310 5 b
     | 3 => k.n 0x2310 6 a == k.n 0x2310 6 b
     | 5 => k.n 0x2310 6 a == k.n 0x2310 6 b
     | 6 => k.n 0x2310 6 a == k.n 0x2310 6 b
     | _ => true)

/-- The field that holds the key of a kind. -/
def keyField (kind : Nat) : Nat := if kind = 1 ∨ kind = 2 then 5 else if kind = 0 ∨ kind = 4 then 4 else 6

/-- A loop PDO is sent: its COB-ID has bit 31 clear. -/
def Check.pdoOn (k : Check) (n : Nat) : Bool := !(k.n (0x1800 + n) 1 0).testBit 31

/-- COB-IDs that CANopen fixes or configures on C2, apart from the loop PDOs (Table 9.5, R218, R220). -/
def Check.cobs (k : Check) : List Nat :=
  let node := k.n 0x2260 1 0
  [k.n 0x1005 0 0 % 0x800, 0x700 + node, 0x580 + node] ++ (if (k.n 0x1014 0 0).testBit 31 then [] else [k.n 0x1014 0 0 % 0x800])

/-- The key number of an enabled row of kind 6 is refused (R222). -/
def Check.badCob (k : Check) (r : Nat) : Bool :=
  let x := k.n 0x2310 6 r
  x == 0 || decide (0x7FF < x) || k.cobs.contains x || x == 0x600 + k.n 0x2260 1 0 ||
    (List.range 12).any (fun n => k.pdoOn n && k.n (0x1800 + n) 1 0 == x)

/-- One source row (R56, R57). -/
def Check.source (k : Check) (r : Nat) : List CheckEntry :=
  let port := k.n 0x2310 3 r
  let kind := k.n 0x2310 4 r
  if port = 0xFF then failIf (k.n 0x2310 2 r == 1) 0x2310 3 r rsMissing
  else
    failIf (k.n 0x2310 2 r == 1 && kind == 6 && k.n 0x2242 1 0 == 0) 0x2310 3 r rsMissing ++
    failIf (!keyAllowed kind port) 0x2310 4 r rsNotAllowed ++
    failIf (!keyForm kind (k.t 0x2310 5 r)) 0x2310 5 r rsRange ++
    failIf (kind == 5 && decide (59 < k.n 0x2310 6 r)) 0x2310 6 r rsRange ++
    failIf (k.n 0x2310 2 r == 1 && kind == 6 && k.badCob r) 0x2310 6 r rsRange

/-- The source table. -/
def Check.sourceTable (k : Check) : List CheckEntry :=
  k.sources.flatMap k.source ++
  (repeats k.sameKey (k.sources.filter (fun r => k.n 0x2310 3 r != 0xFF))).map (fun r => ⟨0x2310, keyField (k.n 0x2310 4 r), r, rsDuplicate⟩) ++
  ((k.sources.filter (fun r => k.sourceOn r && k.n 0x2310 4 r == 6)).drop 14).map (fun r => ⟨0x2310, 2, r, rsCapacity⟩)

/-- One enabled quantity group (R69). -/
def Check.group (k : Check) (g : Nat) : List CheckEntry :=
  let cands := (fields 16 4 (k.n 0x2320 3 g)).filter (fun x => x != 0xFFFF)
  failIf (cands.any (fun x => !k.sourceOn x)) 0x2320 3 g rsMissing ++
  failIf (decide (repeats (fun a b => a == b) cands ≠ [])) 0x2320 3 g rsDuplicate ++
  failIf (cands.any (fun x => k.n 0x2310 9 x == 0)) 0x2320 3 g rsNotAllowed ++
  failIf ((fields 16 3 (k.n 0x2320 4 g)).any (fun f => decide (0x13 < f))) 0x2320 4 g rsRange ++
  failIf (k.n 0x2320 6 g == 2 && k.n 0x2320 7 g == 9) 0x2320 7 g rsRange

/-- The group table. -/
def Check.groupTable (k : Check) : List CheckEntry := ((Cfg.rows 0x2320 k.c).filter k.groupOn).flatMap k.group

/-! ### Listeners, rules and shapers (R19, R78, R83, R90) -/

/-- One enabled listener (R78, Table 6.1). -/
def Check.listener (k : Check) (l : Nat) : List CheckEntry :=
  let chosen := k.t 0x2520 8 l
  (match listenerKind k.u k.c l with
   | .serial p => failIf (k.n (0x2100 + p) 1 0 == 3 || k.n (0x2100 + p) 1 0 == 0) 0x2520 3 l rsNotAllowed
   | .eth _ =>
     failIf (decide (k.n 0x2520 5 l &&& 5 ≠ 5)) 0x2520 5 l rsNotAllowed ++
     failIf (!isMulticast (k.n 0x2520 9 l)) 0x2520 9 l rsRange ++
     failIf (k.n 0x2520 0x0A l == 0) 0x2520 0x0A l rsRange
   | _ => []) ++
  failIf (chosen != [] && !(chosen.length == 2 && chosen.all upperDigit)) 0x2520 8 l rsRange

/-- The listener table. -/
def Check.listenerTable (k : Check) : List CheckEntry :=
  let single := k.listeners.filter (fun l => match listenerKind k.u k.c l with
    | .serial _ => true
    | .can _ => true
    | _ => false)
  k.listeners.flatMap k.listener ++
  (repeats (fun a b => listenerKind k.u k.c a == listenerKind k.u k.c b) single).map (fun l => ⟨0x2520, 3, l, rsDuplicate⟩) ++
  ((k.ethListeners 0).drop 16 ++ (k.ethListeners 1).drop 16).map (fun l => ⟨0x2520, 3, l, rsCapacity⟩)

/-- One enabled rule (R19, R83). -/
def Check.rule (k : Check) (r : Nat) : List CheckEntry :=
  let src := k.n 0x2510 3 r
  let kind := k.n 0x2510 5 r
  let cls := k.n 0x2510 0x0C r
  let shaper := k.n 0x2510 0x0D r
  let ls := bitList (k.n 0x2510 0x0B r)
  let known := src == 0xFFFF || src == 0x0240 || k.sourceOn src || (decide (0x200 ≤ src) && k.groupOn (src - 0x200))
  failIf (!known) 0x2510 3 r rsMissing ++
  failIf ((decide (4 ≤ kind ∧ kind ≤ 7) || kind == 0x0F) && ls.any (fun l => decide (l < 62))) 0x2510 5 r rsNotAllowed ++
  failIf (ls.any (fun l => !listenerOn k.u k.c l)) 0x2510 0x0B r rsMissing ++
  failIf (decide (3 < cls) && cls != 0xFF) 0x2510 0x0C r rsRange ++
  failIf (shaper != 0xFFFF && decide (255 < shaper)) 0x2510 0x0D r rsRange ++
  failIf (decide (shaper ≤ 255) && k.n 0x2530 2 shaper == 0) 0x2510 0x0D r rsMissing

/-- The rules and the shapers. -/
def Check.rules (k : Check) : List CheckEntry :=
  ((ruleRows k.c).filter (fun r => k.n 0x2510 2 r == 1)).flatMap k.rule ++
  (Cfg.rows 0x2530 k.c).flatMap (fun n => failIf (k.n 0x2530 2 n == 3 && (k.rowFor (0x0400 + n)).isNone) 0x2530 2 n rsMissing)

/-! ### Tanks and cascades (R122, R123) -/

/-- The used points of a tank's table. -/
def Check.points (k : Check) (t : Nat) : List Nat := List.range (k.n 0x3110 0x0C t)

/-- Record kind of a source row, told by its port (Table 3.7). -/
def Check.sourceKind (k : Check) (r : Nat) : Nat :=
  let p := k.n 0x2310 3 r
  if p ≤ 0x17 then (if k.n 0x2310 4 r = 5 then 5 else 1)
  else if p = 0x20 ∨ p = 0x21 then 2
  else if p = 0x28 ∨ p = 0x29 then 3
  else if p = 0x2A then 7
  else if p = 0x40 then 6 else 4

/-- The sample sets that name a channel. -/
def Check.setsOf (k : Check) (ch : Nat) : List Nat := (List.range 32).filter (fun n => (k.n 0x3120 2 n).testBit ch)

/-- The set is sea-synchronous (R104). -/
def Check.seaSet (k : Check) (n : Nat) : Bool :=
  match k.rowFor (0x0200 + n) with
  | some r => k.n 0x2010 2 r == 3 && k.n 0x2010 3 r == 2 && k.n 0x2010 6 r == 2 && k.i 0x2010 4 r == 0
  | none => false

/-- The sample sets that a tank's gauge is in. -/
def Check.tankSets (k : Check) (t : Nat) : List Nat :=
  let p := k.n 0x2310 3 (k.n 0x3110 3 t)
  if 0x30 ≤ p ∧ p ≤ 0x3F then k.setsOf (p - 0x30) else []

/-- The width in bytes of a raw field (Table 5.5). -/
def rawWidth (f : Nat) : Nat := 2 ^ (f % 4)

/-- One enabled tank (R123). -/
def Check.tank (k : Check) (t : Nat) : List CheckEntry :=
  let src := k.n 0x3110 3 t
  let raw := k.n 0x3110 5 t
  let kind := k.sourceKind src
  let x (j : Nat) : Int := k.i 0x3111 2 (64 * t + j)
  let v (j : Nat) : Nat := k.n 0x3111 3 (64 * t + j)
  failIf (!k.sourceOn src) 0x3110 3 t rsMissing ++
  failIf (k.n 0x3110 4 t == 0x10 && !(kind == 3 || kind == 5 || kind == 7)) 0x3110 4 t rsNotAllowed ++
  failIf (k.n 0x3110 4 t == 0x10 && (kind == 5 || kind == 7) && decide (8 < raw / 16 + rawWidth raw)) 0x3110 5 t rsRange ++
  failIf (decide (k.n 0x3110 0x0B t < 5000 ∨ 20000 < k.n 0x3110 0x0B t)) 0x3110 0x0B t rsRange ++
  failIf (decide (k.n 0x3110 0x0C t < 2)) 0x3110 0x0C t rsRange ++
  failIf (k.n 0x3110 0x0D t == 1 && !(k.tankSets t).any k.seaSet) 0x3110 0x0D t rsNotAllowed ++
  ((k.points t).drop 1).flatMap (fun j =>
    failIf (decide (x j ≤ x (j - 1))) 0x3111 2 (64 * t + j) rsOrder ++
    failIf (decide (v j < v (j - 1))) 0x3111 3 (64 * t + j) rsOrder)

/-- Tanks, sampling, heel and trim (R123). -/
def Check.tankTable (k : Check) : List CheckEntry :=
  k.tanks.flatMap k.tank ++
  k.tanks.flatMap (fun t => failIf (k.tanks.any (fun a => decide (a < t) && (k.tankSets a).any (fun n => (k.tankSets t).contains n) &&
    k.n 0x3110 0x0E a != k.n 0x3110 0x0E t)) 0x3110 0x0E t rsNotAllowed) ++
  ((List.range 16).flatMap (fun ch => (k.setsOf ch).drop 1)).eraseDups.map (fun n => ⟨0x3120, 2, n, rsDuplicate⟩) ++
  failIf (k.tanks != [] && k.n 0x3100 1 0 != 0xFF && !k.groupOn (k.n 0x3100 1 0)) 0x3100 1 noRow rsMissing ++
  failIf (k.tanks != [] && k.n 0x3100 2 0 != 0xFF && !k.groupOn (k.n 0x3100 2 0)) 0x3100 2 noRow rsMissing ++
  failIf (k.n 0x3100 2 0 != 0xFF && k.n 0x3100 3 0 == 0) 0x3100 3 noRow rsRange

/-- The highest item of a stage input kind (Table 5.1). -/
def itemMax (kind : Nat) : Nat := if kind = 3 then 3 else if kind = 4 then 4 else 9

/-- One stage that runs in an enabled cascade (R123), by its row of window 0x3011. -/
def Check.stage (k : Check) (w : Nat) : List CheckEntry :=
  let kind := k.n 0x3011 2 w
  let idx := k.n 0x3011 3 w
  let named := match kind with
    | 1 => k.groupOn idx
    | 2 => k.sourceOn idx
    | 3 => k.tankOn idx
    | _ => true
  failIf (kind == 0) 0x3011 2 w rsNotAllowed ++
  failIf (!named) 0x3011 3 w rsMissing ++
  failIf (kind != 0 && decide (itemMax kind < k.n 0x3011 4 w)) 0x3011 4 w rsRange ++
  failIf (decide (k.r 0x3011 9 w * k.r 0x3011 0x0A w < 0)) 0x3011 9 w rsNotAllowed ++
  failIf (decide (k.r 0x3011 0x0C w ≤ k.r 0x3011 0x0B w)) 0x3011 0x0B w rsOrder ++
  failIf (decide (k.r 0x3011 0x0D w < 0)) 0x3011 0x0D w rsRange

/-- Output bytes of a mapped cascade: PDO, first byte, count. -/
def Check.outSpan (k : Check) (c : Nat) : Nat × Nat × Nat :=
  (k.n 0x3010 9 c, k.n 0x3010 0x0A c, if k.n 0x3010 0x0B c ≤ 2 then 2 else 4)

/-- The output of a cascade is mapped. -/
def Check.mapped (k : Check) (c : Nat) : Bool := k.n 0x3010 9 c != 0xFF

/-- Two mapped cascades overlap in one loop PDO. -/
def Check.overlap (k : Check) (a b : Nat) : Bool :=
  let x := k.outSpan a
  let y := k.outSpan b
  x.1 == y.1 && decide (x.2.1 < y.2.1 + y.2.2) && decide (y.2.1 < x.2.1 + x.2.2)

/-- The period of a cascade's inner step in µs, where its row is enabled. -/
def Check.innerUs (k : Check) (c : Nat) : Option Rat := (k.rowFor (0x0100 + c)).map (fun r => k.period r * 1000000)

/-- The work of one inner step in µs (R122). -/
def Check.work (k : Check) (c : Nat) : Rat :=
  20 + (if k.n 0x3010 6 c = 0 then 0 else 20) + (if k.mapped c then 4 else 0)

/-- The ratio of R122 for a cascade: the work of all steps within its period, over that period. -/
def Check.ratio (k : Check) (c : Nat) : Option Rat :=
  match k.innerUs c with
  | none => none
  | some p =>
    if p = 0 then none
    else some ((k.cascades.foldl (fun (a : Rat) d => match k.innerUs d with
      | some q => if q = 0 then a else a + ((p / q).ceil : Rat) * k.work d
      | none => a) 0) / p)

/-- One enabled cascade (R123). -/
def Check.cascade (k : Check) (c : Nat) : List CheckEntry :=
  let n := k.n 0x3010 6 c
  (match k.rowFor (0x0100 + c) with
   | none => [⟨0x3010, 2, c, rsMissing⟩]
   | some r => failIf (decide (k.period r < 1 / 1000)) 0x2010 (if k.n 0x2010 6 r ≠ 0 then 6 else 5) r rsRange) ++
  (match k.ratio c with
   | some x => failIf (decide (7 / 10 < x)) 0x3010 2 c rsBudget
   | none => []) ++
  failIf (decide (64 < n)) 0x3010 6 c rsRange ++
  failIf ((fields 8 2 (k.n 0x3010 8 c)).any (fun t => t != 0xFF && !k.tankOn t)) 0x3010 8 c rsMissing ++
  failIf (k.mapped c && ((k.rowFor 0x0300).isNone || k.n 0x2242 1 0 == 0)) 0x3010 9 c rsMissing ++
  failIf (k.mapped c && !k.pdoOn (k.n 0x3010 9 c)) 0x3010 9 c rsNotAllowed ++
  failIf (k.mapped c && decide (8 < (k.outSpan c).2.1 + (k.outSpan c).2.2)) 0x3010 0x0A c rsRange ++
  failIf (k.mapped c && k.cascades.any (fun a => decide (a < c) && k.mapped a && k.overlap a c)) 0x3010 0x0A c rsDuplicate ++
  (if n = 0 then [] else k.stage (2 * c)) ++ k.stage (2 * c + 1)

/-! ### Serial ports, line monitor and loops (R126, R128, R157, R172) -/

/-- The response deadline of a frame of `n` bytes in ms (R153). -/
def Check.deadlineMs (k : Check) (p n : Nat) : Rat :=
  ((34 + 10 * (n + 1)) * (100 + k.n (0x2100 + p) 0x17 0) * k.n (0x2100 + p) 2 0 : Nat) / (100 * 4608 : Rat)

/-- One row of the schedule of a port in frame mode (R157). -/
def Check.entry (k : Check) (p w : Nat) : List CheckEntry :=
  let kind := k.n 0x2140 2 w
  let ident := k.n 0x2140 3 w
  let base := k.n (0x2100 + p) 0x16 0
  if kind = 0 then []
  else
    failIf ((kind == 2 && decide (59 < ident)) || (kind == 1 && decide (61 ≤ ident))) 0x2140 3 w rsRange ++
    failIf (k.n 0x2140 5 w == 1 && ident == 60) 0x2140 5 w rsNotAllowed ++
    failIf (decide (((k.n 0x2140 6 w * base : Nat) : Rat) < k.deadlineMs p (k.n 0x2140 4 w) + (base : Rat))) 0x2140 6 w rsTiming

/-- The frame schedule of a port. -/
def Check.schedule (k : Check) (p : Nat) : List CheckEntry :=
  let rows := (List.range 32).map (fun e => 32 * (p - 20) + e)
  failIf (k.n 0x2140 2 (32 * (p - 20)) == 0) 0x2140 2 (32 * (p - 20)) rsMissing ++
  rows.flatMap (k.entry p) ++
  (repeats (fun a b => k.n 0x2140 3 a == k.n 0x2140 3 b) (rows.filter (fun w => k.n 0x2140 2 w == 2))).map (fun w => ⟨0x2140, 3, w, rsDuplicate⟩)

/-- One serial port. -/
def Check.serial (k : Check) (p : Nat) : List CheckEntry :=
  let x := 0x2100 + p
  let mode := k.n x 1 0
  let pairKind := k.n 0x2181 2 p
  failIf ((mode == 2 && decide (20 ≤ p)) || (mode == 3 && decide (p < 20))) x 1 noRow rsNotAllowed ++
  failIf (k.n x 4 0 == 5 && k.n x 3 0 == 7) x 4 noRow rsNotAllowed ++
  failIf (mode == 3 && decide (k.n x 2 0 < 231 ∨ 4608 < k.n x 2 0)) x 2 noRow rsRange ++
  failIf ((pairKind == 3 && mode != 3) || (mode == 3 && pairKind != 0 && pairKind != 3)) 0x2181 2 p rsNotAllowed ++
  (if mode = 3 ∧ 20 ≤ p then k.schedule p else [])

/-- Conversions a second of a channel (Table 7.4). -/
def Check.convRate (k : Check) (ch : Nat) : Rat := (loopRate (k.n 0x2191 4 ch) : Rat)

/-- The loop inputs and sample sets (R172). -/
def Check.loops (k : Check) : List CheckEntry :=
  (List.range 32).flatMap (fun n =>
    let chans := (List.range 16).filter (fun c => (k.n 0x3120 2 n).testBit c)
    let rate := match k.rowFor (0x0200 + n) with
      | some r => if k.n 0x2010 2 r = 0 ∧ k.n 0x2010 3 r = 2 ∧ k.period r ≠ 0 then 1 / k.period r else 0
      | none => (0 : Rat)
    failIf (chans.any (fun c => k.n 0x2191 2 c == 0)) 0x3120 2 n rsMissing ++
    failIf (chans.any (fun c => decide (k.convRate c < rate))) 0x3120 2 n rsRange) ++
  (List.range 16).flatMap (fun c =>
    failIf (decide (5 < k.n 0x2191 4 c)) 0x2191 4 c rsRange ++
    failIf (k.n 0x2191 0x0A c != 0 && decide ((k.n 0x2191 0x0A c : Rat) * k.convRate c < 1000)) 0x2191 0x0A c rsRange) ++
  failIf (decide (k.n 0x2180 7 0 ≤ k.n 0x2180 6 0)) 0x2180 6 noRow rsOrder ++
  failIf (decide (k.n 0x200B 4 0 ≤ k.n 0x200B 3 0)) 0x200B 4 noRow rsOrder

/-! ### Ethernet, CAN, journal and twin (R199, R222, R262, R324) -/

/-- The source list of the time wheel names the port (R27). -/
def Check.timeNames (k : Check) (p : Nat) : Bool :=
  ((fields 8 4 (k.n 0x2008 1 0)).takeWhile (fun e => e != 0)).contains (2 + p)

/-- One Ethernet port (R199). -/
def Check.eth (k : Check) (p : Nat) : List CheckEntry :=
  let x := 0x2200 + p
  let g := 0x2210 + p
  let ip := k.n x 6 0
  let prefix_ := k.n x 7 0
  let gate := k.n x 8 0
  let mac := k.n x 5 0
  let most := k.n x 0x0A 0
  let uses := k.groupRows p != [] || k.ethListeners p != []
  failIf (mac == 0 || (mac / 2 ^ 40).testBit 0) x 5 noRow rsRange ++
  failIf (ip == 0 && (uses || (k.timeNames p && k.n x 0x12 0 == 0))) x 6 noRow rsRange ++
  failIf (decide (prefix_ < 8 ∨ 30 < prefix_)) x 7 noRow rsRange ++
  failIf (gate != 0 && decide (gate / 2 ^ (32 - prefix_) ≠ ip / 2 ^ (32 - prefix_))) x 8 noRow rsRange ++
  failIf (uses && decide (most < 256)) x 0x0A noRow rsRange ++
  failIf (k.n x 0x0B 0 == 4095) x 0x0B noRow rsRange ++
  failIf (decide (k.n x 0x0C 0 < 1 ∨ 32 < k.n x 0x0C 0)) x 0x0C noRow rsRange ++
  (k.groupRows p).flatMap (fun r => failIf (!isMulticast (k.n g 3 r)) g 3 r rsRange ++ failIf (k.n g 4 r == 0) g 4 r rsRange) ++
  (repeats (fun a b => k.n g 3 a == k.n g 3 b && k.n g 4 a == k.n g 4 b) (k.groupRows p)).map (fun r => ⟨g, 3, r, rsDuplicate⟩) ++
  ((Cfg.rows (0x2218 + p) k.c).filter (fun r => k.n (0x2218 + p) 2 r == 1)).flatMap (fun r =>
    failIf (decide (most < k.n (0x2218 + p) 3 r + 128)) (0x2218 + p) 3 r rsRange ++
    failIf ((k.t (0x2218 + p) 4 r).all (fun b => b == 0)) (0x2218 + p) 4 r rsRange)

/-- Both Ethernet ports. -/
def Check.ethernet (k : Check) : List CheckEntry :=
  k.eth 0 ++ k.eth 1 ++
  failIf (k.n (0x2200 + k.n 0x2230 1 0) 1 0 == 0) 0x2230 1 noRow rsMissing ++
  failIf (k.n 0x2200 1 0 != 0 && k.n 0x2201 1 0 != 0 && k.n 0x2200 3 0 == k.n 0x2201 3 0) 0x2201 3 noRow rsDuplicate

/-- The CAN ports (R222). -/
def Check.can (k : Check) : List CheckEntry :=
  (List.range 3).flatMap (fun c =>
    let rate := k.n (0x2240 + c) 2 0
    failIf (if c = 2 then !(rate == 125 || rate == 250 || rate == 500 || rate == 1000) else rate != 250) (0x2240 + c) 2 noRow rsRange) ++
  failIf (decide (253 < k.n 0x2244 2 0)) 0x2244 2 noRow rsRange ++
  failIf (decide (253 < k.n 0x2245 2 0)) 0x2245 2 noRow rsRange ++
  failIf (decide (k.n 0x2260 1 0 < 1 ∨ 127 < k.n 0x2260 1 0)) 0x2260 1 noRow rsRange ++
  (List.range 16).flatMap (fun i => failIf (decide (0x3FFFF < k.n 0x2246 (i + 1) 0)) 0x2246 (i + 1) noRow rsRange) ++
  (match k.rowFor 0x0300 with
   | some r => failIf (k.n 0x2242 1 0 == 0) 0x2010 7 r rsMissing
   | none => []) ++
  (List.range 12).flatMap (fun n =>
    let x := k.n (0x1800 + n) 1 0
    failIf (k.pdoOn n && (decide (x / 2 ^ 29 % 4 ≠ 0) || x == 0 || decide (0x7FF < x))) (0x1800 + n) 1 noRow rsRange ++
    failIf (k.pdoOn n && (k.cobs.contains x || (List.range 12).any (fun m => decide (m < n) && k.pdoOn m && k.n (0x1800 + m) 1 0 == x)))
      (0x1800 + n) 1 noRow rsDuplicate)

/-- The most external working memory that can be fitted leaves 1792 MiB usable (Table 1.3). -/
def usableMiB : Nat := 1792

/-- The journal (R262). -/
def Check.journal (k : Check) : List CheckEntry :=
  failIf (decide (usableMiB - 64 < k.n 0x3800 2 0)) 0x3800 2 noRow rsRange ++
  failIf (decide (k.n 0x3800 2 0 * 1024 ≤ 2 * k.n 0x3800 4 0)) 0x3800 4 noRow rsRange ++
  failIf (decide (k.n 0x3800 6 0 < 10 ∨ 100 < k.n 0x3800 6 0)) 0x3800 6 noRow rsRange ++
  failIf (decide (k.n 0x3800 7 0 < 1000 ∨ 1000000 < k.n 0x3800 7 0)) 0x3800 7 noRow rsRange

/-- Twin operation (R324). -/
def Check.twin (k : Check) : List CheckEntry :=
  let x (sub : Nat) : Nat := k.n 0x4000 sub 0
  let clash (sub index isub : Nat) : List CheckEntry := failIf (x sub != 0 && x sub == k.n index isub 0) 0x4000 sub noRow rsDuplicate
  if x 1 = 0 then []
  else
    failIf (x 7 == 1 && !(k.ethListeners 0 ++ k.ethListeners 1).any (fun l => (k.n 0x2520 5 l).testBit 0 && k.n 0x2520 7 l == 0))
      0x4000 7 noRow rsMissing ++
    failIf (x 9 == 0) 0x4000 9 noRow rsRange ++
    clash 0x10 0x2200 5 ++ clash 0x11 0x2201 5 ++ clash 0x12 0x2200 6 ++ clash 0x13 0x2201 6 ++
    clash 0x14 0x2244 1 ++ clash 0x15 0x2245 1 ++ clash 0x18 0x2260 1

/-! ### The check (R280) -/

/-- The order of entries: index, subindex, row; then reason. -/
def entryLe (a b : CheckEntry) : Bool :=
  let x := ((a.index * 2 ^ 8 + a.sub) * 2 ^ 16 + a.row) * 16 + a.reason
  let y := ((b.index * 2 ^ 8 + b.sub) * 2 ^ 16 + b.row) * 16 + b.reason
  decide (x ≤ y)

/-- Put an entry in its place; one that is there already is not repeated. -/
def insertEntry (e : CheckEntry) : List CheckEntry → List CheckEntry
  | [] => [e]
  | x :: t => if e = x then x :: t else if entryLe e x then e :: x :: t else x :: insertEntry e t

/-- Entries in the order of R280. -/
def sortEntries (l : List CheckEntry) : List CheckEntry := l.foldl (fun a e => insertEntry e a) []

/-- Every failure of the judged configuration, in order. -/
def Check.all (k : Check) : List CheckEntry :=
  sortEntries (k.appts ++ k.sourceTable ++ k.groupTable ++ k.listenerTable ++ k.rules ++ k.tankTable ++
    k.cascades.flatMap k.cascade ++ (List.range 24).flatMap k.serial ++ k.loops ++ k.ethernet ++ k.can ++ k.journal ++ k.twin)

/-- A value of effect class BND (R267). -/
def isBnd (k : Key) : Bool :=
  match findObj k.index k.sub with
  | some o => o.eff == .bnd
  | none => false

/-- A configuration's staged values joined with the BND values of another (R267, R280). -/
def Cfg.withBnd (stg bnd : Cfg) : Cfg :=
  (bnd.filter (fun e => isBnd e.1)).foldl (fun c e => Cfg.put e.1 e.2 c) (stg.filter (fun e => !isBnd e.1))

/-- The failures of the shadow (R280): none where it changes nothing. -/
def State.checkShadow (shadow : Cfg) (point : WheelPos) (s : State) : List CheckEntry :=
  let c := Cfg.withBnd shadow s.cfg
  if c = s.cfg then [] else Check.all { u := s.uid, c := c, point := point }

end Sys2Proof.Machine
end

