-- ==== Sys2Proof/Machine/Ethernet.lean ====
section
/-! DEFINITION. Ethernet ports (R177 to R191, R195, R197, R198): link, reception, dispatch, ARP, ICMP, IGMP, the MAC
transmitter, pause, stamps and counters, with their commands. Reception itself becomes a command in
Machine/Power.lean, beside the wake it can cause. -/

namespace Sys2Proof.Machine

open Sys2Proof

/-- The ETH domain of a port. -/
abbrev domEth (p : Nat) : Nat := domEth0 + p

/-- A value of an Ethernet port's objects. -/
def State.ethN (s : State) (p sub : Nat) : Nat := s.cn (0x2200 + p) sub 0

/-! ### Groups and unicast (R179, R183, R315) -/

/-- The network witness listens: twin operation, and 0x4000:07. -/
def State.witnessOn (s : State) : Bool := decide (s.twin.role ≠ 0) && decide (s.cn 0x4000 7 0 = 1)

/-- The destination groups and ports of the enabled Ethernet listeners (R315). -/
def State.witnessGroups (s : State) : List (Nat × Nat) :=
  if s.witnessOn then
    ((listenerRows s.cfg).filter (fun l => listenerOn s.uid s.cfg l && (match listenerKind s.uid s.cfg l with
      | .eth _ => true
      | _ => false))).map (fun l => (s.cn 0x2520 9 l, s.cn 0x2520 0x0A l))
  else []

/-- The enabled group rows of a port. -/
def State.groupRows (s : State) (p : Nat) : List Nat :=
  (List.range 16).filter (fun r => s.cn (0x2210 + p) 2 r == 1)

/-- The multicast groups a port has joined. -/
def State.joined (s : State) (p : Nat) : List Nat :=
  ((s.groupRows p).map (fun r => s.cn (0x2210 + p) 3 r) ++ s.witnessGroups.map (fun g => g.1)).eraseDups

/-- An IGMPv2 message: membership report or leave (R183). -/
def State.sendIgmp (p type dst group : Nat) (s : State) : State :=
  let m (sum : Nat) : List Byte := [BitVec.ofNat 8 type, 0] ++ beBytes 2 sum ++ beBytes 4 group
  let f := ethHeader (groupMac dst) (s.macOf p) 0x0800 ++
    ipHeader (s.ipOf p) dst 2 1 (s.ep p).ipId.toNat 0x4000 true 8 ++ m (netSum (m 0))
  (s.nextIpId p).queueFrame p 3 .other f

/-- A membership report for a group. -/
def State.sendReport (p : Nat) (s : State) (group : Nat) : State := s.sendIgmp p 0x16 group group

/-- A leave message for a group. -/
def State.sendLeave (p : Nat) (s : State) (group : Nat) : State := s.sendIgmp p 0x17 0xE0000002 group

/-- An ARP frame: operation, destination MAC, target. -/
def State.sendArp (p op dst tha tpa : Nat) (s : State) : State :=
  s.queueFrame p 3 .other (ethHeader dst (s.macOf p) 0x0806 ++ beBytes 2 1 ++ beBytes 2 0x0800 ++ [6, 4] ++ beBytes 2 op ++
    beBytes 6 (s.macOf p) ++ beBytes 4 (s.ipOf p) ++ beBytes 6 tha ++ beBytes 4 tpa)

/-- The next hop of a destination: itself in the subnet, the gateway outside; none where there is no gateway. -/
def State.nextHop (s : State) (p dst : Nat) : Option Nat :=
  let h := 2 ^ (32 - s.ethN p 7)
  if dst / h = s.ipOf p / h then some dst
  else if s.ethN p 8 = 0 then none else some (s.ethN p 8)

/-- The cached address of a hop. -/
def EPort.resolve (e : EPort) (ip : Nat) : Option Nat := (e.arp.find? (fun a => a.ip == ip)).map (fun a => a.mac)

/-- The destination MAC address of a frame is filled in. -/
def setDst (mac : Nat) (f : List Byte) : List Byte := beBytes 6 mac ++ f.drop 6

/-- Send a unicast frame to an IPv4 destination: at once where the next hop is known, else it waits (R179). -/
def State.sendUnicast (p dst : Nat) (f : List Byte) (s : State) : State :=
  match s.nextHop p dst with
  | none => s
  | some hop =>
    match (s.ep p).resolve hop with
    | some mac =>
      (s.modEp p (fun e => { e with arp := e.arp.map (fun a => if a.ip = hop then { a with used := s.fc } else a) })).queueFrame
        p 3 .other (setDst mac f)
    | none =>
      let w : ArpWait := { hop := hop, frame := f, since := s.fc, lastReq := s.fc }
      (s.modEp p (fun e => { e with waits := e.waits ++ [w] })).sendArp p 1 0xFFFFFFFFFFFF 0 hop

/-- Send a UDP datagram to a host, from a port of the LN2430. -/
def State.sendUdp (p dst sport dport : Nat) (payload : List Byte) (s : State) : State :=
  let f := udpFrame 0 (s.macOf p) (s.ipOf p) dst 64 (s.ep p).ipId.toNat sport dport payload
  (s.nextIpId p).sendUnicast p dst f

/-! ### Link (R177, R178) -/

/-- Every frame in the MAC transmit queues is discarded and counted, and so is what SUP holds for them (R178). -/
def State.dropQueues (p : Nat) (s : State) : State :=
  let e := s.ep p
  let n := e.tx0.length + e.tx1.length + e.tx2.length + e.tx3.length
  let s := (List.range 8).foldl (fun s i => s.dropPackets (0x38 + 8 * p + i) (s.queued (0x38 + 8 * p + i))) s
  ((s.modEp p (fun e => { e with inFlight := none, watchdog := none })).macCount p 0x10 n).letFramesIn p

/-- The speeds that 0x2200:02 allows. -/
def speedsOf (n : Nat) : List Nat :=
  match n with
  | 0 => [10, 100, 1000]
  | 1 => [1000]
  | 2 => [100]
  | _ => [10]

/-- The start of auto-negotiation: PHY registers 4 and 9 are written to advertise full duplex only, at the speeds
allowed, and negotiation is restarted; the start step is the configured one (R176, R177, R187). -/
def State.portEnabled (p : Nat) (s : State) : State :=
  if s.ethN p 1 = 0 then s
  else s.modEp p (fun e => { e with
    advertised := speedsOf (s.ethN p 2), negotiations := e.negotiations + 1, step := s.ethN p 0x0C, clean := 0 })

/-- The frame in flight is over: what a set point changed of the port is taken here (R20), and negotiation starts. -/
def State.takeSetting (p : Nat) (s : State) : State :=
  if (s.ep p).restart then (s.modEp p (fun e => { e with restart := false, badReads := 0 })).portEnabled p else s

/-- A change of link state (R178, LINK_STATE_CHANGE). -/
def State.setLink (p new : Nat) (s : State) : State :=
  let old := s.ep p
  if old.link = new then s
  else
    let s := (s.modEp p (fun e => { e with link := new })).event 0x7001 p new
    let s := if s.sources.contains (2 + p) then s.sourceChanged else s
    if old.linkUp = true ∧ (s.ep p).linkUp = false then (((s.macCount p 0x12 1).dropQueues p).releaseIdle (0x20 + p)).takeSetting p
    else if old.linkUp = false ∧ (s.ep p).linkUp = true then
      let s := if s.ipOf p = 0 then s else s.sendArp p 1 0xFFFFFFFFFFFF 0 (s.ipOf p)
      (s.joined p).foldl (State.sendReport p) s
    else s

/-- A port whose link setting a set point has changed goes down and negotiates anew: at once, or, with a frame in flight,
at its end (R20, R178). -/
def State.restartPort (p : Nat) (s : State) : State :=
  let s := s.modEp p (fun e => { e with restart := true })
  if (s.ep p).inFlight.isSome then s else (s.setLink p 0).takeSetting p

/-- The end of a frame on the wire: the boundary at which a port takes a changed setting (R20). -/
def State.frameBoundary (p : Nat) (s : State) : State := if (s.ep p).restart then s.restartPort p else s

/-- The link state that registers 4, 5, 9 and 10 resolve to: the highest common ability, half duplex refused; none
leaves the link down (Annex 28B). -/
def resolveLink (r : PhyRegs) : Nat :=
  let both (a b : BitVec 16) (i j : Nat) : Bool := a.getLsbD i && b.getLsbD j
  if both r.r9 r.r10 9 11 then 1
  else if both r.r9 r.r10 8 10 then 4
  else if both r.r4 r.r5 8 8 then 2
  else if both r.r4 r.r5 7 7 then 4
  else if both r.r4 r.r5 6 6 then 3
  else if both r.r4 r.r5 5 5 then 4
  else 0

/-- The link state by the SGMII in-band speed. -/
def sgmiiLink (code : BitVec 2) : Nat := if code = 2 then 1 else if code = 1 then 2 else 3

/-- A read of PHY register 1 that shows no PHY. -/
def phyAbsent (r : BitVec 16) : Bool := r == 0 || r == 0xFFFF

/-- PHY_POLL: two reads of register 1, then the resolution (R177). -/
def State.phyPoll (p : Nat) (r : PhyRegs) (s : State) : State :=
  if s.ethN p 1 = 0 then s
  else
    let step (n : Nat) (v : BitVec 16) : Nat := if phyAbsent v then Nat.min (n + 1) 3 else 0
    let n1 := step (s.ep p).badReads r.r1a
    let n2 := step n1 r.r1b
    let s := s.modEp p (fun e => { e with badReads := n2 })
    if n1 = 3 ∨ n2 = 3 then s.setLink p 5
    else if phyAbsent r.r1b then s
    else
      let s := if r.r1a.getLsbD 2 || phyAbsent r.r1a then s else if (s.ep p).linkUp then s.setLink p 0 else s
      if r.r1b.getLsbD 2 then
        let l := resolveLink r
        s.setLink p (if s.ethN p 1 = 2 ∧ l ≠ 4 ∧ l ≠ 0 then sgmiiLink r.sgmii else l)
      else s.setLink p 0

/-- PHY_POLL. -/
def execPhyPoll (dt : Nat) (port : Fin 2) (regs : PhyRegs) (s : State) : Host.Outcome State Fault Refusal :=
  .next ((s.elapse dt).whenUp (domEth port.val) (State.phyPoll port.val regs))

/-! ### Status of a received frame (R180, R181) -/

/-- The frame without its FCS and without one 802.1Q tag; the tag's VID, or none. -/
def untag (b : List Byte) : List Byte × Option Nat :=
  let b := b.take (b.length - 4)
  if frameType b = 0x8100 then (b.take 12 ++ b.drop 16, some (netNat 14 2 b % 4096)) else (b, none)

/-- The IP and UDP flags of a frame: bits 4 to 6 of Table 8.2, each on its own, so that several may stand. A fragment is
told wherever there is a header to tell it by, and a UDP header is judged wherever the frame has one: behind the IP header
of protocol 17, not in a later fragment. -/
def ipFlags (b : List Byte) : Nat :=
  if frameType b ≠ 0x0800 then 0
  else
    let hl := ipHeaderLen b
    let room := b.length - 14
    let header := decide (20 ≤ hl) && decide (hl ≤ room)
    let ipBad := !header || decide (byteAt 14 b / 16 ≠ 4) || !ipSumOk b || decide (room < ipTotal b) || decide (ipTotal b < hl)
    let part := header && decide (ipFragment b ≠ 0)
    let udpBad := header && decide (ipFragment b % 0x2000 = 0) && decide (ipProto b = 17) &&
      (decide (udpLen b < 8) || decide (udpLen b ≠ ipTotal b - hl) || !udpSumOk b)
    (if part then 0x10 else 0) + (if udpBad then 0x20 else 0) + (if ipBad then 0x40 else 0)

/-- The FCS of a frame is right. -/
def fcsOk (b : List Byte) : Bool := leNat (b.drop (b.length - 4)) == (crc32 (b.take (b.length - 4))).toNat

/-- The receive status word (Table 8.2). -/
def rxStatus (max : Nat) (b : List Byte) (rxEr : Bool) : Nat :=
  let long := decide (max < b.length)
  let low := (if !long && !fcsOk b then 1 else 0) + (if long then 2 else 0) + (if b.length < 64 then 4 else 0) + (if rxEr then 8 else 0)
  if low = 0 then ipFlags (untag b).1 else low

/-- The counters of an errored frame: once for each flag it carries (R181). -/
def State.countErrors (p st : Nat) (s : State) : State :=
  [(0, 3), (3, 4), (2, 5), (1, 6), (4, 7), (5, 7), (6, 7)].foldl
    (fun s x => if st.testBit x.1 then s.macCount p x.2 1 else s) s

/-- An IMM value, or its default. -/
def State.immNat (s : State) (index sub row : Nat) : Nat := Cfg.nat s.uid s.dict.imm index sub row

/-! ### Wake patterns (R195) -/

/-- The masked-in bytes of a frame's window, or none where one lies past the frame's end. -/
def maskedBytes (mask : List Byte) (off : Nat) (b : List Byte) : Option (List Byte) :=
  let idx := (List.range 128).filter (fun n => byteAt (n / 8) mask |>.testBit (n % 8))
  if idx.all (fun n => decide (off + n < b.length)) then some (idx.map (fun n => BitVec.ofNat 8 (byteAt (off + n) b))) else none

/-- The enabled patterns of a port that a frame matches. -/
def State.patternsHit (s : State) (p : Nat) (b : List Byte) : List Nat :=
  if fcsOk b = false then []
  else (List.range 8).filter (fun r =>
    s.cn (0x2218 + p) 2 r == 1 &&
      (match maskedBytes (s.ct (0x2218 + p) 4 r) (s.cn (0x2218 + p) 3 r) b with
        | some m => (crc16 m).toNat == s.cn (0x2218 + p) 5 r
        | none => false))

/-- Matches are counted (R195). -/
def State.countPatterns (p : Nat) (b : List Byte) (s : State) : State :=
  (s.patternsHit p b).foldl (fun s r => s.modEp p (fun e => { e with matches_ := Tbl.mod 0 r (fun n => n + 1) e.matches_ })) s

/-! ### Pause (R188, R189) -/

/-- Fabric cycles of a number of bit times at the link speed. -/
def EPort.bits (e : EPort) (n : Nat) : Nat := n * 2 * (if e.link = 1 then 1 else if e.link = 2 then 10 else 100) / 5

/-- The pause ends. -/
def State.endPause (p : Nat) (s : State) : State :=
  s.modEp p (fun e => { e with pauseState := if e.pauseState = 1 then 0 else e.pauseState, watchdog := none })

/-- A PAUSE frame (PAUSE_FRAME). -/
def State.pauseFrame (p : Nat) (b : List Byte) (s : State) : State :=
  let e := s.ep p
  if e.pauseState = 2 then s.macCount p 0x0B 1
  else
    let s := s.macCount p 0x0A 1
    if s.ethN p 0x0D = 0 then s
    else
      let q := netNat 16 2 b
      if q = 0 then s.endPause p
      else (s.modEp p (fun e => { e with pauseState := 1, pauseEnd := s.fc + e.bits (512 * q) })).trackWatchdog p

/-- PAUSE_TIMER_EXPIRY. -/
def State.pauseExpiry (p : Nat) (s : State) : State :=
  if (s.ep p).pauseState = 1 ∧ (s.ep p).pauseEnd ≤ s.fc then s.endPause p else s

/-- PAUSE_TIMER_EXPIRY. -/
def execPauseTimerExpiry (dt : Nat) (port : Fin 2) (s : State) : Host.Outcome State Fault Refusal :=
  .next ((s.elapse dt).whenUp (domEth port.val) (State.pauseExpiry port.val))

/-- PAUSE_WATCHDOG: the pause ends and the holdoff starts. -/
def State.pauseWatchdog (p : Nat) (s : State) : State :=
  let limit := s.ethN p 0x0E
  match (s.ep p).watchdog with
  | some t =>
    if limit ≠ 0 ∧ t + msCycles limit ≤ s.fc ∧ (s.ep p).waiting = true then
      let s := s.modEp p (fun e => { e with
        pauseState := 2, holdoffEnd := s.fc + msCycles (s.ethN p 0x0F), watchdog := none, flags := setBit e.flags 1 true })
      (s.macCount p 0x0C 1).event 0x7003 p 0
    else s
  | none => s

/-- PAUSE_WATCHDOG. -/
def execPauseWatchdog (dt : Nat) (port : Fin 2) (s : State) : Host.Outcome State Fault Refusal :=
  .next ((s.elapse dt).whenUp (domEth port.val) (State.pauseWatchdog port.val))

/-- PAUSE_HOLDOFF_END. -/
def State.pauseHoldoff (p : Nat) (s : State) : State :=
  if (s.ep p).pauseState = 2 ∧ (s.ep p).holdoffEnd ≤ s.fc then s.modEp p (fun e => { e with pauseState := 0 }) else s

/-- PAUSE_HOLDOFF_END. -/
def execPauseHoldoffEnd (dt : Nat) (port : Fin 2) (s : State) : Host.Outcome State Fault Refusal :=
  .next ((s.elapse dt).whenUp (domEth port.val) (State.pauseHoldoff port.val))

/-! ### Dispatch (R182 to R184) -/

/-- The time-wheel source list names the port (R192). -/
def State.ptpPort (s : State) (p : Nat) : Bool := s.sources.contains (2 + p)

/-- The destination address is one of those a port accepts (R182). -/
def State.addressed (s : State) (p : Nat) (b : List Byte) : Bool :=
  let d := frameDst b
  d == s.macOf p || (d == 0xFFFFFFFFFFFF && frameType b == 0x0806) || d == 0x0180C2000001 || d == 0x01005E000001 ||
    (s.joined p).any (fun g => d == groupMac g) ||
    (s.ptpPort p && d == (if s.ethN p 0x12 = 1 then 0x011B19000000 else groupMac 0xE0000181))

/-- The IEEE 1588 message of a frame, for the port's transport. -/
def State.ptpMessage (s : State) (p : Nat) (b : List Byte) : Option (List Byte) :=
  if s.ptpPort p = false then none
  else if s.ethN p 0x12 = 1 then
    (if frameType b = 0x88F7 ∧ frameDst b = 0x011B19000000 then some (b.drop 14) else none)
  else if frameType b = 0x0800 ∧ ipProto b = 17 ∧ ipDst b = 0xE0000181 ∧ (udpDst b = 319 ∨ udpDst b = 320) then some (udpPayload b)
  else none

/-- Where an accepted frame goes (Table 8.3). -/
inductive Way where
  | pause | sup | card (row : Nat) | witness | drop
  deriving DecidableEq, Repr

/-- The first row of Table 8.3 that applies. -/
def State.wayOf (s : State) (p : Nat) (b : List Byte) : Way :=
  let t := frameType b
  let ip := decide (t = 0x0800)
  let own := ip && decide (s.ipOf p ≠ 0) && decide (ipDst b = s.ipOf p)
  let udp := ip && decide (ipProto b = 17)
  if t = 0x8808 ∧ netNat 14 2 b = 1 then .pause
  else if t = 0x0806 then .sup
  else if t = 0x88F7 then (if (s.ptpMessage p b).isSome then .sup else .drop)
  else if (own && decide (ipProto b = 1)) || (ip && decide (ipProto b = 2)) then .sup
  else
    match (s.groupRows p).find? (fun r => udp && s.cn (0x2210 + p) 3 r == ipDst b && s.cn (0x2210 + p) 4 r == udpDst b) with
    | some r => .card r
    | none =>
      if (s.ptpMessage p b).isSome then .sup
      else if own && udp && decide (udpDst b = 47321) then .sup
      else if udp && s.witnessGroups.contains (ipDst b, udpDst b) then .witness
      else .drop

/-- The value of the first `s:` parameter of a TAG block at payload offset 6. -/
def firstSfi (payload : List Byte) : Option (List Byte) :=
  let d := payload.drop 6
  if d.head? = some 0x5C then
    let body := (splitFirst 0x2A ((splitFirst 0x5C (d.drop 1)).1)).1
    ((splitAll 0x2C body).find? (fun f => f.take 2 == ascii "s:")).map (fun f => f.drop 2)
  else none

/-- A datagram's key is even: it goes to the CARD_A engine (R184). -/
def evenKey (b : List Byte) : Bool :=
  let k := match firstSfi (udpPayload b) with
    | some v => crc16 (v.take 15)
    | none => crc16 (beBytes 4 (ipSrc b))
  k.toNat % 2 == 0

/-- The bytes a receive queue holds. -/
def queueBytes (l : List RxFrame) : Nat := l.foldl (fun n f => n + f.bytes.length) 0

/-- A full receive queue: the frame is dropped and counted (R184, Table 3.14). -/
def State.rxFull (p : Nat) (s : State) : State :=
  (s.macCount p 9 1).modEp p (fun e => { e with flags := setBit e.flags 3 true })

/-- A datagram for carding that finds its receive queue full is dropped (R184, 0x4810:04). -/
def State.datagramFull (p : Nat) (s : State) : State := (s.rxFull p).stat 0x4810 (0x20 + p) 4 1

/-- A MAC drops a frame that is for no one: counted, and the packet begun is rewound. In which of the port's three receive
queues it was begun is not stated (R226): a free value. -/
def State.macDrop (p : Nat) (s : State) : State :=
  let q := match s.freeNat % 3 with
    | 0 => 0x30 + 2 * p
    | 1 => 0x31 + 2 * p
    | _ => 0x34 + p
  ((s.macCount p 8 1).rewound q).useFree

/-- An engine of a port takes frames: CARD_A's (false) or CARD_B's (true). -/
def State.cardUp (s : State) (p : Nat) (side : Bool) : Bool :=
  s.up (if side then domCardB else domCardA) && s.admits (0x30 + 2 * p + (if side then 1 else 0))

/-- The engine that a frame of a port goes to, of those that run: by its key, or the one that covers for the other, also
after its return, until it has finished what it took in the meantime (R184). -/
def State.cardSide (s : State) (p : Nat) (b : List Byte) : Option Bool :=
  match s.cardUp p false, s.cardUp p true with
  | false, false => none
  | true, false => some false
  | false, true => some true
  | true, true => some (match (s.ep p).covering with
    | some (c, _) => c
    | none => !evenKey b)

/-- The port's receive queue has no room for a frame (R184). -/
def EPort.rxFilled (e : EPort) (f : RxFrame) : Bool :=
  decide (1024 ≤ e.rxA.length + e.rxB.length) || decide (524288 < queueBytes e.rxA + queueBytes e.rxB + f.bytes.length)

/-- A frame enters the port's receive queue on one of its two engines (R10, R184); with no credit at either it is dropped
(R227, R240). While one engine is in reset every frame that the other takes is covered. -/
def State.toCarding (p row : Nat) (f : RxFrame) (s : State) : State :=
  let s := s.modEp p (fun e => { e with groups := Tbl.mod 0 row (fun n => n + 1) e.groups })
  if (s.ep p).rxFilled f then s.datagramFull p
  else match s.cardSide p f.bytes with
    | none => s.datagramFull p
    | some side =>
      let alone := s.cardUp p false != s.cardUp p true
      let divert := alone || ((s.ep p).covering.isSome && side == evenKey f.bytes)
      let s := (s.modEp p (fun e => if side then { e with rxB := e.rxB ++ [f] } else { e with rxA := e.rxA ++ [f] })).pushed
        (0x30 + 2 * p + (if side then 1 else 0))
      if divert then
        s.modEp p (fun e => { e with covering := some (side, if side then e.rxB.length else e.rxA.length) })
      else s

/-- Errored frames are delivered to the capture ring (R181). -/
def State.captures (s : State) (p : Nat) : Bool :=
  decide (s.boot.mode ≠ 1 ∧ s.boot.mode ≠ 3) && s.immNat (0x2200 + p) 0x10 0 == 1

/-- An errored frame goes through the receive queue to its carding engine, which drops it or places it in the capture
ring (R181, R227). -/
def State.erroredFrame (p st : Nat) (f : RxFrame) (s : State) : State :=
  let s := s.countErrors p st
  if (s.ep p).rxFilled f then s.rxFull p
  else match s.cardSide p f.bytes with
    | none => s.rxFull p
    | some side =>
      let s := s.passed (0x30 + 2 * p + (if side then 1 else 0)) 1
      if s.captures p then s.modEp p (fun e => { e with ring := (f :: e.ring).take 16 }) else s

/-- SUP takes the frame: an ARP, ICMP, IGMP, IEEE 1588 or LAP frame that one of its commands handles; of IEEE 1588 the
version 2 messages of the domain that R192 lists. -/
def State.supTakes (s : State) (p : Nat) (b : List Byte) : Bool :=
  if frameType b = 0x0806 then true
  else match s.ptpMessage p b with
    | some m => [0, 8, 9, 11].contains (byteAt 0 m % 16) && decide (byteAt 1 m % 16 = 2) && decide (byteAt 4 m = s.cn 0x2008 0x0D 0)
    | none =>
      if ipProto b = 1 then (ipPayload b).head? == some 8
      else if ipProto b = 2 then (ipPayload b).head? == some 0x11
      else true

/-- A frame for SUP enters its queue of 64 frames; one that none of its protocols handles SUP reads and drops. -/
def State.toSup (p : Nat) (f : RxFrame) (s : State) : State :=
  if s.up domSup = false ∨ s.hasRoom (0x34 + p) = false then s.rxFull p
  else if s.supTakes p f.bytes then (s.modEp p (fun e => { e with supIn := e.supIn ++ [f] })).pushed (0x34 + p)
  else s.passed (0x34 + p) 1

/-- A frame of the network witness goes to SUP only (R315), through the same queue. -/
def State.toWitness (p : Nat) (f : RxFrame) (s : State) : State :=
  if s.up domSup = false ∨ s.hasRoom (0x34 + p) = false then s.rxFull p
  else (s.modEp p (fun e => { e with supIn := e.supIn ++ [{ f with witness := true }] })).pushed (0x34 + p)

/-- A pip taken back by an input latency in nanoseconds (R184). -/
def State.pipBefore (ns : Int) (s : State) : Pip :=
  let back (w : Wheel) : WheelPos := ((w.pos - BitVec.ofInt 96 (w.inc * ns * 2 / 5)) >>> 32).setWidth 64
  let p := s.pip
  if ns = 0 then p
  else { time := back s.wheels.time, shaft := back s.wheels.shaft, mains := back s.wheels.mains, sea := back s.wheels.sea
         cycle := p.cycle - BitVec.ofInt 64 (ns * 2 / 5) }

/-- How far the last edge of the port's 125 MHz clock lies before a moment, in nanoseconds: its phase against fabric time
is open (R190, log entry 14). -/
def State.clockLag (s : State) : Int := ((s.freeNat % 8 : Nat) : Int)

/-- The stamp of a received frame's start-of-frame delimiter: its length before the last byte, on the 125 MHz clock
(R190). -/
def State.rxStamp (p len : Nat) (s : State) : WheelPos :=
  let ns : Int := (len : Int) * (if (s.ep p).link = 1 then 8 else if (s.ep p).link = 2 then 80 else 800) + s.ci (0x2200 + p) 0x13 0
  (s.pipBefore (ns + s.clockLag)).time

/-- ETH_FRAME_RECEIVED: a frame from its destination address through its FCS (R180 to R184). Nothing arrives while the
receive clock of the port stands (R239). -/
def State.frameIn (p : Nat) (raw : List Byte) (rxEr : Bool) (s : State) : State :=
  if (s.ep p).linkUp = false ∨ s.fabric.stopped.contains (if p = 0 then .rx0 else .rx1) = true then s
  else
    let max := s.ethN p 0x0A
    let st := rxStatus max raw rxEr
    let (b, vid) := untag raw
    let f : RxFrame := { bytes := b, pip := s.pipBefore (s.ci (0x2200 + p) 0x13 0), states := s.wheelByte,
                         stamp := s.rxStamp p raw.length, errored := decide (st ≠ 0), status := BitVec.ofNat 16 st,
                         length := Nat.min raw.length 65535 }
    let s := s.useFree.countPatterns p raw
    if st ≠ 0 then s.erroredFrame p st { f with bytes := raw.take max }
    else
      let s := (s.macCount p 1 1).macCount p 2 raw.length
      let vidOk := match vid with
        | some v => v == 0 || v == s.ethN p 0x0B
        | none => true
      if vidOk = false ∨ s.addressed p b = false then s.macDrop p
      else match s.wayOf p b with
        | .pause => s.pauseFrame p b
        | .sup => s.toSup p f
        | .card r => s.toCarding p r f
        | .witness => s.toWitness p f
        | .drop => s.macDrop p

/-! ### ARP (R179) -/

/-- SUP takes the oldest frame of its queue where the test picks it, and does `g` with it; a read of an empty queue is an
underrun (R226, R228). -/
def State.withSup (p : Nat) (f : RxFrame → Bool) (g : RxFrame → State → State) (s : State) : State :=
  if s.yields (0x34 + p) = false then s
  else match (s.ep p).supIn with
    | [] => s.readEmpty (0x34 + p)
    | x :: rest =>
      if f x then g x ((s.modEp p (fun e => { e with supIn := rest })).popped (0x34 + p) s) else s

/-- Put an address in the cache: its own entry, a free one, or the one used least recently. -/
def cacheArp (now ip mac : Nat) (l : List ArpEntry) : List ArpEntry :=
  let e : ArpEntry := { ip := ip, mac := mac, at_ := now, used := now }
  if l.any (fun a => a.ip == ip) then l.map (fun a => if a.ip = ip then { e with used := a.used } else a)
  else if l.length < 16 then l ++ [e]
  else
    match l with
    | [] => [e]
    | h :: t =>
      let old := t.foldl (fun a b => if b.used < a.used then b else a) h
      l.map (fun a => if a = old then e else a)

/-- An ARP frame (RFC 826): the cache is updated, waiting frames go, and requests for the own address are answered. -/
def State.arpFrame (p : Nat) (f : RxFrame) (s : State) : State :=
  let b := f.bytes
  let op := netNat 20 2 b
  let sha := netNat 22 6 b
  let spa := netNat 28 4 b
  let mine := decide (s.ipOf p ≠ 0) && decide (netNat 38 4 b = s.ipOf p)
  let known := ((s.ep p).resolve spa).isSome
  let s := if spa ≠ 0 ∧ (known || mine) = true then s.modEp p (fun e => { e with arp := cacheArp s.fc spa sha e.arp }) else s
  let ready := if spa ≠ 0 ∧ (known || mine) = true then (s.ep p).waits.filter (fun w => w.hop == spa) else []
  let s := s.modEp p (fun e => { e with waits := e.waits.filter (fun w => !ready.contains w) })
  let s := ready.foldl (fun s w => s.queueFrame p 3 .other (setDst sha w.frame)) s
  if op = 1 ∧ mine = true then s.sendArp p 2 sha sha spa else s

/-- ARP_FRAME. -/
def execArpFrame (dt : Nat) (port : Fin 2) (s : State) : Host.Outcome State Fault Refusal :=
  .next ((s.elapse dt).whenUp domSup (State.withSup port.val (fun f => !f.witness && frameType f.bytes == 0x0806) (State.arpFrame port.val)))

/-- ARP_RETRY: every 250 ms an unresolved hop is requested again. -/
def State.arpRetry (p : Nat) (s : State) : State :=
  let due (w : ArpWait) : Bool := decide (w.lastReq + msCycles 250 ≤ s.fc)
  let hops := (((s.ep p).waits.filter due).map (fun w => w.hop)).eraseDups
  let s := s.modEp p (fun e => { e with waits := e.waits.map (fun w => if due w then { w with lastReq := s.fc } else w) })
  hops.foldl (fun s h => s.sendArp p 1 0xFFFFFFFFFFFF 0 h) s

/-- ARP_RETRY. -/
def execArpRetry (dt : Nat) (port : Fin 2) (s : State) : Host.Outcome State Fault Refusal :=
  .next ((s.elapse dt).whenUp domSup (State.arpRetry port.val))

/-- ARP_RESOLUTION_TIMEOUT: a frame that has waited 1 s is discarded. -/
def State.arpTimeout (p : Nat) (s : State) : State :=
  s.modEp p (fun e => { e with waits := e.waits.filter (fun w => decide (s.fc < w.since + cyclesPerSec)) })

/-- ARP_RESOLUTION_TIMEOUT. -/
def execArpResolutionTimeout (dt : Nat) (port : Fin 2) (s : State) : Host.Outcome State Fault Refusal :=
  .next ((s.elapse dt).whenUp domSup (State.arpTimeout port.val))

/-- ARP_ENTRY_EXPIRY: entries live 300 s. -/
def State.arpExpiry (p : Nat) (s : State) : State :=
  s.modEp p (fun e => { e with arp := e.arp.filter (fun a => decide (s.fc < a.at_ + 300 * cyclesPerSec)) })

/-- ARP_ENTRY_EXPIRY. -/
def execArpEntryExpiry (dt : Nat) (port : Fin 2) (s : State) : Host.Outcome State Fault Refusal :=
  .next ((s.elapse dt).whenUp domSup (State.arpExpiry port.val))

/-! ### ICMP and IGMP (R179, R183) -/

/-- An IPv4 frame of a protocol. -/
def isProto (n : Nat) (f : RxFrame) : Bool := !f.witness && frameType f.bytes == 0x0800 && ipProto f.bytes == n

/-- An echo request is answered, at most 100 in a second. -/
def State.icmpEcho (p : Nat) (f : RxFrame) (s : State) : State :=
  let m := ipPayload f.bytes
  let recent := (s.ep p).icmpTimes.filter (fun t => decide (s.fc < t + cyclesPerSec))
  let s := s.modEp p (fun e => { e with icmpTimes := recent })
  if m.head? ≠ some 8 ∨ 1480 < m.length ∨ foldSum (wordSum m) ≠ 0xFFFF ∨ 100 ≤ recent.length then s
  else
    let r (sum : Nat) : List Byte := [0, 0] ++ beBytes 2 sum ++ m.drop 4
    let dst := ipSrc f.bytes
    let g := ethHeader 0 (s.macOf p) 0x0800 ++ ipHeader (s.ipOf p) dst 1 64 (s.ep p).ipId.toNat 0x4000 false m.length ++ r (netSum (r 0))
    ((s.modEp p (fun e => { e with icmpTimes := recent ++ [s.fc] })).nextIpId p).sendUnicast p dst g

/-- ICMP_ECHO_REQUEST. -/
def execIcmpEchoRequest (dt : Nat) (port : Fin 2) (s : State) : Host.Outcome State Fault Refusal :=
  .next ((s.elapse dt).whenUp domSup (State.withSup port.val (isProto 1) (State.icmpEcho port.val)))

/-- The maximum response time of a query in fabric cycles (RFC 2236, RFC 3376). -/
def maxResponse (m : List Byte) : Nat :=
  let c := byteAt 1 m
  let tenths := if c = 0 then 100 else if c < 128 ∨ m.length < 12 then c else (c % 16 + 16) * 2 ^ (c / 16 % 8 + 3)
  tenths * (cyclesPerSec / 10)

/-- A query schedules a report for each group it covers, `delay` cycles on within its maximum response time. -/
def State.igmpQuery (p delay : Nat) (f : RxFrame) (s : State) : State :=
  let m := ipPayload f.bytes
  let g := beNat (slice 4 4 m)
  let covered := (s.joined p).filter (fun x => g == 0 || x == g)
  let due := s.fc + Nat.min delay (maxResponse m)
  covered.foldl (fun s x => s.modEp p (fun e =>
    match e.igmpDue.find? (fun y => y.1 == x) with
    | some y => if y.2 ≤ due then e else { e with igmpDue := e.igmpDue.map (fun z => if z.1 = x then (x, due) else z) }
    | none => { e with igmpDue := e.igmpDue ++ [(x, due)] })) s

/-- IGMP_QUERY. -/
def execIgmpQuery (dt : Nat) (port : Fin 2) (delay : Nat) (s : State) : Host.Outcome State Fault Refusal :=
  .next ((s.elapse dt).whenUp domSup (State.withSup port.val (isProto 2) (State.igmpQuery port.val delay)))

/-- IGMP_REPORT_DELAY: the delay of a group's report has run out. -/
def State.igmpReport (p group : Nat) (s : State) : State :=
  if (s.ep p).igmpDue.any (fun x => x.1 == group && decide (x.2 ≤ s.fc)) then
    let s := s.modEp p (fun e => { e with igmpDue := e.igmpDue.filter (fun x => x.1 != group) })
    if (s.joined p).contains group then s.sendReport p group else s
  else s

/-- IGMP_REPORT_DELAY. -/
def execIgmpReportDelay (dt : Nat) (port : Fin 2) (group : BitVec 32) (s : State) : Host.Outcome State Fault Refusal :=
  .next ((s.elapse dt).whenUp domSup (State.igmpReport port.val group.toNat))

/-! ### Transmission and stamps (R185, R187, R190, R191) -/

/-- The number of the highest-priority queue that is not empty. -/
def EPort.headQueue (e : EPort) : Option Nat := [0, 1, 2, 3].find? (fun q => !(e.txq q).isEmpty)

/-- A stamp is lost (STAMP_LOST). -/
def State.stampLost (p seq : Nat) (s : State) : State :=
  let first := !(s.ep p).flags.getLsbD 0
  ((s.macCount p 0x11 1).modEp p (fun e => { e with
    flags := setBit e.flags 0 true, lostSeq := if first then seq else e.lostSeq })).event 0x7004 p seq

/-- The transmit stamp of a frame that starts now, on the 125 MHz clock: queued for a datagram, kept as t3 for a
Delay_Req, or lost. -/
def State.txStamp (p : Nat) (k : TxKind) (s : State) : State :=
  let pos := (s.pipBefore (s.clockLag - s.ci (0x2200 + p) 0x14 0)).time
  let s := s.useFree
  let full := decide (16 ≤ (s.ep p).stamps.length)
  match k with
  | .datagram l e =>
    if (s.ethN p 0x15).testBit e.cls then
      (if full then s.stampLost p (e.seq.toNat % 0x10000)
      else s.modEp p (fun x => { x with stamps := x.stamps ++ [(l, e.seq.toNat % 0x10000, pos)] }))
    else s
  | .delayReq n =>
    if full then
      (s.stampLost p n).modEp p (fun x => { x with ptp.exchs := x.ptp.exchs.filter (fun ex => ex.reqSeq != n) })
    else
      s.modEp p (fun x => { x with ptp.exchs := x.ptp.exchs.map (fun ex => if ex.reqSeq = n then { ex with t3 := some pos } else ex) })
  | .other => s

/-- MAC_FRAME_START: the head of the highest queue starts once its threshold is met (R185, R187). -/
def State.macStart (p inMac : Nat) (s : State) : State :=
  let e := s.ep p
  match e.headQueue with
  | none => s
  | some q =>
    match e.txq q with
    | [] => s
    | f :: rest =>
      if e.inFlight.isSome = true ∨ e.linkUp = false ∨ e.pauseState = 1 ∨ (inMac < 64 * e.step ∧ inMac < f.bytes.length) ∨
          s.yields (macQueue p q f) = false then s
      else
        (((s.modEp p (fun e => { (e.setTxq q rest) with inFlight := some f, watchdog := none })).popped (macQueue p q f) s).letFramesIn
          p).txStamp p f.kind

/-- MAC_FRAME_START. -/
def execMacFrameStart (dt : Nat) (port : Fin 2) (bytesInMac : Nat) (s : State) : Host.Outcome State Fault Refusal :=
  .next ((s.elapse dt).whenUp (domEth port.val) (State.macStart port.val bytesInMac))

/-- A clean frame: after 10 000 of them the start step falls by one (R187). -/
def State.cleanFrame (p : Nat) (s : State) : State :=
  s.modEp p (fun e =>
    let n := e.clean + 1
    if 10000 ≤ n ∧ s.ethN p 0x0C < e.step then { e with clean := 0, step := e.step - 1 }
    else { e with clean := Nat.min n 10000 })

/-- MAC_FRAME_END: the frame in flight is finished on the wire. -/
def State.macEnd (p : Nat) (s : State) : State :=
  match (s.ep p).inFlight with
  | none => s
  | some f =>
    let s := (((s.modEp p (fun e => { e with inFlight := none })).macCount p 0x0D 1).macCount p 0x0E (f.bytes.length + 4)).cleanFrame p
    let s := match f.kind with
      | .datagram l e => s.entrySent l e
      | _ => s
    ((s.trackWatchdog p).releaseIdle (0x20 + p)).frameBoundary p

/-- MAC_FRAME_END. -/
def execMacFrameEnd (dt : Nat) (port : Fin 2) (s : State) : Host.Outcome State Fault Refusal :=
  .next ((s.elapse dt).whenUp (domEth port.val) (State.macEnd port.val))

/-- The stamp of a frame that ran out of data is withdrawn (R187). -/
def State.dropStamp (p : Nat) (k : TxKind) (s : State) : State :=
  match k with
  | .datagram l e => s.modEp p (fun x => { x with stamps := x.stamps.filter (fun t => !(t.1 == l && t.2.1 == e.seq.toNat % 0x10000)) })
  | .delayReq n =>
    s.modEp p (fun x => { x with ptp.exchs := x.ptp.exchs.map (fun ex => if ex.reqSeq = n then { ex with t3 := none } else ex) })
  | .other => s

/-- TX_UNDERRUN: the frame ends with an inverted FCS and the start step rises. -/
def State.txUnderrun (p : Nat) (s : State) : State :=
  match (s.ep p).inFlight with
  | none => s
  | some f =>
    let step := Nat.min 32 ((s.ep p).step + 1)
    let s := s.modEp p (fun e => { e with inFlight := none, step := step, clean := 0, flags := setBit e.flags 2 true })
    (((((s.dropStamp p f.kind).macCount p 0x0F 1).event 0x7002 p step).trackWatchdog p).releaseIdle (0x20 + p)).frameBoundary p

/-- TX_UNDERRUN. -/
def execTxUnderrun (dt : Nat) (port : Fin 2) (s : State) : Host.Outcome State Fault Refusal :=
  .next ((s.elapse dt).whenUp (domEth port.val) (State.txUnderrun port.val))

/-- REMOVE_STAMP_HEAD (R190). -/
def State.removeStamp (p : Nat) (s : State) : State := s.modEp p (fun e => { e with stamps := e.stamps.drop 1 })

/-- REMOVE_STAMP_HEAD. -/
def execRemoveStampHead (dt : Nat) (port : Fin 2) (s : State) : Host.Outcome State Fault Refusal :=
  .next ((s.elapse dt).whenUp domSup (State.removeStamp port.val))

/-! ### Counters and the capture ring (R181, R197, R198) -/

/-- Sample one MAC counter into its statistic. -/
def State.sampleCounter (p : Nat) (s : State) (n : Nat) : State :=
  let now := Tbl.get (0 : BitVec 32) n (s.ep p).mac
  let old := Tbl.get (0 : BitVec 32) n (s.ep p).sampled
  (s.stat 0x4830 p (n + 1) (now - old).toNat).modEp p (fun e => { e with sampled := Tbl.put n now e.sampled })

/-- MAC_COUNTER_SAMPLE: every MAC counter of a port. -/
def State.sampleCounters (p : Nat) (s : State) : State :=
  ((List.range 0x12).foldl (fun s n => s.sampleCounter p (n + 1)) s).modEp p (fun e => { e with sampledAt := s.fc })

/-- MAC_COUNTER_SAMPLE. -/
def execMacCounterSample (dt : Nat) (port : Fin 2) (s : State) : Host.Outcome State Fault Refusal :=
  .next ((s.elapse dt).whenUp (domEth port.val) (State.sampleCounters port.val))

/-- CLEAR_CAPTURE_RING. -/
def State.clearRing (p : Nat) (s : State) : State := s.modEp p (fun e => { e with ring := [] })

/-- CLEAR_CAPTURE_RING. -/
def execClearCaptureRing (dt : Nat) (port : Fin 2) (s : State) : Host.Outcome State Fault Refusal :=
  .next ((s.elapse dt).whenUp domSup (State.clearRing port.val))

end Sys2Proof.Machine
end

