-- ==== Sys2Proof/Machine/Domains.lean ====
section
/-! DEFINITION. Power and reset domains (R21, R22, R240 to R243, Table 1.7): what each domain loses as it enters reset or
is switched off, what it restores as it returns, and the queue ends in between. -/

namespace Sys2Proof.Machine

open Sys2Proof

/-- Change the record of a domain. -/
def State.modDom (d : Nat) (f : Dom → Dom) (s : State) : State :=
  { s with power.doms := Tbl.mod {} d f s.power.doms }

/-! ### Queue ends (R240 to R243) -/

/-- A side of a queue enters reset: an exchange is abandoned, what is committed by now is what the other side presents
or takes, and the consumer rule wins where both sides were reset. -/
def State.markEnd (q : Nat) (side : Side) (s : State) : State :=
  let n := s.visible q
  s.modQue q (fun x => { x with
    wasReset := if side = .consumer ∨ x.wasReset = some .consumer then some .consumer else some .producer
    both := x.both || x.wasReset == some (otherSide side)
    raised := false, phase := 0, presented := 0, frozen := n, since := if side = .consumer then none else x.since })

/-- The ends of every queue of a domain are reset. -/
def State.markEnds (d : Nat) (s : State) : State :=
  (List.range 512).foldl (fun s q =>
    match queueEnds q with
    | some (p, c) => if c = d then s.markEnd q .consumer else if p = d then s.markEnd q .producer else s
    | none => s) s

/-! ### FABRIC (R22, R26, R241) -/

/-- Every committed packet in a queue, and the records of the record store (R22, R241). -/
def State.allQueued (s : State) : Nat :=
  (List.range 512).foldl (fun n q => n + s.visible q) 0 + (distinctRecords s.heldRecords).length

/-- A listener after FABRIC was reset: queues and composed items gone, its numbers begin anew. -/
def Listener.restart (x : Listener) : Listener :=
  { x with queue := [], seq := 0, line := 0, slot := none, inFlight := none, held := none }

/-- Every shaper restarts: a record it holds is discarded and counted as shaped. -/
def State.restartShapers (s : State) : State :=
  let s := s.bramble.shapers.foldl (fun s x => if x.2.held.isSome then s.countShaped (x.1 / 64) (x.1 % 64) else s) s
  { s with bramble.shapers := [] }

/-- Every queue and the record store are emptied. -/
def State.emptyQueues (s : State) : State :=
  { s with
    serial := s.serial.map (fun x => (x.1, { x.2 with rx := [], tx := [] }))
    eth := s.eth.map (fun x => (x.1, { x.2 with
      rxA := [], rxB := [], supIn := [], tx0 := [], tx1 := [], tx2 := [], tx3 := [], covering := none, ipId := 0, watchdog := none }))
    can := s.can.map (fun x => (x.1, { x.2 with rxMsgs := [], supIn := if x.1 = 2 then x.2.supIn else [], txq := [] }))
    carding.toVote4 := [], carding.toVote9 := []
    bramble.inputs := [], bramble.listeners := s.bramble.listeners.map (fun x => (x.1, x.2.restart))
    journal.inbox := [], twin.out := [], dict.spiReply := none }

/-- FABRIC enters reset: queues emptied and counted in one event, wheels stopped, wheel outputs low. SUP records the
time-wheel position at this moment. -/
def State.fabricEnter (s : State) : State :=
  let n := s.allQueued
  let s := s.restartShapers.emptyQueues
  let s : State := { s with
    wheels.supPos := s.time, wheels.supAt := s.now
    appts.line := [], appts.ppsOut := false, appts.ppsEnd := none
    appts.evt := s.appts.evt.map (fun x => (x.1, { x.2 with level := false, pulseEnd := none }))
    fabric.queues := s.fabric.queues.map (fun x => (x.1, { x.2 with
      phase := 0, presented := 0, raised := false, since := none, read := 0, frozen := 0, notices := 0, taken := 0 })) }
  s.event 0x9004 0 n

/-- A wheel as it restarts. -/
def freshWheel (p : WheelPos) (inc : Int) : Wheel := { pos := accOf p, inc := inc }

/-- The position that the always-on oscillator gives: the one recorded, and its ticks of 32 768 Hz since (R26). -/
def State.resumePos (s : State) : WheelPos :=
  s.wheels.supPos + BitVec.ofNat 64 ((s.now - s.wheels.supAt) * 32768 / cyclesPerSec * 2 ^ 17)

/-- SUP reloads row 1016 or 1017 with its pending set point, also one whose dispatch was lost with the line (R22). -/
def State.reloadPoint (s : State) (r : Nat) : State :=
  let c := s.apptRow r
  if c.kind = 1 then s.modAppt r (fun a => { a with next := some c.phase, back := none, fired := false }) else s

/-- A row of a wheel that restarts at position zero: a one-shot not yet fired stays pending, a periodic row begins at the
first grid position at or after zero (R22). -/
def State.restartRow (s : State) (r : Nat) : State :=
  let c := s.apptRow r
  if c.wheel = 0 ∨ c.armed = false then s
  else s.modAppt r (fun a => c.rephase 0 false { a with next := none, back := none, done := [] })

/-- FABRIC returns (FABRIC_RESTART): the time wheel resumes by a forward jump, the other wheels at position zero; the
fabric cycle count begins anew; pending set points are reloaded. -/
def State.fabricExit (s : State) : State :=
  let old := s.wheels.supPos
  let new := s.resumePos
  let leap := s.leap
  let t := freshWheel new nominalInc
  let s : State := { s with
    fabricZero := s.fc
    wheels := { s.wheels with
      time := { t with steps := s.wheels.time.steps }
      shaft := freshWheel 0 0
      mains := freshWheel 0 (s.fixedInc 2), sea := freshWheel 0 (s.fixedInc 3)
      pps := {}, loop := {}, enc := { a := s.wheels.enc.a, b := s.wheels.enc.b }, mns := {}, est := {}
      zdaIn := [], disagreeing := false } }
  let s : State := { s with eth := s.eth.map (fun x => (x.1, { x.2 with ptp.exchs := [], ptp.good := 0, ptp.qualifiedSince := none })) }
  let s := ([1016, 1017].foldl State.reloadPoint s).jumped 0 old new
  let s := s.apptRows.foldl State.restartRow s
  (s.noteLeap leap old).event 0x1007 0 (posRev new)

/-! ### Carding (R68) -/

/-- The rows that a carding domain alone serves: the Ethernet rows continue on the other domain's engines. -/
def servedBy (d port : Nat) : Bool :=
  if d = domCardA then decide (port ≤ 11) || decide (0x28 ≤ port ∧ port ≤ 0x2A)
  else decide (12 ≤ port ∧ port ≤ 23) || decide (0x30 ≤ port ∧ port ≤ 0x40)

/-- A carding domain enters reset: sentences and messages partly taken are lost without a record. -/
def State.cardEnter (d : Nat) (s : State) : State :=
  let s : State := { s with carding.framers := s.carding.framers.filter (fun x => !servedBy d x.1) }
  if d = domCardA then { s with can := s.can.map (fun x => (x.1, { x.2 with fast := [], bam := [] })) } else s

/-- A carding domain returns: its rows restart, and its voting engine begins without values or choices. -/
def State.cardExit (d : Nat) (s : State) : State :=
  let rows := (Cfg.live s.cfg 0x2310 44).filter (fun r => servedBy d (s.cn 0x2310 3 r))
  let s := rows.foldl (fun s r => s.restartSrc s.cfg r) s
  let mine (g : Nat) : Bool := if d = domCardA then decide (g ≤ 31) else decide (32 ≤ g)
  State.checkHeel <| State.checkSea { s with carding.groups := s.carding.groups.map (fun x =>
      (x.1, if mine x.1 then { x.2 with chosen := 0xFFFF, hold := none, full := none, values := [], disagreeing := false } else x.2)) }

/-! ### Fulling, control (R119) -/

/-- FULL enters reset: the items that its engines hold are lost. The characters already handed to a serial port's
transmit queue stay there and are sent (R21, R240). -/
def State.fullEnter (s : State) : State :=
  { s with bramble.listeners := s.bramble.listeners.map (fun x => (x.1, { x.2 with slot := none, inFlight := none })) }

/-- CTRL enters reset: steps that run are lost. -/
def State.ctrlEnter (s : State) : State :=
  { s with control.cascades := s.control.cascades.map (fun x => (x.1, { x.2 with running := none })) }

/-- A tank of which SUP kept weight and anchors. -/
def Tank.kept (x : Tank) : Tank :=
  { weight := x.weight, anchorSounding := x.anchorSounding, anchorContribution := x.anchorContribution, recovery := none, anchored := x.anchored,
    code := if x.code = 0 then 0 else 1 }

/-- CTRL returns: cascades that are not OFF restart in HOLD with the outputs that SUP kept; tanks keep weights and
anchors; every other part of the model begins anew. -/
def State.ctrlExit (s : State) : State :=
  let k := s.control
  let s : State := { s with control := {
      tanks := k.tanks.map (fun x => (x.1, x.2.kept))
      cascades := k.cascades.map (fun x =>
        let y : Cascade := Tbl.get {} x.1 k.supCascades
        (x.1, { x.2 with issued := y.issued, outerOut := y.outerOut, outerIn := 0, running := none, consecutive := 0 }))
      stages := k.supStages
      supCascades := k.supCascades, supStages := k.supStages } }
  (k.cascades.filter (fun x => x.2.state != 0)).foldl (fun s x => s.holdCasc x.1 4) s.beginLoading

/-! ### SUP (R269, R282, R291, R327) -/

/-- The sealed content that SUP reads again after its reset: that of the copy in force, or the factory defaults. -/
def State.sealedCfg (s : State) : Cfg :=
  match s.boot.copyInForce with
  | some n => (Tbl.get ({} : Copy) n s.boot.copies).content
  | none => []

/-- SUP enters reset: ARB_N released, BEAT_OUT low, outputs of this unit given up; clients, IMM values, statistics and
an uncommitted cycle lost; a committed set point does not happen. -/
def State.supEnter (s : State) : State :=
  let was := decide (s.twin.role = 3 ∨ s.twin.role = 4 ∨ s.twin.role = 5)
  let s := if s.twin.role = 0 then s else { s with twin.role := 1, twin.claimAt := none, twin.released := [], twin.handIn := false }
  let s := if was then s.endEntitlement else s
  let s := (s.driveArb false).cancelHandover.forgetPeer
  let s : State := { s with
    stats := [], appts.setRow := none
    twin.beatOut := false
    cycle := { s.cycle with
      state := 0, owner := none, shadow := [], staged := 0, failures := [], failCount := 0, result := 0, pending := none
      committed := false, writing := none, twinPass := none, asked := false, found := none, twinCount := 0, twinFails := []
      whole := false, acked := false, fromTwin := none }
    dict := { startCount := s.dict.startCount, spiReply := s.dict.spiReply, spiAt := s.dict.spiAt }
    canOpen.waiting := [], canOpen.emcy := []
    boot.target := 0xFF, boot.owner := none, boot.supRunning := false, boot.rewriting := none }
  s.modAppt 1016 (fun a => { a with next := none, back := none })

/-- Events that the AO domain and the blocks held are put before SUP, and the number dropped is told (R293). -/
def State.releaseEvents (s : State) : State :=
  let n := s.health.dropped
  let s : State := { s with
    health.waiting := s.health.aoEvents ++ s.health.waiting, health.aoEvents := [], health.dropped := 0, health.supReset := false }
  if n = 0 then s else s.event 0xE002 n 0

/-- SUP reports from the multiples of its intervals that come after it has started (R299). -/
def State.beginReports (s : State) : State :=
  { s with
    health.statusGrid := { s.health.statusGrid with start := s.time }, health.wheelGrid := { s.health.wheelGrid with start := s.time } }

/-- SUP starts: the start count advances, and the unit joins (R274, R311). -/
def State.supStart (s : State) : State :=
  let s : State := { s with dict.startCount := s.dict.startCount + 1, boot.supRunning := true, boot.startedAt := s.now }
  s.beginReports.releaseEvents.join

/-- SUP returns from a reset of its domain alone: the configuration in force is read again from its sealed copy. Without an
image the boot ROM goes on (R341). -/
def State.supExit (s : State) : State :=
  if s.boot.bootRom then { s with health.supReset := false } else ({ s with cfg := s.sealedCfg }).supStart

/-! ### Ports -/

/-- An Ethernet port enters reset: the link goes down, statistics keep what the counters held, the counters are 0. The
frames of its transmit queues stay in queue memory until each queue is realigned (R241, R242). -/
def State.ethEnter (p : Nat) (s : State) : State :=
  let s := s.sampleCounters p
  let s := if (s.ep p).link = 0 then s else s.event 0x7001 p 0
  let s := s.modEp p (fun e => { e with
    link := 0, mac := [], sampled := [], inFlight := none, stamps := [], badReads := 0, restart := false, pauseState := 0, watchdog := none })
  s.releaseIdle (0x20 + p)

/-- SERIAL enters reset: every port stops, drivers drop, and items that were being sent are lost. -/
def State.serialEnter (s : State) : State :=
  let s : State := { s with
    serial := s.serial.map (fun x => (x.1, { x.2 with
      busy := none, wire := [], aux := false, leadEnd := none, lagEnd := none, overlapEnd := none, startAfter := none
      sending := [], ownBreak := none, slot := none, held := false })) }
  { s with bramble.listeners := s.bramble.listeners.map (fun x =>
      match listenerKind s.uid s.cfg x.1 with
      | .serial _ => (x.1, { x.2 with inFlight := none })
      | _ => x) }

/-- The CAN controllers enter reset: what stands in their objects is lost. The packets of their transmit queues stay in
queue memory until each queue is realigned (R241, R242). C2 is in no state that sends an EMCY, so that SUP only notes
the error register (R219). -/
def State.canEnter (s : State) : State :=
  State.trackErrors { s with
    can := s.can.map (fun x => (x.1, { x.2 with
      state := 1, txErr := 0, rxErr := 0, tx := [], addrState := 0, claimAt := none, names := []
      supWait := [], pdos := [], supIn := if x.1 = 2 then [] else x.2.supIn }))
    canOpen.nmt := 0, canOpen.emcy := [], canOpen.waiting := [] }

/-- The CAN domain returns: every enabled port starts (R207, R214); under the boot ROM only C2 is served (R341). -/
def State.canExit (s : State) : State :=
  if s.boot.bootRom then s.canStart 2 else (List.range 3).foldl (fun s p => s.canStart p) s

/-- AFE enters reset: tanks fed by loop inputs are marked as not sampled. -/
def State.afeEnter (s : State) : State :=
  s.tanksOn.foldl (fun s t =>
    let p := s.cn 0x2310 3 (s.cn 0x3110 3 t)
    if 0x30 ≤ p ∧ p ≤ 0x3F ∧ (s.tank t).code = 2 then (s.modTank t (fun x => { x with code := 3 })).event 0x4001 t 0 else s) s

/-- AFE returns: classifications unknown, windows begin, and the converter settles (R162, R164, R170). -/
def State.afeExit (s : State) : State :=
  let before := s.refFault
  let s := { s with
    analog.afeAt := s.fc
    analog.pairs := (List.range 24).map (fun p => (p, { (Tbl.get ({} : Pair) p s.analog.pairs) with
      cls := 0xFF, cand := 0xFF, count := 0, lastRecord := none, windowAt := s.fc, complete := false })) }
  ((List.range 16).foldl (fun s c => s.notReady c) s).refChange before

/-- DRAMIF enters reset: the records of the ring that are not flushed are lost and counted (R251). -/
def State.dramEnter (s : State) : State :=
  let n := (s.journal.ring.filter (fun r => r.page.isNone)).length
  { s.stat 0x4860 0 3 n with
    journal.ring := [], journal.programming := none, journal.load := [], journal.erasing := none
    journal.lostPending := some (s.journal.lostPending.getD 0 + n) }

/-- DRAMIF returns: the device is probed again; a start marker with reason 1 is due. The journal does not run under the boot
ROM, nor before step 8 of the start (R328, R341). -/
def State.dramExit (s : State) : State :=
  if s.cn 0x3800 1 0 = 0 ∨ s.boot.bootRom = true ∨ s.boot.trained = false then s
  else ({ s with journal.startReason := some 1, journal.timeouts := 0 }).setJournal 1

/-! ### Entering and leaving -/

/-- What a domain loses as it enters reset or loses power. -/
def State.domainLoses (d : Nat) (s : State) : State :=
  match d with
  | 2 => s.fabricEnter
  | 3 => s.cardEnter d
  | 4 => s.cardEnter d
  | 5 => s.fullEnter
  | 6 => s.ctrlEnter
  | 7 => s.supEnter
  | 8 => s.ethEnter 0
  | 9 => s.ethEnter 1
  | 10 => s.serialEnter
  | 11 => s.canEnter
  | 12 => s.afeEnter
  | 13 => s.dramEnter
  | 14 => s.dropLanes
  | _ => s

/-- What a domain restores as it leaves reset. -/
def State.domainRestores (d : Nat) (s : State) : State :=
  match d with
  | 2 => s.fabricExit
  | 3 => s.cardExit d
  | 4 => s.cardExit d
  | 6 => s.ctrlExit
  | 7 => s.supExit
  | 8 => s.portEnabled 0
  | 9 => s.portEnabled 1
  | 10 => (List.range 24).foldl (fun s p => s.startPort p) s
  | 11 => s.canExit
  | 12 => s.afeExit
  | 13 => s.dramExit
  | _ => s

/-- A running domain enters reset (R21, R240). -/
def State.enterReset (d : Nat) (s : State) : State :=
  if s.dom d ≠ 3 then s
  else (((s.domainLoses d).modDom d (fun x => { x with state := 2, resets := x.resets + 1 })).markEnds d)

/-- A domain in reset leaves it (R21). -/
def State.exitReset (d : Nat) (s : State) : State :=
  if s.dom d ≠ 2 then s else ((s.modDom d (fun x => { x with state := 3 })).domainRestores d).regain s

/-- A running domain is switched off (R344, R346). -/
def State.switchOff (d : Nat) (s : State) : State :=
  if s.dom d = 0 then s else ((s.domainLoses d).modDom d (fun x => { x with state := 0 })).markEnds d

/-- A domain that was off is switched on and leaves reset (R344, R349). -/
def State.switchOn (d : Nat) (s : State) : State :=
  if s.dom d ≠ 0 then s else ((s.modDom d (fun x => { x with state := 3 })).domainRestores d).regain s

/-! ### Domains without a function (R344) -/

/-- Every function of the domain is disabled by the configuration in force. -/
def State.unused (s : State) (d : Nat) : Bool :=
  match d with
  | 8 => s.cn 0x2200 1 0 == 0
  | 9 => s.cn 0x2201 1 0 == 0
  | 11 => (List.range 3).all (fun p => s.cn (0x2240 + p) 1 0 == 0)
  | 12 => s.cn 0x2180 1 0 == 0 && (List.range 16).all (fun c => s.cn 0x2191 2 c == 0)
  | 14 => s.cn 0x4000 1 0 == 0
  | _ => false

/-- Switch the domains of R344 off and on as the configuration in force has it, in the order of Table 16.2. -/
def State.powerDomains (s : State) : State :=
  let s := [11, 12, 8, 9, 14].foldl (fun s d => if s.unused d then s.switchOff d else s) s
  [14, 8, 9, 11, 12].foldl (fun s d => if s.unused d then s else s.switchOn d) s

end Sys2Proof.Machine
end

