-- ==== Sys2Proof/Machine/SetPoint.lean ====
section
/-! DEFINITION. What a set point does in each block (R20): the configuration in force changes from `old` to `new`, and
each block keeps, restarts or ends what its chapter says (R27, R45, R68, R71, R74, R87, R88, R118, R121, R124, R126,
R143, R144, R148, R170, R178, R183, R201, R207, R214, R341, R344). -/

namespace Sys2Proof.Machine

open Sys2Proof

/-- Any of these values of a row differs between two configurations. -/
def changed (u : UnitId) (old new : Cfg) (index : Nat) (subs : List Nat) (row : Nat) : Bool :=
  subs.any (fun k => Cfg.val u old index k row != Cfg.val u new index k row)

/-- The rows of an index that either configuration lists: only these can differ. -/
def touched (old new : Cfg) (index : Nat) : List Nat := (Cfg.rows index old).foldl (fun l r => insertNat r l) (Cfg.rows index new)

/-- The subindices from `a` to `b`. -/
def subsOf (a b : Nat) : List Nat := (List.range (b + 1 - a)).map (fun k => a + k)

/-! ### Wheels and appointments (R20, R27, R45) -/

/-- The wheels: a changed source list, and the fixed rates of wheels that follow nothing. -/
def State.setWheels (old : Cfg) (s : State) : State :=
  let s := if changed s.uid old s.cfg 0x2008 [1] 0 then s.sourceChanged else s
  let s := if changed s.uid old s.cfg 0x200A [1] 0 && s.wheels.mains.state == .unref then s.setInc 2 (s.fixedInc 2) else s
  if changed s.uid old s.cfg 0x200B [2] 0 && s.wheels.sea.state == .unref then s.setInc 3 (s.fixedInc 3) else s

/-- Each WHL_EVT output whose mode or width changes and that runs no pulse goes low in modes 0 and 1 (R45). -/
def State.setOutputs (old : Cfg) (s : State) : State :=
  (List.range 8).foldl (fun s n =>
    if changed s.uid old s.cfg 0x2019 [1 + n, 9 + n] 0 && (s.evt n).pulseEnd.isNone && s.cn 0x2019 (1 + n) 0 != 2
    then s.setEvt n { s.evt n with level := false } else s) s

/-- A row of the new table: what waits of the old one at or after the set point goes, and it is armed from there, on the
time wheel with the set point itself (R20). Where the time wheel had jumped across the set point `sp`, the row meets the
jump as R31 has it: its one-shots passed over are late, and it is re-phased to where the wheel came. -/
def State.setRow (sp : Dispatch) (s : State) (r : Nat) : State :=
  let c := s.apptRow r
  let stays (d : Dispatch) : Bool :=
    d.row != r || (if c.wheel = 0 then !posAtOrAfter d.due sp.due else decide (d.dueCycle < s.fc))
  let s : State := { s with appts.line := s.appts.line.filter stays }
  let base := if c.wheel = 0 then sp.due - 1 else (s.wheels.get c.wheel).visible
  let s := s.modAppt r (fun a => c.arm base { dispatches := a.dispatches, late := a.late })
  if sp.late then s.rephaseRow 0 (s.wheels.time.ago (s.fc - sp.dueCycle)) true r else s

/-- The appointment table: rows that changed, and the journal's flush row. -/
def State.setAppts (old : Cfg) (sp : Dispatch) (s : State) : State :=
  let rows := ((touched old s.cfg 0x2010).filter (fun r => decide (r ≤ 1015) && changed s.uid old s.cfg 0x2010 (subsOf 2 8) r)) ++
    (if changed s.uid old s.cfg 0x3800 [3] 0 then [1018] else [])
  rows.foldl (State.setRow sp) s

/-! ### Carding and Bramble (R68, R71, R74, R87, R88) -/

/-- A source row at a set point: it restarts where it becomes enabled, or its port or its key, in the field that its key
kind uses, changes (R68). -/
def State.setSource (old : Cfg) (s : State) (r : Nat) : State :=
  let on (c : Cfg) : Bool := Cfg.nat s.uid c 0x2310 2 r == 1
  let kind := s.cn 0x2310 4 r
  let key : List Nat := if kind = 1 ∨ kind = 2 then [5] else if kind = 0 ∨ kind = 4 then [] else [6]
  if (on s.cfg && !on old) || changed s.uid old s.cfg 0x2310 ([3, 4] ++ key) r then s.restartSrc s.cfg r
  else if changed s.uid old s.cfg 0x2310 [0x0A, 0x0B] r then
    s.modSrc r (fun x => { x with tokens := s.cn 0x2310 0x0B r, refill := s.fc })
  else s

/-- A quantity group at a set point: a chosen row that is still a candidate stays, otherwise the first branch of the
selection applies at once. What it stored of its candidates stays their latest counting values also where its formatters
or its compare slot change; a slot absent there compares as 0 (log entry 403). -/
def State.setGroup (s : State) (g : Nat) : State :=
  if s.cn 0x2320 2 g ≠ 1 then
    s.modGrp g (fun x => { x with chosen := 0xFFFF, hold := none, full := none, values := [], disagreeing := false, noChoice := false })
  else
    let rows := candidates s.uid s.cfg g
    let s := s.modGrp g (fun x => { x with values := x.values.filter (fun v => rows.contains v.1) })
    if s.mirrored || rows.contains (s.grp g).chosen then s
    else (s.modGrp g (fun x => { x with hold := none })).choose g ((s.bestOf rows).getD 0xFFFF)

/-- The port of a listener allows it under the configuration in force. -/
def State.portAllows (s : State) (k : LKind) : Bool :=
  match k with
  | .serial p => decide (s.portMode p = 1 ∨ s.portMode p = 2)
  | .eth p => s.ethN p 1 != 0
  | .can p => s.canOn p
  | _ => true

/-- Every entry of a listener is discarded and counted (R88). -/
def State.discardAll (l : Nat) (s : State) : State :=
  let x := s.lst l
  let n := x.queue.length + (if x.slot.isSome then 1 else 0) + (if x.inFlight.isSome then 1 else 0)
  (s.modLst l (fun x => { x with queue := [], slot := none, inFlight := none })).stat 0x4820 l 0x0A n

/-- A lowered queue limit is met at once by discards of the lowest class present (R87, R88). -/
def State.meetLimit (l : Nat) (s : State) : State :=
  (List.range ((s.lst l).queue.length - s.cn 0x2520 4 l)).foldl (fun s _ =>
    s.discardOldest l (lowestClass (s.lst l).queue)) s

/-- A listener at a set point. -/
def State.setListener (old : Cfg) (s : State) (l : Nat) : State :=
  let s := if changed s.uid old s.cfg 0x2520 [4] l then s.meetLimit l else s
  if s.portAllows (listenerKind s.uid old l) then s else s.discardAll l

/-- A shaper row whose fields change restarts towards every listener; its counts 0x2530:05 to 07 go on (log entry 404). -/
def State.setShaper (s : State) (n : Nat) : State :=
  let mine := s.bramble.shapers.filter (fun x => x.1 / 64 == n)
  let s := mine.foldl (fun s x => if x.2.held.isSome then s.countShaped n (x.1 % 64) else s) s
  { s with bramble.shapers := s.bramble.shapers.filter (fun x => x.1 / 64 != n) }

/-- Carding, the groups, listeners and shapers. -/
def State.setForwarding (old : Cfg) (s : State) : State :=
  let s := (touched old s.cfg 0x2310).foldl (State.setSource old) s
  let s := ((touched old s.cfg 0x2320).filter (fun g => changed s.uid old s.cfg 0x2320 [2, 3] g)).foldl State.setGroup s
  let s := (List.range 64).foldl (State.setListener old) s
  ((touched old s.cfg 0x2530).filter (fun n => changed s.uid old s.cfg 0x2530 [2, 3, 4] n)).foldl State.setShaper s

/-! ### Tanks and cascades (R118, R121, R124) -/

/-- A tank row whose enable, gauge source, selection or table changed: NO_READING with full weight. -/
def State.retank (old : Cfg) (s : State) : State :=
  let tables := (touched old s.cfg 0x3111).filter (fun r => changed s.uid old s.cfg 0x3111 (subsOf 2 6) r)
  (List.range 96).foldl (fun s t =>
    if changed s.uid old s.cfg 0x3110 [2, 3, 4, 5, 6, 0x0C] t || tables.any (fun r => r / 64 == t)
    then (s.setWeight t 255).modTank t (fun _ => { code := if s.tankOn t then 1 else 0 }) else s) s

/-- The heel and trim groups: another group begins without a value, and its filter anew (R107, R110). The cross-check's
timer stops where the set point suspends it. -/
def State.setAttitude (old : Cfg) (s : State) : State :=
  let s := if changed s.uid old s.cfg 0x3100 [1] 0 then
      { s with control.heel := 0, control.lastHeel := none, control.heelSeen := (s.grp (s.cn 0x3100 1 0)).seen
               control.residual := 0, control.persistence := none }
    else s
  let s := if changed s.uid old s.cfg 0x3100 [2] 0 then
      { s with control.trim := 0, control.trimSeen := (s.grp (s.cn 0x3100 2 0)).seen }
    else s
  if s.suspended then { s with control.persistence := none } else s

/-- A cascade that becomes enabled: HOLD with held output 0.0 and reason 5 (R118). -/
def State.startCasc (c : Nat) (s : State) : State :=
  let s := ((s.modCasc c (fun x => { steps := x.steps, overruns := x.overruns })).modStg (2 * c) (fun _ => {})).modStg (2 * c + 1) (fun _ => {})
  (s.holdCasc c 5).copyCasc c

/-- A cascade in OFF (R118). -/
def State.endCasc (c : Nat) (s : State) : State :=
  let held := (s.casc c).state == 2
  let s := (s.modCasc c (fun x => { steps := x.steps, overruns := x.overruns })).copyCasc c
  if held then s.endAlert 0x4006 c else s

/-- The modes in which cascades follow their configuration (R118, Table 15.9). -/
def State.cascadesRun (s : State) : Bool := s.boot.mode == 0 || s.boot.mode == 1 || s.boot.mode == 4

/-- A stage is re-seated at its next step as a set point does it (R121). -/
def State.reseatStage (k : Nat) (s : State) : State := s.modStg k (fun g => { g with reseat := some true })

/-- A cascade at a set point. -/
def State.setCascade (old : Cfg) (s : State) (c : Nat) : State :=
  let on := s.cascadesRun && s.cn 0x3010 2 c == 1
  if on then
    if (s.casc c).state = 0 then s.startCasc c
    else
      let inputs (k : Nat) : Bool := changed s.uid old s.cfg 0x3011 (subsOf 2 7) k
      let whole := changed s.uid old s.cfg 0x3010 [6, 9, 0x0A, 0x0B, 0x0C, 0x0D] c || inputs (2 * c) || inputs (2 * c + 1)
      let part (k : Nat) : Bool := whole || changed s.uid old s.cfg 0x3011 (subsOf 9 0x0D) k
      let s := if part (2 * c) then s.reseatStage (2 * c) else s
      let s := if part (2 * c + 1) then s.reseatStage (2 * c + 1) else s
      if changed s.uid old s.cfg 0x3010 [6] c then s.modCasc c (fun x => { x with outerIn := 0 }) else s
  else if (s.casc c).state = 0 then s else s.endCasc c

/-! ### Serial ports (R126, R143, R144, R148) -/

/-- A start-stop port's measured divider ends, and the configured one is offered. -/
def State.endMeasured (p : Nat) (s : State) : State :=
  let s := if (s.sp p).line = 5 then s.modSp p (fun x => { x with line := 1 }) else s
  if (s.sp p).autoDiv.isSome then s.writeDivider p (s.portN p 2) else s

/-- A port whose mode a set point changes: at once in each direction, the character in progress apart; a frame-mode port at
the end of its schedule slot (R126). -/
def State.setPortMode (old : Cfg) (p : Nat) (s : State) : State :=
  if s.modeOf p old = 3 ∧ s.slotBusy p = true then s.modSp p (fun x => { x with held := decide (s.portC s.cfg p 1 ≠ 3) })
  else s.changeMode p

/-- A changed receive inversion; a character in progress keeps the one before (R143). -/
def State.setInversion (p : Nat) (s : State) : State :=
  let fix (b : Bool) : State := s.modSp p (fun x => { x with inverted := b, rxWas := some (x.rxForm, s.fc) })
  match s.portN p 6 with
  | 0 => fix false
  | 1 => fix true
  | _ => s.polarity p (s.pair p).cls

/-- A port whose driver-enable mode becomes 2 in the middle of a character: SER_AUX, where it was high, stays so until the
lag time after the queue has run empty (R127). -/
def State.setDriver (old : Cfg) (p : Nat) (s : State) : State :=
  if s.portC old p 8 = 1 ∧ s.portN p 8 = 2 ∧ (s.sp p).busy.isSome = true then s.modSp p (fun x => { x with aux := true }) else s

/-- A port at a set point; `mode` is the operating mode before it. -/
def State.setPort (old : Cfg) (mode : Nat) (s : State) (p : Nat) : State :=
  let x := 0x2100 + p
  if s.up domSerial = false then s
  else if changed s.uid old s.cfg x [1] 0 then s.setPortMode old p
  else
    let any := changed s.uid old s.cfg x (subsOf 3 0x17) 0
    let s := if any && s.portN p 4 == 5 then s.modSp p (fun y => { y with muted := true }) else s
    let s := (if changed s.uid old s.cfg x [6] 0 then s.setInversion p else s).setDriver old p
    if s.autobaudSet p then (if any || mode != 0 then s.enterAutobaud p else s)
    else if mode == 0 && s.boot.mode != 0 then s.endMeasured p
    else if (s.sp p).line = 5 then s.modSp p (fun y => { y with line := 1 })
    else s

/-! ### Analogue inputs, Ethernet, CAN (R162, R170, R178, R183, R207, R214) -/

/-- Loop channels whose rate or enable changes settle anew; a scan that begins opens new windows. -/
def State.setAnalog (old : Cfg) (s : State) : State :=
  let before := { s with cfg := old }.refFault
  let s := ((List.range 16).foldl (fun s c =>
    if s.cn 0x2191 2 c = 1 && changed s.uid old s.cfg 0x2191 [2, 4] c then s.notReady c else s) s).refChange before
  let scan := changed s.uid old s.cfg 0x2180 [1] 0
  (List.range 24).foldl (fun s p =>
    if scan || changed s.uid old s.cfg 0x2180 [4] 0 || changed s.uid old s.cfg 0x2181 [2] p
    then s.modPair p (fun x => { x with windowAt := s.windowStart, complete := x.complete && !scan }) else s) s

/-- The sampling and reporting grids: one whose interval changes, or that begins to be sampled, is met from the set point
on (R105, R171, R299). -/
def State.setGrids (old : Cfg) (p : WheelPos) (s : State) : State :=
  let was : State := { s with cfg := old }
  let s := if changed s.uid old s.cfg 0x5803 [1] 0 then { s with health.statusGrid := { start := p } } else s
  let s := if changed s.uid old s.cfg 0x5803 [2] 0 then { s with health.wheelGrid := { start := p } } else s
  let s := (List.range 32).foldl (fun s n =>
    if s.fallbackMs n = was.fallbackMs n ∧ s.seaSet n = was.seaSet n then s
    else { s with analog.fallbacks := Tbl.put n { start := p } s.analog.fallbacks }) s
  (List.range 16).foldl (fun s c =>
    if changed s.uid old s.cfg 0x2191 [2, 0x0A] c = false ∧ s.inSet c = was.inSet c then s
    else { s with analog.reports := Tbl.put c { start := p } s.analog.reports }) s

/-- An Ethernet port at a set point; `groups` are those it had joined. -/
def State.setEth (old : Cfg) (p : Nat) (groups : List Nat) (s : State) : State :=
  if changed s.uid old s.cfg (0x2200 + p) [1, 2, 3] 0 then s.restartPort p
  else
    let now := s.joined p
    let s := (now.filter (fun g => !groups.contains g)).foldl (State.sendReport p) s
    (groups.filter (fun g => !now.contains g)).foldl (State.sendLeave p) s

/-- A CAN port that is now disabled: messages not begun go to no one, and the port stands still. -/
def State.stopCan (p : Nat) (s : State) : State :=
  let s := s.dropMessages p
  let s := s.modCp p (fun c => { c with tx := c.begun s.fc, addr := 254, addrState := 0, fast := [], bam := [] })
  let s : State := if p = 2 then { s with canOpen.nmt := 0, canOpen.waiting := [], canOpen.emcy := [] } else s
  s.trackErrors

/-- A CAN port at a set point. -/
def State.setCan (old : Cfg) (s : State) (p : Nat) : State :=
  if s.up domCan = false ∨ changed s.uid old s.cfg (0x2240 + p) [1] 0 = false then s
  else if s.canOn p then ((s.modCp p (fun c => { c with state := 1, txErr := 0, rxErr := 0 })).canStart p).trackErrors
  else s.stopCan p

/-! ### Modes and twin enable (R302, R341, R342) -/

/-- The mode that a set point gives: its service mode, except in RECOVERY and TEST. SAFE_LISTEN is left. -/
def State.setMode (s : State) : State :=
  if s.boot.mode = 2 ∨ s.boot.mode = 4 then s
  else
    let safe := s.boot.mode == 3
    let s : State := { s with boot.mode := s.cn 0x5F01 2 0 }
    if safe then ({ s with boot.confirmFrom := s.now }).endAlert 0xB101 0 else s

/-- Twin operation is enabled or disabled (R302, R311). -/
def State.setTwin (old : Cfg) (s : State) : State :=
  if changed s.uid old s.cfg 0x4000 [1] 0 then
    let s := if s.twin.role = 0 then s.endEntitlement else s
    s.join
  else s

/-! ### The whole device -/

/-- The configuration `new` is put in force in every block, at the set point that a dispatch `d` of row 1016 carries
(R20, R31). -/
def State.putInForce (new : Cfg) (d : Dispatch) (s : State) : State :=
  let sp := d.due
  let old := s.cfg
  let before := s
  let mode := s.boot.mode
  let g0 := s.joined 0
  let g1 := s.joined 1
  let leap := s.leap
  let s : State := { s with cfg := new, cycle.old := (old, sp) :: s.cycle.old }
  let s := s.noteLeap leap sp
  let s := (s.setMode.setAppts old d).setWheels old
  let s := ((s.setOutputs old).setForwarding old).checkSea
  let s := (List.range 16).foldl (State.setCascade old) ((s.retank old).setAttitude old)
  let s := (List.range 24).foldl (State.setPort old mode) s
  let s := (((s.setAnalog old).setGrids old sp).setEth old 0 g0).setEth old 1 g1
  let s := (List.range 3).foldl (State.setCan old) s
  ((s.setTwin old).powerDomains).regain before

end Sys2Proof.Machine
end

