-- ==== Sys2Proof/Machine/Store.lean ====
section
/-! DEFINITION. The form of a configuration in the config store and in SHADOW frames (R337, Table 15.8). -/

namespace Sys2Proof.Machine

open Sys2Proof

/-- The row field of an entry: 0xFFFF where the object is no window. -/
def rowField (k : Key) : Nat :=
  match findGroup k.index with
  | some g => if g.rows.isSome then k.row else 0xFFFF
  | none => 0xFFFF

/-- The bytes of one entry: index, subindex, reserved, row, length, and the value padded to a multiple of 4 bytes. -/
def entryBytes (e : Key × Val) : List Byte :=
  match findObj e.1.index e.1.sub with
  | none => []
  | some o =>
    let v := o.ty.encode e.2
    leBytes 2 e.1.index ++ leBytes 1 e.1.sub ++ [0] ++ leBytes 2 (rowField e.1) ++ leBytes 2 v.length ++ v ++
      List.replicate ((4 - v.length % 4) % 4) 0

/-- The content of a configuration: its values that differ from their defaults, in order. -/
def contentBytes (c : Cfg) : List Byte := c.flatMap entryBytes

/-- A value of effect class STG or BND, which a configuration holds. -/
def isStored (index sub : Nat) : Bool :=
  match findObj index sub with
  | some o => o.eff == .stg || o.eff == .bnd
  | none => false

/-- The configuration that content spells; the fuel bounds the number of entries. -/
def readContent (u : UnitId) : Nat → List Byte → Cfg → Cfg
  | 0, _, c => c
  | n + 1, b, c =>
    if b.length < 8 then c
    else
      let index := leNat (b.take 2)
      let sub := leNat ((b.drop 2).take 1)
      let row := leNat ((b.drop 4).take 2)
      let len := leNat ((b.drop 6).take 2)
      let v := (b.drop 8).take len
      let rest := b.drop (8 + (len + 3) / 4 * 4)
      let c := match findObj index sub with
        | some o => if isStored index sub then Cfg.set u ⟨index, sub, if row = 0xFFFF then 0 else row⟩ (o.ty.decode v) c else c
        | none => c
      readContent u n rest c

/-- The configuration of content bytes. -/
def contentCfg (u : UnitId) (b : List Byte) : Cfg := readContent u b.length b []

/-- Offsets 0 to 0x1F + C of a copy. -/
def copyBytes (gen : Nat) (point : WheelPos) (c : Cfg) : List Byte :=
  let b := contentBytes c
  ("LNCF".toList.map (fun x => BitVec.ofNat 8 x.toNat)) ++ leBytes 4 gen ++ leBytes 4 b.length ++ leBytes 2 0x0201 ++ leBytes 2 0 ++
    leBytes 8 point.toNat ++ leBytes 8 0 ++ b

/-- The content of a configuration is within the range of a copy: its region of 512 KiB less the header and the seal
(Tables 1.4 and 15.8). -/
def fitsCopy (c : Cfg) : Bool := decide ((contentBytes c).length ≤ 524252)

/-- The seal of a copy: CRC-32C over offsets 0 to 0x1F + C. -/
def sealOf (gen : Nat) (point : WheelPos) (c : Cfg) : Nat := (crc32c (copyBytes gen point c)).toNat

/-! ### The peer's form of a configuration (R323) -/

/-- Each subindex of 0x4000 that holds a value of the peer: the object it stands for, and its "keep" value. -/
def peerSubs : List (Nat × Nat × Nat × Nat) :=
  [(0x10, 0x2200, 5, 0), (0x11, 0x2201, 5, 0), (0x12, 0x2200, 6, 0), (0x13, 0x2201, 6, 0), (0x14, 0x2244, 1, 0),
   (0x15, 0x2245, 1, 0), (0x16, 0x2244, 2, 0xFF), (0x17, 0x2245, 2, 0xFF), (0x18, 0x2260, 1, 0)]

/-- Exchange one unit-specific object with the peer subindex that holds its value, unless that holds "keep". -/
def exchangeOne (u : UnitId) (c : Cfg) (p : Nat × Nat × Nat × Nat) : Cfg :=
  let peer := Cfg.val u c 0x4000 p.1 0
  let own := Cfg.val u c p.2.1 p.2.2.1 0
  if peer.int = (p.2.2.2 : Int) then c
  else Cfg.set u ⟨0x4000, p.1, 0⟩ own (Cfg.set u ⟨p.2.1, p.2.2.1, 0⟩ peer c)

/-- The standby's candidate, formed from the active unit's shadow. -/
def exchange (u : UnitId) (c : Cfg) : Cfg := peerSubs.foldl (exchangeOne u) c

end Sys2Proof.Machine
end

