-- ==== Sys2Proof/Machine/Blocking.lean ====
section
/-! DEFINITION. The blocking cycle (R278 to R285, R323): open, check, set, abandon, commit, the set point, and the copy
that is written after it. -/

namespace Sys2Proof.Machine

open Sys2Proof

/-! ### Copies and generations (R283, R337) -/

/-- A configuration copy of the config store. -/
def State.copy (s : State) (n : Nat) : Copy := Tbl.get {} n s.boot.copies

/-- Change a configuration copy. -/
def State.modCopy (n : Nat) (f : Copy → Copy) (s : State) : State := { s with boot.copies := Tbl.mod {} n f s.boot.copies }

/-- The highest sealed generation, 0 with none. -/
def State.highestGen (s : State) : Nat :=
  (List.range 3).foldl (fun m n => if (s.copy n).sealed then Nat.max m (s.copy n).generation else m) 0

/-- The age of a copy for the choice of R283: an unsealed copy first, then the lower generation. -/
def copyAge (c : Copy) : Nat := if c.sealed then c.generation + 1 else 0

/-- The copy that is written after a set point: the oldest of those that are not in force, the lower-numbered on a tie. -/
def State.copyToWrite (s : State) : Nat :=
  let l := (List.range 3).filter (fun n => decide (s.boot.copyInForce ≠ some n))
  (l.foldl (fun (b : Option Nat) n =>
    match b with
    | none => some n
    | some m => if copyAge (s.copy n) < copyAge (s.copy m) then some n else some m) none).getD 0

/-- The generation that a set point gives: one more than the highest sealed one, or on a standby the active unit's. -/
def State.nextGen (s : State) : Nat := s.cycle.fromTwin.getD (s.highestGen + 1)

/-! ### Commands of the owner (R278, R279) -/

/-- SUP is writing a copy: the new configuration after a set point, or the rewrite of a stale one (R283, R339). -/
def State.writesCopy (s : State) : Bool := s.cycle.writing.isSome || s.boot.rewriting.isSome

/-- A cycle command of a client in a slot: from a client other than the owner it is refused. -/
def State.asOwner (n : Nat) (act : State → Reply × State) (s : State) : Reply × State :=
  if s.cycle.state ≠ 0 ∧ s.cycle.owner ≠ some n then refuse abOwned s else act s

/-- Command 1. -/
def State.cycleOpen (n : Nat) (s : State) : Reply × State :=
  if s.twin.role = 1 ∨ s.twin.role = 2 ∨ s.twin.role = 3 then refuse abStandby s
  else if s.writesCopy then refuse abOwned s
  else s.asOwner n (fun s =>
    if s.cycle.state ≠ 0 ∨ s.twin.role = 5 then refuse abState s
    else
      let imm := Cfg.del ⟨0x5000, 4, 0⟩ (Cfg.del ⟨0x5000, 5, 0⟩ s.dict.imm)
      granted { s with
        dict.imm := imm
        cycle := { s.cycle with
          state := 1, owner := some n, shadow := if s.boot.mode = 3 then [] else s.cfg, staged := 0, openedAt := s.now
          committed := false, pending := none, twinPass := none, asked := false, found := none, acked := false
          fromTwin := none, whole := false } })

/-- The shadow goes to a standby at the check command (R323). -/
def State.askTwin (s : State) : State :=
  if s.twin.role = 4 ∧ s.formed = true then
    ({ s with cycle.asked := true }).sendJ (.shadow false s.cycle.shadow)
  else { s with cycle.asked := false }

/-- Command 2. -/
def State.cycleCheck (n : Nat) (s : State) : Reply × State :=
  s.asOwner n (fun s =>
    if s.cycle.state = 1 ∨ s.cycle.state = 4 then
      let s : State := { s with
        cycle := { s.cycle with state := 2, twinPass := none, twinCount := 0, twinFails := [], found := none } }
      granted s.askTwin
    else refuse abState s)

/-- What a finished check reports: CHECKED, or FAILED with its entries (R280). -/
def State.report (own : List CheckEntry) (s : State) : State :=
  let failed := decide (own ≠ []) || decide (s.cycle.twinPass = some false)
  let twin := if s.cycle.twinPass = some false then s.cycle.twinFails else []
  let count := own.length + (if s.cycle.twinPass = some false then s.cycle.twinCount else 0)
  { s with cycle := { s.cycle with
      state := if failed then 4 else 3
      result := if failed then 2 else s.cycle.result
      failures := (sortEntries (own ++ twin)).take 64, failCount := count, found := none, asked := false } }

/-- The check waits for the standby's answer. -/
def State.awaitsTwin (s : State) : Bool := s.cycle.asked && s.cycle.twinPass.isNone && s.formed

/-- CHECK_COMPLETE: the unit's own check of the shadow has run. -/
def State.checkComplete (s : State) : State :=
  if s.cycle.state ≠ 2 then s
  else
    let point := (Cfg.nat s.uid s.dict.imm 0x5000 4 0)
    let own := s.checkShadow s.cycle.shadow (if point = 0 then s.time else BitVec.ofNat 64 point)
    if s.awaitsTwin then { s with cycle.found := some own } else s.report own

/-- The set point that the set command takes (R281). -/
def State.wantedPoint (s : State) : WheelPos :=
  let p := Cfg.nat s.uid s.dict.imm 0x5000 4 0
  if p = 0 then s.time + BitVec.ofNat 64 (msPos (Cfg.nat s.uid s.dict.imm 0x5000 5 0)) else BitVec.ofNat 64 p

/-- A set point is entered as the phase of row 1016. -/
def State.enterPoint (sp : WheelPos) (s : State) : State :=
  let s : State := { s with
    appts.setRow := some sp, cycle := { s.cycle with state := 5, pending := some sp, committed := false, acked := false } }
  s.modAppt 1016 (fun a => (s.apptRow 1016).arm s.time { dispatches := a.dispatches, late := a.late })

/-- Command 3. -/
def State.cycleSet (n : Nat) (s : State) : Reply × State :=
  s.asOwner n (fun s =>
    if s.cycle.state ≠ 3 then refuse abUnchecked s
    else
      let sp := s.wantedPoint
      let d := posDiff sp s.time
      if d * 1000 < 2 * 2 ^ 32 then refuse abSoon s
      else if 3600 * 2 ^ 32 < d then refuse abHigh s
      else
        let k : Check := { u := s.uid, c := Cfg.withBnd s.cycle.shadow s.cfg, point := sp }
        let late := sortEntries k.oneShots
        if late ≠ [] then
          (.refused abUnchecked, { s with cycle := { s.cycle with
            state := 4, result := 2, failures := late.take 64, failCount := late.length } })
        else
          let s := s.enterPoint sp
          granted (if s.twin.role = 4 ∧ s.formed = true then s.sendJ (.set sp s.nextGen) else s))

/-- Command 4. From 1 ms before the set point it is refused. -/
def State.cycleAbandon (n : Nat) (s : State) : Reply × State :=
  s.asOwner n (fun s =>
    if s.cycle.state = 0 then refuse abState s
    else
      let near := match s.cycle.pending with
        | some sp => s.cycle.state == 5 && decide (posDiff sp s.time * 1000 ≤ 2 ^ 32)
        | none => false
      if s.cycle.committed || near then refuse abCommitted s
      else granted (s.dropCycle 3 false).answerHandover)

/-- Command 5. -/
def State.loadDefaults (n : Nat) (s : State) : Reply × State :=
  s.asOwner n (fun s =>
    if s.cycle.state = 1 ∨ s.cycle.state = 3 ∨ s.cycle.state = 4 then
      granted { s with cycle := { s.cycle with shadow := [], state := 1 } }
    else refuse abState s)

/-- CYCLE_OPEN. -/
def execCycleOpen (dt : Nat) (who : ClientId) (s : State) : Host.Outcome State Fault Refusal :=
  .next ((s.elapse dt).access who 0x5000 State.cycleOpen)

/-- CYCLE_CHECK. -/
def execCycleCheck (dt : Nat) (who : ClientId) (s : State) : Host.Outcome State Fault Refusal :=
  .next ((s.elapse dt).access who 0x5000 State.cycleCheck)

/-- CYCLE_SET. -/
def execCycleSet (dt : Nat) (who : ClientId) (s : State) : Host.Outcome State Fault Refusal :=
  .next ((s.elapse dt).access who 0x5000 State.cycleSet)

/-- CYCLE_ABANDON. -/
def execCycleAbandon (dt : Nat) (who : ClientId) (s : State) : Host.Outcome State Fault Refusal :=
  .next ((s.elapse dt).access who 0x5000 State.cycleAbandon)

/-- LOAD_FACTORY_DEFAULTS. -/
def execLoadFactoryDefaults (dt : Nat) (who : ClientId) (s : State) : Host.Outcome State Fault Refusal :=
  .next ((s.elapse dt).access who 0x5000 State.loadDefaults)

/-- CHECK_COMPLETE. -/
def execCheckComplete (dt : Nat) (s : State) : Host.Outcome State Fault Refusal :=
  .next ((s.elapse dt).whenUp domSup State.checkComplete)

/-! ### Commit, set point and copy (R281 to R283, R342) -/

/-- CYCLE_COMMIT: from 1 ms before the set point the cycle is committed. -/
def State.cycleCommit (s : State) : State :=
  match s.cycle.pending with
  | some sp =>
    if s.cycle.state = 5 ∧ posDiff sp s.time * 1000 ≤ 2 ^ 32 then { s with cycle.committed := true } else s
  | none => s

/-- CYCLE_COMMIT. -/
def execCycleCommit (dt : Nat) (s : State) : Host.Outcome State Fault Refusal :=
  .next ((s.elapse dt).whenUp domSup State.cycleCommit)

/-- The configuration that a set point puts in force: the shadow with the BND values in force (R267), or the peer's
sealed configuration whole. -/
def State.newCfg (s : State) : Cfg := if s.cycle.whole then s.cycle.shadow else Cfg.withBnd s.cycle.shadow s.cfg

/-- A dispatch of row 1016: the shadow is put in force, the journal marks it, and the copy is begun. The set point is the
due position that the dispatch carries, also where it is delivered late: every block applies R20 by that (R31). -/
def State.setPoint (d : Dispatch) (s : State) : State :=
  if s.cycle.state ≠ 5 ∨ s.cycle.writing.isSome = true then s
  else
    let sp := d.due
    let new := s.newCfg
    let gen := s.nextGen
    let n := s.copyToWrite
    let s : State := { s with
      appts.setRow := none
      cycle := { s.cycle with committed := true, shadow := [], generation := gen, lastSet := sp, writing := some n } }
    let s := s.putInForce new d
    let s := s.journalEnable.journalMarker 3 (leBytes 4 gen)
    s.modCopy n (fun _ => { generation := gen, sealed := false, content := new, setPoint := sp })

/-- BLOCKING_SET_POINT. -/
def execBlockingSetPoint (dt : Nat) (s : State) : Host.Outcome State Fault Refusal :=
  .next ((s.elapse dt).whenUp domFabric (State.withDispatch 0x0800 State.setPoint))

/-- The copy is written: sealed, or not; the cycle returns to IDLE. A write whose content is not within the range of a
copy leaves it unsealed (R337), and so fails. -/
def State.copyWritten (ok : Bool) (s : State) : State :=
  match s.cycle.writing with
  | none => s
  | some n =>
    let gen := s.cycle.generation
    let ok := ok && fitsCopy (s.copy n).content
    let s : State := { s with cycle := { s.cycle with
      state := 0, owner := none, pending := none, committed := false, writing := none, fromTwin := none, whole := false
      copyWritten := n, result := if ok then 1 else 5 } }
    if ok then
      (({ (s.modCopy n (fun c => { c with sealed := true })) with boot.copyInForce := some n, boot.factory := false }).event 0xB001 gen n).answerHandover
    else (s.event 0xB002 n gen).answerHandover

/-- COPY_WRITE_COMPLETE. -/
def execCopyWriteComplete (dt : Nat) (ok : Bool) (s : State) : Host.Outcome State Fault Refusal :=
  .next ((s.elapse dt).whenUp domSup (State.copyWritten ok))

/-! ### Time-out (R284) -/

/-- CYCLE_TIMEOUT: a cycle outside SET_PENDING has lasted longer than the release time. -/
def State.cycleTimeout (s : State) : State :=
  if s.cycle.state = 0 ∨ s.cycle.state = 5 ∨ s.now - s.cycle.openedAt ≤ s.cn 0x5040 1 0 * cyclesPerSec then s
  else (s.dropCycle 4 true).answerHandover

/-- CYCLE_TIMEOUT. -/
def execCycleTimeout (dt : Nat) (s : State) : Host.Outcome State Fault Refusal :=
  .next ((s.elapse dt).whenUp domSup State.cycleTimeout)

/-! ### Staging (R267, R279) -/

/-- An STG value written by a client: only the owner of an open cycle stages, and never while a check runs or a set point
is pending. -/
def State.stage (n : Nat) (k : Key) (v : Val) (s : State) : Reply × State :=
  if s.cycle.state = 0 then refuse abNoCycle s
  else if s.cycle.owner ≠ some n then refuse abOwned s
  else if s.cycle.state = 2 ∨ s.cycle.state = 5 then refuse abState s
  else
    granted { s with cycle := { s.cycle with
      state := 1, staged := s.cycle.staged + 1, shadow := Cfg.set s.uid k v s.cycle.shadow } }

/-- The configuration whose STG values a client reads: the owner reads the shadow. -/
def State.seenBy (s : State) (n : Nat) : Cfg :=
  if s.cycle.owner = some n ∧ s.cycle.state ≠ 0 ∧ s.cycle.writing.isNone = true then s.cycle.shadow else s.cfg

end Sys2Proof.Machine
end

