-- ==== Sys2Proof/Machine/Twin.lean ====
section
/-! DEFINITION. Twin operation (R301 to R324): the Joile link, heartbeats, mirroring, the roles, unplanned switch-over,
planned handover, and the configuration of a pair. -/

namespace Sys2Proof.Machine

open Sys2Proof

/-- A Joile frame arrives: with its lanes' recovered clock, through queue 0x083, to SUP (R8, R239). -/
def State.fromPeer (f : State → State) (s : State) : State :=
  (s.whenUp domJoile (State.whenUp domSup (fun s => if s.fabric.stopped.contains .joile then s else s.through 0x83 f)))

/-! ### Lanes and HELLO (R304, R305) -/

/-- A role in which a unit counts as active: TAKING, ACTIVE, HANDOVER_OUT (Table 14.1). -/
def activeRole (r : Nat) : Bool := r == 3 || r == 4 || r == 5

/-- The generations of the pair are unequal, and a resync has not failed with them (R323). -/
def State.unequal (s : State) : Bool :=
  s.twin.peerGen != s.cycle.generation && s.twin.resyncFailed != some s.cycle.generation

/-- The active unit sends its sealed configuration. -/
def State.resync (s : State) : State :=
  if s.boot.copyInForce.isSome then ({ s with twin.resyncSince := none }).sendJ (.shadow true s.sealedCfg) else s

/-- The link has just formed: 0xC002 ends, TAKING is allowed again, and unequal generations are resynced. -/
def State.noteFormed (s : State) : State :=
  if s.formed && s.twin.formedAt.isNone then
    let s : State := { s with twin.formedAt := some s.fc, twin.steppedDown := false, twin.beatsInRow := 0 }
    let s := s.endOnce 0xC002 0
    if s.twin.role = 4 ∧ s.unequal = true then s.resync else s
  else s

/-- LANE_UP. -/
def State.laneUp (n : Nat) (s : State) : State :=
  if s.twin.role ≠ 0 ∧ s.lanesUsed.contains n = true then
    ({ s with twin.lanes := Tbl.put n true s.twin.lanes }).noteFormed
  else s

/-- LANE_UP. -/
def execLaneUp (dt : Nat) (lane : Fin 2) (s : State) : Host.Outcome State Fault Refusal :=
  .next ((s.elapse dt).whenUp domJoile (State.laneUp lane.val))

/-- LANE_LOST: counted; with no lane left the link is down. -/
def State.laneLost (n : Nat) (s : State) : State :=
  if Tbl.get false n s.twin.lanes then
    let s := ({ s with twin.lanes := Tbl.put n false s.twin.lanes }).stat 0x4880 0 9 1
    if s.lanesUp.isEmpty then s.clearOut.linkDown else s
  else s

/-- LANE_LOST. -/
def execLaneLost (dt : Nat) (lane : Fin 2) (s : State) : Host.Outcome State Fault Refusal :=
  .next ((s.elapse dt).whenUp domJoile (State.laneLost lane.val))

/-- The firmware version in the header of a slot's image, 0 with none (0x5F10:03). -/
def Slot15.version (x : Slot15) : Nat :=
  match x.facts with
  | some f => f.version
  | none => 0

/-- The identity byte of 0x4001:02. -/
def State.identity (s : State) : Nat := (if s.twin.prefN then 2 else 0) + (if s.twin.unitSel then 1 else 0)

/-- The unit's own HELLO. -/
def State.ownHello (s : State) : Hello :=
  { product := 0x2430, revision := 0x00020001, firmware := (s.slot15 s.boot.running).version, serial := s.boot.serial
    identity := s.identity, mode := s.boot.mode, role := s.twin.role, generation := s.cycle.generation }

/-- A HELLO is due: every 1 ms until both units accept, then at each change of mode, role or generation. -/
def State.helloDue (s : State) : Bool :=
  if s.formed then s.twin.helloSent != some (s.boot.mode, s.twin.role, s.cycle.generation)
  else s.twin.helloSent.isNone || decide (cyclesPerMs ≤ s.now - s.twin.lastHello)

/-- HELLO_SEND. The checks of R305 are the same on both units, so the peer accepts this unit as this one accepts it. -/
def State.helloSend (s : State) : State :=
  if s.twin.role ≠ 0 ∧ s.linkUp = true ∧ s.helloDue = true then
    let s : State := { s with
      twin.lastHello := s.now, twin.helloSent := some (s.boot.mode, s.twin.role, s.cycle.generation)
      twin.peerAccepts := decide (s.twin.link ≠ 4) }
    (s.sendJ (.hello s.ownHello)).noteFormed
  else s

/-- HELLO_SEND. -/
def execHelloSend (dt : Nat) (s : State) : Host.Outcome State Fault Refusal :=
  .next ((s.elapse dt).whenUp domJoile (State.whenUp domSup State.helloSend))

/-- A peer that the unit refuses (R305): another product or revision, or the same UNIT_SEL level. -/
def State.refusesPeer (s : State) (h : Hello) : Bool :=
  h.product != 0x2430 || h.revision != 0x00020001 || (h.identity % 2 == 1) == s.twin.unitSel

/-- A report of the peer's role: one in JOINING becomes standby beside an active peer (R311). -/
def State.peerReports (role : Nat) (s : State) : State :=
  if s.twin.role = 1 ∧ activeRole role = true then s.becomeStandby else s

/-- HELLO_RECEIVED. -/
def State.helloReceived (h : Hello) (s : State) : State :=
  if s.twin.role = 0 ∨ s.linkUp = false then s
  else
    let s : State := { s with twin.peer := some h, twin.peerMode := h.mode, twin.peerGen := h.generation }
    if s.refusesPeer h then
      ({ s with twin.link := 4, twin.peerAccepted := false, twin.peerAccepts := false, twin.formedAt := none }).raiseOnce 0xC002 0 0
    else
      (({ s with
        twin.link := 0, twin.peerAccepted := true, twin.peerAccepts := s.twin.helloSent.isSome }).noteFormed).peerReports h.role

/-- HELLO_RECEIVED. -/
def execHelloReceived (dt : Nat) (hello : Hello) (s : State) : Host.Outcome State Fault Refusal :=
  .next ((s.elapse dt).fromPeer (State.helloReceived hello))

/-! ### Mirroring (R308) -/

/-- The items that have a state, as they stand now. -/
def State.mirrorState (s : State) : List MirrorItem :=
  ((Cfg.live s.cfg 0x2310 44).filter (fun r => s.cn 0x2310 2 r == 1)).map
    (fun r => .source r (s.src r).score (s.srcHealth r)) ++
  ((Cfg.rows 0x2320 s.cfg).filter (fun g => s.cn 0x2320 2 g == 1)).map (fun g =>
    .group g (s.grp g).chosen (s.grp g).hold.isSome (match (s.grp g).hold with
      | some t => s.fc - t
      | none => 0) (s.grp g).disagreeing) ++
  ((List.range 16).filter (fun c => s.cn 0x3010 2 c == 1)).map (fun c =>
    let x := s.casc c
    .cascade c x.state x.reason (s.stg (2 * c)).i (s.stg (2 * c + 1)).i x.outerOut x.issued (s.stg (2 * c)).held
      (s.stg (2 * c + 1)).held x.consecutive) ++
  s.tanksOn.map (fun t => .tank t (s.tank t).weight (s.tank t).anchorSounding (s.tank t).anchorContribution) ++
  ((listenerRows s.cfg).filter (fun l => decide (l < 62) && listenerOn s.uid s.cfg l)).flatMap (fun l =>
    (s.finalItems l).filter (fun m => match m with
      | .counters _ _ _ _ _ _ => true
      | _ => false))

/-- Two group items of one group, whatever the time its hold has run: a running hold is no change. -/
def sameItem (a b : MirrorItem) : Bool :=
  match a, b with
  | .group g c h _ d, .group g' c' h' _ d' => g == g' && c == c' && h == h' && d == d'
  | _, _ => a == b

/-- The MIRROR that goes with a HEARTBEAT: every item that changed since the one before. The number of its bytes is not
given by the manual. -/
def State.sendMirror (s : State) : State :=
  if s.mirrors then
    let now := s.mirrorState
    let items := now.filter (fun m => !s.twin.mirrored.any (fun x => sameItem x m)) ++ s.twin.dirty
    let s : State := { s with twin.mirrored := now, twin.dirty := [] }
    let s := if items.isEmpty then s else (s.stat 0x4880 0 5 s.freeNat).useFree
    s.sendJ (.mirror items)
  else s

/-- A BND value takes its place in the configuration in force; a divider is offered to its port (R131, R267). -/
def State.putBnd (k : Key) (v : Val) (s : State) : State :=
  let s : State := { s with cfg := Cfg.set s.uid k v s.cfg }
  if 0x2100 ≤ k.index ∧ k.index ≤ 0x2117 ∧ k.sub = 2 then s.writeDivider (k.index - 0x2100) v.int.toNat else s

/-- Entries of a listener and class before a mark less the match window are discarded as sent (R310). -/
def State.trim (l cls : Nat) (pos : WheelPos) (s : State) : State :=
  let q := (s.lst l).queue
  let old (e : Entry) : Bool := e.cls == cls && decide (posDiff e.rcd.pip.time pos < -(s.matchWindow : Int))
  (s.modLst l (fun x => { x with queue := q.filter (fun e => !old e) })).stat 0x4820 l 3 (q.filter old).length

/-- A listener mark is kept, translated; a standby trims its queue by it. -/
def State.takeMark (l cls source : Nat) (pip : WheelPos) (crc : Nat) (s : State) : State :=
  let p := s.translate pip
  let s := s.modLst l (fun x => { x with marks := Tbl.put cls (p, source, crc) x.marks })
  if s.twin.role = 2 then s.trim l cls p else s

/-- A mirrored cascade replaces the unit's own. -/
def State.takeCascade (c st reason : Nat) (oi ii oo io ho hi : Rat) (late : Nat) (s : State) : State :=
  let s := s.modCasc c (fun x => { x with state := st, reason := reason, outerOut := oo, issued := io, consecutive := late })
  ((s.modStg (2 * c) (fun g => { g with i := oi, held := ho })).modStg (2 * c + 1) (fun g => { g with i := ii, held := hi })).copyCasc c

/-- One mirrored item. A standby takes every item; the incoming unit of a handover only cascades, and the outgoing one
only marks and counters. -/
def State.takeItem (s : State) (m : MirrorItem) : State :=
  let standby := s.twin.role == 2
  let incoming := s.twin.role == 4 && s.twin.handIn
  let outgoing := s.twin.role == 5
  match m with
  | .source r score health => if standby then s.modSrc r (fun x => { x with score := score, health := health }) else s
  | .group g chosen run elapsed disagree =>
    if standby then
      let s := s.modGrp g (fun x => { x with
        chosen := chosen, seen := x.seen || chosen != 0xFFFF, hold := if run then some (s.fc - elapsed) else none, disagreeing := disagree })
      (if s.cn 0x200B 1 0 = g then s.checkSea else s).checkHeel
    else s
  | .cascade c st reason oi ii oo io ho hi late =>
    if standby || incoming then s.takeCascade c st reason oi ii oo io ho hi late else s
  | .tank t w a b =>
    if standby then s.modTank t (fun x => { x with weight := w, anchored := true, anchorSounding := a, anchorContribution := b }) else s
  | .mark l cls source pip crc => if standby || outgoing then s.takeMark l cls source pip crc else s
  | .counters l lastSeq line ipId sids fast =>
    if standby || outgoing then s.modLst l (fun x => { x with held := some ⟨lastSeq, line, ipId, sids, fast⟩ }) else s
  | .bnd index sub row data =>
    match findObj index sub with
    | some o => if standby && o.eff == .bnd then s.putBnd ⟨index, sub, row⟩ (o.ty.decode data) else s
    | none => s

/-- MIRROR_RECEIVED. -/
def State.mirrorReceived (items : List MirrorItem) (s : State) : State :=
  if s.formed then
    let s : State := if s.twin.role = 2 then { s with twin.mirrorAt := some s.now } else s
    items.foldl State.takeItem s
  else s

/-- MIRROR_RECEIVED. -/
def execMirrorReceived (dt : Nat) (items : List MirrorItem) (s : State) : Host.Outcome State Fault Refusal :=
  .next ((s.elapse dt).fromPeer (State.mirrorReceived items))

/-! ### Heartbeats and the wires (R306, R307, R314) -/

/-- HEARTBEAT_SEND: every 10 µs of fabric count, with a MIRROR on the active unit. Frames sent before have ended. -/
def State.heartbeatSend (s : State) : State :=
  if s.formed ∧ 10 * cyclesPerUs ≤ s.fc - s.twin.lastHb then
    let s : State := { s.clearOut with twin.lastHb := s.fc }
    let h : Heartbeat := {
      frameSeq := (s.twin.txSeq + 1).toNat, sentAt := s.time, rxAt := 0, role := s.twin.role, mode := s.boot.mode
      generation := s.cycle.generation, alerts := s.health.alerts.length, wheelStates := s.wheelByte
      errBound := s.errorBound 0, echoSeq := s.twin.lastRxSeq, echoSent := s.twin.lastRxSent, echoRx := s.twin.lastRxAt }
    ((s.sendJ (.heartbeat h)).stat 0x4880 0 1 1).sendMirror
  else s

/-- HEARTBEAT_SEND. -/
def execHeartbeatSend (dt : Nat) (s : State) : Host.Outcome State Fault Refusal :=
  .next ((s.elapse dt).whenUp domJoile (State.whenUp domSup (State.whenUp domFabric State.heartbeatSend)))

/-- Link delay and twin offset from a HEARTBEAT that echoes one of the unit's own (R307). -/
def State.echo (h : Heartbeat) (s : State) : State :=
  if h.echoSeq = 0 ∨ s.twin.txSeq.toNat < h.echoSeq then s
  else
    let a := posDiff h.echoRx h.echoSent
    let b := posDiff h.rxAt h.sentAt
    let delay : Rat := ((a + b : Int) : Rat) / 2
    let offset : Rat := ((a - b : Int) : Rat) / 2
    { s with twin.offsets := (offset :: s.twin.offsets).take 16, twin.delays := (delay :: s.twin.delays).take 16 }

/-- The heartbeat counts as present again after three in a row on a formed link. -/
def State.beatPresent (s : State) : State :=
  if s.twin.heartbeat = false ∧ 3 ≤ s.twin.beatsInRow then
    { s with twin.heartbeat := true, twin.lostAt := none, twin.presentSince := some s.fc }
  else s

/-- While generations are unequal, the active unit's timer of R323 runs. -/
def State.watchGenerations (s : State) : State :=
  if s.twin.role = 4 ∧ s.unequal = true then
    (if s.twin.resyncSince.isNone then { s with twin.resyncSince := some s.now } else s)
  else { s with twin.resyncSince := none }

/-- HEARTBEAT_RECEIVED. A HEARTBEAT of an accepted peer shows that it accepts this unit. -/
def State.heartbeatReceived (h : Heartbeat) (s : State) : State :=
  if s.twin.role = 0 ∨ s.linkUp = false ∨ s.twin.peerAccepted = false then s
  else
    let s := ({ s with twin.peerAccepts := true }).noteFormed
    let s : State := { s with
      twin.lastBeat := some s.fc, twin.beatsInRow := s.twin.beatsInRow + 1, twin.peerMode := h.mode
      twin.peerRole := h.role, twin.peerGen := h.generation, twin.beatGen := h.generation, twin.peerAlerts := h.alerts, twin.peerStates := h.wheelStates
      twin.peerBound := h.errBound, twin.lastRxSeq := h.frameSeq, twin.lastRxSent := h.sentAt, twin.lastRxAt := h.rxAt }
    let s := ((s.stat 0x4880 0 2 1).echo h).beatPresent
    let s : State := { s with twin.peerTime := s.translate h.sentAt }
    (s.peerReports h.role).watchGenerations

/-- HEARTBEAT_RECEIVED. -/
def execHeartbeatReceived (dt : Nat) (hb : Heartbeat) (s : State) : Host.Outcome State Fault Refusal :=
  .next ((s.elapse dt).fromPeer (State.heartbeatReceived hb))

/-- The alerts of Table 14.5, and of an active unit without a heartbeat: 0xC002 with BEAT_IN present, 0xC003 without;
both on a standby that finds ARB_N low and BEAT_IN absent. -/
def State.lossAlerts (s : State) : State :=
  if s.twin.beatIn then s.raiseOnce 0xC002 0 0
  else
    let s := s.raiseOnce 0xC003 0 0
    if s.twin.role = 2 ∧ s.arbHigh = false then s.raiseOnce 0xC002 0 0 else s

/-- The incoming unit takes every port not yet released, by the rules of a take-over (R322). -/
def State.takeAllPorts (s : State) : State :=
  let rest := listenerPorts.filter (fun p => !s.twin.released.contains p)
  (rest.foldl (fun (s : State) p => s.resumePort p) { s with twin.handIn := false, twin.released := [] }).regain s

/-- The outgoing unit of a handover whose incoming unit failed returns to ACTIVE and resumes the ports it had released. -/
def State.returnActive (s : State) : State :=
  let ports := s.twin.released
  (ports.foldl (fun s p => s.resumePort p) s.becomeActive).regain s

/-- HEARTBEAT_LOST: no valid HEARTBEAT for 40 µs of fabric count. The link has to form again (R306). A handover that has
not come to its set point is cancelled (R319); later R322 decides. -/
def State.heartbeatLost (s : State) : State :=
  let since := match s.twin.lastBeat, s.twin.formedAt with
    | some a, some b => Nat.max a b
    | some a, none => a
    | none, some b => b
    | none, none => s.fc
  if s.twin.lostAt.isSome ∨ (s.twin.heartbeat = false ∧ s.formed = false) ∨ s.fc - since < 40 * cyclesPerUs then s
  else
    let s : State := { s.linkDown with twin.heartbeat := false, twin.lostAt := some s.now }
    let s := (s.stat 0x4880 0 3 1).cancelHandover
    let s := s.lossAlerts
    if s.twin.role = 4 ∧ s.twin.handIn = true then s.takeAllPorts
    else if s.twin.role = 5 ∧ s.twin.arbPeer = false then s.returnActive
    else s

/-- HEARTBEAT_LOST. -/
def execHeartbeatLost (dt : Nat) (s : State) : Host.Outcome State Fault Refusal :=
  .next ((s.elapse dt).whenUp domSup (State.whenUp domFabric State.heartbeatLost))

/-- BEAT_OUT_TOGGLE: every 500 µs while SUP runs and twin operation is enabled. -/
def State.beatToggle (s : State) : State :=
  if s.twin.role = 0 ∨ s.boot.supRunning = false ∨ s.now - s.twin.beatOutAt < 500 * cyclesPerUs then s
  else { s with twin.beatOut := !s.twin.beatOut, twin.beatOutAt := s.now }

/-- BEAT_OUT_TOGGLE. -/
def execBeatOutToggle (dt : Nat) (s : State) : Host.Outcome State Fault Refusal :=
  .next ((s.elapse dt).whenUp domSup State.beatToggle)

/-- BEAT_IN_EDGE: present at its next edge; 0xC003 ends. -/
def State.beatEdge (s : State) : State :=
  if s.twin.role = 0 then s else ({ s with twin.beatIn := true, twin.beatInAt := s.now }).endOnce 0xC003 0

/-- BEAT_IN_EDGE. -/
def execBeatInEdge (dt : Nat) (s : State) : Host.Outcome State Fault Refusal :=
  .next ((s.elapse dt).whenUp domSup State.beatEdge)

/-- BEAT_IN_ABSENT: no edge for 1.5 ms; while the heartbeat is lost, Table 14.5 is read again. -/
def State.beatAbsent (s : State) : State :=
  if s.twin.beatIn = false ∨ s.now - s.twin.beatInAt < 1500 * cyclesPerUs then s
  else
    let s : State := { s with twin.beatIn := false }
    if s.twin.lostAt.isSome then s.lossAlerts else s

/-- BEAT_IN_ABSENT. -/
def execBeatInAbsent (dt : Nat) (s : State) : Host.Outcome State Fault Refusal :=
  .next ((s.elapse dt).whenUp domSup State.beatAbsent)

/-! ### ARB_N and the claim (R311 to R313) -/

/-- ARB_N_FALL: the peer drives ARB_N low. A unit in JOINING or TAKING becomes standby. -/
def State.arbFall (s : State) : State :=
  let s : State := { s with twin.arbPeer := true, twin.claimAt := none }
  if s.up domSup = true ∧ (s.twin.role = 1 ∨ s.twin.role = 3) then s.becomeStandby else s

/-- ARB_N_FALL. -/
def execArbNFall (dt : Nat) (s : State) : Host.Outcome State Fault Refusal := .next (s.elapse dt).arbFall

/-- ARB_N_RISE: the peer lets ARB_N go; where this unit does not hold it the line is high, and the claim timer of a unit
in JOINING starts. The outgoing unit of a handover whose incoming unit is lost returns to ACTIVE (R322). -/
def State.arbRise (s : State) : State :=
  let was := s.arbHigh
  let s : State := { s with twin.arbPeer := false }
  if was = false ∧ s.arbHigh = true then
    let s : State := { s with twin.arbSince := s.now }
    if s.up domSup then s.startClaim else s
  else if s.up domSup = true ∧ s.twin.role = 5 ∧ s.twin.lostAt.isSome = true then s.returnActive
  else s

/-- ARB_N_RISE. -/
def execArbNRise (dt : Nat) (s : State) : Host.Outcome State Fault Refusal := .next (s.elapse dt).arbRise

/-- The heartbeat had been lost on a broken link for more than 40 µs before ARB_N rose (R313): TAKING is passed over. -/
def State.lateRise (s : State) : Bool :=
  match s.twin.lostAt with
  | some t => (!s.linkUp || s.twin.link == 4) && decide (t + 40 * cyclesPerUs < s.twin.arbSince)
  | none => false

/-- The standby may take over (R313). -/
def State.mayTake (s : State) : Bool :=
  s.twin.role == 2 && s.arbHigh && (s.twin.lostAt.isSome || !s.formed) && !s.twin.steppedDown &&
    (s.boot.mode == 0 || s.boot.mode == 1) &&
    decide ((if s.lateRise then 2000 else 10) * cyclesPerUs ≤ s.now - s.twin.arbSince)

/-- TAKING_ENTRY: outputs resume at their resume points (R316, R317). -/
def State.takingEntry (s : State) : State :=
  if s.mayTake then
    let late := s.lateRise
    let t := match s.twin.lastBeat with
      | some b => (s.fc - b) / cyclesPerUs
      | none => 0
    let before := s
    let s : State := { s with twin.takeover := t, twin.handIn := false, twin.released := [] }
    let s := if late then s.becomeActive else { s with twin.role := 3 }
    let s := (s.event 0xC001 0 1).stat 0x4880 0 6 1
    (listenerPorts.foldl (fun s p => s.resumePort p) s).regain before
  else s

/-- TAKING_ENTRY. -/
def execTakingEntry (dt : Nat) (s : State) : Host.Outcome State Fault Refusal :=
  .next ((s.elapse dt).whenUp domSup State.takingEntry)

/-- TAKING_CONFIRM: ARB_N has been high for 2 ms. -/
def State.takingConfirm (s : State) : State :=
  if s.twin.role = 3 ∧ s.arbHigh = true ∧ 2 * cyclesPerMs ≤ s.now - s.twin.arbSince then s.becomeActive else s

/-- TAKING_CONFIRM. -/
def execTakingConfirm (dt : Nat) (s : State) : Host.Outcome State Fault Refusal :=
  .next ((s.elapse dt).whenUp domSup State.takingConfirm)

/-- CLAIM_TIMER_EXPIRY: ARB_N is still high, and no peer HEARTBEAT reports an active role. -/
def State.claimExpiry (s : State) : State :=
  match s.twin.claimAt with
  | some t =>
    if s.twin.role = 1 ∧ t ≤ s.now ∧ s.arbHigh = true ∧ (s.twin.lastBeat.isNone = true ∨ activeRole s.twin.peerRole = false)
    then s.becomeActive.regain s else s
  | none => s

/-- CLAIM_TIMER_EXPIRY. -/
def execClaimTimerExpiry (dt : Nat) (s : State) : Host.Outcome State Fault Refusal :=
  .next ((s.elapse dt).whenUp domSup State.claimExpiry)

/-! ### The network witness (R313, R315) -/

/-- The datagram is one of another unit's output: its first s: parameter is the device SFI. -/
def State.isWitness (s : State) (f : RxFrame) : Bool :=
  firstSfi (udpPayload f.bytes) == some (s.ct 0x2500 1 0) && frameSrc f.bytes != s.macOf 0 && frameSrc f.bytes != s.macOf 1

/-- The unit steps down: not preferred, or of higher rank where both have the same preference. -/
def State.stepsDown (s : State) : Bool :=
  match s.twin.peer with
  | some h => if (h.identity / 2 % 2 == 1) == s.twin.prefN then s.twin.unitSel else s.twin.prefN
  | none => s.twin.prefN

/-- A witness datagram reaches the unit. -/
def State.witnessed (s : State) : State :=
  let late := decide (s.twin.handAt ≠ 0 ∧ s.now < s.twin.handAt + 5 * cyclesPerMs)
  if late then s
  else
    let s := ({ s with twin.witnessAt := some s.now }).stat 0x4880 0 8 1
    if s.twin.role = 3 ∨ s.twin.role = 4 then
      if s.stepsDown then (({ s.becomeStandby with twin.steppedDown := true }).event 0xC004 0 0).event 0xC005 0 0
      else s.event 0xC004 0 0
    else s

/-- WITNESS_DATAGRAM: SUP takes the oldest frame that the witness received on a port. -/
def State.witnessDatagram (p : Nat) (s : State) : State :=
  s.withSup p (fun f => f.witness) (fun f s => if s.isWitness f then s.witnessed else s)

/-- WITNESS_DATAGRAM. -/
def execWitnessDatagram (dt : Nat) (port : Fin 2) (s : State) : Host.Outcome State Fault Refusal :=
  .next ((s.elapse dt).whenUp domSup (State.witnessDatagram port.val))

/-- WITNESS_HOLD_EXPIRY: TAKING is allowed again. -/
def State.witnessHold (s : State) : State :=
  match s.twin.witnessAt with
  | some t => if msCycles (s.cn 0x4000 8 0) ≤ s.now - t then { s with twin.steppedDown := false } else s
  | none => s

/-- WITNESS_HOLD_EXPIRY. -/
def execWitnessHoldExpiry (dt : Nat) (s : State) : Host.Outcome State Fault Refusal :=
  .next ((s.elapse dt).whenUp domSup State.witnessHold)

/-! ### Planned handover (R319 to R322) -/

/-- The reason for which a standby asks for the active role, if it has one. -/
def State.askReason (s : State) : Option Nat :=
  let held := match s.twin.presentSince, s.twin.formedAt with
    | some a, some b => decide (s.cn 0x4000 3 0 * cyclesPerSec ≤ s.fc - Nat.max a b)
    | _, _ => false
  let prefers := match s.twin.peer with
    | some h => !s.twin.prefN && (h.identity / 2 % 2 == 1)
    | none => false
  if s.twin.peerRole ≠ 4 then none
  else if (s.twin.peerMode = 2 ∨ s.twin.peerMode = 3 ∨ s.twin.peerMode = 4) ∧ (s.boot.mode = 0 ∨ s.boot.mode = 1) then some 2
  else if s.cn 0x4000 2 0 = 1 ∧ prefers = true ∧ s.boot.mode = 1 ∧ s.twin.peerMode = 1 ∧ s.twin.peerGen = s.cycle.generation ∧
      held = true then some 1
  else none

/-- REVERT_HOLD_EXPIRY: a standby asks, once until it is answered. -/
def State.revertHold (s : State) : State :=
  if s.twin.role = 2 ∧ s.formed = true ∧ s.twin.heartbeat = true ∧ s.twin.handoverAsked.isNone = true ∧ s.twin.handover.isNone = true then
    match s.askReason with
    | some r => ({ s with twin.handoverAsked := some r }).sendJ (.handoverRequest r)
    | none => s
  else s

/-- REVERT_HOLD_EXPIRY. -/
def execRevertHoldExpiry (dt : Nat) (s : State) : Host.Outcome State Fault Refusal :=
  .next ((s.elapse dt).whenUp domSup State.revertHold)

/-- The active unit is asked to hand over: it agrees, or defers until no cycle is open. -/
def State.askHandover (reason : Nat) (s : State) : State := ({ s with twin.handoverAsked := some reason }).answerHandover

/-- HANDOVER_COMMAND: 0x4000:0A on the active unit, with its standby there. -/
def State.handoverCommand (_ : Nat) (s : State) : Reply × State :=
  if s.twin.role = 4 ∧ (s.boot.mode = 0 ∨ s.boot.mode = 1) ∧ s.twin.peerRole = 2 ∧ s.twin.heartbeat = true then
    granted (s.askHandover 0)
  else refuse abState s

/-- HANDOVER_COMMAND. -/
def execHandoverCommand (dt : Nat) (who : ClientId) (s : State) : Host.Outcome State Fault Refusal :=
  .next ((s.elapse dt).access who 0x4000 State.handoverCommand)

/-- HANDOVER_REQUEST reaches the active unit. -/
def State.handoverRequest (reason : Nat) (s : State) : State :=
  if s.twin.role = 4 ∧ s.formed = true ∧ s.twin.handover.isNone = true then s.askHandover reason else s

/-- HANDOVER_REQUEST. -/
def execHandoverRequest (dt : Nat) (reason : Byte) (s : State) : Host.Outcome State Fault Refusal :=
  .next ((s.elapse dt).fromPeer (State.handoverRequest reason.toNat))

/-- HANDOVER_AGREE reaches the standby; a set point of 0 is a refusal. -/
def State.handoverAgree (sp : WheelPos) (s : State) : State :=
  if s.twin.role = 2 ∧ s.formed = true then
    if sp = 0 then { s with twin.handoverAsked := none } else s.enterHandover (s.translate sp)
  else s

/-- HANDOVER_AGREE. -/
def execHandoverAgree (dt : Nat) (setPoint : WheelPos) (s : State) : Host.Outcome State Fault Refusal :=
  .next ((s.elapse dt).fromPeer (State.handoverAgree setPoint))

/-- What the outgoing unit has composed and not begun goes back to its queues. -/
def State.returnUnbegun (s : State) : State :=
  let s := s.bramble.listeners.foldl (fun s x => s.returnSlot x.1) s
  let s := (s.returnDatagrams 0).returnDatagrams 1
  (s.returnMessages 0 true).returnMessages 1 true

/-- A dispatch of row 1017: the standby becomes ACTIVE and takes ports as they are released; the active unit becomes
HANDOVER_OUT and releases every port on which nothing is in flight. -/
def State.handoverPoint (_ : Dispatch) (s : State) : State :=
  if s.twin.handover.isNone then s
  else
    let s : State := { s with appts.handRow := none, twin.handover := none, twin.handoverAsked := none, twin.handAt := s.now }
    if s.twin.role = 2 then
      (({ s.becomeActive with twin.handIn := true }).event 0xC001 0 2).stat 0x4880 0 7 1
    else if s.twin.role = 4 then
      let s := ({ s with twin.role := 5, twin.released := [], twin.arbPeer := true }).stat 0x4880 0 7 1
      listenerPorts.foldl (fun s p => s.releaseIdle p) s.returnUnbegun
    else s

/-- HANDOVER_SET_POINT. -/
def execHandoverSetPoint (dt : Nat) (s : State) : Host.Outcome State Fault Refusal :=
  .next ((s.elapse dt).whenUp domFabric (State.withDispatch 0x0900 State.handoverPoint))

/-- PORT_RELEASE reaches the incoming unit: the port's listeners resume; a start-stop port drives mark and begins no
earlier than O + 2 µs (R320, R321). -/
def State.takePort (port : Nat) (items : List MirrorItem) (s : State) : State :=
  if s.twin.role ≠ 4 ∨ s.twin.handIn = false ∨ listenerPorts.contains port = false ∨ s.twin.released.contains port = true then s
  else
    let s := items.foldl (fun s m => match m with
      | .mark l cls source pip crc => s.takeMark l cls source pip crc
      | .counters l a b c d e => s.modLst l (fun x => { x with held := some ⟨a, b, c, d, e⟩ })
      | _ => s) s
    let before := s
    let s := ({ s with twin.released := s.twin.released ++ [port] }).resumePort port
    let s := if port ≤ 23 ∧ s.portMode port = 1 then
        s.modSp port (fun x => { x with startAfter := some (s.fc + s.overlap port + 2 * cyclesPerUs) })
      else s
    let s := if listenerPorts.all (fun p => s.twin.released.contains p) then { s with twin.handIn := false, twin.released := [] } else s
    s.regain before

/-- PORT_RELEASE. -/
def execPortRelease (dt : Nat) (port : Byte) (items : List MirrorItem) (s : State) : Host.Outcome State Fault Refusal :=
  .next ((s.elapse dt).fromPeer (State.takePort port.toNat items))

/-- SERIAL_OVERLAP_EXPIRY: the outgoing unit drops its driver enable. -/
def State.overlapExpiry (p : Nat) (s : State) : State :=
  match (s.sp p).overlapEnd with
  | some t => if t ≤ s.fc then s.modSp p (fun x => { x with overlapEnd := none }) else s
  | none => s

/-- SERIAL_OVERLAP_EXPIRY. -/
def execSerialOverlapExpiry (dt : Nat) (port : Fin 24) (s : State) : Host.Outcome State Fault Refusal :=
  .next ((s.elapse dt).whenUp domSerial (State.overlapExpiry port.val))

/-- INCOMING_START_DELAY: the incoming unit may begin its first item. -/
def State.startDelay (p : Nat) (s : State) : State :=
  match (s.sp p).startAfter with
  | some t => if t ≤ s.fc then s.modSp p (fun x => { x with startAfter := none }) else s
  | none => s

/-- INCOMING_START_DELAY. -/
def execIncomingStartDelay (dt : Nat) (port : Fin 24) (s : State) : Host.Outcome State Fault Refusal :=
  .next ((s.elapse dt).whenUp domSerial (State.startDelay port.val))

/-! ### Configuration in a pair (R323) -/

/-- The standby checks a candidate formed from the active unit's shadow, and answers. -/
def State.judgeShadow (c : Cfg) (s : State) : State :=
  let e := s.checkShadow c s.time
  ({ s with twin.inShadow := c, twin.inReady := e.isEmpty }).sendJ (.checkResult e.isEmpty e.length (e.take 64))

/-- The standby checks the active unit's sealed configuration, and sets it 10 ms on; where the check fails it stays on
its own configuration. -/
def State.judgeResync (c : Cfg) (s : State) : State :=
  if s.cycle.state ≠ 0 ∨ s.writesCopy = true then s
  else
    let e := if c = s.cfg then [] else Check.all { u := s.uid, c := c, point := s.time }
    let s := s.sendJ (.checkResult e.isEmpty e.length (e.take 64))
    if e.isEmpty then
      ({ s with cycle := { s.cycle with shadow := c, whole := true, fromTwin := some s.twin.peerGen, owner := none } }).enterPoint
        (s.time + BitVec.ofNat 64 (msPos 10))
    else s.raiseOnce 0xC002 0 0

/-- SHADOW: segments come in order; the last completes the configuration. -/
def State.takeShadow (resync : Bool) (offset : Nat) (data : List Byte) (last : Bool) (s : State) : State :=
  if s.formed = false ∨ s.twin.role ≠ 2 then s
  else if offset ≠ 0 ∧ offset ≠ s.twin.inBytes.length then { s with twin.inBytes := [] }
  else
    let b := (if offset = 0 then [] else s.twin.inBytes) ++ data
    if last then
      let c := exchange s.uid (contentCfg s.uid b)
      let s : State := { s with twin.inBytes := [] }
      if resync then s.judgeResync c else s.judgeShadow c
    else { s with twin.inBytes := b }

/-- SHADOW. -/
def execShadow (dt : Nat) (resync : Bool) (offset : Nat) (data : List Byte) (last : Bool) (s : State) :
    Host.Outcome State Fault Refusal :=
  .next ((s.elapse dt).fromPeer (State.takeShadow resync offset data last))

/-- CHECK_RESULT: the standby's failures become entries with reason 9; the active unit's check completes once its own has
run. A resync that failed is not tried again with this generation. -/
def State.takeResult (pass : Bool) (count : Nat) (entries : List CheckEntry) (s : State) : State :=
  if s.twin.role ≠ 4 ∨ s.formed = false then s
  else if s.cycle.state = 2 ∧ s.cycle.asked = true ∧ s.cycle.twinPass.isNone = true then
    let s : State := { s with cycle := { s.cycle with
      twinPass := some pass, twinCount := count, twinFails := entries.map (fun e => { e with reason := 9 }) } }
    match s.cycle.found with
    | some own => s.report own
    | none => s
  else if pass then s
  else { s with twin.resyncFailed := some s.cycle.generation, twin.resyncSince := none }

/-- CHECK_RESULT. -/
def execCheckResult (dt : Nat) (pass : Bool) (count : Nat) (entries : List CheckEntry) (s : State) :
    Host.Outcome State Fault Refusal :=
  .next ((s.elapse dt).fromPeer (State.takeResult pass count entries))

/-- SET reaches the standby: one that comes less than 1 ms before the translated set point is discarded. -/
def State.takeSet (point : WheelPos) (gen : Nat) (s : State) : State :=
  let sp := s.translate point
  if s.twin.role ≠ 2 ∨ s.formed = false ∨ s.twin.inReady = false ∨ s.cycle.state ≠ 0 ∨ s.writesCopy = true ∨
      posDiff sp s.time * 1000 < 2 ^ 32 then s
  else
    let s : State := { s with cycle := { s.cycle with
      shadow := s.twin.inShadow, whole := false, fromTwin := some gen, owner := none } }
    let s := (s.enterPoint sp).sendJ (.setAck sp)
    { s with twin.inReady := false }

/-- SET. -/
def execSet (dt : Nat) (setPoint : WheelPos) (generation : Nat) (s : State) : Host.Outcome State Fault Refusal :=
  .next ((s.elapse dt).fromPeer (State.takeSet setPoint generation))

/-- SET_ACK reaches the active unit. -/
def State.takeAck (_ : WheelPos) (s : State) : State :=
  if s.twin.role = 4 ∧ s.cycle.state = 5 ∧ s.formed = true then { s with cycle.acked := true } else s

/-- SET_ACK. -/
def execSetAck (dt : Nat) (setPoint : WheelPos) (s : State) : Host.Outcome State Fault Refusal :=
  .next ((s.elapse dt).fromPeer (State.takeAck setPoint))

/-- RESYNC_TIMER: unequal generations for 10 ms. -/
def State.resyncTimer (s : State) : State :=
  match s.twin.resyncSince with
  | some t =>
    if s.twin.role = 4 ∧ s.formed = true ∧ s.twin.heartbeat = true ∧ s.unequal = true ∧ 10 * cyclesPerMs ≤ s.now - t
    then s.resync else s
  | none => s

/-- RESYNC_TIMER. -/
def execResyncTimer (dt : Nat) (s : State) : Host.Outcome State Fault Refusal :=
  .next ((s.elapse dt).whenUp domSup State.resyncTimer)

end Sys2Proof.Machine
end

