-- ==== Sys2Proof/Machine/Startup.lean ====
section
/-! DEFINITION. Resets and the start sequence (R326 to R330, R340, R341, R373, R374): what a reset of the device keeps, the
image that the boot ROM picks, the copy that is put in force, the mode, and the state in which every block begins. -/

namespace Sys2Proof.Machine

open Sys2Proof

/-! ### What a reset keeps -/

/-- The device as a reset of every domain leaves it, before it starts (the fabric count at zero): config store, fuses, the levels of the pins, and
what the AO domain holds; `ao` says that AO is not reset (Table 15.1). -/
def State.blank (ao : Bool) (s : State) : State :=
  let s := s.driveArb false
  let b := s.boot
  { now := s.now, free := s.free, pending := s.pending
    wheels := { enc := { a := s.wheels.enc.a, b := s.wheels.enc.b } }
    fabric := { stopped := s.fabric.stopped }
    dict := { startCount := s.dict.startCount }
    health := { log := s.health.log, nextSeq := s.health.nextSeq, aoEvents := if ao then s.health.aoEvents else [] }
    twin := {
      unitSel := s.twin.unitSel, prefN := s.twin.prefN, testEn := s.twin.testEn, arbPeer := s.twin.arbPeer
      arbSince := s.twin.arbSince, beatInAt := s.twin.beatInAt }
    power := {
      doms := (List.range 15).map (fun d => (d, { state := if ao && d == domAo then 3 else 2 }))
      burned := s.power.burned, left := s.power.left, junction := s.power.junction, highest := s.power.junction
      current := s.power.current, highCurrent := s.power.current, secondAt := s.now
      surgePart := if s.power.state = 1 then s.now - s.power.secondAt else s.power.surgePart }
    boot := {
      cause := b.cause, recovery := ao && b.recovery, resetN := b.resetN, internal := b.internal, railsAt := b.railsAt
      slotA := b.slotA, slotB := b.slotB, running := 2, bootSlot := b.bootSlot, vendorHash := b.vendorHash
      customerHash := b.customerHash, floor := b.floor, copies := b.copies, serial := b.serial, supRunning := false
      trained := b.trained } }

/-! ### The image (R331 to R333) -/

/-- Change an image slot. -/
def State.modSlot (n : Nat) (f : Slot15 → Slot15) (s : State) : State :=
  if n = 0 then { s with boot.slotA := f s.boot.slotA } else if n = 1 then { s with boot.slotB := f s.boot.slotB } else s

/-- The bytes of a slot from an offset; what a byte holds that was not written since the slot was erased is open. -/
def Slot15.bytes (x : Slot15) (k n : Nat) : List Byte := (List.range n).map (fun i => Tbl.get Config.erasedByte (k + i) x.data)

/-- A number in the header of a slot (Table 15.4, stored under R4). -/
def Slot15.header (x : Slot15) (k n : Nat) : Nat := leNat (x.bytes k n)

/-- The SHA-256 of a public key in the header. -/
def Slot15.keyHash (x : Slot15) (k : Nat) : Nat := beNat (sha256 (x.bytes k 64))

/-- What judging the bytes of a slot finds: its header and digests are read from them (R331, R332, Table 15.4); whether the
two signatures verify comes with the row. -/
def Slot15.judged (x : Slot15) (f : ImageFacts) : ImageFacts := {
  magicOk := decide (x.bytes 0 4 = ascii "LNFW"), product := x.header 4 4, revision := x.header 8 4, version := x.header 12 4
  security := x.header 16 4, length := x.header 20 4
  bodyHashOk := decide (sha256 (x.bytes 512 (x.header 20 4)) = x.bytes 24 32)
  vendorKeyHash := x.keyHash 56, vendorSigOk := f.vendorSigOk
  customerKeyHash := if (x.bytes 120 64).all (fun b => b == 0) then none else some (x.keyHash 120)
  customerSigOk := f.customerSigOk }

/-- The longest body of an image (Table 15.4). -/
def maxBody : Nat := 1048064

/-- The update status that judging an image gives, 0x03 where it passes (R332, Table 15.7). -/
def judgeImage (b : Boot) (f : ImageFacts) : Nat :=
  if !f.magicOk || f.product != 0x2430 || f.revision != 0x00020001 then 0x10
  else if f.security < b.floor then 0x11
  else if f.length = 0 ∨ maxBody < f.length ∨ f.bodyHashOk = false then 0x12
  else if f.vendorKeyHash ≠ b.vendorHash then 0x13
  else if f.vendorSigOk = false then 0x14
  else if b.customerHash = 0 then 0x03
  else if f.customerKeyHash ≠ some b.customerHash then 0x15
  else if f.customerSigOk = false then 0x16
  else 0x03

/-- The image of a slot passes verification. -/
def State.imagePasses (s : State) (n : Nat) : Bool :=
  match (s.slot15 n).facts with
  | some f => judgeImage s.boot f == 0x03
  | none => false

/-- An alert that the boot ROM or the AO domain records, to be logged when SUP firmware runs (R293, R333). -/
def State.recordAo (code a b : Nat) (s : State) : State :=
  let e : Event := { code := code, a := a, b := b, kind := 1, astate := 1, at_ := s.time, wstate := s.wheels.time.state.code,
                     fc := s.fc, start := s.dict.startCount }
  { s with health.aoEvents := s.health.aoEvents ++ [e] }

/-- A slot is REJECTED, and an alert says so. -/
def State.rejectSlot (n : Nat) (s : State) : State :=
  (s.modSlot n (fun x => { x with state := 5 })).recordAo 0xB102 n 0

/-- The candidates of the boot ROM, in order: a TRIAL whose start is not yet made, the boot slot, the other CONFIRMED
slot, without those that have failed to start three times. -/
def State.candidates15 (s : State) : List Nat :=
  let trial := [0, 1].filter (fun n => (s.slot15 n).state == 3)
  let kept := [s.boot.bootSlot, 1 - s.boot.bootSlot].filter (fun n => (s.slot15 n).state == 4)
  (trial ++ kept).filter (fun n => decide ((s.slot15 n).failures < 3))

/-- Try the candidates in order: the first that passes runs, and its start failures advance; one that fails is REJECTED. -/
def State.tryImages : List Nat → State → State
  | [], s => { s with boot.bootRom := true, boot.running := 2 }
  | n :: rest, s =>
    if s.imagePasses n then
      let s := s.modSlot n (fun x => { x with failures := x.failures + 1, trialMade := x.trialMade || x.state == 3 })
      { s with boot.running := n }
    else tryImages rest (s.rejectSlot n)

/-- The boot ROM picks the image (R333): a TRIAL whose start was already made has failed its trial. -/
def State.pickImage (s : State) : State :=
  let s := [0, 1].foldl (fun s n =>
    if (s.slot15 n).state = 3 ∧ (s.slot15 n).trialMade = true then s.rejectSlot n else s) s
  State.tryImages s.candidates15 s

/-! ### The configuration (R338) -/

/-- The sealed copies of the highest generation. -/
def State.topCopies (s : State) : List Nat :=
  (List.range 3).filter (fun n => (s.copy n).sealed && (s.copy n).generation == s.highestGen)

/-- Sealed copies of the highest generation differ. -/
def State.conflict (s : State) : Bool :=
  match s.topCopies with
  | [] => false
  | n :: rest => rest.any (fun m => (s.copy m).content != (s.copy n).content || (s.copy m).setPoint != (s.copy n).setPoint)

/-- The copies are judged: the configuration of the lowest-numbered of the highest copies is put in force, unless they
differ or none is sealed. -/
def State.judgeCopies (s : State) : State :=
  match s.topCopies with
  | [] => s
  | n :: _ =>
    if s.conflict then s
    else
      let c := s.copy n
      { s with
        cfg := c.content, boot.copyInForce := some n, boot.factory := false, cycle.generation := c.generation
        cycle.lastSet := c.setPoint }

/-- The operating mode (R340), with the recovery reason. -/
def State.decideMode (s : State) : State :=
  if s.boot.bootRom then { s with boot.mode := 2, boot.reason := 2 }
  else if s.twin.testEn then { s with boot.mode := 4 }
  else if s.boot.recovery then { s with boot.mode := 2, boot.reason := 1 }
  else if s.boot.trained = false then { s with boot.mode := 2, boot.reason := 3 }
  else if s.conflict then ({ s with boot.mode := 3 }).event 0xB101 0 s.highestGen
  else { s with boot.mode := if s.boot.copyInForce.isNone then 0 else s.cn 0x5F01 2 0 }

/-! ### Step 8: every block begins -/

/-- The domains that run at this stage of the start: every one from step 8 on; before it those of step 2, and under the
boot ROM also CAN, which carries the SDO server of C2 (R328, R341). -/
def State.stageRuns (s : State) (d : Nat) : Bool :=
  if s.boot.bootRom then [domWake, domFabric, domSup, domDram, domCan].contains d
  else s.boot.trained || [domWake, domFabric, domSup, domDram].contains d

/-- Every domain runs whose number passes. -/
def State.runDomains (on : Nat → Bool) (s : State) : State :=
  { s with power.doms := (List.range 15).map (fun d => (d, { state := if on d then 3 else 2 })) }

/-- The wheels at the release of RESET_N: position zero, each at its fixed rate (R15, R26). -/
def State.startWheels (s : State) : State :=
  { s with wheels := { s.wheels with
      time := freshWheel 0 nominalInc, shaft := freshWheel 0 0
      mains := freshWheel 0 (s.fixedInc 2), sea := freshWheel 0 (s.fixedInc 3) } }

/-- What every block does as its domain leaves reset at step 8 of Table 15.2. -/
def State.beginBlocks (s : State) : State :=
  let s := s.runDomains (fun _ => true)
  let s := s.armAll
  let s := (Cfg.live s.cfg 0x2310 44).foldl (fun s r => if s.cn 0x2310 2 r = 1 then s.restartSrc s.cfg r else s) s
  let s := (List.range 16).foldl (State.setCascade []) s.beginLoading
  let s := (List.range 24).foldl (fun s p => s.startPort p) s
  let s := [0, 1].foldl (fun s p => s.modEp p (fun e => { e with step := s.cn (0x2200 + p) 0x0C 0 })) s
  let s := s.afeExit.canExit.journalEnable
  (s.join).powerDomains

/-- The ledger is spent: no Surge for the rest of the part's life (R356). -/
def State.withheld (s : State) : State :=
  if 2628 ≤ s.power.burned ∧ s.power.left = 0 then ({ s with power.surge := 3 }).event 0xD002 0 0 else s

/-- The start sequence (R328): the steps of Table 15.2, at one moment. -/
def State.start (s : State) : State :=
  let s : State := if s.boot.cause = 1 then { s with power.left := 0 } else s
  let s := (s.runDomains (fun d => [domAo, domWake, domFabric, domSup, domDram].contains d)).startWheels.pickImage
  if s.boot.bootRom then
    -- only SUP runs, with the SDO server on C2, which passes its initialisation (R214, R341)
    ((s.runDomains (fun d => d == domAo || s.stageRuns d)).decideMode).canStart 2
  else
    let s : State := s.judgeCopies.startWheels.useFree
    let s : State := { s with
      boot.startTime := s.freeNat % 115001, boot.supRunning := true, boot.startedAt := s.now, boot.confirmFrom := s.now
      dict.startCount := s.dict.startCount + 1 }
    let s := s.decideMode.releaseEvents.withheld
    if s.boot.trained then s.beginBlocks else s

/-- A start with a cause, from whatever the device was doing; causes 3 to 7 keep what AO holds (Table 15.1). -/
def State.startWith (cause : Nat) (s : State) : State :=
  let s := s.blank (decide (3 ≤ cause))
  ({ s with boot.cause := cause }).start

/-! ### Reset pins and rails (R326, R373, R374, R376) -/

/-- A reset of every domain is held: by RESET_N, or by the internal reset. -/
def State.held (s : State) : Bool := !s.boot.resetN || !s.boot.internal

/-- Hold every domain in reset. The start to come has this cause, or cause 1 where that is already due. -/
def State.hold (cause : Nat) (s : State) : State :=
  let c := if s.held ∧ s.boot.cause = 1 then 1 else cause
  let s := s.blank false
  { s with boot.cause := c }

/-- The device starts once neither RESET_N nor the internal reset is held. -/
def State.release (s : State) : State := if s.held then s else s.start

/-- POWER_ON: VDD_AO rises; the internal reset is held until every rail has been in range for 1 ms. -/
def State.powerOn (s : State) : State :=
  let s := s.hold 1
  { s with boot.internal := false, boot.cause := 1, boot.railsAt := s.now, power.left := 0 }

/-- POWER_ON. -/
def execPowerOn (dt : Nat) (s : State) : Host.Outcome State Fault Refusal := .next (s.elapse dt).powerOn

/-- RESET_N_ASSERT. -/
def execResetNAssert (dt : Nat) (s : State) : Host.Outcome State Fault Refusal :=
  let s := (s.elapse dt).hold 2
  .next { s with boot.resetN := false }

/-- RESET_N_RELEASE: the straps are sampled, and the start begins unless the internal reset is still held. -/
def State.resetRelease (unitSel prefN testEn : Bool) (a b : ImageFacts) (trained : Bool) (s : State) : State :=
  if s.boot.resetN then s
  else
    let found (f : ImageFacts) (x : Slot15) : Slot15 :=
      if x.state = 0 ∨ x.state = 1 then x else { x with facts := some (if x.data.isEmpty then f else x.judged f) }
    let s := (s.modSlot 0 (found a)).modSlot 1 (found b)
    ({ s with
      boot.resetN := true, boot.trained := trained, twin.unitSel := unitSel, twin.prefN := prefN, twin.testEn := testEn }).release

/-- RESET_N_RELEASE. -/
def execResetNRelease (dt : Nat) (unitSel prefN testEn : Bool) (imageA imageB : ImageFacts) (trained : Bool) (s : State) :
    Host.Outcome State Fault Refusal :=
  .next ((s.elapse dt).resetRelease unitSel prefN testEn imageA imageB trained)

/-- BROWN_OUT: a rail below its threshold holds every domain in reset. -/
def State.brownOut (r : Rail) (s : State) : State :=
  let s := s.hold (if r = .vddAo then 1 else 2)
  let s : State := { s with boot.internal := false, boot.railsAt := s.now }
  if r = .vddAo then { s with boot.cause := 1, power.left := 0 } else s

/-- BROWN_OUT. -/
def execBrownOut (dt : Nat) (rail : Rail) (s : State) : Host.Outcome State Fault Refusal :=
  .next ((s.elapse dt).brownOut rail)

/-- INTERNAL_RESET_RELEASE: every rail has been in range for 1 ms. -/
def State.internalRelease (s : State) : State :=
  if s.boot.internal ∨ s.now < s.boot.railsAt + cyclesPerMs then s else ({ s with boot.internal := true }).release

/-- INTERNAL_RESET_RELEASE. -/
def execInternalResetRelease (dt : Nat) (s : State) : Host.Outcome State Fault Refusal :=
  .next (s.elapse dt).internalRelease

/-- BOOT_WATCHDOG: SUP firmware has not run 200 ms after it was started; the failure stays counted. -/
def State.bootWatchdog (s : State) : State :=
  if s.notStarted ∨ s.up domSup = false ∨ s.now < s.boot.startedAt + 200 * cyclesPerMs then s else s.startWith 7

/-- BOOT_WATCHDOG. -/
def execBootWatchdog (dt : Nat) (s : State) : Host.Outcome State Fault Refusal := .next (s.elapse dt).bootWatchdog

/-! ### Domain resets (R12, R21, R231, R327, R358) -/

/-- SUP's reset is escalated to a start: the image is in TRIAL, or the generation in force is sealed in no copy (R327). -/
def State.escalates (s : State) : Bool :=
  (s.slot15 s.boot.running).state == 3 ||
    (s.cycle.generation != 0 && !(List.range 3).any (fun n => (s.copy n).sealed && (s.copy n).generation == s.cycle.generation))

/-- A domain enters reset; AO resets the whole device (Table 1.7). -/
def State.resetDomain (d : Nat) (s : State) : State :=
  if d = domAo then (if s.dom domAo = 3 then s.hold 2 else s)
  else if s.dom d ≠ 3 then s
  else
    let esc := s.escalates
    let s := s.enterReset d
    if d = domSup ∧ (esc = true ∨ s.escalates = true) then s.startWith 6 else s

/-- DOMAIN_RESET_ENTER. -/
def execDomainResetEnter (dt : Nat) (d : Fin 15) (s : State) : Host.Outcome State Fault Refusal :=
  .next ((s.elapse dt).resetDomain d.val)

/-- A domain leaves reset; domains that the stage of the start, a held reset, a thermal shutdown or AO hold stay in it. -/
def State.leaveReset (d : Nat) (s : State) : State :=
  if d = domAo then (if s.dom domAo = 2 then s.release else s)
  else if s.held ∨ s.power.shutdownAt.isSome ∨ s.dom domAo ≠ 3 ∨ s.stageRuns d = false then s
  else s.exitReset d

/-- DOMAIN_RESET_EXIT. -/
def execDomainResetExit (dt : Nat) (d : Fin 15) (s : State) : Host.Outcome State Fault Refusal :=
  .next ((s.elapse dt).leaveReset d.val)

/-- DOMAIN_RESET_COMMAND: accepted in TEST only, and never for AO. -/
def execDomainResetCommand (dt : Nat) (who : ClientId) (d : Fin 15) (s : State) : Host.Outcome State Fault Refusal :=
  .next ((s.elapse dt).access who 0x5821 (fun _ s =>
    if s.boot.mode ≠ 4 ∨ d.val = domAo then refuse abState s else granted (s.resetDomain d.val)))

/-- SUP is reset after a lockstep mismatch or a stall: ALARM_N stays low until it returns (R12, R231, R295). -/
def State.resetSup (s : State) : State :=
  if s.dom domSup ≠ 3 then s else ({ s with health.supReset := true }).resetDomain domSup

/-- SUP_LOCKSTEP: recorded in AO, and SUP is reset. -/
def execSupLockstep (dt : Nat) (s : State) : Host.Outcome State Fault Refusal :=
  .next ((s.elapse dt).whenUp domSup (fun s => (s.recordAo 0xE001 0 0).resetSup))

/-- CTRL_LOCKSTEP: no output of the step is issued, an alert is raised, and CTRL is reset. -/
def execCtrlLockstep (dt : Nat) (s : State) : Host.Outcome State Fault Refusal :=
  .next ((s.elapse dt).whenUp domCtrl (fun s => (s.event 0x4008 0 0).resetDomain domCtrl))

/-- QUEUE_STALL: a watched queue has held a visible packet for its stall limit with its read pointer at rest, while its
consumer ran and had credit: it is realigned as for a consumer reset, and the consumer's domain is reset (R231). -/
def State.stall (q : Nat) (s : State) : State :=
  match queueEnds q, (s.que q).since with
  | some (_, c), some t =>
    if watchedQueue q = false ∨ s.up c = false ∨ s.visible q = 0 ∨ s.creditFor q = false ∨
        s.fc - t < msCycles (s.cn 0x5818 8 q) then s
    else
      let s := ((s.stat 0x4850 q 8 1).modQue q (fun x => { x with tripped := true })).markEnd q .consumer
      let s := s.event 0x9001 q c
      if c = domSup then s.resetSup else s.resetDomain c
  | _, _ => s

/-- QUEUE_STALL. -/
def execQueueStall (dt : Nat) (q : Fin 512) (s : State) : Host.Outcome State Fault Refusal :=
  .next ((s.elapse dt).whenUp domFabric (State.stall q.val))

end Sys2Proof.Machine
end

