-- ==== Sys2Proof/Machine/Images.lean ====
section
/-! DEFINITION. Commands of start-up and integrity (R331 to R340): restart, the image update, the trial, the fuses, and
the rewriting of configuration copies. -/

namespace Sys2Proof.Machine

open Sys2Proof

/-! ### Restart (R340, R341) -/

/-- Command 1 or 2 of 0x5F01:03: the AO recovery request is cleared or set, and the device starts with cause 3. Under the
boot ROM, command 1 also clears the start failures of both slots. -/
def State.restart (recovery : Bool) (s : State) : Reply × State :=
  if s.cycle.state = 5 then refuse abState s
  else
    let clear (x : Slot15) : Slot15 := { x with failures := 0 }
    let s := if s.boot.bootRom = true ∧ recovery = false then (s.modSlot 0 clear).modSlot 1 clear else s
    granted (({ s with boot.recovery := recovery }).startWith 3)

/-- RESTART. -/
def execRestart (dt : Nat) (who : ClientId) (s : State) : Host.Outcome State Fault Refusal :=
  .next ((s.elapse dt).access who 0x5F01 (fun _ s => s.restart false))

/-- RESTART_INTO_RECOVERY. -/
def execRestartIntoRecovery (dt : Nat) (who : ClientId) (s : State) : Host.Outcome State Fault Refusal :=
  .next ((s.elapse dt).access who 0x5F01 (fun _ s => s.restart true))

/-! ### The image update (R334) -/

/-- The running slot is in a state. -/
def State.runningIn (s : State) (state : Nat) : Bool := (s.slot15 s.boot.running).state == state

/-- Command 1: the slot that does not run is erased and opened. -/
def State.imageOpen (n : Nat) (s : State) : Reply × State :=
  if s.updateOpen ∨ s.runningIn 3 = true then refuse abState s
  else
    let t := if s.boot.running = 0 then 1 else 0
    let s := s.modSlot t (fun _ => { state := 1 })
    granted { s with
      boot.target := t, boot.owner := some n, boot.status := 0x01, dict.imm := Cfg.del ⟨0x5F11, 2, 0⟩ s.dict.imm }

/-- The size of an image slot (Table 1.4). -/
def slotSize : Nat := 2 ^ 20

/-- The update offset. -/
def State.imageOffset (s : State) : Nat := Cfg.nat s.uid s.dict.imm 0x5F11 2 0

/-- The client may write the target: it owns the update, which is not being verified. -/
def State.mayFill (s : State) (n : Nat) : Bool := s.boot.owner == some n && s.updateOpen && s.boot.status != 0x02

/-- A write of the offset. -/
def State.imageSeek (n off : Nat) (s : State) : Reply × State :=
  if s.mayFill n then granted { s with dict.imm := Cfg.set s.uid ⟨0x5F11, 2, 0⟩ (.num off) s.dict.imm } else refuse abState s

/-- Bytes stored from an offset on. -/
def storeBytes : Nat → List Byte → Tbl Byte → Tbl Byte
  | _, [], t => t
  | k, b :: rest, t => storeBytes (k + 1) rest (Tbl.put k b t)

/-- A write of data: stored at the offset, which advances. -/
def State.imageData (n : Nat) (b : List Byte) (s : State) : Reply × State :=
  let k := s.imageOffset
  if s.mayFill n = false then refuse abState s
  else if slotSize < k + b.length then refuse abHigh s
  else
    let s := s.modSlot s.boot.target (fun x => { x with data := storeBytes k b x.data })
    granted { s with dict.imm := Cfg.set s.uid ⟨0x5F11, 2, 0⟩ (.num (k + b.length : Nat)) s.dict.imm }

/-- Command 2: verification begins. -/
def State.imageVerify (s : State) : Reply × State :=
  if s.updateOpen ∧ s.boot.status ≠ 0x02 then granted { s with boot.status := 0x02 } else refuse abState s

/-- VERIFY_COMPLETE: VERIFIED, or REJECTED with what is wrong. -/
def State.verifyComplete (f : ImageFacts) (s : State) : State :=
  if s.boot.status ≠ 0x02 ∨ s.updateOpen = false then s
  else
    let f := (s.slot15 s.boot.target).judged f
    let r := judgeImage s.boot f
    let s := s.modSlot s.boot.target (fun x => { x with state := if r = 0x03 then 2 else 5, facts := some f })
    { s with boot.status := r }

/-- The role forbids a restart: active, or handing over, with the peer's heartbeat present. -/
def State.mustHandOver (s : State) : Bool := (s.twin.role == 4 || s.twin.role == 5) && s.twin.heartbeat

/-- Command 3: the target becomes TRIAL, and the device starts 10 ms after the reply. -/
def State.imageActivate (s : State) : Reply × State :=
  if (s.slot15 s.boot.target).state ≠ 2 ∨ s.cycle.state = 5 ∨ s.mustHandOver = true then refuse abState s
  else
    let s := s.modSlot s.boot.target (fun x => { x with state := 3, trialMade := false })
    granted { s with boot.activateAt := some (s.now + 10 * cyclesPerMs) }

/-- IMAGE_ACTIVATION_START. -/
def State.activationStart (s : State) : State :=
  match s.boot.activateAt with
  | some t => if s.now < t then s else s.startWith 4
  | none => s

/-- The running TRIAL is CONFIRMED, and becomes the boot slot. -/
def State.confirmImage (s : State) : State :=
  let s := s.modSlot s.boot.running (fun x => { x with state := 4 })
  { s with boot.bootSlot := s.boot.running }

/-- Command 4. -/
def State.imageConfirm (s : State) : Reply × State :=
  if s.runningIn 3 then granted s.confirmImage else refuse abState s

/-- Command 5: the other CONFIRMED slot becomes the boot slot, and the device starts with cause 3. -/
def State.imagePrevious (s : State) : Reply × State :=
  let t := if s.boot.running = 0 then 1 else 0
  if (s.slot15 t).state = 4 then granted (({ s with boot.bootSlot := t }).startWith 3) else refuse abState s

/-- Command 6: the security floor is burned up to the running image's security version. -/
def State.raiseFloor (s : State) : Reply × State :=
  match (s.slot15 s.boot.running).facts with
  | some f =>
    if s.runningIn 4 then granted { s with boot.floor := Nat.max s.boot.floor (Nat.min f.security 64) } else refuse abState s
  | none => refuse abState s

/-- An image command of 0x5F11:01. -/
def State.imageCommand (n value : Nat) (s : State) : Reply × State :=
  match value with
  | 1 => s.imageOpen n
  | 2 => s.imageVerify
  | 3 => s.imageActivate
  | 4 => s.imageConfirm
  | 5 => s.imagePrevious
  | 6 => s.raiseFloor
  | _ => refuse abRange s

/-- IMAGE_OPEN. -/
def execImageOpen (dt : Nat) (who : ClientId) (s : State) : Host.Outcome State Fault Refusal :=
  .next ((s.elapse dt).access who 0x5F11 State.imageOpen)

/-- IMAGE_DATA_WRITE. -/
def execImageDataWrite (dt : Nat) (who : ClientId) (data : List Byte) (s : State) : Host.Outcome State Fault Refusal :=
  .next ((s.elapse dt).access who 0x5F11 (fun n s =>
    if pathLimit who < data.length then refuse abTooLong s else s.imageData n data))

/-- IMAGE_VERIFY. -/
def execImageVerify (dt : Nat) (who : ClientId) (s : State) : Host.Outcome State Fault Refusal :=
  .next ((s.elapse dt).access who 0x5F11 (fun _ s => s.imageVerify))

/-- VERIFY_COMPLETE. -/
def execVerifyComplete (dt : Nat) (facts : ImageFacts) (s : State) : Host.Outcome State Fault Refusal :=
  let s := s.elapse dt
  .next (if s.serves then s.verifyComplete facts else s)

/-- IMAGE_ACTIVATE. -/
def execImageActivate (dt : Nat) (who : ClientId) (s : State) : Host.Outcome State Fault Refusal :=
  .next ((s.elapse dt).access who 0x5F11 (fun _ s => s.imageActivate))

/-- IMAGE_ACTIVATION_START. -/
def execImageActivationStart (dt : Nat) (s : State) : Host.Outcome State Fault Refusal :=
  let s := s.elapse dt
  .next (if s.serves then s.activationStart else s)

/-- IMAGE_CONFIRM. -/
def execImageConfirm (dt : Nat) (who : ClientId) (s : State) : Host.Outcome State Fault Refusal :=
  .next ((s.elapse dt).access who 0x5F11 (fun _ s => s.imageConfirm))

/-- IMAGE_PREVIOUS. -/
def execImagePrevious (dt : Nat) (who : ClientId) (s : State) : Host.Outcome State Fault Refusal :=
  .next ((s.elapse dt).access who 0x5F11 (fun _ s => s.imagePrevious))

/-- RAISE_FLOOR. -/
def execRaiseFloor (dt : Nat) (who : ClientId) (s : State) : Host.Outcome State Fault Refusal :=
  .next ((s.elapse dt).access who 0x5F11 (fun _ s => s.raiseFloor))

/-! ### The trial (R333, R335) -/

/-- CONFIRM_TIME_EXPIRY: a TRIAL has run for the confirm time in COMMISSIONING or NORMAL. -/
def State.confirmDue (s : State) : State :=
  let t := s.cn 0x5F11 6 0
  if t ≠ 0 ∧ s.runningIn 3 = true ∧ s.boot.mode ≤ 1 ∧ s.boot.confirmFrom + t * cyclesPerSec ≤ s.now then s.confirmImage else s

/-- CONFIRM_TIME_EXPIRY. -/
def execConfirmTimeExpiry (dt : Nat) (s : State) : Host.Outcome State Fault Refusal :=
  .next ((s.elapse dt).whenUp domSup State.confirmDue)

/-- START_FAILURES_CLEAR: SUP firmware has run for 10 s. -/
def State.clearFailures (s : State) : State :=
  if s.boot.startedAt + 10 * cyclesPerSec ≤ s.now then s.modSlot s.boot.running (fun x => { x with failures := 0 }) else s

/-- START_FAILURES_CLEAR. -/
def execStartFailuresClear (dt : Nat) (s : State) : Host.Outcome State Fault Refusal :=
  .next ((s.elapse dt).whenUp domSup State.clearFailures)

/-! ### The customer key hash (R336) -/

/-- A slot holds an image whose customer key and signature verify under a hash. -/
def State.customerSigned (s : State) (hash n : Nat) : Bool :=
  match (s.slot15 n).facts with
  | some f => f.customerKeyHash == some hash && f.customerSigOk
  | none => false

/-- A write of 0x5F21:05. -/
def State.burnHash (value : Nat) (s : State) : Reply × State :=
  let hash := (Cfg.text s.uid s.dict.imm 0x5F21 4 0).foldl (fun (a : Nat) b => 256 * a + b.toNat) 0
  if value ≠ 0x4A then refuse (spanRefusal [(0x4A, 0x4A)] value) s
  else if s.boot.mode = 0 ∧ s.boot.customerHash = 0 ∧ hash ≠ 0 ∧ s.customerSigned hash 0 = true ∧ s.customerSigned hash 1 = true
  then granted { s with boot.customerHash := hash }
  else refuse abState s

/-- BURN_CUSTOMER_HASH. -/
def execBurnCustomerHash (dt : Nat) (who : ClientId) (value : Byte) (s : State) : Host.Outcome State Fault Refusal :=
  .next ((s.elapse dt).access who 0x5F21 (fun _ s => s.burnHash value.toNat))

/-! ### Copies (R339) -/

/-- The lowest-numbered copy that is unsealed or of lower generation than the copy in force, `f`. -/
def State.staleCopy (s : State) (f : Nat) : Option Nat :=
  (List.range 3).find? (fun n => n != f && (!(s.copy n).sealed || decide ((s.copy n).generation < (s.copy f).generation)))

/-- COPY_REWRITE: where no copy is being written and no cycle is open, SUP begins to rewrite a stale copy from the copy in
force, keeping its generation, and the copy is unsealed while it is written; the next such command is the end of the rewrite.
DESIGN CHOICE: the row stands for both ends (log entry 350). -/
def State.copyRewrite (s : State) : State :=
  match s.boot.copyInForce, s.boot.rewriting with
  | none, _ => s
  | some f, some n =>
    ({ (s.modCopy n (fun _ => s.copy f)) with boot.rewriting := none }).event 0xB103 n (s.copy f).generation
  | some f, none =>
    if s.boot.mode = 3 ∨ s.cycle.state ≠ 0 ∨ s.cycle.writing.isSome = true ∨ (s.copy f).sealed = false then s
    else
      match s.staleCopy f with
      | some n =>
        let s := s.modCopy n (fun _ => { s.copy f with sealed := false })
        { s with boot.rewriting := some n }
      | none => s

/-- COPY_REWRITE. -/
def execCopyRewrite (dt : Nat) (s : State) : Host.Outcome State Fault Refusal :=
  .next ((s.elapse dt).whenUp domSup State.copyRewrite)

end Sys2Proof.Machine
end

