-- ==== Sys2Proof/Machine/Power.lean ====
section
/-! DEFINITION. Power, temperature, Surge and wake (R344 to R358, R147, R195, R196): low power states and the way out of
them, the Surge governor and its wear ledger, and thermal shutdown. -/

namespace Sys2Proof.Machine

open Sys2Proof

/-! ### Entering a low power state (R347, R348) -/

/-- A wake source usable in a state is enabled (Table 16.4): serial and Ethernet wake are not usable in Deep Standby. -/
def State.wakeable (s : State) (n : Nat) : Bool :=
  let w := s.cn 0x5838 1 0
  w.testBit 0 || w.testBit 3 || (n != 4 && (w.testBit 1 || w.testBit 2))

/-- A serial port completes the item that is being sent, and stops. -/
def State.finishSerial (p : Nat) (s : State) : State :=
  let x := s.sp p
  let s := s.stat 0x4800 p 9 ((if x.busy.isSome then 1 else 0) + x.tx.length)
  let s := match s.portListener p with
    | some l =>
      (match (s.lst l).inFlight with
        | some i => ((s.stat 0x4800 p 9 (i.chars.length - i.sent)).modLst l (fun y => { y with inFlight := none })).entrySent l i.entry
        | none => s)
    | none => s
  (s.clearTx p).modSp p (fun x => { x with
    busy := none, wire := [], aux := false, leadEnd := none, lagEnd := none, startAfter := none, sending := [], ownBreak := none })

/-- What is left in the queues of listeners 0 to 61 is discarded, and counted without an event. -/
def State.discardQueues (s : State) : State :=
  (List.range 62).foldl (fun s l =>
    let s := s.returnSlot l
    let s := (s.lst l).queue.foldl (fun s e => s.stat 0x4820 l (6 + e.cls) 1) s
    s.modLst l (fun x => { x with queue := [] })) s

/-- Every port completes the character, frame or item in flight; the rest is discarded. -/
def State.quiesce (s : State) : State :=
  let s := (List.range 24).foldl (fun s p => s.finishSerial p) s
  let s := (List.range 2).foldl (fun s p => (s.macEnd p).returnDatagrams p) s
  let s := (List.range 3).foldl (fun s p =>
    let s := if (s.cp p).headBegun s.fc then s.canSent p else s
    s.returnMessages p false) s
  s.discardQueues

/-- The flush that DRAMIF completes before it is switched off (R251, R346); the fuel bounds its pages. -/
def State.completeFlush : Nat → State → State
  | 0, s => s
  | n + 1, s =>
    if s.journal.erasing.isSome then (s.blockDone true).completeFlush n
    else if s.journal.programming.isSome then (s.pageDone true).completeFlush n
    else s

/-- Surge is left for Run: the divider first, then CORE_VSEL. The part of a second not charged yet is kept (R356). -/
def State.leaveSurge (s : State) : State :=
  { s with
    power.surgePart := if s.power.state = 1 then s.now - s.power.secondAt else s.power.surgePart
    power.state := if s.power.state = 1 then 0 else s.power.state, power.coreVsel := false, power.settleAt := none
    power.lowLoadSince := none, power.surge := if s.power.surge = 1 then 0 else s.power.surge }

/-- Every domain but AO and WAKE stops its clock, and keeps its state (Doze). -/
def State.retainDomains (s : State) : State :=
  (List.range 15).foldl (fun s d => if 2 ≤ d ∧ s.dom d = 3 then s.modDom d (fun x => { x with state := 1 }) else s) s

/-- SUP is switched off; the statistics are kept (R349). -/
def State.supOff (s : State) : State := { s.switchOff domSup with stats := s.stats }

/-- Domains are switched off in the order of Table 16.2. -/
def State.offDomains (deep : Bool) (s : State) : State :=
  let s := [10, 11, 12, 8, 9, 14, 3, 4, 6, 5].foldl (fun s d => s.switchOff d) s
  let s := s.flushAll.completeFlush (2 * s.journal.ring.length + 8)
  let s := ((s.switchOff domDram).supOff).switchOff domFabric
  if deep then s.switchOff domWake else s

/-- The device enters Doze, Listen or Deep Standby; outputs take their level of reset (R348). -/
def State.enterLow (n : Nat) (s : State) : State :=
  let s := s.leaveSurge.quiesce
  let s : State := { s with
    appts.ppsOut := false, appts.ppsEnd := none
    appts.evt := s.appts.evt.map (fun x => (x.1, { x.2 with level := false, pulseEnd := none }))
    health.alarm := s.alarmLow, twin.beatOut := false, wheels.supPos := s.time, wheels.supAt := s.now, power.enteredAt := s.now }
  let s := if n = 2 then s.retainDomains else s.offDomains (n == 4)
  { s with power.state := n }

/-- A request for a low power state. -/
def State.lowRequest (n : Nat) (s : State) : Reply × State :=
  if s.twin.role = 3 ∨ s.twin.role = 4 ∨ s.twin.role = 5 then refuse abState s
  else if s.control.cascades.any (fun c => c.2.state != 0) ∨ s.cycle.state ≠ 0 ∨ s.updateOpen = true ∨ s.wakeable n = false then
    refuse abState s
  else granted (s.enterLow n)

/-- DOZE_REQUEST. -/
def execDozeRequest (dt : Nat) (who : ClientId) (s : State) : Host.Outcome State Fault Refusal :=
  .next ((s.elapse dt).access who 0x5820 (fun _ s => s.lowRequest 2))

/-- LISTEN_REQUEST. -/
def execListenRequest (dt : Nat) (who : ClientId) (s : State) : Host.Outcome State Fault Refusal :=
  .next ((s.elapse dt).access who 0x5820 (fun _ s => s.lowRequest 3))

/-- DEEP_STANDBY_REQUEST. -/
def execDeepStandbyRequest (dt : Nat) (who : ClientId) (s : State) : Host.Outcome State Fault Refusal :=
  .next ((s.elapse dt).access who 0x5820 (fun _ s => s.lowRequest 4))

/-! ### Leaving a low power state (R349) -/

/-- A wheel that stood still: it goes on from where it stood, unreferenced. -/
def Wheel.resume (inc : Int) (w : Wheel) : Wheel := { freshWheel w.visible inc with pos := w.pos, steps := w.steps }

/-- The wheels after Doze: the time wheel jumps forward by what the always-on oscillator counted, the others go on. -/
def State.wakeWheels (s : State) : State :=
  let old := s.time
  let new := s.resumePos
  let w := s.wheels
  let s : State := { s with wheels := { w with
      time := { freshWheel new nominalInc with steps := w.time.steps }
      shaft := w.shaft.resume 0, mains := w.mains.resume (s.fixedInc 2), sea := w.sea.resume (s.fixedInc 3)
      pps := {}, loop := {}, enc := { w.enc with lastEdge := none, interval := none, legalSince := none, standstill := false }
      mns := {}, est := {}, zdaIn := [], disagreeing := false } }
  let s : State := { s with eth := s.eth.map (fun x => (x.1, { x.2 with ptp.exchs := [], ptp.good := 0, ptp.qualifiedSince := none })) }
  s.jumped 0 old new

/-- Retained domains get their clocks back. -/
def State.releaseDomains (s : State) : State :=
  let s := (List.range 15).foldl (fun s d => if s.dom d = 1 then s.modDom d (fun x => { x with state := 3 }) else s) s
  s.wakeWheels

/-- Domains that were off come up in the order of Table 16.2; the start count is kept. -/
def State.onDomains (s : State) : State :=
  let n := s.dict.startCount
  let s := [1, 2, 7, 13, 3, 4, 6, 5, 14, 8, 9, 10, 11, 12].foldl (fun s d => if s.unused d then s else s.switchOn d) s
  { s with dict.startCount := n }

/-- A source wakes the device, and is recorded. -/
def State.wake (source detail : Nat) (s : State) : State :=
  let n := s.power.state
  if n < 2 then s
  else
    let s : State := { s with
      power.state := 0, power.wakeSource := source, power.wakeDetail := detail, power.wakes := s.power.wakes + 1 }
    if n = 2 then s.releaseDomains else s.onDomains

/-- WAKE_IN: an input has held its level for four samples. -/
def State.wakeInput (n : Nat) (level : Bool) (s : State) : State :=
  if (s.cn 0x5838 1 0).testBit 0 ∧ (s.cn 0x5838 2 0).testBit n = true ∧ (s.cn 0x5838 3 0).testBit n = level then s.wake 1 n else s

/-- WAKE_IN. -/
def execWakeIn (dt : Nat) (n : Fin 4) (level : Bool) (s : State) : Host.Outcome State Fault Refusal :=
  .next ((s.elapse dt).wakeInput n.val level)

/-- WAKE_TIMER: the AO counter has reached its count. -/
def State.wakeTimer (s : State) : State :=
  let t := s.cn 0x5838 4 0
  if (s.cn 0x5838 1 0).testBit 3 ∧ t ≠ 0 ∧ s.power.enteredAt + t * cyclesPerSec ≤ s.now then s.wake 4 0xFF else s

/-- WAKE_TIMER. -/
def execWakeTimer (dt : Nat) (s : State) : Host.Outcome State Fault Refusal := .next (s.elapse dt).wakeTimer

/-- SERIAL_START_EDGE_WAKE: the character is lost, and the receiver hunts once the line has been at mark (R147). -/
def State.serialWake (p : Nat) (s : State) : State :=
  if (s.power.state = 2 ∨ s.power.state = 3) ∧ (s.cn 0x5838 1 0).testBit 1 = true ∧ s.wakePort p = true then
    let ports := (List.range 24).filter (fun q => s.wakePort q)
    let s := (s.wake 2 p).stat 0x4800 p 0x0C 1
    ports.foldl (fun s q => s.modSp q (fun x => { x with wakeHunt := true, markIdle := false })) s
  else s

/-- SERIAL_START_EDGE_WAKE. -/
def execSerialStartEdgeWake (dt : Nat) (port : Fin 24) (s : State) : Host.Outcome State Fault Refusal :=
  .next ((s.elapse dt).serialWake port.val)

/-- A frame at the listen port in Doze or Listen: it feeds only the wake patterns (R195, R196). -/
def State.frameWhileLow (p : Nat) (raw : List Byte) (s : State) : State :=
  if (s.power.state = 2 ∨ s.power.state = 3) ∧ s.cn 0x2230 1 0 = p then
    let hit := decide (s.patternsHit p raw ≠ [])
    let s := s.countPatterns p raw
    if hit && (s.cn 0x5838 1 0).testBit 2 then s.wake 3 (0x20 + p) else s
  else s

/-- ETH_FRAME_RECEIVED: in Run and Surge the frame enters the port; in Doze and Listen it can wake the device. -/
def execEthFrameReceived (dt : Nat) (port : Fin 2) (bytes : List Byte) (rxEr : Bool) (s : State) : Host.Outcome State Fault Refusal :=
  let s := s.elapse dt
  .next (if s.power.state < 2 then s.whenUp (domEth port.val) (State.frameIn port.val bytes rxEr) else s.frameWhileLow port.val bytes)

/-! ### Surge (R351 to R354) -/

/-- The wear ledger holds time (R356). -/
def State.ledgerHolds (s : State) : Bool := decide (s.power.left ≠ 0) || decide (s.power.burned < 2628)

/-- Surge is allowed. -/
def State.surgeAllowed (s : State) : Bool :=
  s.power.state == 0 && s.power.surge == 0 && decide (s.power.junction < 1050) && s.ledgerHolds && !s.notStarted

/-- CORE_VSEL is driven high, and the supply settles. -/
def State.raiseCore (s : State) : State :=
  { s with power.coreVsel := true, power.settleAt := some (s.now + s.cn 0x5820 6 0 * cyclesPerUs) }

/-- Surge is entered: with no time left in the current hour, the next fuse is burned first. -/
def State.beginSurge (s : State) : State :=
  if s.surgeAllowed = false ∨ s.power.settleAt.isSome = true ∨ s.power.burning = true then s
  else if s.power.left = 0 then { s with power.burning := true }
  else s.raiseCore

/-- SURGE_ENTRY: under policy 1, whenever Surge is allowed. -/
def execSurgeEntry (dt : Nat) (s : State) : Host.Outcome State Fault Refusal :=
  let s := s.elapse dt
  .next (if s.cn 0x5820 3 0 = 1 then s.beginSurge else s)

/-- LEDGER_HOUR_BURNED: the counter holds an hour, and the entry that waits proceeds. -/
def State.hourBurned (s : State) : State :=
  if s.power.burning = false then s
  else
    let s : State := { s with power.burning := false, power.burned := s.power.burned + 1, power.left := 3600 }
    if s.surgeAllowed then s.raiseCore else s

/-- LEDGER_HOUR_BURNED. -/
def execLedgerHourBurned (dt : Nat) (s : State) : Host.Outcome State Fault Refusal := .next (s.elapse dt).hourBurned

/-- A step-down for a cause (R353, R354): the Surge state waits to be re-armed, or Surge is withheld. -/
def State.stepDown (cause : Nat) (s : State) : State :=
  let s := s.leaveSurge
  let s : State := { s with
    power.surge := if cause = 3 then 3 else 2, power.rearmFrom := s.now, power.lastStep := cause
    power.stepDowns := s.power.stepDowns + 1 }
  let s := s.event 0xD001 0 cause
  if cause = 3 then s.event 0xD002 0 0 else s

/-- SURGE_SETTLE_CHECK: with VDD_CORE at 0.86 V the divider changes; below it the entry fails. -/
def State.settleCheck (mv : Nat) (s : State) : State :=
  match s.power.settleAt with
  | none => s
  | some t =>
    if s.now < t then s
    else if mv < 860 then s.stepDown 2
    else if s.surgeAllowed then
      { s with power.settleAt := none, power.state := 1, power.surge := 1, power.secondAt := s.now - s.power.surgePart, power.lowLoadSince := none }
    else { s with power.settleAt := none, power.coreVsel := false }

/-- SURGE_SETTLE_CHECK. -/
def execSurgeSettleCheck (dt : Nat) (coreMv : Nat) (s : State) : Host.Outcome State Fault Refusal :=
  .next ((s.elapse dt).settleCheck coreMv)

/-- SURGE_LOAD_EVALUATION: under policy 2, the load of the busiest carding or fulling engine over 10 ms. -/
def State.loadEvaluation (busiest : Nat) (s : State) : State :=
  let t := s.cn 0x5820 7 0
  if s.cn 0x5820 3 0 ≠ 2 then s
  else if s.power.state = 1 then
    if 2 * busiest ≤ t then
      match s.power.lowLoadSince with
      | none => { s with power.lowLoadSince := some s.now }
      | some t0 => if t0 + cyclesPerSec ≤ s.now then s.leaveSurge else s
    else { s with power.lowLoadSince := none }
  else if t < busiest then s.beginSurge
  else s

/-- SURGE_LOAD_EVALUATION. -/
def execSurgeLoadEvaluation (dt : Nat) (busiest : Nat) (s : State) : Host.Outcome State Fault Refusal :=
  .next ((s.elapse dt).whenUp domSup (State.loadEvaluation busiest))

/-- The core current as it is measured. -/
def State.readCurrent (ma : Nat) (s : State) : State :=
  { s with power.current := ma, power.highCurrent := Nat.max s.power.highCurrent ma }

/-- TEMPERATURE_SAMPLE: the highest of the four sensors; 110 °C in Surge is a step-down. -/
def State.temperature (t : Int) (ma : Nat) (s : State) : State :=
  let s : State := { (s.readCurrent ma) with
    power.junction := t, power.highest := if s.power.samples = 0 then t else max s.power.highest t
    power.above := if 1050 < t then s.power.above + 1 else s.power.above
    power.sum := s.power.sum + t, power.samples := s.power.samples + 1 }
  if 1100 ≤ t ∧ s.power.state = 1 then s.stepDown 1 else s

/-- The greatest of four temperatures. -/
def hottest (a b c d : Int) : Int := max (max a b) (max c d)

/-- TEMPERATURE_SAMPLE. -/
def execTemperatureSample (dt : Nat) (s0 s1 s2 s3 : Int) (coreMa : Nat) (s : State) : Host.Outcome State Fault Refusal :=
  .next ((s.elapse dt).temperature (hottest s0 s1 s2 s3) coreMa)

/-- CORE_OVERCURRENT: above 14 A for 50 µs. -/
def State.overcurrent (ma : Nat) (s : State) : State :=
  let s := s.readCurrent ma
  if 14000 < ma ∧ s.power.state = 1 then s.stepDown 2 else s

/-- CORE_OVERCURRENT. -/
def execCoreOvercurrent (dt : Nat) (coreMa : Nat) (s : State) : Host.Outcome State Fault Refusal :=
  .next ((s.elapse dt).overcurrent coreMa)

/-- SURGE_SECOND: a second in Surge is charged; the next hour is burned when one is spent, and with every fuse burned
Surge ends. -/
def State.surgeSecond (s : State) : State :=
  if s.power.state ≠ 1 ∨ s.now < s.power.secondAt + cyclesPerSec then s
  else
    let left := s.power.left - 1
    let s : State := { s with
      power.secondAt := s.power.secondAt + cyclesPerSec, power.surgeTime := s.power.surgeTime + 1, power.left := left }
    if left ≠ 0 then s
    else if s.power.burned < 2628 then { s with power.burning := true }
    else s.stepDown 3

/-- SURGE_SECOND. -/
def execSurgeSecond (dt : Nat) (s : State) : Host.Outcome State Fault Refusal := .next (s.elapse dt).surgeSecond

/-- REARM_WAIT_EXPIRY: 480 s without Surge. -/
def State.rearm (s : State) : State :=
  if s.power.surge = 2 ∧ s.power.rearmFrom + 480 * cyclesPerSec ≤ s.now then { s with power.surge := 0 } else s

/-- REARM_WAIT_EXPIRY. -/
def execRearmWaitExpiry (dt : Nat) (s : State) : Host.Outcome State Fault Refusal := .next (s.elapse dt).rearm

/-! ### Thermal shutdown (R355) -/

/-- THERMAL_SHUTDOWN: recorded in AO, which holds every other domain in reset. -/
def State.thermalShutdown (t : Int) (s : State) : State :=
  if t < 1250 ∨ s.dom domAo ≠ 3 ∨ s.power.shutdownAt.isSome = true then s
  else
    let s := (s.recordAo 0xD003 0 (satU32 (t / 10))).blank true
    { s with boot.cause := 5, power.shutdownAt := some s.now }

/-- THERMAL_SHUTDOWN. -/
def execThermalShutdown (dt : Nat) (tenths : Int) (s : State) : Host.Outcome State Fault Refusal :=
  .next ((s.elapse dt).thermalShutdown tenths)

/-- SHUTDOWN_RELEASE: after 1 s, with AO's own sensor below 105 °C, the device starts with cause 5. -/
def State.shutdownRelease (t : Int) (s : State) : State :=
  match s.power.shutdownAt with
  | some t0 =>
    if s.now < t0 + cyclesPerSec ∨ 1050 ≤ t then s else ({ s with power.shutdownAt := none }).startWith 5
  | none => s

/-- SHUTDOWN_RELEASE. -/
def execShutdownRelease (dt : Nat) (aoTenths : Int) (s : State) : Host.Outcome State Fault Refusal :=
  .next ((s.elapse dt).shutdownRelease aoTenths)

/-! ### What it reports (Table 16.9) -/

/-- Seconds until the Surge state is ARMED again (0x5820:05), rounded up. -/
def State.rearmLeft (s : State) : Nat :=
  if s.power.surge = 2 then (s.power.rearmFrom + 480 * cyclesPerSec - s.now + cyclesPerSec - 1) / cyclesPerSec else 0

/-- The Surge allowance that remains, in seconds (0x5830:05). -/
def State.allowanceLeft (s : State) : Nat := (2628 - s.power.burned) * 3600 + s.power.left

/-- The mean junction temperature since the last start (0x5828:06). -/
def State.meanJunction (s : State) : Int :=
  if s.power.samples = 0 then s.power.junction else roundReport ((s.power.sum : Rat) / (s.power.samples : Rat))

/-- CAN2_STBY is driven high: C2 disabled, its domain in reset, and in Listen and Deep Standby (R201). -/
def State.can2Stby (s : State) : Bool :=
  s.cn 0x2242 1 0 == 0 || s.dom domCan == 2 || s.dom domCan == 0 || decide (3 ≤ s.power.state)

/-! ### Output balls (R330, R348, Table 15.3) -/

/-- The outputs of Table 15.3. -/
inductive OutBall where
  | serTxd (p : Fin 24) | serAux (p : Fin 24) | canTxd (p : Fin 3) | can2Stby | ethTx (p : Fin 2) | mdc | mdio | ppsOut
  | whlEvt (n : Fin 8) | arbN | beatOut | joileTx (lane : Fin 2) | alarmN | spiMiso | qspiCs
  deriving DecidableEq, Repr

/-- The columns of Table 15.3. -/
inductive StartStage where
  | reset | boot | running
  deriving DecidableEq, Repr

/-- The stage of the start that the device stands in: held in reset, before step 8, or running. -/
def State.startStage (s : State) : StartStage :=
  if s.held || s.power.shutdownAt.isSome || s.dom domAo != 3 then .reset
  else if s.boot.bootRom || !s.boot.trained then .boot
  else .running

/-- Whether a ball is one that a low power state leaves at its level of "Reset" (R348). -/
def OutBall.rests : OutBall → Bool
  | .alarmN => false
  | .can2Stby => false
  | .beatOut => false
  | _ => true

/-- The transmit lines of an Ethernet port that does not run: RGMII TX_CTL low, SGMII electrical idle. -/
def State.ethIdle (s : State) (p : Nat) : Drive := if s.cn (0x2200 + p) 1 0 = 2 then .idle else .low

/-- The column "Reset" of Table 15.3; a pull resistor stands where a ball is at high impedance. -/
def State.resetDrive (s : State) : OutBall → Drive
  | .serTxd _ => .highZ
  | .serAux _ => .highZ
  | .canTxd _ => .highZ
  | .can2Stby => .highZ
  | .ethTx p => s.ethIdle p.val
  | .mdc => .highZ
  | .mdio => .highZ
  | .ppsOut => .low
  | .whlEvt _ => .low
  | .arbN => .highZ
  | .beatOut => .highZ
  | .joileTx _ => .idle
  | .alarmN => .low
  | .spiMiso => .highZ
  | .qspiCs => .high

/-- What differs from "Reset" in the column "Boot": the boot ROM serves C2, and SPI_T_MISO carries 0xFF in a transaction. -/
def State.bootDrive (s : State) : OutBall → Drive
  | .canTxd p => if s.boot.bootRom && p.val == 2 && s.up domCan then .data else .high
  | .can2Stby => if s.can2Stby then .high else .low
  | .mdc => .low
  | .beatOut => .low
  | b => s.resetDrive b

/-- What the device drives on an output ball; SPI_T_MISO and the chip select of the NAND are those between transactions. -/
def State.drives (s : State) (b : OutBall) : Drive :=
  match s.startStage with
  | .reset => s.resetDrive b
  | .boot => s.bootDrive b
  | .running =>
    if 2 ≤ s.power.state ∧ b.rests = true then s.resetDrive b
    else match b with
      | .serTxd p => s.serTxd p.val
      | .serAux p => s.serAux p.val
      | .canTxd p => if s.canOn p.val && s.up domCan then .data else .high
      | .can2Stby => if s.can2Stby then .high else .low
      | .ethTx p => if s.up (domEth p.val) && (s.cn (0x2200 + p.val) 1 0 == 2 || (s.ep p.val).inFlight.isSome) then .data else s.ethIdle p.val
      | .mdc => .clock
      | .mdio => .data
      | .ppsOut => if s.appts.ppsOut then .high else .low
      | .whlEvt n => if (Tbl.get ({} : Evt) n.val s.appts.evt).level then .high else .low
      | .arbN => if s.twin.arbOwn then .low else .highZ
      | .beatOut => if s.twin.beatOut then .high else .low
      | .joileTx l => if s.up domJoile && s.lanesUsed.contains l.val then .data else .idle
      | .alarmN => if s.alarmLow then .low else .highZ
      | .spiMiso => .highZ
      | .qspiCs => .high

end Sys2Proof.Machine
end

