-- ==== Sys2Proof/Machine/DictRead.lean ====
section
/-! DEFINITION. What the read-only objects of the dictionary read (every object table): one function per chapter, over
the state that the chapter's blocks keep. -/

namespace Sys2Proof.Machine

open Sys2Proof

/-- A truth value as 0 or 1. -/
def flag (b : Bool) : Int := if b then 1 else 0

/-- A value rounded to a whole number and held within INTEGER32. -/
def report32 (x : Rat) : Int := clampInt (-2 ^ 31) (2 ^ 31 - 1) (roundReport x)

/-- A REAL32 value. -/
def reportReal (x : Rat) : Int := (toBits32 x : Nat)

/-- The judged form of the configuration in force. -/
def State.inForce (s : State) : Check := { u := s.uid, c := s.cfg, point := s.time }

/-! ### Wheels and appointments (Tables 2.8, 2.10) -/

/-- 0x2000 to 0x2003. -/
def State.readWheel (s : State) (w sub : Nat) : Int :=
  let x := s.wheels.get w
  match sub with
  | 1 => (x.visible.toNat : Int)
  | 2 => (x.state.code : Int)
  | 3 => (x.source : Int)
  | 4 => (s.errorBound w : Int)
  | 5 =>
    let nom := s.fixedInc w
    if nom = 0 then 0 else report32 (((x.inc : Rat) / (nom : Rat) - 1) * 100000000000)
  | 6 => (x.steps : Int)
  | _ => report32 ((x.inc : Rat) * 400000000 / (2 ^ 48 : Nat))

/-- 0x2010:09 and :0A. -/
def State.readAppt (s : State) (sub row : Nat) : Int :=
  if sub = 9 then ((s.apptRun row).dispatches.toNat : Int) else ((s.apptRun row).late.toNat : Int)

/-! ### Carding and Bramble (Tables 3.14, 4.11) -/

/-- 0x2310. -/
def State.readSource (s : State) (sub row : Nat) : Int :=
  let x := s.src row
  match sub with
  | 0x0E => (x.score : Int)
  | 0x0F => (s.srcHealth row : Int)
  | 0x10 => (x.accepted.toNat : Int)
  | 0x11 => (x.rejected.toNat : Int)
  | 0x12 => (x.lastReject : Int)
  | 0x13 => (x.seq.toNat : Int)
  | 0x14 => (x.lastAccepted.toNat : Int)
  | _ => (x.gaps.toNat : Int)

/-- 0x2320. -/
def State.readGroup (s : State) (sub row : Nat) : Int :=
  let x := s.grp row
  match sub with
  | 0x0D => (x.chosen : Int)
  | 0x0E => (x.switches.toNat : Int)
  | 0x0F => (x.disagrees.toNat : Int)
  | _ => (x.drops.toNat : Int)

/-- 0x2330. -/
def State.readDiscovery (s : State) (sub row : Nat) : Val :=
  match s.carding.discovery[row]? with
  | none => if sub = 2 then .num 0xFF else if sub = 4 then .bytes [] else .num 0
  | some d =>
    match sub with
    | 2 => .num d.port
    | 3 => .num d.kind
    | 4 => .bytes d.text
    | 5 => .num d.number
    | 6 => .num d.sightings
    | _ => .num (d.seen.toNat : Int)

/-- 0x2500 to 0x2530. -/
def State.readBramble (s : State) (index sub row : Nat) : Int :=
  if index = 0x2500 then (s.storeFree : Int)
  else if index = 0x2510 then ((Tbl.get (0 : BitVec 32) row s.bramble.matchCounts).toNat : Int)
  else if index = 0x2520 then
    if sub = 0x0B then ((s.lst row).seq.toNat : Int) else ((s.lst row).queue.length : Int)
  else ((Tbl.get (0 : BitVec 32) (4 * row + (sub - 5)) s.bramble.shaperCounts).toNat : Int)

/-! ### Tank model and control (Tables 5.7 to 5.9) -/

/-- The cascade with the greatest budget ratio, and its ratio in 0.1 % (R122). -/
def State.worstCascade (s : State) : Option (Nat × Rat) :=
  s.inForce.cascades.foldl (fun (b : Option (Nat × Rat)) c =>
    match s.inForce.ratio c, b with
    | some r, some (_, q) => if q < r then some (c, r) else b
    | some r, none => some (c, r)
    | none, _ => b) none

/-- 0x3000. -/
def State.readBudget (s : State) (sub : Nat) : Int :=
  match s.worstCascade with
  | none => if sub = 1 then 0 else 0xFF
  | some (c, r) => if sub = 1 then clampInt 0 0xFFFF (roundReport (r * 1000)) else (c : Int)

/-- 0x3010 and 0x3011. -/
def State.readCascade (s : State) (index sub row : Nat) : Int :=
  if index = 0x3010 then
    let x := s.casc row
    match sub with
    | 3 => (x.state : Int)
    | 4 => (x.reason : Int)
    | 0x0F => reportReal x.issued
    | 0x10 => s.issuedRaw row
    | 0x11 => (x.overruns.toNat : Int)
    | 0x12 => (x.consecutive : Int)
    | _ => (x.steps.toNat : Int)
  else
    let x := s.stg row
    match sub with
    | 0x0E => reportReal x.y
    | 0x0F => reportReal x.i
    | _ => reportReal x.v

/-- 0x3100. -/
def State.readShip (s : State) (sub : Nat) : Int :=
  let x := s.control
  match sub with
  | 0x0C => report32 x.heel
  | 0x0D => report32 x.predicted
  | 0x0E => report32 x.residual
  | 0x0F => report32 x.trim
  | 0x10 => reportReal x.mass
  | 0x11 => reportReal x.trans
  | 0x12 => reportReal x.long
  | _ => reportReal x.vert

/-- 0x3110. -/
def State.readTank (s : State) (sub row : Nat) : Int :=
  let x := s.tank row
  match sub with
  | 0x11 => (128 * (if x.outOfTable then 1 else 0) + 64 * (if x.clamped then 1 else 0) + 32 * (if x.assumed then 1 else 0) + s.tankCode row : Nat)
  | 0x12 => (x.weight : Int)
  | 0x13 => report32 (x.reading.getD 0)
  | 0x14 => report32 x.corrected
  | 0x15 => (satU32 (roundReport x.volume) : Int)
  | 0x16 => reportReal x.mass
  | 0x17 => reportReal x.rate
  | 0x18 => report32 x.contribution
  | _ => (x.basis : Int)

/-! ### Serial ports and analogue inputs (Tables 6.10, 7.6) -/

/-- The flags of 0x2100:21, with the divider that waits. -/
def State.serialFlags (s : State) (p : Nat) : BitVec 16 :=
  setBit (s.sp p).flags 5 ((s.sp p).pendTx.isSome || (s.sp p).pendRx.isSome)

/-- 0x2100 to 0x2117. -/
def State.readSerial (s : State) (p sub : Nat) : Int :=
  let x := s.sp p
  match sub with
  | 0x20 => (s.lineState p : Int)
  | 0x21 => ((s.serialFlags p).toNat : Int)
  | 0x22 => (x.txDiv : Int)
  | 0x23 => (x.rxDiv : Int)
  | 0x24 => flag x.inverted
  | 0x25 => (x.stuckClass : Int)
  | 0x26 => (x.autoRate : Int)
  | 0x27 => (x.rx.length : Int)
  | _ => (x.tx.length : Int)

/-- A run of serial clock cycles in µs. -/
def runUs (n : Nat) : Int := (satU32 (roundReport ((n : Rat) * 1000000 / 73728000)) : Nat)

/-- 0x2181. -/
def State.readPair (s : State) (sub row : Nat) : Int :=
  let x := s.pair row
  match sub with
  | 3 => (x.cls : Int)
  | 4 => report32 x.a
  | 5 => report32 x.b
  | 6 => report32 x.least
  | 7 => report32 x.greatest
  | 8 => runUs x.longHigh
  | 9 => runUs x.longLow
  | _ => (x.changes.toNat : Int)

/-- The state of the loop converters (0x2190:01): reset, settling, running, reference fault. -/
def State.converterState (s : State) : Nat :=
  if s.up domAfe = false then 0
  else if s.refFault then 3
  else if (List.range 16).any (fun c => s.cn 0x2191 2 c == 1 && decide ((s.chan c).convs < 3)) then 1
  else 2

/-- 0x2191. -/
def State.readLoop (s : State) (sub row : Nat) : Int :=
  let x := s.chan row
  match sub with
  | 0x0B => if x.convs < 3 then 0 else report32 x.f
  | 0x0C => (s.loopCode row : Int)
  | 0x0D => (x.changes.toNat : Int)
  | _ => (x.missed.toNat : Int)

/-! ### Ethernet (Table 8.5) -/

/-- 0x2200 and 0x2201. -/
def State.readEth (s : State) (p sub : Nat) : Int :=
  let x := s.ep p
  match sub with
  | 0x20 => (x.link : Int)
  | 0x21 => (x.flags.toNat : Int)
  | 0x22 => (x.step : Int)
  | 0x23 => (x.clean : Int)
  | 0x24 => (x.lostSeq : Int)
  | 0x25 => (x.pauseState : Int)
  | 0x26 => ((x.ptp.selected.map (fun m => m.1)).getD 0 : Nat)
  | 0x27 => report32 x.ptp.lastNs
  | 0x28 => (satU32 (roundReport x.ptp.delayNs) : Int)
  | 0x29 => (x.ptp.exchanges.toNat : Int)
  | _ => (x.rxA.length + x.rxB.length : Nat)

/-- 0x2220 and 0x2221. -/
def State.readStamp (s : State) (p sub : Nat) : Int :=
  let l := (s.ep p).stamps
  match sub, l with
  | 5, _ => (l.length : Int)
  | 1, _ :: _ => 2
  | 2, x :: _ => (x.2.1 : Int)
  | 3, x :: _ => (x.1 : Int)
  | 4, x :: _ => (x.2.2.toNat : Int)
  | 3, [] => 0xFF
  | _, _ => 0

/-- 0x2228 and 0x2229. -/
def State.readCapture (s : State) (p sub row : Nat) : Val :=
  match (s.ep p).ring[row]? with
  | none => if sub = 5 then .bytes [] else .num 0
  | some f =>
    match sub with
    | 2 => .num (f.status.toNat : Int)
    | 3 => .num f.length
    | 4 => .num (f.pip.time.toNat : Int)
    | _ => .bytes f.bytes

/-! ### CAN (Tables 9.5, 9.8) -/

/-- The SYNC row of the appointment table. -/
def State.syncRow (s : State) : Option Nat := s.inForce.rowFor 0x0300

/-- The period of the SYNC row in µs (0x1006). -/
def State.syncUs (s : State) : Nat :=
  match s.syncRow with
  | none => 0
  | some r =>
    match s.inForce.nominal (s.cn 0x2010 2 r) with
    | some n => if n = 0 then 0 else satU32 (roundReport (s.inForce.period r / n * 1000000))
    | none => 0

/-- 0x2240 to 0x2245, and 0x2260. -/
def State.readCan (s : State) (index sub : Nat) : Int :=
  if index ≤ 0x2242 then
    let x := s.cp (index - 0x2240)
    match sub with
    | 0x20 => if s.canOn (index - 0x2240) then (x.state : Int) else 0
    | 0x21 => (Nat.min 255 x.txErr : Nat)
    | 0x22 => (Nat.min 255 x.rxErr : Nat)
    | _ => (x.flags.toNat : Int)
  else if index ≤ 0x2245 then
    let x := s.cp (index - 0x2244)
    match sub with
    | 3 => if x.addrState = 2 then (x.addr : Int) else 254
    | 4 => (x.addrState : Int)
    | _ => (x.addrLost.toNat : Int)
  else match sub with
    | 3 => (s.canOpen.nmt : Int)
    | 4 => (s.canOpen.missed.toNat : Int)
    | 5 => (s.canOpen.discarded.toNat : Int)
    | _ => (s.canOpen.emcyDropped.toNat : Int)

/-- 0x1000 to 0x180B. -/
def State.readCia (s : State) (index sub : Nat) : Int :=
  if index = 0x1001 then (s.errorRegister : Int)
  else if index = 0x1006 then (s.syncUs : Int)
  else if index = 0x1018 then
    match sub with
    | 1 => 0x4A4F494C
    | 2 => 0x2430
    | 3 => 0x20001
    | _ => (s.boot.serial : Int)
  else if index = 0x1200 then (if sub = 1 then 0x600 else 0x580) + (s.nodeId : Int)
  else if 0x1800 ≤ index then 1
  else 0

/-! ### Queue fabric and journal (Tables 10.6, 11.7) -/

/-- The flags of 0x5818:07. -/
def State.queueFlags (s : State) (q : Nat) : Nat :=
  let x := s.que q
  let down (side : Side) : Bool := match queueEnds q with
    | some (p, c) => !s.up (match side with
      | .producer => p
      | .consumer => c)
    | none => false
  (if x.underrun then 1 else 0) + (if down .producer then 2 else 0) + (if down .consumer then 4 else 0) +
    (if 1 ≤ x.phase then 8 else 0) + (if x.tripped then 16 else 0)

/-- 0x5818. -/
def State.readQueue (s : State) (sub q : Nat) : Int :=
  match sub with
  | 2 => ((queueEnds q).map (fun e => e.1)).getD 0xFF
  | 3 => ((queueEnds q).map (fun e => e.2)).getD 0xFF
  | 4 => (queueBits q : Nat)
  | 5 => (s.wordsIn q : Nat)
  | 6 => if s.yields q then (s.visible q : Int) else 0
  | 7 => (s.queueFlags q : Int)
  | _ => (longestPacket q : Nat)

/-- 0x5810 to 0x5812. -/
def State.readFabric (s : State) (index sub row : Nat) : Int :=
  let x := s.fabric
  if index = 0x5810 then
    match sub with
    | 1 => (x.corrected.toNat : Int)
    | 2 => (x.uncorrectable.toNat : Int)
    | 3 => (x.scrubPasses.toNat : Int)
    | 4 => (x.lastAddr : Int)
    | _ => (x.lastKind : Int)
  else if index = 0x5811 then
    if sub = 2 then ((Tbl.get (0 : BitVec 32) row x.bankCorr).toNat : Int)
    else ((Tbl.get (0 : BitVec 32) row x.bankUnc).toNat : Int)
  else match sub with
    | 1 => (x.unsettled.toNat : Int)
    | 2 => flag x.countOvf
    | 3 => (x.ovfCrossing : Int)
    | _ => (x.lastUnsettled : Int)

/-- 0x3801. -/
def State.readJournal (s : State) (sub : Nat) : Int :=
  let x := s.journal
  let ends := (s.retrievable.head?.map (fun r => r.taken), s.retrievable.getLast?.map (fun r => r.taken))
  match sub with
  | 1 => (x.state : Int)
  | 2 => (x.capacity : Int)
  | 3 => (x.pageSize : Int)
  | 4 => (x.blocks - x.bad.length : Nat)
  | 5 => (x.retired : Int)
  | 6 => (x.nextSeq : Int)
  | 7 => (s.oldestSeq : Int)
  | 8 => ((ends.1.map (fun p => p.toNat)).getD 0 : Nat)
  | 9 => (s.unflushed : Int)
  | 0x0A => (x.passes.toNat : Int)
  | 0x0B => (Nat.min 0xFFFF s.wearUse : Nat)
  | 0x0C => (s.allowance : Int)
  | _ => match ends with
    | (some a, some b) => (satU32 (roundReport ((posDiff b a : Rat) / (2 ^ 32 : Nat))) : Int)
    | _ => 0

/-! ### Dictionary and blocking cycle (Table 12.13) -/

/-- 0x5000 and 0x5001. -/
def State.readCycle (s : State) (index sub row : Nat) : Int :=
  let x := s.cycle
  if index = 0x5000 then
    match sub with
    | 2 => (x.state : Int)
    | 3 => (x.owner.getD 0xFF : Nat)
    | 6 => (Nat.min 0xFFFF x.failCount : Nat)
    | 7 => (x.staged : Int)
    | 8 => (x.result : Int)
    | 9 => (x.generation : Int)
    | 0x0A => (x.lastSet.toNat : Int)
    | 0x0B => (x.copyWritten : Int)
    | _ => ((x.pending.map (fun p => p.toNat)).getD 0 : Nat)
  else match x.failures[row]? with
    | none => if sub = 4 then 0xFFFF else 0
    | some e => match sub with
      | 2 => (e.index : Int)
      | 3 => (e.sub : Int)
      | 4 => (e.row : Int)
      | _ => (e.reason : Int)

/-- 0x5041: the client in a slot. -/
def State.readClient (s : State) (sub row : Nat) : Int :=
  match s.clientAt row with
  | none => if sub = 2 ∨ sub = 3 then 0xFF else 0
  | some c =>
    match sub, c.id with
    | 2, i => (pathOf i : Int)
    | 3, .lap k _ _ => (k.val : Int)
    | 3, _ => 0xFF
    | 4, .lap _ ip _ => (ip.toNat : Int)
    | 5, .lap _ _ p => (p.toNat : Int)
    | 6, _ => ((s.now - c.last) / cyclesPerMs : Nat)
    | _, _ => 0

/-! ### Health (Table 13.8) -/

/-- 0x5800 to 0x5802. -/
def State.readHealth (s : State) (index sub row : Nat) : Int :=
  let x := s.health
  if index = 0x5800 then
    match sub with
    | 1 => (x.alerts.length : Int)
    | 2 => ((x.alerts.filter (fun a => a.2.state == 1 || a.2.state == 3)).length : Int)
    | _ => flag s.alarmLow
  else if index = 0x5801 then
    match x.alerts.find? (fun a => a.1 == row) with
    | none => 0
    | some (_, a) => match sub with
      | 2 => (a.code : Int)
      | 3 => (a.instance_ : Int)
      | 4 => (a.state : Int)
      | 5 => (evPriority a.code : Int)
      | 6 => (a.revision : Int)
      | 8 => (a.raised.toNat : Int)
      | 9 => (a.a : Int)
      | _ => (a.b : Int)
  else match sub with
    | 5 => (x.nextSeq.toNat : Int)
    | 6 => (((x.log.head?.map (fun r => r.seq)).getD x.nextSeq).toNat : Int)
    | _ => (x.suppressed.toNat : Int)

/-! ### Twin operation (Table 14.6) -/

/-- 0x4001. -/
def State.readTwin (s : State) (sub : Nat) : Int :=
  let x := s.twin
  match sub with
  | 1 => (x.role : Int)
  | 2 => (s.identity : Int)
  | 3 => (s.linkCode : Int)
  | 4 => (x.peerRole : Int)
  | 5 => flag x.beatIn
  | 6 => flag s.arbHigh
  | 7 => roundReport (-s.twinOffset)
  | 8 => (satU32 (roundReport (meanRat x.delays * 1000000000 / (2 ^ 32 : Nat))) : Int)
  | 9 => if x.role ≠ 2 then 0 else match x.mirrorAt with
    | some t => (Nat.min (2 ^ 32 - 1) ((s.now - t) / cyclesPerUs) : Nat)
    | none => 0
  | 0x0A => (x.beatGen : Int)
  | 0x0B => (x.takeover : Int)
  | _ => ((x.handover.map (fun p => p.toNat)).getD 0 : Nat)

/-- 0x4002. -/
def State.readPeer (s : State) (sub : Nat) : Int :=
  let x := s.twin
  match sub with
  | 1 => (x.peerTime.toNat : Int)
  | 2 => (x.peerStates : Int)
  | 3 => (x.peerBound : Int)
  | 4 => if x.peerMode = 0xFF then 0xFF else ((modeLetter x.peerMode).head?.map (fun b => (b.toNat : Int))).getD 0xFF
  | 5 => (x.peerAlerts : Int)
  | 6 => ((x.peer.map (fun h => h.serial)).getD 0 : Nat)
  | _ => ((x.peer.map (fun h => h.firmware)).getD 0 : Nat)

/-! ### Start-up, images and copies (Table 15.9, Table 13.2) -/

/-- 0x5F00. -/
def State.readRevision (s : State) (sub : Nat) : Int :=
  match sub with
  | 1 => (16 + Config.stepping % 240 : Nat)
  | 2 => if s.boot.running = 2 then (0x02010000 + Config.romVersion % 0x10000 : Nat) else ((s.slot15 s.boot.running).version : Int)
  | _ => 0x0201

/-- 0x5F01. -/
def State.readStart (s : State) (sub : Nat) : Int :=
  match sub with
  | 1 => (s.boot.mode : Int)
  | 4 => (s.boot.cause : Int)
  | 5 => (s.boot.reason : Int)
  | 6 => (s.boot.startTime : Int)
  | _ => (4 * (if s.twin.testEn then 1 else 0) + s.identity : Nat)

/-- The signers of an image: none, the vendor, the vendor and the customer. -/
def signers (f : ImageFacts) : Nat :=
  if f.vendorSigOk = false then 0 else if f.customerKeyHash.isSome && f.customerSigOk then 2 else 1

/-- 0x5F10. -/
def State.readSlot (s : State) (sub row : Nat) : Int :=
  let x := s.slot15 row
  match sub with
  | 2 => (x.state : Int)
  | 3 => (x.version : Int)
  | 4 => ((x.facts.map (fun f => f.security)).getD 0 : Nat)
  | 5 => ((x.facts.map signers).getD 0 : Nat)
  | 6 => ((x.facts.map (fun f => f.length)).getD 0 : Nat)
  | 7 => (x.failures : Int)
  | 8 => flag (s.boot.running == row)
  | _ => flag (s.boot.bootSlot == row)

/-- 0x5F20. -/
def State.readCopy (s : State) (sub row : Nat) : Int :=
  let x := s.copy row
  match sub with
  | 2 =>
    if x.sealed = false then 0
    else if s.boot.copyInForce = some row then 2
    else if s.conflict && s.topCopies.contains row then 3
    else 1
  | 3 => if x.sealed then (x.generation : Int) else 0
  | 4 => ((contentBytes x.content).length : Int)
  | 5 => if x.sealed then (sealOf x.generation x.setPoint x.content : Int) else 0
  | _ => (x.setPoint.toNat : Int)

/-! ### Power (Table 16.10) -/

/-- 0x5820 to 0x5838. -/
def State.readPower (s : State) (index sub row : Nat) : Int :=
  let x := s.power
  if index = 0x5820 then
    match sub with
    | 1 => (x.state : Int)
    | 4 => (x.surge : Int)
    | 5 => (s.rearmLeft : Int)
    | _ => (x.lastStep : Int)
  else if index = 0x5821 then
    if sub = 2 then (s.dom row : Int) else ((Tbl.get ({} : Dom) row x.doms).resets.toNat : Int)
  else if index = 0x5828 then
    match sub with
    | 1 => x.junction
    | 2 => x.highest
    | 3 => (x.current : Int)
    | 4 => (x.highCurrent : Int)
    | 5 => (x.above / 1000 : Nat)
    | 6 => s.meanJunction
    | _ => (x.stepDowns.toNat : Int)
  else if index = 0x5830 then
    match sub with
    | 1 => 9460800
    | 2 => (x.burned : Int)
    | 3 => (x.left : Int)
    | 4 => (x.surgeTime : Int)
    | _ => (s.allowanceLeft : Int)
  else match sub with
    | 5 => (x.wakeSource : Int)
    | 6 => (x.wakeDetail : Int)
    | _ => (x.wakes.toNat : Int)

/-! ### Every read-only object -/

/-- The value of a read-only object (or of flags that a write clears), as a client in slot `n` reads it with a row
selected. -/
def State.status (s : State) (n index sub row : Nat) : Val :=
  if index < 0x2000 then .num (s.readCia index sub)
  else if index ≤ 0x2003 then .num (s.readWheel (index - 0x2000) sub)
  else if index = 0x2010 then .num (s.readAppt sub row)
  else if index ≤ 0x2117 then .num (s.readSerial (index - 0x2100) sub)
  else if index = 0x2181 then .num (s.readPair sub row)
  else if index = 0x2190 then .num s.converterState
  else if index = 0x2191 then .num (s.readLoop sub row)
  else if index ≤ 0x2201 then .num (s.readEth (index - 0x2200) sub)
  else if index ≤ 0x2209 then .num ((Tbl.get (0 : BitVec 32) sub (s.ep (index - 0x2208)).mac).toNat : Int)
  else if index ≤ 0x2211 then .num ((Tbl.get (0 : BitVec 32) row (s.ep (index - 0x2210)).groups).toNat : Int)
  else if index ≤ 0x2219 then .num ((Tbl.get (0 : BitVec 32) row (s.ep (index - 0x2218)).matches_).toNat : Int)
  else if index ≤ 0x2221 then .num (s.readStamp (index - 0x2220) sub)
  else if index ≤ 0x2229 then s.readCapture (index - 0x2228) sub row
  else if index ≤ 0x2260 then .num (s.readCan index sub)
  else if index = 0x2310 then .num (s.readSource sub row)
  else if index = 0x2320 then .num (s.readGroup sub row)
  else if index = 0x2330 then s.readDiscovery sub row
  else if index ≤ 0x2530 then .num (s.readBramble index sub row)
  else if index = 0x3000 then .num (s.readBudget sub)
  else if index ≤ 0x3011 then .num (s.readCascade index sub row)
  else if index = 0x3100 then .num (s.readShip sub)
  else if index = 0x3110 then .num (s.readTank sub row)
  else if index = 0x3801 then .num (s.readJournal sub)
  else if index = 0x3810 then .num (((s.clientAt n).bind (fun c => c.journal)).getD 0 : Nat)
  else if index = 0x4001 then .num (s.readTwin sub)
  else if index = 0x4002 then .num (s.readPeer sub)
  else if index ≤ 0x5001 then .num (s.readCycle index sub row)
  else if index = 0x5040 then .num (if sub = 2 then (s.dict.startCount : Int) else (n : Int))
  else if index = 0x5041 then .num (s.readClient sub row)
  else if index = 0x5042 then .num ((Tbl.get ({} : LapSlot) row s.dict.laps).counter : Int)
  else if index ≤ 0x5803 then .num (s.readHealth index sub row)
  else if index ≤ 0x5812 then .num (s.readFabric index sub row)
  else if index = 0x5818 then .num (s.readQueue sub row)
  else if index ≤ 0x5838 then .num (s.readPower index sub row)
  else if index = 0x5F00 then if sub = 4 then .bytes (ascii "LN2430") else .num (s.readRevision sub)
  else if index = 0x5F01 then .num (s.readStart sub)
  else if index = 0x5F10 then .num (s.readSlot sub row)
  else if index = 0x5F11 then .num (if sub = 4 then (s.boot.status : Int) else (s.boot.target : Int))
  else if index = 0x5F20 then .num (s.readCopy sub row)
  else
    match sub with
    | 1 => .bytes (beBytes 32 s.boot.vendorHash)
    | 2 => .bytes (beBytes 32 s.boot.customerHash)
    | _ => .num s.boot.floor

end Sys2Proof.Machine
end

