-- ==== Sys2Proof/Machine/DictWrite.lean ====
section
/-! DEFINITION. Reads and writes of objects by index and subindex (R264 to R268, R287, R291, R300): what every access path
does with one access, and the commands that are writes or reads of single objects. -/

namespace Sys2Proof.Machine

open Sys2Proof

/-! ### Selections of a client (R268) -/

/-- An index is a window, or a statistic with a select: its subindex 01 selects. -/
def Group.selects (g : Group) : Bool :=
  g.rows.isSome || (decide (0x4800 ≤ g.first ∧ g.last ≤ 0x48FF) && g.objs.any (fun o => o.first == 1 && o.acc == .rw))

/-- A subindex is held per client: selects, the retrieval cursor's fields (R260), and 0x5802:01 and :02 (R300). -/
def perClient (g : Group) (sub : Nat) : Bool :=
  (g.selects && sub == 1) || (g.first == 0x3810 && [1, 2, 3, 5].contains sub) || (g.first == 0x5802 && [1, 2].contains sub)

/-- A value that the client in a slot holds. -/
def State.heldBy (s : State) (n index sub : Nat) : Nat :=
  Cfg.nat s.uid (((s.clientAt n).map (fun c => c.sel)).getD []) index sub 0

/-- The client in a slot holds another value. -/
def State.holdFor (n index sub : Nat) (v : Val) (s : State) : State :=
  s.modClient n (fun c => { c with sel := Cfg.set s.uid ⟨index, sub, 0⟩ v c.sel })

/-- The row an access reaches: the client's select, or 0 where there is none. -/
def State.rowOf (s : State) (n : Nat) (g : Group) (index : Nat) : Nat := if g.selects then s.heldBy n index 1 else 0

/-- A row whose fields the LN2430 keeps: a write of them is one of a read-only object (Tables 2.8, 4.10, R266). -/
def lockedRow (index sub row : Nat) : Bool :=
  (index == 0x2010 && decide (2 ≤ sub) && decide (1016 ≤ row)) || (index == 0x2520 && sub == 3 && decide (62 ≤ row ∧ row ≤ 63))

/-- COMMISSIONING, RECOVERY or TEST. -/
def State.serviceMode (s : State) : Bool := s.boot.mode == 0 || s.boot.mode == 2 || s.boot.mode == 4

/-! ### Cursors (R260, R300) -/

/-- A journal seek of a client. -/
def State.journalSeek (n : Nat) (s : State) : State :=
  let at_ := s.seekCursor (s.heldBy n 0x3810 1) (s.heldBy n 0x3810 2) (BitVec.ofNat 64 (s.heldBy n 0x3810 3))
  s.modClient n (fun c => { c with journal := some at_ })

/-- The oldest record of the log, or the next to be written where it is empty. -/
def State.oldestLog (s : State) : BitVec 32 := (s.health.log.head?.map (fun r => r.seq)).getD s.health.nextSeq

/-- Where a seek of the log places the cursor: the newest record, a sequence held within the log, or the oldest. -/
def State.logPlace (s : State) (mode : Nat) (seq : BitVec 32) : BitVec 32 :=
  match mode with
  | 0 => s.health.nextSeq - 1
  | 1 =>
    if s.health.log.any (fun r => r.seq == seq) then seq
    else if (seq - s.health.nextSeq).toNat < 2 ^ 31 then s.health.nextSeq
    else s.oldestLog
  | _ => s.oldestLog

/-- A seek of the event log by a client. -/
def State.logSeek (n : Nat) (s : State) : State :=
  let mode := s.heldBy n 0x5802 1
  let at_ := s.logPlace mode (BitVec.ofNat 32 (s.heldBy n 0x5802 2))
  s.modClient n (fun c => { c with log := some at_.toNat, logNewest := mode == 0 })

/-- The records from a cursor on, as many as the limit takes: older ones after it in mode 0, newer ones otherwise. -/
def State.logFrom (s : State) (newest : Bool) (at_ : BitVec 32) (limit : Nat) : List LogRec :=
  let l := if newest then s.health.log.reverse else s.health.log
  let at_ := if newest || s.health.log.any (fun r => r.seq == at_) || at_ == s.health.nextSeq then at_ else s.oldestLog
  (l.dropWhile (fun r => r.seq != at_)).take (limit / 32)

/-- A read of 0x5802:04: the records, and the cursor behind them. -/
def State.logRead (n limit : Nat) (s : State) : Reply × State :=
  match s.clientAt n with
  | none => granted s
  | some c =>
    let at_ := match c.log with
      | some k => BitVec.ofNat 32 k
      | none => s.health.nextSeq - 1
    let l := s.logFrom c.logNewest at_ limit
    let next := match l.getLast? with
      | some r => if c.logNewest then r.seq - 1 else r.seq + 1
      | none => at_
    (.done (l.flatMap LogRec.bytes), s.modClient n (fun c => { c with log := some next.toNat }))

/-- A read of 0x3810:06, with the pages that cannot be read: the records, and the cursor behind them (R261). -/
def State.recordsRead (n limit : Nat) (bad : List Nat) (s : State) : Reply × State :=
  match s.clientAt n with
  | none => granted s
  | some c =>
    let start := c.journal.getD (if s.oldestSeq = 0 then s.journal.nextSeq else s.oldestSeq)
    let r := s.journalRead start (Nat.min limit (s.heldBy n 0x3810 5)) bad
    let s := if r.2.2 = 0 then s else s.stat 0x4860 0 6 r.2.2
    (.done r.1, s.modClient n (fun c => { c with journal := some r.2.1 }))

/-! ### Commands by write (every WO object and every flag) -/

/-- Bits of a flag word cleared by a write of 1 (R158, R200, R223). -/
def wipe (f : BitVec 16) (mask v : Nat) : BitVec 16 := f &&& ~~~(BitVec.ofNat 16 (mask &&& v))

/-- A write of an IMM value that the dictionary itself holds. -/
def State.keepImm (index sub : Nat) (v : Val) (s : State) : Reply × State :=
  granted { s with dict.imm := Cfg.set s.uid ⟨index, sub, 0⟩ v s.dict.imm }

/-- A write that only a mode of service allows. -/
def State.inService (act : State → State) (s : State) : Reply × State :=
  if s.serviceMode then granted (act s) else refuse abState s

/-- A format by command: with no device, a failed one, or the journal disabled, there is nothing to format (R255 to R257). -/
def State.formatNow (s : State) : State :=
  if s.journal.state = 0 ∨ s.journal.state = 6 ∨ s.journal.state = 7 then s else s.whenUp domDram (State.beginFormat false)

/-- 0x5000:04 and :05: written by the owner, from STAGING to CHECKED (R287). -/
def State.writePoint (n sub : Nat) (v : Val) (s : State) : Reply × State :=
  if s.cycle.state ≠ 0 ∧ s.cycle.owner ≠ some n then refuse abOwned s
  else if s.cycle.state = 1 ∨ s.cycle.state = 2 ∨ s.cycle.state = 3 then s.keepImm 0x5000 sub v
  else refuse abState s

/-- 0x5000:01: the command of the blocking cycle. -/
def State.cycleCommand (n x : Nat) (s : State) : Reply × State :=
  match x with
  | 1 => s.cycleOpen n
  | 2 => s.cycleCheck n
  | 3 => s.cycleSet n
  | 4 => s.cycleAbandon n
  | _ => s.loadDefaults n

/-- 0x3010:05: release or hold. -/
def State.cascadeCommand (row x : Nat) (s : State) : Reply × State :=
  if x = 2 then granted (s.whenUp domCtrl (State.commandHold row))
  else match s.commandRelease row with
    | .ok t => granted t
    | .error c => refuse c s

/-- 0x5821:04: a domain is reset by command, in TEST. -/
def State.domainCommand (d : Nat) (s : State) : Reply × State :=
  if s.boot.mode = 4 ∧ d ≠ 0 then granted (s.resetDomain d) else refuse abState s

/-- Sticky flags cleared, by index. -/
def State.clearFlags (index row x : Nat) (s : State) : State :=
  if index ≤ 0x2117 then s.modSp (index - 0x2100) (fun p => { p with flags := wipe p.flags 0x07 x })
  else if index ≤ 0x2201 then s.modEp (index - 0x2200) (fun e => { e with flags := wipe e.flags 0x0F x })
  else if index ≤ 0x2242 then s.modCp (index - 0x2240) (fun c => { c with flags := wipe c.flags 0x07 x })
  else if index = 0x5812 then
    if x.testBit 0 then { s with fabric.countOvf := false, fabric.ovfCrossing := 0xFFFF } else s
  else s.modQue row (fun q => { q with underrun := q.underrun && !x.testBit 0, tripped := q.tripped && !x.testBit 4 })

/-- The objects whose bits are cleared by writing 1. -/
def isFlags (index sub : Nat) : Bool :=
  ((decide (0x2100 ≤ index ∧ index ≤ 0x2117) || decide (0x2200 ≤ index ∧ index ≤ 0x2201)) && sub == 0x21) ||
    (decide (0x2240 ≤ index ∧ index ≤ 0x2242) && sub == 0x23) || (index == 0x5812 && sub == 2) || (index == 0x5818 && sub == 7)

/-- The PHY registers are reached in modes of service only (R200); what a PHY does with a write is its own. -/
def State.phyAccess (sub : Nat) (v : Val) (s : State) : Reply × State :=
  if s.serviceMode = false then refuse abState s else if sub = 3 then s.keepImm 0x2230 3 v else granted s

/-- A write of an IMM object that is no selection of a client. -/
def State.command (n index sub row : Nat) (v : Val) (s : State) : Reply × State :=
  let x := v.int.toNat
  if isFlags index sub then granted (s.clearFlags index row x)
  else if index = 0x2220 ∨ index = 0x2221 then granted (s.removeStamp (index - 0x2220))
  else if index = 0x2228 ∨ index = 0x2229 then granted (s.clearRing (index - 0x2228))
  else if index = 0x2230 then s.phyAccess sub v
  else if index = 0x2330 then granted s.clearDiscovery
  else if index = 0x3010 then s.cascadeCommand row x
  else if index = 0x3100 then granted (s.whenUp domCtrl State.rebase)
  else if index = 0x3110 then granted (s.whenUp domCtrl (State.setWeight row 255))
  else if index = 0x3800 then if sub = 9 then s.inService State.formatNow else granted (s.whenUp domDram State.flushAll)
  else if index = 0x3810 then granted (s.journalSeek n)
  else if index = 0x4000 then s.handoverCommand n
  else if index = 0x5000 then if sub = 1 then s.cycleCommand n x else s.writePoint n sub v
  else if index = 0x5041 then granted (s.releaseClient row)
  else if index = 0x5800 then granted s.ackAll
  else if index = 0x5801 then granted (s.ackAlert row)
  else if index = 0x5802 then
    if sub = 3 then granted (s.logSeek n) else s.inService (fun s => { s with health.log := [] })
  else if index = 0x5820 then s.lowRequest x
  else if index = 0x5821 then s.domainCommand row
  else if index = 0x5F01 then s.restart (x == 2)
  else if index = 0x5F11 then
    if sub = 1 then s.imageCommand n x else if sub = 2 then s.imageSeek n x else s.imageData n v.text
  else if index = 0x5F21 ∧ sub = 5 then s.burnHash x
  else s.keepImm index sub v

/-! ### Writes (R264 to R267) -/

/-- A BND write: refused on the standby, judged against the configuration in force, and mirrored (R267, R308, R309). -/
def State.writeBnd (k : Key) (v : Val) (s : State) : Reply × State :=
  if s.twin.role = 1 ∨ s.twin.role = 2 ∨ s.twin.role = 3 then refuse abStandby s
  else if 0x2100 ≤ k.index ∧ k.index ≤ 0x2117 ∧ s.portMode (k.index - 0x2100) = 3 ∧ v.int < 231 then refuse abLow s
  else if 0x2100 ≤ k.index ∧ k.index ≤ 0x2117 ∧ s.portMode (k.index - 0x2100) = 3 ∧ 4608 < v.int then refuse abHigh s
  else
    let s := s.putBnd k v
    let data := match findObj k.index k.sub with
      | some o => o.ty.encode v
      | none => []
    granted (if s.mirrors then { s with twin.dirty := s.twin.dirty ++ [.bnd k.index k.sub k.row data] } else s)

/-- A write of an object by the client in slot `n`. -/
def State.writeObj (n index sub : Nat) (b : List Byte) (s : State) : Reply × State :=
  match findGroup index with
  | none => refuse abNoObject s
  | some g =>
    if sub = 0 ∧ g.hasZero then refuse abReadOnly s
    else match g.line sub with
      | none => refuse abNoSub s
      | some o =>
        let row := s.rowOf n g index
        if o.acc = .ro ∨ o.acc = .const ∨ lockedRow index sub row = true then refuse abReadOnly s
        else match o.judge b with
          | .error c => refuse c s
          | .ok v =>
            match o.eff with
            | .stg => s.stage n ⟨index, sub, row⟩ v
            | .bnd => s.writeBnd ⟨index, sub, row⟩ v
            | _ => if perClient g sub then granted (s.holdFor n index sub v) else s.command n index sub row v

/-! ### Reads (R264, R266, R268, R279, R291) -/

/-- The STG value a client reads: of the owner's shadow or of the configuration in force, or as the LN2430 keeps it. -/
def State.readStg (n : Nat) (k : Key) (s : State) : Val :=
  if lockedRow k.index k.sub k.row && k.index == 0x2010 then
    let r := s.apptRow k.row
    .num (match k.sub with
      | 2 => r.wheel
      | 3 => r.kind
      | 4 => r.phase.toNat
      | 5 => r.period
      | 6 => r.divisor
      | 7 => r.consumer
      | _ => r.direction)
  else
    let v := Cfg.val s.uid (s.seenBy n) k.index k.sub k.row
    if k.index = 0x1005 ∧ s.syncRow.isSome = true then .num (v.int + 2 ^ 30) else v

/-- A statistic is read and cleared by what was read (R198, R291). -/
def State.takeStat (index sel sub : Nat) (s : State) : Nat × State :=
  let s := if index = 0x4830 then s.sampleCounters sel else s
  (s.statOf index sel sub, { s with stats := Tbl.del (statKey index sel sub) s.stats })

/-- The value of a readable object, and what reading it changes. -/
def State.fetchVal (n index sub row : Nat) (g : Group) (o : Obj) (s : State) : Val × State :=
  if perClient g sub then (.num (s.heldBy n index sub), s)
  else if 0x4800 ≤ index ∧ index ≤ 0x48FF then
    let r := s.takeStat index row sub
    (.num (r.1 : Nat), r.2)
  else match o.eff with
    | .stg => (s.readStg n ⟨index, sub, row⟩, s)
    | .bnd => (Cfg.val s.uid s.cfg index sub row, s)
    | .imm =>
      if isFlags index sub then (s.status n index sub row, s)
      else if index = 0x2230 ∧ sub = 4 then (.num (s.freeNat % 2 ^ 16 : Nat), s.useFree)
      else (Cfg.val s.uid s.dict.imm index sub 0, s)
    | .non => (s.status n index sub row, s)

/-- The PHY registers and the refusal of their reads outside the modes of service (R200). -/
def State.phyRefuses (s : State) (index sub : Nat) : Bool := index == 0x2230 && (sub == 3 || sub == 4) && !s.serviceMode

/-- A read of an object by the client in slot `n`, over a path that carries `limit` bytes; `bad` are the journal pages
that cannot be read. -/
def State.readObj (n index sub limit : Nat) (bad : List Nat) (s : State) : Reply × State :=
  match findGroup index with
  | none => refuse abNoObject s
  | some g =>
    if sub = 0 ∧ g.hasZero then (.done (leBytes 1 g.top), s)
    else match g.line sub with
      | none => refuse abNoSub s
      | some o =>
        if o.acc = .wo then refuse abWriteOnly s
        else if s.phyRefuses index sub then refuse abState s
        else if index = 0x3810 ∧ sub = 6 then s.recordsRead n limit bad
        else if index = 0x5802 ∧ sub = 4 then s.logRead n limit
        else
          let r := s.fetchVal n index sub (s.rowOf n g index) g o
          let b := o.ty.encode r.1
          if limit < b.length then refuse abTooLong s else (.done b, r.2)

/-- A write over a client's path: a value that the path cannot carry is refused (Table 12.2, Table 12.12). -/
def State.writeBy (who : ClientId) (index sub : Nat) (b : List Byte) (n : Nat) (s : State) : Reply × State :=
  if pathLimit who < b.length then refuse abTooLong s else s.writeObj n index sub b

/-! ### Commands -/

/-- DIVIDER_WRITE. -/
def execDividerWrite (dt : Nat) (who : ClientId) (port : Fin 24) (d : BitVec 16) (s : State) :
    Host.Outcome State Fault Refusal :=
  .next ((s.elapse dt).access who (0x2100 + port.val) (fun n s => s.writeObj n (0x2100 + port.val) 2 (leBytes 2 d.toNat)))

/-- The access of PHY_REGISTER_READ: the reply carries what the PHY answered on MDIO. -/
def State.phyRead (v : BitVec 16) (s : State) : Reply × State :=
  if s.phyRefuses 0x2230 4 then refuse abState s else (.done (leBytes 2 v.toNat), s)

/-- PHY_REGISTER_READ. -/
def execPhyRegisterRead (dt : Nat) (who : ClientId) (fromPhy : BitVec 16) (s : State) : Host.Outcome State Fault Refusal :=
  .next ((s.elapse dt).access who 0x2230 (fun _ s => s.phyRead fromPhy))

/-- PHY_REGISTER_WRITE. -/
def execPhyRegisterWrite (dt : Nat) (who : ClientId) (value : BitVec 16) (s : State) : Host.Outcome State Fault Refusal :=
  .next ((s.elapse dt).access who 0x2230 (fun n s => s.writeObj n 0x2230 4 (leBytes 2 value.toNat)))

/-- JOURNAL_FORMAT. -/
def execJournalFormat (dt : Nat) (who : ClientId) (value : Byte) (s : State) : Host.Outcome State Fault Refusal :=
  .next ((s.elapse dt).access who 0x3800 (fun n s => s.writeObj n 0x3800 9 [value]))

/-- JOURNAL_SEEK. -/
def execJournalSeek (dt : Nat) (who : ClientId) (s : State) : Host.Outcome State Fault Refusal :=
  .next ((s.elapse dt).access who 0x3810 (fun n s => s.writeObj n 0x3810 4 [1]))

/-- JOURNAL_DATA_READ. -/
def execJournalDataRead (dt : Nat) (who : ClientId) (unreadable : List Nat) (s : State) :
    Host.Outcome State Fault Refusal :=
  .next ((s.elapse dt).access who 0x3810 (fun n s => s.readObj n 0x3810 6 (pathLimit who) unreadable))

/-- STG_WRITE. -/
def execStgWrite (dt : Nat) (who : ClientId) (index : BitVec 16) (sub : Byte) (data : List Byte) (s : State) :
    Host.Outcome State Fault Refusal :=
  .next ((s.elapse dt).access who index.toNat (State.writeBy who index.toNat sub.toNat data))

/-- BND_WRITE. -/
def execBndWrite (dt : Nat) (who : ClientId) (index : BitVec 16) (sub : Byte) (data : List Byte) (s : State) :
    Host.Outcome State Fault Refusal :=
  .next ((s.elapse dt).access who index.toNat (State.writeBy who index.toNat sub.toNat data))

/-- REGISTER_WRITE. -/
def execRegisterWrite (dt : Nat) (who : ClientId) (index : BitVec 16) (sub : Byte) (data : List Byte) (s : State) :
    Host.Outcome State Fault Refusal :=
  .next ((s.elapse dt).access who index.toNat (State.writeBy who index.toNat sub.toNat data))

/-- The bytes of a mask written to a flags object. -/
def maskBytes (index sub : Nat) (mask : BitVec 16) : List Byte :=
  leBytes (((findObj index sub).bind (fun o => o.ty.size)).getD 2) mask.toNat

/-- FLAG_CLEAR. -/
def execFlagClear (dt : Nat) (who : ClientId) (index : BitVec 16) (sub : Byte) (mask : BitVec 16) (s : State) :
    Host.Outcome State Fault Refusal :=
  .next ((s.elapse dt).access who index.toNat
    (fun n s => s.writeObj n index.toNat sub.toNat (maskBytes index.toNat sub.toNat mask)))

/-- STATISTIC_READ. -/
def execStatisticRead (dt : Nat) (who : ClientId) (index : BitVec 16) (sub : Byte) (s : State) :
    Host.Outcome State Fault Refusal :=
  .next ((s.elapse dt).access who index.toNat (fun n s => s.readObj n index.toNat sub.toNat (pathLimit who) []))

/-- EVENT_LOG_SEEK. -/
def execEventLogSeek (dt : Nat) (who : ClientId) (s : State) : Host.Outcome State Fault Refusal :=
  .next ((s.elapse dt).access who 0x5802 (fun n s => s.writeObj n 0x5802 3 [1]))

/-- EVENT_LOG_DATA_READ. -/
def execEventLogDataRead (dt : Nat) (who : ClientId) (s : State) : Host.Outcome State Fault Refusal :=
  .next ((s.elapse dt).access who 0x5802 (fun n s => s.readObj n 0x5802 4 (pathLimit who) []))

/-- CLEAR_LOG. -/
def execClearLog (dt : Nat) (who : ClientId) (value : Byte) (s : State) : Host.Outcome State Fault Refusal :=
  .next ((s.elapse dt).access who 0x5802 (fun n s => s.writeObj n 0x5802 8 [value]))

end Sys2Proof.Machine
end

