-- ==== Sys2Proof/Machine/Paths.lean ====
section
/-! DEFINITION. The three access paths of the dictionary: the SDO server on C2 (R218, R271), the Ledger Access Protocol
(R272 to R274) and the SPI target port (R275 to R277), with their commands. -/

namespace Sys2Proof.Machine

open Sys2Proof

/-- The reply that an access has just left. -/
def State.lastReply (s : State) : Reply := (s.dict.reply.map (fun r => r.2)).getD (.done [])

/-- The device serves on in the same start: an answer can still be given. -/
def State.sameStart (s t : State) : Bool := t.serves && t.dict.startCount == s.dict.startCount

/-! ### SDO on C2 (R218, R271). Frame layouts of CiA 301 (PRESUMED: the manual names the services only) -/

/-- The SDO server answers: SUP serves, and C2 is enabled, runs, and is in Pre-operational or Operational (Table 9.4). -/
def State.sdoOn (s : State) : Bool :=
  s.serves && s.up domCan && s.canOn 2 && (s.canOpen.nmt == 127 || s.canOpen.nmt == 5)

/-- The server takes the request from its receive object on C2 (Table 9.3), through queue 0x04D. -/
def State.takeSdo (s : State) : State :=
  let mine (f : CanFrame) : Bool := f.id == 0x600 + s.nodeId
  if s.serves then (s.modCp 2 (fun c => { c with supIn := c.supIn.filter (fun f => !mine f) })).passed 0x4D ((s.cp 2).supIn.filter mine).length
  else s

/-- A response frame of the server: COB-ID 0x580 + node ID (R218). -/
def State.sdoSend (b : List Byte) (s : State) : State :=
  s.supSend { frame := baseFrame (0x580 + s.nodeId) (b ++ List.replicate (8 - b.length) 0), kind := .sup }

/-- The multiplexer of a frame: index and subindex. -/
def muxBytes (index sub : Nat) : List Byte := leBytes 2 index ++ leBytes 1 sub

/-- An abort by the server ends the transfer. -/
def State.sdoFail (code index sub : Nat) (s : State) : State :=
  let s : State := { s.stat 0x4870 0 3 1 with dict.transfer := none, dict.reply := some (.sdo, .refused code) }
  s.sdoSend (0x80 :: muxBytes index sub ++ leBytes 4 code)

/-- The response to a finished download: `ok`, or an abort. -/
def State.sdoAnswer (ok : List Byte) (index sub : Nat) (s : State) : State :=
  match s.lastReply with
  | .done _ => s.sdoSend ok
  | .refused c => s.sdoSend (0x80 :: muxBytes index sub ++ leBytes 4 c)

/-- A write over SDO. -/
def State.sdoWrite (index sub : Nat) (b ok : List Byte) (s : State) : State :=
  let t := s.access .sdo index (State.writeBy .sdo index sub b)
  if s.sameStart t then t.sdoAnswer ok index sub else t

/-- The data of an expedited download: as many bytes as indicated, or as the object holds. -/
def expeditedData (index sub : Nat) (sized : Bool) (b : List Byte) : List Byte :=
  if sized then b else b.take (((findObj index sub).bind (fun o => o.ty.size)).getD 4)

/-- SDO_EXPEDITED_DOWNLOAD. Data that no frame can carry stand for four bytes that the manual does not give (log entry
9). -/
def State.sdoExpedited (index sub : Nat) (sized : Bool) (b : List Byte) (s : State) : State :=
  if s.sdoOn then
    ({ s with dict.transfer := none }).sdoWrite index sub (expeditedData index sub sized b) (0x60 :: muxBytes index sub)
  else s

/-- SDO_EXPEDITED_DOWNLOAD. Data that no frame can carry stand for four bytes that the manual does not give (log entry
9). -/
def execSdoExpeditedDownload (dt : Nat) (index : BitVec 16) (sub : Byte) (sized : Bool) (data : List Byte) (s : State) :
    Host.Outcome State Fault Refusal :=
  let ok := expeditedWellFormed sized data
  .next ((((s.elapse dt).takeSdo).spend (!ok)).sdoExpedited index.toNat sub.toNat sized (if ok then data else leBytes 4 s.freeNat))

/-- An upload is asked for: read as one access; 1 to 4 bytes are returned at once, others in segments. -/
def State.sdoUpload (index sub : Nat) (s : State) : State :=
  if s.sdoOn then
    let s := ({ s with dict.transfer := none }).access .sdo index (fun n s => s.readObj n index sub 4096 [])
    match s.lastReply with
    | .refused c => s.sdoSend (0x80 :: muxBytes index sub ++ leBytes 4 c)
    | .done d =>
      if 1 ≤ d.length ∧ d.length ≤ 4 then
        s.sdoSend (BitVec.ofNat 8 (0x43 + 4 * (4 - d.length)) :: muxBytes index sub ++ d)
      else
        let t : Transfer := { index := index, sub := sub, upload := true, data := d, toggle := false, last := s.now }
        ({ s with dict.transfer := some t }).sdoSend (0x41 :: muxBytes index sub ++ leBytes 4 d.length)
  else s

/-- SDO_EXPEDITED_UPLOAD. -/
def execSdoExpeditedUpload (dt : Nat) (index : BitVec 16) (sub : Byte) (s : State) : Host.Outcome State Fault Refusal :=
  .next (((s.elapse dt).takeSdo).sdoUpload index.toNat sub.toNat)

/-- SDO_UPLOAD_INITIATE. -/
def execSdoUploadInitiate (dt : Nat) (index : BitVec 16) (sub : Byte) (s : State) : Host.Outcome State Fault Refusal :=
  .next (((s.elapse dt).takeSdo).sdoUpload index.toNat sub.toNat)

/-- A segmented download begins; the object is judged when its last segment has come. -/
def State.sdoBegin (index sub : Nat) (s : State) : State :=
  if s.sdoOn then
    let t : Transfer := { index := index, sub := sub, upload := false, data := [], toggle := false, last := s.now }
    ({ s with dict.transfer := some t }).sdoSend (0x60 :: muxBytes index sub)
  else s

/-- SDO_DOWNLOAD_INITIATE: the size indicated is not used. -/
def execSdoDownloadInitiate (dt : Nat) (index : BitVec 16) (sub : Byte) (_ : Option Nat) (s : State) :
    Host.Outcome State Fault Refusal :=
  .next (((s.elapse dt).takeSdo).sdoBegin index.toNat sub.toNat)

/-- A segment of a transfer in direction `upload`: out of place, with a repeated toggle, or taken by `act`. -/
def State.sdoSegment (upload toggle : Bool) (act : Transfer → State → State) (s : State) : State :=
  if s.sdoOn then
    match s.dict.transfer with
    | none => s.sdoFail abCommand 0 0
    | some t =>
      if t.upload ≠ upload then s.sdoFail abCommand t.index t.sub
      else if t.toggle ≠ toggle then s.sdoFail abToggle t.index t.sub
      else act t s
  else s

/-- The toggle bit of a segment in the command byte. -/
def toggleBit (t : Bool) : Nat := if t then 0x10 else 0

/-- A download segment is taken; the last one performs the write. -/
def State.takeDownload (last : Bool) (b : List Byte) (t : Transfer) (s : State) : State :=
  let d := t.data ++ b
  let ok : List Byte := [BitVec.ofNat 8 (0x20 + toggleBit t.toggle)]
  if 4096 < d.length then s.sdoFail abTooLong t.index t.sub
  else if last then ({ s with dict.transfer := none }).sdoWrite t.index t.sub d ok
  else
    let t : Transfer := { t with data := d, toggle := !t.toggle, last := s.now }
    ({ s with dict.transfer := some t }).sdoSend ok

/-- SDO_DOWNLOAD_SEGMENT. Data that no segment can carry stand for seven bytes that the manual does not give (log entry
9). -/
def execSdoDownloadSegment (dt : Nat) (toggle last : Bool) (data : List Byte) (s : State) :
    Host.Outcome State Fault Refusal :=
  let ok := segmentWellFormed data
  .next ((((s.elapse dt).takeSdo).spend (!ok)).sdoSegment false toggle
    (State.takeDownload last (if ok then data else leBytes 7 s.freeNat)))

/-- The next upload segment is returned; the last one ends the transfer. -/
def State.giveUpload (t : Transfer) (s : State) : State :=
  let d := t.data.take 7
  let rest := t.data.drop 7
  let head : Byte := BitVec.ofNat 8 (toggleBit t.toggle + 2 * (7 - d.length) + (if rest.isEmpty then 1 else 0))
  let next : Transfer := { t with data := rest, toggle := !t.toggle, last := s.now }
  ({ s with dict.transfer := if rest.isEmpty then none else some next }).sdoSend (head :: d)

/-- SDO_UPLOAD_SEGMENT. -/
def execSdoUploadSegment (dt : Nat) (toggle : Bool) (s : State) : Host.Outcome State Fault Refusal :=
  .next (((s.elapse dt).takeSdo).sdoSegment true toggle State.giveUpload)

/-- SDO_ABORT: the transfer ends, and a download in progress has no effect. -/
def execSdoAbort (dt : Nat) (s : State) : Host.Outcome State Fault Refusal :=
  let s := (s.elapse dt).takeSdo
  .next (if s.sdoOn then { s with dict.transfer := none } else s)

/-- SDO_SEGMENT_TIMEOUT: 1000 ms have passed since the last segment. -/
def State.sdoTimeout (s : State) : State :=
  match s.dict.transfer with
  | some t => if s.sdoOn ∧ t.last + cyclesPerSec ≤ s.now then s.sdoFail abTimeout t.index t.sub else s
  | none => s

/-- SDO_SEGMENT_TIMEOUT. -/
def execSdoSegmentTimeout (dt : Nat) (s : State) : Host.Outcome State Fault Refusal := .next (s.elapse dt).sdoTimeout

/-! ### Ledger Access Protocol (R272 to R274) -/

/-- The fields of a LAP request (Table 12.4). -/
structure LapReq where
  op : Nat
  key : Fin 4
  n : Nat
  start : Nat
  counter : Nat
  index : Nat
  sub : Nat
  data : List Byte
  deriving DecidableEq, Repr

/-- A number in bytes, least significant byte first. -/
def fieldLe (k n : Nat) (b : List Byte) : Nat := leNat (slice k n b)

/-- The request that bytes spell, where they have the form of Table 12.4. -/
def parseLap (b : List Byte) : Option LapReq :=
  let op := byteAt 3 b
  let n := fieldLe 6 2 b
  if h : byteAt 4 b < 4 then
    if b.take 3 = [0x4C, 0x41, 0x01] ∧ 1 ≤ op ∧ op ≤ 4 ∧ b.length = 36 + n ∧ (op = 2 ∨ n = 0) then
      some { op := op, key := ⟨byteAt 4 b, h⟩, n := n, start := fieldLe 8 4 b, counter := fieldLe 12 4 b,
             index := fieldLe 16 2 b, sub := byteAt 18 b, data := slice 20 n b }
    else none
  else none

/-- The tag of a message under the key of a slot (R273). -/
def State.lapTag (s : State) (key : Nat) (msg : List Byte) : List Byte := (hmac256 (s.ct 0x5042 3 key) msg).take 16

/-- The request is one the LN2430 answers: well-formed, of an enabled key slot, with the right tag. -/
def State.lapValid (s : State) (b : List Byte) : Option LapReq :=
  match parseLap b with
  | none => none
  | some r =>
    if s.cn 0x5042 2 r.key.val = 0 ∨ b.drop (20 + r.n) ≠ s.lapTag r.key.val (b.take (20 + r.n)) then none else some r

/-- A reply (Table 12.5). -/
def State.lapReply (s : State) (b : List Byte) (r : LapReq) (slot : Nat) (reply : Reply) : List Byte :=
  let (status, d) := match reply with
    | .done d => (0, d)
    | .refused c => (1, leBytes 4 c)
  let m := [0x4C, 0x41, 0x01] ++ leBytes 1 (r.op + 0x80) ++ leBytes 1 r.key.val ++ leBytes 1 status ++ leBytes 2 d.length ++
    leBytes 4 s.dict.startCount ++ leBytes 4 r.counter ++ slice 16 3 b ++ leBytes 1 slot ++ d
  m ++ s.lapTag r.key.val m

/-- The reply goes to the peer, from port 47321 (R272). -/
def State.lapSend (p : Nat) (ip udp : Nat) (m : List Byte) (s : State) : State := s.sendUdp p ip 47321 udp m

/-- The client slot of a peer as a reply names it. -/
def State.lapSlotOf (s : State) (who : ClientId) : Nat := (s.slotOf who).getD 0xFF

/-- A key slot. -/
def State.lapKey (s : State) (k : Nat) : LapSlot := Tbl.get {} k s.dict.laps

/-- A request that is not fresh is refused and changes nothing but counts (R274). -/
def State.lapStale (p ip udp : Nat) (b : List Byte) (r : LapReq) (who : ClientId) (code : Nat) (s : State) : State :=
  let s := (s.stat 0x4870 1 5 1).answer who (.refused code)
  s.lapSend p ip udp (s.lapReply b r (s.lapSlotOf who) (.refused code))

/-- What an accepted request does: the reply, and the client slot it names. -/
def State.lapDo (r : LapReq) (who : ClientId) (s : State) : Reply × Nat × State :=
  if r.op = 3 then
    let n := s.slotOf who
    let s := match n with
      | some k => s.releaseClient k
      | none => s
    (.done [], n.getD 0xFF, { s with dict.reply := some (who, .done []) })
  else
    let t := if r.op = 1 then s.access who r.index (fun n s => s.readObj n r.index r.sub 1024 [])
      else s.access who r.index (fun n s =>
        if s.cn 0x5042 2 r.key.val = 1 then refuse abLapRead s else s.writeBy who r.index r.sub r.data n)
    (t.lastReply, t.lapSlotOf who, t)

/-- An accepted request: its counter is taken, it is done, and its reply is kept for a repetition and sent (R274). -/
def State.lapAccept (p ip udp : Nat) (b : List Byte) (r : LapReq) (who : ClientId) (s : State) : State :=
  let k := r.key.val
  let s : State := { s with dict.laps := Tbl.put k { (s.lapKey k) with counter := r.counter } s.dict.laps }
  let (reply, slot, t) := s.lapDo r who
  if s.sameStart t then
    let m := s.lapReply b r slot reply
    ({ t with dict.laps := Tbl.put k { counter := r.counter, request := b, reply := m } t.dict.laps }).lapSend p ip udp m
  else t

/-- A valid request: echo, repetition, staleness, or acceptance (R274). -/
def State.lapRequest (p ip udp : Nat) (b : List Byte) (r : LapReq) (who : ClientId) (s : State) : State :=
  let k := s.lapKey r.key.val
  if r.op = 4 then s.lapSend p ip udp (s.lapReply b r 0xFF (.done []))
  else if k.request = b then s.lapSend p ip udp k.reply
  else if r.start ≠ s.dict.startCount then s.lapStale p ip udp b r who abStart
  else if r.counter ≤ k.counter then s.lapStale p ip udp b r who abCounter
  else s.lapAccept p ip udp b r who

/-- A frame carries these bytes from a host and port to port 47321. -/
def isLap (ip : BitVec 32) (udp : BitVec 16) (b : List Byte) (f : RxFrame) : Bool :=
  frameType f.bytes == 0x0800 && ipProto f.bytes == 17 && udpDst f.bytes == 47321 && ipSrc f.bytes == ip.toNat &&
    udpSrc f.bytes == udp.toNat && udpPayload f.bytes == b

/-- SUP takes the frame of a LAP datagram from its queue of the port, where it stands at the head. -/
def State.takeLap (p : Nat) (ip : BitVec 32) (udp : BitVec 16) (b : List Byte) (s : State) : State :=
  match (s.ep p).supIn with
  | [] => s
  | f :: rest =>
    if s.yields (0x34 + p) && isLap ip udp b f then (s.modEp p (fun e => { e with supIn := rest })).popped (0x34 + p) s else s

/-- A datagram to port 47321 of a port. -/
def State.lap (p : Fin 2) (ip : BitVec 32) (udp : BitVec 16) (b : List Byte) (s : State) : State :=
  if s.serves && s.up (domEth p.val) then
    let s := s.takeLap p.val ip udp b
    match s.lapValid b with
    | none => s.stat 0x4870 1 4 1
    | some r => s.lapRequest p.val ip.toNat udp.toNat b r (.lap r.key ip udp)
  else s

/-- LAP_READ. -/
def execLapRead (dt : Nat) (port : Fin 2) (ip : BitVec 32) (udp : BitVec 16) (bytes : List Byte) (s : State) :
    Host.Outcome State Fault Refusal :=
  .next ((s.elapse dt).lap port ip udp bytes)

/-- LAP_WRITE. -/
def execLapWrite (dt : Nat) (port : Fin 2) (ip : BitVec 32) (udp : BitVec 16) (bytes : List Byte) (s : State) :
    Host.Outcome State Fault Refusal :=
  .next ((s.elapse dt).lap port ip udp bytes)

/-- LAP_CLOSE. -/
def execLapClose (dt : Nat) (port : Fin 2) (ip : BitVec 32) (udp : BitVec 16) (bytes : List Byte) (s : State) :
    Host.Outcome State Fault Refusal :=
  .next ((s.elapse dt).lap port ip udp bytes)

/-- LAP_ECHO. -/
def execLapEcho (dt : Nat) (port : Fin 2) (ip : BitVec 32) (udp : BitVec 16) (bytes : List Byte) (s : State) :
    Host.Outcome State Fault Refusal :=
  .next ((s.elapse dt).lap port ip udp bytes)

/-! ### The SPI target (R275 to R277) -/

/-- A reply waits to be fetched, in queue 0x085. -/
def State.spiKeep (seq : Nat) (r : Reply) (s : State) : State :=
  ({ s with dict.spiReply := some (seq, r), dict.spiAt := s.now }).pushed 0x85

/-- The frame of a request is sound: its length agrees with its operation and the transaction, and its CRC is right. -/
def spiSound (b : List Byte) : Bool :=
  let n := fieldLe 8 2 b
  let op := byteAt 1 b
  decide (b.length = 12 + n) && ((op == 1 && n == 0) || (op == 2 && decide (1 ≤ n ∧ n ≤ 1024))) &&
    fieldLe (10 + n) 2 b == (crc16 (b.take (10 + n))).toNat

/-- A request that waits for no fetch of the reply before it. -/
def State.spiClear (s : State) : State :=
  if s.dict.spiReply.isSome then (({ s with dict.spiReply := none }).stat 0x4870 2 7 1).popped 0x85 s else s

/-- What SPI_T_MISO has carried in the latest transaction (R275, R276); it is high-impedance in reset and in the low power
states (R330, R348). -/
def State.miso (b : List Byte) (s : State) : State :=
  { s with dict.spiOut := if s.held || decide (2 ≤ s.power.state) then [] else b }

/-- A request transaction (Table 12.6, R277), through queue 0x084; there is none while SPI_T_SCK stands (R239). MISO carries
0xFF throughout. -/
def State.spiRequest (b : List Byte) (s : State) : State :=
  if s.fabric.stopped.contains .spi then s else
  let s := s.miso (List.replicate b.length 0xFF)
  if s.serves && s.flows 0x84 then
    if b.length < 12 ∨ byteAt 0 b ≠ 0xA5 then s.stat 0x4870 2 4 1
    else
      let s := s.spiClear.passed 0x84 1
      let seq := byteAt 2 b
      let index := fieldLe 4 2 b
      let sub := byteAt 6 b
      if spiSound b = false then ((s.stat 0x4870 2 3 1).spiKeep seq (.refused abSpi))
      else
        let t := if byteAt 1 b = 1 then s.access .spi index (fun n s => s.readObj n index sub 1024 [])
          else s.access .spi index (State.writeBy .spi index sub (slice 10 (fieldLe 8 2 b) b))
        if s.sameStart t then t.spiKeep seq t.lastReply else t
  else s

/-- SPI_READ_REQUEST. -/
def execSpiReadRequest (dt : Nat) (bytes : List Byte) (s : State) : Host.Outcome State Fault Refusal :=
  .next ((s.elapse dt).spiRequest bytes)

/-- SPI_WRITE_REQUEST. -/
def execSpiWriteRequest (dt : Nat) (bytes : List Byte) (s : State) : Host.Outcome State Fault Refusal :=
  .next ((s.elapse dt).spiRequest bytes)

/-- The fetch frame of a reply (Table 12.7). -/
def spiFrame (seq : Nat) (r : Reply) : List Byte :=
  let (result, d) := match r with
    | .done d => (0, d)
    | .refused c => (1, leBytes 4 c)
  let m := leBytes 1 1 ++ leBytes 1 seq ++ leBytes 1 result ++ leBytes 2 d.length ++ d
  m ++ leBytes 2 (crc16 m).toNat

/-- The committed pointer of queue 0x085 may still be moving past the reply as the fetch samples it: within the words of
the longest packet after its commit, which are at most 4096 (R229, R238). -/
def State.spiFresh (s : State) : Bool :=
  let age := s.now - s.dict.spiAt
  decide (age < 4096) && decide (age < longestPacket 0x85)

/-- A fetch transaction with `clocked` bytes after its 0x5A (R276): MISO carries 0xFF, then the frame; a reply is
consumed when its last CRC byte has been clocked out. A committed pointer that has not settled gives the state busy. -/
def State.spiFetch (clocked : Nat) (s : State) : State :=
  if s.fabric.stopped.contains .spi then s
  else if s.serves = false then s.miso (List.replicate (1 + clocked) 0xFF)
  else match s.dict.spiReply with
    | none => s.miso (0xFF :: [(0x02 : Byte)].take clocked)
    | some (seq, r) =>
      let fresh := s.spiFresh
      let busy := s.yields 0x85 == false || (fresh && s.freeNat % 2 == 1)
      let s := s.spend fresh
      if busy then s.miso (0xFF :: [(0x00 : Byte)].take clocked)
      else
        let f := spiFrame seq r
        let s := s.miso (0xFF :: f.take clocked)
        if f.length ≤ clocked then ({ s with dict.spiReply := none }).popped 0x85 s else s

/-- SPI_FETCH. -/
def execSpiFetch (dt : Nat) (clocked : Nat) (s : State) : Host.Outcome State Fault Refusal :=
  .next ((s.elapse dt).spiFetch clocked)

end Sys2Proof.Machine
end

