-- ==== Sys2Proof/Machine/Ptp.lean ====
section
/-! DEFINITION. IEEE 1588 (R32, R192 to R194): foreign masters, exchanges, offset and path delay, and the commands
PTP_ANNOUNCE, PTP_ANNOUNCE_TIMEOUT, PTP_SYNC, PTP_FOLLOW_UP, PTP_DELAY_RESP and PTP_EXCHANGE_TIMEOUT. Message layouts
of IEEE 1588-2008 (PRESUMED: the manual names the messages and their fields). -/

namespace Sys2Proof.Machine

open Sys2Proof

/-- Change IEEE 1588 of a port. -/
def State.modPtp (p : Nat) (f : Ptp → Ptp) (s : State) : State := s.modEp p (fun e => { e with ptp := f e.ptp })

/-- Two to the power of a signed message interval, in seconds. -/
def logInterval (b : Nat) : Rat := pow2 (toSigned 8 b)

/-- The correction field of a message in nanoseconds. -/
def ptpCorrection (m : List Byte) : Rat := (toSigned 64 (netNat 8 8 m) : Rat) / 65536

/-- The sender's port identity. -/
def ptpSender (m : List Byte) : Nat × Nat := (netNat 20 8 m, netNat 28 2 m)

/-- The sequence number of a message. -/
def ptpSeq (m : List Byte) : Nat := netNat 30 2 m

/-- A timestamp of a message as a time-wheel position (R194). -/
def ptpTime (k : Nat) (m : List Byte) : WheelPos :=
  let sec : Int := (netNat k 6 m : Int) - 946684832
  let frac := roundAway ((netNat (k + 6) 4 m : Rat) * 2 ^ 32 / 1000000000)
  BitVec.ofInt 64 (sec * 2 ^ 32 + frac)

/-- A frame that SUP's queue holds as an IEEE 1588 message of a type, over either transport. -/
def ptpIs (type : Nat) (f : RxFrame) : Bool :=
  let b := f.bytes
  if f.witness then false
  else if frameType b = 0x88F7 then decide (byteAt 0 (b.drop 14) % 16 = type)
  else frameType b == 0x0800 && ipProto b == 17 && ipDst b == 0xE0000181 && decide (byteAt 0 (udpPayload b) % 16 = type)

/-- The port's own clock identity (R192). -/
def State.ownClock (s : State) (p : Nat) : Nat :=
  let m := s.macOf p
  m / 2 ^ 24 * 2 ^ 40 + 0xFFFE * 2 ^ 24 + m % 2 ^ 24

/-! ### Masters (R193) -/

/-- The dataset of an Announce, in the order of the comparison. -/
def datasetOf (m : List Byte) : List Nat :=
  [byteAt 47 m, byteAt 48 m, byteAt 49 m, netNat 50 2 m, byteAt 52 m, netNat 53 8 m, netNat 61 2 m, netNat 20 8 m, netNat 28 2 m]

/-- Lexicographic order of datasets. -/
def datasetLess : List Nat → List Nat → Bool
  | a :: s, b :: t => decide (a < b) || (decide (a = b) && datasetLess s t)
  | _, _ => false

/-- The lowest qualified master. -/
def bestMaster (l : List Master) : Option Master :=
  l.foldl (fun b m => if m.qualified then (match b with
    | some x => if datasetLess m.dataset x.dataset then some m else some x
    | none => some m) else b) none

/-- Select a master again; a change restarts the count of qualifying exchanges (R193). -/
def State.selectMaster (p : Nat) (s : State) : State :=
  let x := (s.ep p).ptp
  let new := (bestMaster x.masters).map (fun m => (m.clockId, m.portId))
  if new = x.selected then s
  else (s.modPtp p (fun x => { x with selected := new, good := 0, exchs := [], lastSync := none, reqInterval := 1 })).sourceChanged

/-- A master after one more Announce at `now`: qualified by two within four of its intervals. -/
def Master.announce (now : Nat) (m : List Byte) (x : Master) : Master :=
  let iv := logInterval (byteAt 33 m)
  let near := (now :: x.announces).filter (fun t => decide (secs (now - t) ≤ 4 * iv))
  { x with
    dataset := datasetOf m, announces := near, interval := iv, qualified := x.qualified || decide (2 ≤ near.length)
    utc := if (byteAt 7 m).testBit 2 then some (toSigned 16 (netNat 44 2 m)) else none }

/-- PTP_ANNOUNCE. -/
def State.ptpAnnounce (p : Nat) (f : RxFrame) (s : State) : State :=
  match s.ptpMessage p f.bytes with
  | none => s
  | some m =>
    if byteAt 48 m = 255 then s
    else
      let k := ptpSender m
      let old := (s.ep p).ptp.masters
      let fresh : Master := { dataset := [], clockId := k.1, portId := k.2, announces := [], interval := 1, qualified := false, utc := none }
      let ms : List Master :=
        if old.any (fun x => x.clockId == k.1 && x.portId == k.2) then
          old.map (fun y => if y.clockId = k.1 ∧ y.portId = k.2 then y.announce s.fc m else y)
        else old ++ [fresh.announce s.fc m]
      s.keepLeap (fun s => (s.modPtp p (fun x => { x with masters := ms })).selectMaster p)

/-- PTP_ANNOUNCE. -/
def execPtpAnnounce (dt : Nat) (port : Fin 2) (s : State) : Host.Outcome State Fault Refusal :=
  .next ((s.elapse dt).whenUp domSup (State.withSup port.val (ptpIs 11) (State.ptpAnnounce port.val)))

/-- PTP_ANNOUNCE_TIMEOUT: masters without an Announce for the timeout are lost. -/
def State.announceTimeout (p : Nat) (s : State) : State :=
  let n : Rat := (s.cn 0x2230 2 0 : Rat)
  let alive (m : Master) : Bool := match m.announces with
    | t :: _ => decide (secs (s.fc - t) < n * m.interval)
    | [] => false
  s.keepLeap (fun s => (s.modPtp p (fun x => { x with masters := x.masters.filter alive })).selectMaster p)

/-- PTP_ANNOUNCE_TIMEOUT. -/
def execPtpAnnounceTimeout (dt : Nat) (port : Fin 2) (s : State) : Host.Outcome State Fault Refusal :=
  .next ((s.elapse dt).whenUp domSup (State.announceTimeout port.val))

/-! ### Exchanges (R192, R194) -/

/-- The bytes of a Delay_Req. -/
def State.delayReqBytes (s : State) (p seq : Nat) : List Byte :=
  [1, 2] ++ beBytes 2 44 ++ [BitVec.ofNat 8 (s.cn 0x2008 0x0D 0), 0] ++ beBytes 2 0 ++ beBytes 8 0 ++ beBytes 4 0 ++
    beBytes 8 (s.ownClock p) ++ beBytes 2 1 ++ beBytes 2 seq ++ [1, 0x7F] ++ beBytes 10 0

/-- Send a Delay_Req on transmit queue 1 (R185). -/
def State.sendDelayReq (p seq : Nat) (s : State) : State :=
  let m := s.delayReqBytes p seq
  if s.ethN p 0x12 = 1 then s.queueFrame p 1 (.delayReq seq) (ethHeader 0x011B19000000 (s.macOf p) 0x88F7 ++ m)
  else
    (s.nextIpId p).queueFrame p 1 (.delayReq seq)
      (udpFrame (groupMac 0xE0000181) (s.macOf p) (s.ipOf p) 0xE0000181 1 (s.ep p).ipId.toNat 319 319 m)

/-- The message comes from the selected master. -/
def State.fromMaster (s : State) (p : Nat) (m : List Byte) : Bool := (s.ep p).ptp.selected == some (ptpSender m)

/-- A Sync of the selected master opens an exchange where a Delay_Req is due (R192). -/
def State.ptpSync (p : Nat) (f : RxFrame) (s : State) : State :=
  match s.ptpMessage p f.bytes with
  | none => s
  | some m =>
    let x := (s.ep p).ptp
    let due := match x.lastReq with
      | some t => decide (x.reqInterval ≤ secs (s.fc - t))
      | none => true
    if s.fromMaster p m = false ∨ due = false then s
    else
      let seq := (x.reqSeq + 1) % 0x10000
      let ex : Exchange := { syncSeq := ptpSeq m, syncAt := s.fc, t1 := if (byteAt 6 m).testBit 1 then none else some (ptpTime 34 m),
                             corr := ptpCorrection m, t2 := f.stamp, reqSeq := seq, t3 := none, t4 := none }
      (s.modPtp p (fun x => { x with exchs := x.exchs ++ [ex], reqSeq := seq, lastReq := some s.fc })).sendDelayReq p seq

/-- PTP_SYNC. -/
def execPtpSync (dt : Nat) (port : Fin 2) (s : State) : Host.Outcome State Fault Refusal :=
  .next ((s.elapse dt).whenUp domSup (State.withSup port.val (ptpIs 0) (State.ptpSync port.val)))

/-- Nanoseconds of a difference of positions. -/
def posNs (a b : WheelPos) : Rat := (posDiff a b : Rat) * 1000000000 / oneUnit

/-- The offset of a completed exchange drives the time wheel where its port is the active source (R30, R32, R388). -/
def State.ptpOffset (p : Nat) (ns : Rat) (gap : Option Nat) (s : State) : State :=
  let e := ns / 1000000000
  let active := decide (s.wheels.time.source = 2 + p)
  if active && s.steps e then
    ((s.stepTime (-((e * oneRev).floor))).modPtp p (fun x => { x with good := 0, offsetNs := 0 })).refTime 0 (16 / 1000000000) |>.sourceChanged
  else
    let ok := decide (e.abs < 1 / 1000000) && decide ((s.ep p).link = 1)
    let s := s.modPtp p (fun x => { x with good := if ok then x.good + 1 else 0 })
    let s := if active then (s.discipline e (gap.map secs)).refTime e (16 / 1000000000) else s
    s.sourceChanged

/-- Change the first open exchange that a test picks. -/
def modExch (f : Exchange → Bool) (g : Exchange → Exchange) : List Exchange → List Exchange
  | [] => []
  | x :: t => if f x then g x :: t else x :: modExch f g t

/-- An exchange with all four times is complete; a negative path delay discards it (R194). -/
def State.completeExchange (p : Nat) (ex : Exchange) (s : State) : State :=
  match ex.t1, ex.t3, ex.t4 with
  | some t1, some t3, some (t4, c4) =>
    let ms := posNs ex.t2 t1 - ex.corr
    let sm := posNs t4 t3 - c4
    let delay := (ms + sm) / 2
    let offset := (ms - sm) / 2
    let s := s.modPtp p (fun x => { x with exchs := x.exchs.erase ex })
    if delay < 0 then s
    else
      let gap := (s.ep p).ptp.lastSync.map (fun t => ex.syncAt - t)
      let s := s.modPtp p (fun x => { x with
        exchanges := x.exchanges + 1, lastDone := some s.fc, lastSync := some ex.syncAt, present := true
        offsetNs := offset, lastNs := offset, delayNs := delay })
      s.ptpOffset p offset gap
  | _, _, _ => s

/-- A message brings a time to the first open exchange that a test picks. -/
def State.advanceExchange (p : Nat) (f : Exchange → Bool) (g : Exchange → Exchange) (s : State) : State :=
  match (s.ep p).ptp.exchs.find? f with
  | some ex => (s.modPtp p (fun x => { x with exchs := modExch f g x.exchs })).completeExchange p (g ex)
  | none => s

/-- A Follow_Up supplies t1 (R192). -/
def State.ptpFollowUp (p : Nat) (f : RxFrame) (s : State) : State :=
  match s.ptpMessage p f.bytes with
  | none => s
  | some m =>
    if s.fromMaster p m then
      s.advanceExchange p (fun ex => ex.syncSeq == ptpSeq m && ex.t1.isNone)
        (fun ex => { ex with t1 := some (ptpTime 34 m), corr := ex.corr + ptpCorrection m })
    else s

/-- PTP_FOLLOW_UP. -/
def execPtpFollowUp (dt : Nat) (port : Fin 2) (s : State) : Host.Outcome State Fault Refusal :=
  .next ((s.elapse dt).whenUp domSup (State.withSup port.val (ptpIs 8) (State.ptpFollowUp port.val)))

/-- A Delay_Resp of the master gives the interval of the next Delay_Req; the answer to one of the port's own supplies t4
(R192, R194). -/
def State.ptpDelayResp (p : Nat) (f : RxFrame) (s : State) : State :=
  match s.ptpMessage p f.bytes with
  | none => s
  | some m =>
    if s.fromMaster p m then
      let s := s.modPtp p (fun x => { x with reqInterval := logInterval (byteAt 33 m) })
      if netNat 44 8 m = s.ownClock p ∧ netNat 52 2 m = 1 then
        s.advanceExchange p (fun ex => ex.reqSeq == ptpSeq m && ex.t4.isNone)
          (fun ex => { ex with t4 := some (ptpTime 34 m, ptpCorrection m) })
      else s
    else s

/-- PTP_DELAY_RESP. -/
def execPtpDelayResp (dt : Nat) (port : Fin 2) (s : State) : Host.Outcome State Fault Refusal :=
  .next ((s.elapse dt).whenUp domSup (State.withSup port.val (ptpIs 9) (State.ptpDelayResp port.val)))

/-- PTP_EXCHANGE_TIMEOUT: 1 s after its Sync an exchange is discarded. -/
def State.exchangeTimeout (p : Nat) (s : State) : State :=
  s.modPtp p (fun x => { x with exchs := x.exchs.filter (fun ex => decide (s.fc < ex.syncAt + cyclesPerSec)) })

/-- PTP_EXCHANGE_TIMEOUT. -/
def execPtpExchangeTimeout (dt : Nat) (port : Fin 2) (s : State) : Host.Outcome State Fault Refusal :=
  .next ((s.elapse dt).whenUp domSup (State.exchangeTimeout port.val))

end Sys2Proof.Machine
end

