-- ==== Sys2Proof/Machine/Dispatch.lean ====
section
/-! DEFINITION. The dispatcher: one arm per command, each a direct call of its meaning. -/

namespace Sys2Proof.Machine

open Sys2Proof

/-- The effect of a command on everything but the queue. -/
def exec (i : Instr) (s : State) : Host.Outcome State Fault Refusal :=
  match i with
  | .ppsEdge dt rising => Sys2Proof.Machine.execPpsEdge dt rising s
  | .zdaReceived dt => Sys2Proof.Machine.execZdaReceived dt s
  | .ppsLossTimeout dt => Sys2Proof.Machine.execPpsLossTimeout dt s
  | .timeSourceRevert dt => Sys2Proof.Machine.execTimeSourceRevert dt s
  | .ptpLossTimeout dt port => Sys2Proof.Machine.execPtpLossTimeout dt port s
  | .shaftQuadratureEdge dt a b => Sys2Proof.Machine.execShaftQuadratureEdge dt a b s
  | .shaftIndex dt => Sys2Proof.Machine.execShaftIndex dt s
  | .shaftLockTimer dt => Sys2Proof.Machine.execShaftLockTimer dt s
  | .shaftStandstill dt => Sys2Proof.Machine.execShaftStandstill dt s
  | .mainsZeroCrossing dt rising => Sys2Proof.Machine.execMainsZeroCrossing dt rising s
  | .mainsLossTimeout dt => Sys2Proof.Machine.execMainsLossTimeout dt s
  | .seaWheelLossTimeout dt => Sys2Proof.Machine.execSeaWheelLossTimeout dt s
  | .appointmentDue dt row => Sys2Proof.Machine.execAppointmentDue dt row s
  | .ppsOutPulseStart dt => Sys2Proof.Machine.execPpsOutPulseStart dt s
  | .ppsOutPulseEnd dt => Sys2Proof.Machine.execPpsOutPulseEnd dt s
  | .whlEvtDispatch dt n => Sys2Proof.Machine.execWhlEvtDispatch dt n s
  | .whlEvtPulseEnd dt n => Sys2Proof.Machine.execWhlEvtPulseEnd dt n s
  | .cardSerialCharacter dt port => Sys2Proof.Machine.execCardSerialCharacter dt port s
  | .cardDatagram dt port engineB => Sys2Proof.Machine.execCardDatagram dt port engineB s
  | .cardCanMessage dt port => Sys2Proof.Machine.execCardCanMessage dt port s
  | .cardReceivedPdo dt => Sys2Proof.Machine.execCardReceivedPdo dt s
  | .sourceLate dt row => Sys2Proof.Machine.execSourceLate dt row s
  | .sourceStale dt row => Sys2Proof.Machine.execSourceStale dt row s
  | .voteCountingRecord dt ce9 => Sys2Proof.Machine.execVoteCountingRecord dt ce9 s
  | .groupHoldExpiry dt g => Sys2Proof.Machine.execGroupHoldExpiry dt g s
  | .clearDiscoveryList dt => Sys2Proof.Machine.execClearDiscoveryList dt s
  | .brambleMatch dt q ecc => Sys2Proof.Machine.execBrambleMatch dt q ecc s
  | .shaperEmission dt n => Sys2Proof.Machine.execShaperEmission dt n s
  | .composeEntry dt fe1 ecc => Sys2Proof.Machine.execComposeEntry dt fe1 ecc s
  | .controlTakeRecord dt => Sys2Proof.Machine.execControlTakeRecord dt s
  | .modelRecompute dt => Sys2Proof.Machine.execModelRecompute dt s
  | .tankStaleTimeout dt t => Sys2Proof.Machine.execTankStaleTimeout dt t s
  | .readingMeanInterval dt t => Sys2Proof.Machine.execReadingMeanInterval dt t s
  | .gaugeSampleSet dt n => Sys2Proof.Machine.execGaugeSampleSet dt n s
  | .fallbackSample dt n => Sys2Proof.Machine.execFallbackSample dt n s
  | .freeReportSample dt ch => Sys2Proof.Machine.execFreeReportSample dt ch s
  | .cascadeInnerStep dt c => Sys2Proof.Machine.execCascadeInnerStep dt c s
  | .cascadeStepComplete dt c => Sys2Proof.Machine.execCascadeStepComplete dt c s
  | .cascadeRelease dt c => Sys2Proof.Machine.execCascadeRelease dt c s
  | .cascadeHoldCommand dt c => Sys2Proof.Machine.execCascadeHoldCommand dt c s
  | .rebase dt => Sys2Proof.Machine.execRebase dt s
  | .readmit dt t => Sys2Proof.Machine.execReadmit dt t s
  | .syncDispatch dt => Sys2Proof.Machine.execSyncDispatch dt s
  | .serialCharacterReceived dt port line => Sys2Proof.Machine.execSerialCharacterReceived dt port line s
  | .falseStart dt port line => Sys2Proof.Machine.execFalseStart dt port line s
  | .breakEnd dt port => Sys2Proof.Machine.execBreakEnd dt port s
  | .stuckLow dt port => Sys2Proof.Machine.execStuckLow dt port s
  | .stuckProbe dt port => Sys2Proof.Machine.execStuckProbe dt port s
  | .lineRecovered dt port => Sys2Proof.Machine.execLineRecovered dt port s
  | .serialTxStart dt port => Sys2Proof.Machine.execSerialTxStart dt port s
  | .serialTxDone dt port => Sys2Proof.Machine.execSerialTxDone dt port s
  | .driverLagExpiry dt port => Sys2Proof.Machine.execDriverLagExpiry dt port s
  | .dividerWrite dt who port d => Sys2Proof.Machine.execDividerWrite dt who port d s
  | .serialStartEdgeWake dt port => Sys2Proof.Machine.execSerialStartEdgeWake dt port s
  | .autobaudMeasurement dt port l1 h1 l2 h2 => Sys2Proof.Machine.execAutobaudMeasurement dt port l1 h1 l2 h2 s
  | .frameSlotStart dt p => Sys2Proof.Machine.execFrameSlotStart dt p s
  | .frameResponseDeadline dt at_ => Sys2Proof.Machine.execFrameResponseDeadline dt at_ s
  | .frameHeaderObserved dt p dominantBits sync pid => Sys2Proof.Machine.execFrameHeaderObserved dt p dominantBits sync pid s
  | .busShort dt p => Sys2Proof.Machine.execBusShort dt p s
  | .classificationWindowEnd dt pair obs => Sys2Proof.Machine.execClassificationWindowEnd dt pair obs s
  | .loopConversion dt ch code refMv => Sys2Proof.Machine.execLoopConversion dt ch code refMv s
  | .phyPoll dt port regs => Sys2Proof.Machine.execPhyPoll dt port regs s
  | .ethFrameReceived dt port bytes rxEr => Sys2Proof.Machine.execEthFrameReceived dt port bytes rxEr s
  | .arpFrame dt port => Sys2Proof.Machine.execArpFrame dt port s
  | .arpRetry dt port => Sys2Proof.Machine.execArpRetry dt port s
  | .arpResolutionTimeout dt port => Sys2Proof.Machine.execArpResolutionTimeout dt port s
  | .arpEntryExpiry dt port => Sys2Proof.Machine.execArpEntryExpiry dt port s
  | .icmpEchoRequest dt port => Sys2Proof.Machine.execIcmpEchoRequest dt port s
  | .igmpQuery dt port delay => Sys2Proof.Machine.execIgmpQuery dt port delay s
  | .igmpReportDelay dt port group => Sys2Proof.Machine.execIgmpReportDelay dt port group s
  | .macFrameStart dt port bytesInMac => Sys2Proof.Machine.execMacFrameStart dt port bytesInMac s
  | .macFrameEnd dt port => Sys2Proof.Machine.execMacFrameEnd dt port s
  | .txUnderrun dt port => Sys2Proof.Machine.execTxUnderrun dt port s
  | .pauseTimerExpiry dt port => Sys2Proof.Machine.execPauseTimerExpiry dt port s
  | .pauseWatchdog dt port => Sys2Proof.Machine.execPauseWatchdog dt port s
  | .pauseHoldoffEnd dt port => Sys2Proof.Machine.execPauseHoldoffEnd dt port s
  | .removeStampHead dt port => Sys2Proof.Machine.execRemoveStampHead dt port s
  | .ptpAnnounce dt port => Sys2Proof.Machine.execPtpAnnounce dt port s
  | .ptpAnnounceTimeout dt port => Sys2Proof.Machine.execPtpAnnounceTimeout dt port s
  | .ptpSync dt port => Sys2Proof.Machine.execPtpSync dt port s
  | .ptpFollowUp dt port => Sys2Proof.Machine.execPtpFollowUp dt port s
  | .ptpDelayResp dt port => Sys2Proof.Machine.execPtpDelayResp dt port s
  | .ptpExchangeTimeout dt port => Sys2Proof.Machine.execPtpExchangeTimeout dt port s
  | .macCounterSample dt port => Sys2Proof.Machine.execMacCounterSample dt port s
  | .clearCaptureRing dt port => Sys2Proof.Machine.execClearCaptureRing dt port s
  | .phyRegisterRead dt who fromPhy => Sys2Proof.Machine.execPhyRegisterRead dt who fromPhy s
  | .phyRegisterWrite dt who value => Sys2Proof.Machine.execPhyRegisterWrite dt who value s
  | .canFrameReceived dt c frame => Sys2Proof.Machine.execCanFrameReceived dt c frame s
  | .canFrameSent dt c => Sys2Proof.Machine.execCanFrameSent dt c s
  | .canBusError dt c err => Sys2Proof.Machine.execCanBusError dt c err s
  | .busOffDelay dt c => Sys2Proof.Machine.execBusOffDelay dt c s
  | .busOffRecovered dt c => Sys2Proof.Machine.execBusOffRecovered dt c s
  | .addressClaim dt c => Sys2Proof.Machine.execAddressClaim dt c s
  | .addressClaimComplete dt c => Sys2Proof.Machine.execAddressClaimComplete dt c s
  | .pgnRequest dt c => Sys2Proof.Machine.execPgnRequest dt c s
  | .fastPacketTimeout dt c => Sys2Proof.Machine.execFastPacketTimeout dt c s
  | .bamTimeout dt c => Sys2Proof.Machine.execBamTimeout dt c s
  | .nmtStart dt node => Sys2Proof.Machine.execNmtStart dt node s
  | .nmtStop dt node => Sys2Proof.Machine.execNmtStop dt node s
  | .nmtEnterPreOperational dt node => Sys2Proof.Machine.execNmtEnterPreOperational dt node s
  | .nmtResetNode dt node => Sys2Proof.Machine.execNmtResetNode dt node s
  | .nmtResetCommunication dt node => Sys2Proof.Machine.execNmtResetCommunication dt node s
  | .sdoExpeditedDownload dt index sub sized data => Sys2Proof.Machine.execSdoExpeditedDownload dt index sub sized data s
  | .sdoExpeditedUpload dt index sub => Sys2Proof.Machine.execSdoExpeditedUpload dt index sub s
  | .sdoDownloadInitiate dt index sub size => Sys2Proof.Machine.execSdoDownloadInitiate dt index sub size s
  | .sdoDownloadSegment dt toggle last data => Sys2Proof.Machine.execSdoDownloadSegment dt toggle last data s
  | .sdoUploadInitiate dt index sub => Sys2Proof.Machine.execSdoUploadInitiate dt index sub s
  | .sdoUploadSegment dt toggle => Sys2Proof.Machine.execSdoUploadSegment dt toggle s
  | .sdoAbort dt => Sys2Proof.Machine.execSdoAbort dt s
  | .sdoSegmentTimeout dt => Sys2Proof.Machine.execSdoSegmentTimeout dt s
  | .canopenHeartbeat dt => Sys2Proof.Machine.execCanopenHeartbeat dt s
  | .emcyInhibitExpiry dt => Sys2Proof.Machine.execEmcyInhibitExpiry dt s
  | .queueStall dt q => Sys2Proof.Machine.execQueueStall dt q s
  | .scrubRead dt addr ecc live => Sys2Proof.Machine.execScrubRead dt addr ecc live s
  | .unsettled dt crossing => Sys2Proof.Machine.execUnsettled dt crossing s
  | .realignRequest dt q side => Sys2Proof.Machine.execRealignRequest dt q side s
  | .realignAcknowledge dt q => Sys2Proof.Machine.execRealignAcknowledge dt q s
  | .realignAccept dt q => Sys2Proof.Machine.execRealignAccept dt q s
  | .realignResume dt q => Sys2Proof.Machine.execRealignResume dt q s
  | .journalTakeRecord dt => Sys2Proof.Machine.execJournalTakeRecord dt s
  | .journalFlush dt => Sys2Proof.Machine.execJournalFlush dt s
  | .flushNow dt => Sys2Proof.Machine.execFlushNow dt s
  | .pageProgrammed dt ok => Sys2Proof.Machine.execPageProgrammed dt ok s
  | .blockErased dt ok => Sys2Proof.Machine.execBlockErased dt ok s
  | .nandTimeout dt op => Sys2Proof.Machine.execNandTimeout dt op s
  | .mountComplete dt found => Sys2Proof.Machine.execMountComplete dt found s
  | .formatComplete dt => Sys2Proof.Machine.execFormatComplete dt s
  | .journalFormat dt who value => Sys2Proof.Machine.execJournalFormat dt who value s
  | .journalSeek dt who => Sys2Proof.Machine.execJournalSeek dt who s
  | .journalDataRead dt who unreadable => Sys2Proof.Machine.execJournalDataRead dt who unreadable s
  | .cycleOpen dt who => Sys2Proof.Machine.execCycleOpen dt who s
  | .cycleCheck dt who => Sys2Proof.Machine.execCycleCheck dt who s
  | .cycleSet dt who => Sys2Proof.Machine.execCycleSet dt who s
  | .cycleAbandon dt who => Sys2Proof.Machine.execCycleAbandon dt who s
  | .loadFactoryDefaults dt who => Sys2Proof.Machine.execLoadFactoryDefaults dt who s
  | .checkComplete dt => Sys2Proof.Machine.execCheckComplete dt s
  | .cycleCommit dt => Sys2Proof.Machine.execCycleCommit dt s
  | .blockingSetPoint dt => Sys2Proof.Machine.execBlockingSetPoint dt s
  | .copyWriteComplete dt ok => Sys2Proof.Machine.execCopyWriteComplete dt ok s
  | .cycleTimeout dt => Sys2Proof.Machine.execCycleTimeout dt s
  | .stgWrite dt who index sub data => Sys2Proof.Machine.execStgWrite dt who index sub data s
  | .bndWrite dt who index sub data => Sys2Proof.Machine.execBndWrite dt who index sub data s
  | .registerWrite dt who index sub data => Sys2Proof.Machine.execRegisterWrite dt who index sub data s
  | .flagClear dt who index sub mask => Sys2Proof.Machine.execFlagClear dt who index sub mask s
  | .statisticRead dt who index sub => Sys2Proof.Machine.execStatisticRead dt who index sub s
  | .clientReleaseTimeout dt slot => Sys2Proof.Machine.execClientReleaseTimeout dt slot s
  | .clientRelease dt slot => Sys2Proof.Machine.execClientRelease dt slot s
  | .lapRead dt port ip udp bytes => Sys2Proof.Machine.execLapRead dt port ip udp bytes s
  | .lapWrite dt port ip udp bytes => Sys2Proof.Machine.execLapWrite dt port ip udp bytes s
  | .lapClose dt port ip udp bytes => Sys2Proof.Machine.execLapClose dt port ip udp bytes s
  | .lapEcho dt port ip udp bytes => Sys2Proof.Machine.execLapEcho dt port ip udp bytes s
  | .spiReadRequest dt bytes => Sys2Proof.Machine.execSpiReadRequest dt bytes s
  | .spiWriteRequest dt bytes => Sys2Proof.Machine.execSpiWriteRequest dt bytes s
  | .spiFetch dt clocked => Sys2Proof.Machine.execSpiFetch dt clocked s
  | .eventLogWrite dt => Sys2Proof.Machine.execEventLogWrite dt s
  | .alertAcknowledge dt row => Sys2Proof.Machine.execAlertAcknowledge dt row s
  | .acknowledgeAll dt => Sys2Proof.Machine.execAcknowledgeAll dt s
  | .acnAcknowledge dt => Sys2Proof.Machine.execAcnAcknowledge dt s
  | .acnRepeatRequest dt => Sys2Proof.Machine.execAcnRepeatRequest dt s
  | .alfRepeat dt row => Sys2Proof.Machine.execAlfRepeat dt row s
  | .alcEmission dt => Sys2Proof.Machine.execAlcEmission dt s
  | .eventLogSeek dt who => Sys2Proof.Machine.execEventLogSeek dt who s
  | .eventLogDataRead dt who => Sys2Proof.Machine.execEventLogDataRead dt who s
  | .clearLog dt who value => Sys2Proof.Machine.execClearLog dt who value s
  | .phlxStatus dt => Sys2Proof.Machine.execPhlxStatus dt s
  | .phlxWheelReport dt => Sys2Proof.Machine.execPhlxWheelReport dt s
  | .laneUp dt lane => Sys2Proof.Machine.execLaneUp dt lane s
  | .laneLost dt lane => Sys2Proof.Machine.execLaneLost dt lane s
  | .helloSend dt => Sys2Proof.Machine.execHelloSend dt s
  | .helloReceived dt hello => Sys2Proof.Machine.execHelloReceived dt hello s
  | .heartbeatSend dt => Sys2Proof.Machine.execHeartbeatSend dt s
  | .heartbeatReceived dt hb => Sys2Proof.Machine.execHeartbeatReceived dt hb s
  | .heartbeatLost dt => Sys2Proof.Machine.execHeartbeatLost dt s
  | .beatOutToggle dt => Sys2Proof.Machine.execBeatOutToggle dt s
  | .beatInEdge dt => Sys2Proof.Machine.execBeatInEdge dt s
  | .beatInAbsent dt => Sys2Proof.Machine.execBeatInAbsent dt s
  | .mirrorReceived dt items => Sys2Proof.Machine.execMirrorReceived dt items s
  | .arbNFall dt => Sys2Proof.Machine.execArbNFall dt s
  | .arbNRise dt => Sys2Proof.Machine.execArbNRise dt s
  | .takingEntry dt => Sys2Proof.Machine.execTakingEntry dt s
  | .takingConfirm dt => Sys2Proof.Machine.execTakingConfirm dt s
  | .claimTimerExpiry dt => Sys2Proof.Machine.execClaimTimerExpiry dt s
  | .witnessDatagram dt port => Sys2Proof.Machine.execWitnessDatagram dt port s
  | .witnessHoldExpiry dt => Sys2Proof.Machine.execWitnessHoldExpiry dt s
  | .revertHoldExpiry dt => Sys2Proof.Machine.execRevertHoldExpiry dt s
  | .handoverCommand dt who => Sys2Proof.Machine.execHandoverCommand dt who s
  | .handoverRequest dt reason => Sys2Proof.Machine.execHandoverRequest dt reason s
  | .handoverAgree dt setPoint => Sys2Proof.Machine.execHandoverAgree dt setPoint s
  | .handoverSetPoint dt => Sys2Proof.Machine.execHandoverSetPoint dt s
  | .portRelease dt port items => Sys2Proof.Machine.execPortRelease dt port items s
  | .serialOverlapExpiry dt port => Sys2Proof.Machine.execSerialOverlapExpiry dt port s
  | .incomingStartDelay dt port => Sys2Proof.Machine.execIncomingStartDelay dt port s
  | .shadow dt resync offset data last => Sys2Proof.Machine.execShadow dt resync offset data last s
  | .checkResult dt pass count entries => Sys2Proof.Machine.execCheckResult dt pass count entries s
  | .set dt setPoint generation => Sys2Proof.Machine.execSet dt setPoint generation s
  | .setAck dt setPoint => Sys2Proof.Machine.execSetAck dt setPoint s
  | .resyncTimer dt => Sys2Proof.Machine.execResyncTimer dt s
  | .powerOn dt => Sys2Proof.Machine.execPowerOn dt s
  | .resetNAssert dt => Sys2Proof.Machine.execResetNAssert dt s
  | .resetNRelease dt unitSel prefN testEn imageA imageB trained => Sys2Proof.Machine.execResetNRelease dt unitSel prefN testEn imageA imageB trained s
  | .brownOut dt rail => Sys2Proof.Machine.execBrownOut dt rail s
  | .bootWatchdog dt => Sys2Proof.Machine.execBootWatchdog dt s
  | .restart dt who => Sys2Proof.Machine.execRestart dt who s
  | .restartIntoRecovery dt who => Sys2Proof.Machine.execRestartIntoRecovery dt who s
  | .imageOpen dt who => Sys2Proof.Machine.execImageOpen dt who s
  | .imageDataWrite dt who data => Sys2Proof.Machine.execImageDataWrite dt who data s
  | .imageVerify dt who => Sys2Proof.Machine.execImageVerify dt who s
  | .verifyComplete dt facts => Sys2Proof.Machine.execVerifyComplete dt facts s
  | .imageActivate dt who => Sys2Proof.Machine.execImageActivate dt who s
  | .imageConfirm dt who => Sys2Proof.Machine.execImageConfirm dt who s
  | .imagePrevious dt who => Sys2Proof.Machine.execImagePrevious dt who s
  | .raiseFloor dt who => Sys2Proof.Machine.execRaiseFloor dt who s
  | .confirmTimeExpiry dt => Sys2Proof.Machine.execConfirmTimeExpiry dt s
  | .startFailuresClear dt => Sys2Proof.Machine.execStartFailuresClear dt s
  | .burnCustomerHash dt who value => Sys2Proof.Machine.execBurnCustomerHash dt who value s
  | .copyRewrite dt => Sys2Proof.Machine.execCopyRewrite dt s
  | .domainResetEnter dt d => Sys2Proof.Machine.execDomainResetEnter dt d s
  | .domainResetExit dt d => Sys2Proof.Machine.execDomainResetExit dt d s
  | .domainResetCommand dt who d => Sys2Proof.Machine.execDomainResetCommand dt who d s
  | .supLockstep dt => Sys2Proof.Machine.execSupLockstep dt s
  | .ctrlLockstep dt => Sys2Proof.Machine.execCtrlLockstep dt s
  | .dozeRequest dt who => Sys2Proof.Machine.execDozeRequest dt who s
  | .listenRequest dt who => Sys2Proof.Machine.execListenRequest dt who s
  | .deepStandbyRequest dt who => Sys2Proof.Machine.execDeepStandbyRequest dt who s
  | .wakeIn dt n level => Sys2Proof.Machine.execWakeIn dt n level s
  | .wakeTimer dt => Sys2Proof.Machine.execWakeTimer dt s
  | .surgeEntry dt => Sys2Proof.Machine.execSurgeEntry dt s
  | .surgeSettleCheck dt coreMv => Sys2Proof.Machine.execSurgeSettleCheck dt coreMv s
  | .surgeLoadEvaluation dt busiest => Sys2Proof.Machine.execSurgeLoadEvaluation dt busiest s
  | .temperatureSample dt s0 s1 s2 s3 coreMa => Sys2Proof.Machine.execTemperatureSample dt s0 s1 s2 s3 coreMa s
  | .coreOvercurrent dt coreMa => Sys2Proof.Machine.execCoreOvercurrent dt coreMa s
  | .surgeSecond dt => Sys2Proof.Machine.execSurgeSecond dt s
  | .rearmWaitExpiry dt => Sys2Proof.Machine.execRearmWaitExpiry dt s
  | .thermalShutdown dt tenths => Sys2Proof.Machine.execThermalShutdown dt tenths s
  | .shutdownRelease dt aoTenths => Sys2Proof.Machine.execShutdownRelease dt aoTenths s
  | .receiveMarkIdle dt port => Sys2Proof.Machine.execReceiveMarkIdle dt port s
  | .driverLeadExpiry dt port => Sys2Proof.Machine.execDriverLeadExpiry dt port s
  | .internalResetRelease dt => Sys2Proof.Machine.execInternalResetRelease dt s
  | .externalClockStop dt clk => Sys2Proof.Machine.execExternalClockStop dt clk s
  | .externalClockResume dt clk => Sys2Proof.Machine.execExternalClockResume dt clk s
  | .imageActivationStart dt => Sys2Proof.Machine.execImageActivationStart dt s
  | .ledgerHourBurned dt => Sys2Proof.Machine.execLedgerHourBurned dt s

end Sys2Proof.Machine
end

