-- ==== Sys2Proof/Safety.lean ====
section
/-! DEFINITION. The terms in which claims about the block are stated: a command runs, its time, the unit's lasting
invariant, and an access to the dictionary that is admitted. -/

namespace Sys2Proof

open Sys2Proof.Machine

/-- The fabric cycles that have passed since the command before. -/
def Instr.dt : Instr → Nat
  | .ppsEdge dt .. | .zdaReceived dt | .ppsLossTimeout dt | .timeSourceRevert dt | .ptpLossTimeout dt ..
  | .shaftQuadratureEdge dt .. | .shaftIndex dt | .shaftLockTimer dt | .shaftStandstill dt | .mainsZeroCrossing dt ..
  | .mainsLossTimeout dt | .seaWheelLossTimeout dt | .appointmentDue dt .. | .ppsOutPulseStart dt
  | .ppsOutPulseEnd dt | .whlEvtDispatch dt .. | .whlEvtPulseEnd dt .. | .cardSerialCharacter dt ..
  | .cardDatagram dt .. | .cardCanMessage dt .. | .cardReceivedPdo dt | .sourceLate dt .. | .sourceStale dt ..
  | .voteCountingRecord dt .. | .groupHoldExpiry dt .. | .clearDiscoveryList dt | .brambleMatch dt ..
  | .shaperEmission dt .. | .composeEntry dt .. | .controlTakeRecord dt | .modelRecompute dt
  | .tankStaleTimeout dt .. | .readingMeanInterval dt .. | .gaugeSampleSet dt .. | .fallbackSample dt ..
  | .freeReportSample dt .. | .cascadeInnerStep dt .. | .cascadeStepComplete dt .. | .cascadeRelease dt ..
  | .cascadeHoldCommand dt .. | .rebase dt | .readmit dt .. | .syncDispatch dt | .serialCharacterReceived dt ..
  | .falseStart dt .. | .breakEnd dt .. | .stuckLow dt .. | .stuckProbe dt .. | .lineRecovered dt ..
  | .serialTxStart dt .. | .serialTxDone dt .. | .driverLagExpiry dt .. | .dividerWrite dt ..
  | .serialStartEdgeWake dt .. | .autobaudMeasurement dt .. | .frameSlotStart dt .. | .frameResponseDeadline dt ..
  | .frameHeaderObserved dt .. | .busShort dt .. | .classificationWindowEnd dt .. | .loopConversion dt ..
  | .phyPoll dt .. | .ethFrameReceived dt .. | .arpFrame dt .. | .arpRetry dt .. | .arpResolutionTimeout dt ..
  | .arpEntryExpiry dt .. | .icmpEchoRequest dt .. | .igmpQuery dt .. | .igmpReportDelay dt .. | .macFrameStart dt ..
  | .macFrameEnd dt .. | .txUnderrun dt .. | .pauseTimerExpiry dt .. | .pauseWatchdog dt .. | .pauseHoldoffEnd dt ..
  | .removeStampHead dt .. | .ptpAnnounce dt .. | .ptpAnnounceTimeout dt .. | .ptpSync dt .. | .ptpFollowUp dt ..
  | .ptpDelayResp dt .. | .ptpExchangeTimeout dt .. | .macCounterSample dt .. | .clearCaptureRing dt ..
  | .phyRegisterRead dt .. | .phyRegisterWrite dt .. | .canFrameReceived dt .. | .canFrameSent dt ..
  | .canBusError dt .. | .busOffDelay dt .. | .busOffRecovered dt .. | .addressClaim dt ..
  | .addressClaimComplete dt .. | .pgnRequest dt .. | .fastPacketTimeout dt .. | .bamTimeout dt .. | .nmtStart dt ..
  | .nmtStop dt .. | .nmtEnterPreOperational dt .. | .nmtResetNode dt .. | .nmtResetCommunication dt ..
  | .sdoExpeditedDownload dt .. | .sdoExpeditedUpload dt .. | .sdoDownloadInitiate dt .. | .sdoDownloadSegment dt ..
  | .sdoUploadInitiate dt .. | .sdoUploadSegment dt .. | .sdoAbort dt | .sdoSegmentTimeout dt | .canopenHeartbeat dt
  | .emcyInhibitExpiry dt | .queueStall dt .. | .scrubRead dt .. | .unsettled dt .. | .realignRequest dt ..
  | .realignAcknowledge dt .. | .realignAccept dt .. | .realignResume dt .. | .journalTakeRecord dt
  | .journalFlush dt | .flushNow dt | .pageProgrammed dt .. | .blockErased dt .. | .nandTimeout dt ..
  | .mountComplete dt .. | .formatComplete dt | .journalFormat dt .. | .journalSeek dt .. | .journalDataRead dt ..
  | .cycleOpen dt .. | .cycleCheck dt .. | .cycleSet dt .. | .cycleAbandon dt .. | .loadFactoryDefaults dt ..
  | .checkComplete dt | .cycleCommit dt | .blockingSetPoint dt | .copyWriteComplete dt .. | .cycleTimeout dt
  | .stgWrite dt .. | .bndWrite dt .. | .registerWrite dt .. | .flagClear dt .. | .statisticRead dt ..
  | .clientReleaseTimeout dt .. | .clientRelease dt .. | .lapRead dt .. | .lapWrite dt .. | .lapClose dt ..
  | .lapEcho dt .. | .spiReadRequest dt .. | .spiWriteRequest dt .. | .spiFetch dt .. | .eventLogWrite dt
  | .alertAcknowledge dt .. | .acknowledgeAll dt | .acnAcknowledge dt | .acnRepeatRequest dt | .alfRepeat dt ..
  | .alcEmission dt | .eventLogSeek dt .. | .eventLogDataRead dt .. | .clearLog dt .. | .phlxStatus dt
  | .phlxWheelReport dt | .laneUp dt .. | .laneLost dt .. | .helloSend dt | .helloReceived dt .. | .heartbeatSend dt
  | .heartbeatReceived dt .. | .heartbeatLost dt | .beatOutToggle dt | .beatInEdge dt | .beatInAbsent dt
  | .mirrorReceived dt .. | .arbNFall dt | .arbNRise dt | .takingEntry dt | .takingConfirm dt | .claimTimerExpiry dt
  | .witnessDatagram dt .. | .witnessHoldExpiry dt | .revertHoldExpiry dt | .handoverCommand dt ..
  | .handoverRequest dt .. | .handoverAgree dt .. | .handoverSetPoint dt | .portRelease dt ..
  | .serialOverlapExpiry dt .. | .incomingStartDelay dt .. | .shadow dt .. | .checkResult dt .. | .set dt ..
  | .setAck dt .. | .resyncTimer dt | .powerOn dt | .resetNAssert dt | .resetNRelease dt .. | .brownOut dt ..
  | .bootWatchdog dt | .restart dt .. | .restartIntoRecovery dt .. | .imageOpen dt .. | .imageDataWrite dt ..
  | .imageVerify dt .. | .verifyComplete dt .. | .imageActivate dt .. | .imageConfirm dt .. | .imagePrevious dt ..
  | .raiseFloor dt .. | .confirmTimeExpiry dt | .startFailuresClear dt | .burnCustomerHash dt .. | .copyRewrite dt
  | .domainResetEnter dt .. | .domainResetExit dt .. | .domainResetCommand dt .. | .supLockstep dt | .ctrlLockstep dt
  | .dozeRequest dt .. | .listenRequest dt .. | .deepStandbyRequest dt .. | .wakeIn dt .. | .wakeTimer dt
  | .surgeEntry dt | .surgeSettleCheck dt .. | .surgeLoadEvaluation dt .. | .temperatureSample dt ..
  | .coreOvercurrent dt .. | .surgeSecond dt | .rearmWaitExpiry dt | .thermalShutdown dt .. | .shutdownRelease dt ..
  | .receiveMarkIdle dt .. | .driverLeadExpiry dt .. | .internalResetRelease dt | .externalClockStop dt ..
  | .externalClockResume dt .. | .imageActivationStart dt | .ledgerHourBurned dt => dt

end Sys2Proof

namespace Sys2Proof.Machine

open Sys2Proof

/-- The command has an effect: it ends in no fault and no refusal. -/
def Runs (c : Instr) (s : State) : Prop := ∃ t, exec c s = .next t

/-- The wear ledger grants no more than its 2628 hours, an hour at a time (R356). -/
def State.ledgerOk (s : State) : Prop :=
  s.power.burned ≤ 2628 ∧ (s.power.burning = true → s.power.burned < 2628) ∧ s.power.left ≤ 3600

/-- What holds of a unit whatever it is told: fabric time is part of true time and was zeroed in the past, the floor is
among the fuses there are, and the wear ledger is not overdrawn. -/
def State.Inv (s : State) : Prop := s.fabricZero ≤ s.fc ∧ s.fc ≤ s.now ∧ s.boot.floor ≤ 64 ∧ s.ledgerOk

/-- A client that holds slot `n` may make an access to an object now: SUP serves it, its cycle was not abandoned behind
its back, and the boot ROM alone reaches the object where nothing else runs. -/
def Admitted (who : ClientId) (n index : Nat) (s : State) : Prop :=
  s.serves = true ∧ s.slotOf who = some n ∧ s.dict.gone.contains who = false ∧ (s.boot.bootRom = true → romReaches index = true)

/-- The state in which an admitted access acts: the access counted, the client's slot renewed (R269, R286). -/
def State.accessed (who : ClientId) (n : Nat) (s : State) : State :=
  (s.stat 0x4870 (pathOf who) 2 1).modClient n (fun c => { c with last := s.now })

/-- A value is one that a type holds (R265): a number within its width, or a string no longer than a length field tells. -/
def Val.fits (t : Ty) (v : Val) : Prop :=
  match t, v with
  | .uns n, .num x => n ≤ 8 ∧ 0 ≤ x ∧ x < 256 ^ n
  | .int n, .num x => 0 < n ∧ n ≤ 8 ∧ -(2 ^ (8 * n - 1) : Int) ≤ x ∧ x < 2 ^ (8 * n - 1)
  | .real32, .num x => 0 ≤ x ∧ x < 2 ^ 32
  | .text _, .bytes b => b.length < 0x10000
  | .octets _, .bytes b => b.length < 0x10000
  | .domain, .bytes b => b.length < 0x10000
  | _, _ => False

/-- An entry that a sealed configuration may hold (R337): a value of effect class STG or BND that differs from its default, of
its type, in a row that its object has. -/
def sealable (u : UnitId) (e : Key × Val) : Prop :=
  ∃ o, findObj e.1.index e.1.sub = some o ∧ isStored e.1.index e.1.sub = true ∧ Val.fits o.ty e.2 ∧ e.2 ≠ objDefault u e.1 ∧
    e.1.index < 0x10000 ∧ e.1.sub < 0x100 ∧ (if rowField e.1 = 0xFFFF then e.1.row = 0 else e.1.row < 0xFFFF)

end Sys2Proof.Machine
end

