-- ==== Sys2Proof/Certificates/Slice0/Obligations.lean ====
section
/-! DEFINITION. The statements for the provers, chapter by chapter of the manual. In each, `u` is the state at the moment of
the command: the state before it, after the time that has passed since the command before. -/

open Sys2Proof Sys2Proof.Machine

/-- A step runs the command at the front of the queue, on the state with the rest of the queue. On an empty queue one fabric
cycle passes, which is the model's choice (log entry 2). -/
def Obligations.StepRunsTheFrontCommand : Prop :=
  (∀ (c : Instr) (s : State), step { s with pending := c :: s.pending } = exec c s) ∧
  (∀ s : State, s.pending = [] → step s = .next (s.elapse 1))

/-- Every command has an effect in every state. One with a frame or data that no bus can carry acts as one that can be given,
for a free value in the place of what the manual does not give it, which is the model's choice (log entry 9). -/
def Obligations.WellFormedCommandsRun : Prop :=
  (∀ (c : Instr) (s : State), Runs c s) ∧
  ∀ (s : State) (dt : Nat) (index : BitVec 16) (sub : Byte) (sized toggle last : Bool) (data : List Byte) (p : Fin 3) (f : CanFrame),
    let whole := expeditedWellFormed sized data
    let part := segmentWellFormed data
    let g := legalFrame s.freeNat f
    let four : List Byte := if whole then data else leBytes 4 s.freeNat
    let seven : List Byte := if part then data else leBytes 7 s.freeNat
    g.wellFormed = true ∧ exec (.canFrameReceived dt p f) s = exec (.canFrameReceived dt p g) (s.spend (!f.wellFormed)) ∧
    expeditedWellFormed sized four = true ∧
    exec (.sdoExpeditedDownload dt index sub sized data) s =
      exec (.sdoExpeditedDownload dt index sub sized four) (s.spend (!whole)) ∧
    segmentWellFormed seven = true ∧
    exec (.sdoDownloadSegment dt toggle last data) s = exec (.sdoDownloadSegment dt toggle last seven) (s.spend (!part))

/-- The state after reset is one of those that `State.Inv` describes. -/
def Obligations.ResetMeetsTheInvariant : Prop :=
  State.reset.Inv

/-- Every step keeps the invariant: FABRIC time is part of true time and was zeroed in the past, the security floor stays among
its 64 fuses, and the wear ledger is not overdrawn. -/
def Obligations.StepsKeepTheInvariant : Prop :=
  ∀ s t : State, s.Inv → step s = .next t → t.Inv

/-- Every command, in every state, has an effect, and whatever it is: true time advances by the command's time, the queue is
left alone, the vendor key hash and the serial number stay, a customer key hash once burned stays, and neither the security
floor nor the hours burned of the wear ledger ever fall. -/
def Obligations.CommandsKeepFusesAndTime : Prop :=
  ∀ (c : Instr) (s : State), ∃ t, exec c s = .next t ∧
    t.now = s.now + c.dt ∧ t.pending = s.pending ∧ t.boot.vendorHash = s.boot.vendorHash ∧ t.boot.serial = s.boot.serial ∧
    (s.boot.customerHash ≠ 0 → t.boot.customerHash = s.boot.customerHash) ∧ s.boot.floor ≤ t.boot.floor ∧ s.power.burned ≤ t.power.burned

/-- R337: a configuration in canonical form is read back from its sealed content value for value: no entry is lost, changed or
moved to another row. -/
def Obligations.SealedContentReadsBack : Prop :=
  ∀ (u : UnitId) (c : Cfg), Cfg.wf c = true → (∀ e ∈ c, sealable u e) → contentCfg u (contentBytes c) = c

/-- R151, R152: the protected identifier of a frame holds the identifier and its two parity bits, and the checksum is the
inverse of the 8-bit sum with end-around carry: of the data bytes where it is classic or the identifier is 60, of the protected
identifier and the data bytes where it is enhanced. -/
def Obligations.FrameIdentifierAndChecksum : Prop :=
  (∀ id : BitVec 6, protectedId id.toNat < 256 ∧ (∀ k : Nat, k < 6 → (protectedId id.toNat).testBit k = id.getLsbD k) ∧
    (protectedId id.toNat).testBit 6 = (id.getLsbD 0 ^^ id.getLsbD 1 ^^ id.getLsbD 2 ^^ id.getLsbD 4) ∧
    (protectedId id.toNat).testBit 7 = !(id.getLsbD 1 ^^ id.getLsbD 3 ^^ id.getLsbD 4 ^^ id.getLsbD 5)) ∧
  protectedId 0x10 = 0x50 ∧
  (∀ (enhanced : Bool) (id : Nat) (data : List Byte), id < 64 →
    let covered := (if enhanced = true ∧ id ≠ 60 then [protectedId id] else []) ++ data.map BitVec.toNat
    let sum := covered.foldl (fun a b => (a + b) % 256 + (a + b) / 256) 0
    sum < 256 ∧ frameSum enhanced id data = 255 - sum)

/-- R220: CANOPEN_HEARTBEAT. In Pre-operational, Operational and Stopped the heartbeat of COB-ID 0x700 + node ID goes to the
transmit queue of C2 every 0x1017 ms, with the state code as its one byte; with a period of 0, in Initialising, or before the
period has run, nothing changes. -/
def Obligations.CanopenHeartbeat : Prop :=
  ∀ (s : State) (dt : Nat), let u := s.elapse dt
    let co := u.canOpen
    let beat : CanTx := { frame := baseFrame (0x700 + u.nodeId) [BitVec.ofNat 8 co.nmt], kind := .heartbeat }
    let period := u.cn 0x1017 0 0
    let room := co.waiting = [] ∧ (u.cp 2).txq = [] ∧ ((u.cp 2).frames.filter CanTx.fromSup).length < 3 ∧ u.hasRoom 0x56 = true
    u.works domSup = true → u.works domCan = true →
    (u.canOn 2 = false ∨ period = 0 ∨ co.nmt = 0 ∨ u.fc - co.lastBeat < msCycles period → exec (.canopenHeartbeat dt) s = .next u) ∧
    (u.canOn 2 = true → period ≠ 0 → co.nmt = 127 ∨ co.nmt = 5 ∨ co.nmt = 4 → msCycles period ≤ u.fc - co.lastBeat →
      ∃ t, exec (.canopenHeartbeat dt) s = .next t ∧ (beat ∈ (t.cp 2).frames ∨ beat ∈ (t.cp 2).supWait ∨ beat ∈ t.canOpen.waiting) ∧
        t.canOpen.lastBeat = u.fc ∧ t.canOpen.nmt = co.nmt ∧ (∀ q, q ≠ 2 → t.cp q = u.cp q) ∧
        t = { u with canOpen := t.canOpen, can := t.can, stats := t.stats, fabric := t.fabric } ∧
        (room → (t.cp 2).frames = (u.cp 2).frames ++ [beat] ∧ t.canOpen = { co with lastBeat := u.fc }))

/-- R28, R29: an accepted PPS_IN edge (PPS listed as a source, the configured polarity, no edge accepted before, no label to
carry) starts the chain of edges, at the wheel position of the moment of the edge less its delay. An edge that comes more than
100 µs off one second is rejected, and only counted until the third in a row, which loses PPS; its label is carried on. An edge
one second after the one that a label was given to carries the label on by one; with the wheel unreferenced or coasting it is
then measured. Every other block is left alone. The oldest ZDA record is consumed. In association mode 1 its label, plus one,
waits with the earlier ones for its edge; in mode 0 it labels the latest edge in the 0.95 s before it, and with no accepted edge
there it labels nothing. -/
def Obligations.PpsEdgesAndZdaLabels : Prop :=
  (∀ (s : State) (dt : Nat) (rising : Bool), let u := s.elapse dt
    let p := u.wheels.pps
    let at_ : Int := 5 * (u.fc : Int) - 2 * u.ci 0x2008 5 0
    let pos : WheelPos := BitVec.ofInt 64 (((u.wheels.time.pos.toNat : Rat) - (u.wheels.time.inc : Rat) * (2 * u.ci 0x2008 5 0 : Int) / 5) / oneUnit).floor
    u.works domFabric = true → 1 ∈ u.sources → rising = decide (u.cn 0x2008 4 0 = 0) → u.wheels.time.state ≠ .locked →
    (p.seen = false → p.label = none → p.ahead = [] →
      exec (.ppsEdge dt rising) s = .next (u.modPps (fun p => { p with
        seen := true, lastEdge := some at_, rejectRun := 0, edges := ({ at_ := at_, label := none, pos := pos } :: p.edges).take 2 }))) ∧
    (∀ l, p.seen = true → p.lastEdge = some l → 200000 < (at_ - l - halfNsPerSec).natAbs →
      (p.rejectRun < 2 →
        exec (.ppsEdge dt rising) s = .next (u.modPps (fun p => { p with rejected := p.rejected + 1, rejectRun := p.rejectRun + 1 }))) ∧
      (2 ≤ p.rejectRun →
        ∃ t, exec (.ppsEdge dt rising) s = .next t ∧ t.wheels.pps.present = false ∧ t.wheels.pps.seen = false ∧
          t.wheels.pps.rejected = p.rejected + 1 ∧ t.wheels.pps.label = p.label ∧
          t = { u with wheels := t.wheels, eth := t.eth, health := t.health })) ∧
    (∀ l label, p.seen = true → p.lastEdge = some l → (at_ - l - halfNsPerSec).natAbs ≤ 200000 → p.label = some (l, label) →
      label < 2 ^ 32 - 1 → p.ahead = [] → p.present = true → u.wheels.time.source = 0 → u.wheels.time.state ≠ .acquiring →
      ∃ t, exec (.ppsEdge dt rising) s = .next t ∧ t.wheels.pps.seen = true ∧ t.wheels.pps.lastEdge = some at_ ∧
        t.wheels.pps.label = some (at_, label + 1) ∧ t.wheels.pps.rejectRun = 0 ∧ t.wheels.pps.rejected = p.rejected ∧
        t.wheels.time.state ≠ u.wheels.time.state ∧ t = { u with wheels := t.wheels, eth := t.eth, health := t.health })) ∧
  (∀ (s : State) (dt : Nat) (r : FibreRecord) (rest : List FibreRecord) (label : Nat), let u := s.elapse dt
    let p := u.wheels.pps
    let tz : Int := 5 * ((r.pip.cycle.toNat + u.fabricZero : Nat) : Int)
    u.works domFabric = true → u.wheels.zdaIn = r :: rest → u.zdaLabel r = some label →
    (u.cn 0x2008 3 0 = 1 →
      exec (.zdaReceived dt) s = .next { u with wheels := { u.wheels with
        zdaIn := rest, pps := { p with ahead := p.ahead ++ [(tz, (label + 1) % 2 ^ 32)] } } }) ∧
    (u.cn 0x2008 3 0 ≠ 1 → p.edges = [] →
      exec (.zdaReceived dt) s = .next { u with wheels := { u.wheels with zdaIn := rest } }) ∧
    (∀ e es, u.cn 0x2008 3 0 ≠ 1 → p.edges = e :: es → 0 ≤ tz - e.at_ → tz - e.at_ ≤ 1900000000 → e.label = none →
      u.wheels.time.state = .unref ∨ u.wheels.time.state = .acquiring →
      ∃ t, exec (.zdaReceived dt) s = .next t ∧ t.wheels.zdaIn = rest ∧ t.wheels.pps.present = true ∧
        t.wheels.pps.label = some (e.at_, label) ∧ t.wheels.pps.disagreed = p.disagreed ∧ t.wheels.pps.disagreeRun = 0 ∧
        t = { u with wheels := t.wheels, eth := t.eth, health := t.health }))

/-- R27, R29, R32: a PPS chain without an accepted edge for 2.5 s is lost and its label is carried on; an IEEE 1588 port without
an exchange for 4 s is no longer present; in both cases the source is chosen again, and nothing but the wheels, the
qualification times of the two ports and the events changes. With time still to go neither has any effect. In LOCKED, a source
listed first, qualified and for the revert hold, while another is active and less than 1 µs off, becomes the active source in
LOCKED, and nothing else but the leap count it brings changes; one that is further off becomes the active source through
ACQUIRING. While no source is listed before the active one, nothing changes at all. -/
def Obligations.TimeSourceLossAndRevert : Prop :=
  (∀ (s : State) (dt : Nat), let u := s.elapse dt
    u.works domFabric = true →
    (∀ l, u.wheels.pps.lastEdge = some l →
      (u.wheels.pps.seen = true → 5000000000 ≤ 5 * (u.fc : Int) - l →
        ∃ t, exec (.ppsLossTimeout dt) s = .next t ∧ t.wheels.pps.present = false ∧ t.wheels.pps.seen = false ∧
          t.wheels.pps.good = 0 ∧ t.wheels.pps.label = u.wheels.pps.label ∧
          t = { u with wheels := t.wheels, eth := t.eth, health := t.health }) ∧
      (5 * (u.fc : Int) - l < 5000000000 → exec (.ppsLossTimeout dt) s = .next u)) ∧
    (∀ (p : Fin 2) (l : Nat), (u.ptpOf (p.val + 2)).lastDone = some l →
      ((u.ptpOf (p.val + 2)).present = true → 4 * cyclesPerSec ≤ u.fc - l →
        ∃ t, exec (.ptpLossTimeout dt p) s = .next t ∧ (t.ptpOf (p.val + 2)).present = false ∧ (t.ptpOf (p.val + 2)).good = 0 ∧
          t = { u with wheels := t.wheels, eth := t.eth, health := t.health }) ∧
      (u.fc - l < 4 * cyclesPerSec → exec (.ptpLossTimeout dt p) s = .next u))) ∧
  (∀ (s : State) (dt src since : Nat), let u := s.elapse dt
    u.works domFabric = true → u.wheels.time.state = .locked → u.sources.head? = some src →
    (u.wheels.time.source = src → exec (.timeSourceRevert dt) s = .next u) ∧
    (u.wheels.time.source ≠ src → u.qualified src = true → u.qualSince src = some since →
      u.cn 0x2008 9 0 * cyclesPerSec ≤ u.fc - since → (u.offsetOf src).abs < 1 / 1000000 →
      ∃ t, exec (.timeSourceRevert dt) s = .next t ∧ (t.leap = u.leap → t.wheels.leaps = u.wheels.leaps) ∧
        t = { u with wheels := { u.wheels with time := { u.wheels.time with source := src }, leaps := t.wheels.leaps } }) ∧
    (u.wheels.time.source ≠ src → u.qualified src = true → u.qualSince src = some since →
      u.cn 0x2008 9 0 * cyclesPerSec ≤ u.fc - since → 1 / 1000000 ≤ (u.offsetOf src).abs →
      ∃ t, exec (.timeSourceRevert dt) s = .next t ∧ t.wheels.time.source = src ∧ t.wheels.loop.ePrev = none ∧
        t = { u with wheels := t.wheels, health := t.health }))

/-- R33, R35: a legal quadrature transition moves the count by one in its direction and leaves the encoder at the new levels; a
transition of both channels is illegal, is counted and moves nothing; a transition within the filter time or no transition has
no effect. Only the wheels, the appointments of the shaft and the events can change. An index within two counts of a whole turn,
in LOCKED, clears the corrections and moves nothing; without the index required, or after an encoder fault, an index outside
LOCKED has no effect, and the first one else sets the count to the whole turn at or after it; 2 s of legal quadrature lock the
wheel where no index is required; the stall time without a count stands the wheel still. -/
def Obligations.ShaftWheelFollowsTheEncoder : Prop :=
  (∀ (s : State) (dt : Nat) (a b : Bool), let u := s.elapse dt
    let e := u.wheels.enc
    let fwd := (if a != e.a then a != b else a == b) == decide (u.cn 0x2009 3 0 = 0)
    u.works domFabric = true →
    (a = e.a → b = e.b → exec (.shaftQuadratureEdge dt a b) s = .next u) ∧
    ((∀ l, e.edgeAt = some l → (u.cn 0x2009 2 0 : Rat) ≤ ((u.fc - l : Nat) : Rat) * 5 / 2) →
      ((a != e.a) ≠ (b != e.b) → e.faulted = false →
        ∃ t, exec (.shaftQuadratureEdge dt a b) s = .next t ∧ t.wheels.enc.count = e.count + (if fwd then 1 else -1) ∧
          t.wheels.enc.a = a ∧ t.wheels.enc.b = b ∧ t.wheels.enc.ahead = fwd ∧ t.wheels.enc.lastEdge = some u.fc ∧
          t.wheels.enc.edgeAt = some u.fc ∧ t.wheels.enc.standstill = false ∧ t = { u with wheels := t.wheels, appts := t.appts, health := t.health }) ∧
      (a ≠ e.a → b ≠ e.b → e.illegalAt.length < 3 →
        exec (.shaftQuadratureEdge dt a b) s = .next (u.modEnc (fun e => { e with
          a := a, b := b, illegal := e.illegal + 1, illegalAt := e.travelled :: e.illegalAt, legalSince := none
          edgeAt := some u.fc }))))) ∧
  (∀ (s : State) (dt : Nat), let u := s.elapse dt
    let e := u.wheels.enc
    let n : Int := u.countsPerTurn
    u.works domFabric = true →
    (u.wheels.shaft.state = .locked → (e.count - (2 * e.count + n) / (2 * n) * n).natAbs ≤ 2 →
      exec (.shaftIndex dt) s = .next (u.modEnc (fun e => { e with corrections := 0, indexAt := some e.count }))) ∧
    (u.wheels.shaft.state ≠ .locked → u.cn 0x2009 6 0 = 0 ∨ e.faulted = true → exec (.shaftIndex dt) s = .next u) ∧
    (u.wheels.shaft.state ≠ .locked → u.cn 0x2009 6 0 ≠ 0 → e.faulted = false → e.indexAt = none →
      ∃ t, exec (.shaftIndex dt) s = .next t ∧ t.wheels.enc.count = (e.count + n - 1) / n * n ∧
        t.wheels.enc.indexAt = some ((e.count + n - 1) / n * n) ∧ t.wheels.shaft.state = .acquiring ∧
        t = { u with wheels := t.wheels, appts := t.appts, health := t.health }) ∧
    (∀ l, e.legalSince = some l → u.cn 0x2009 6 0 = 0 → u.wheels.shaft.state = .acquiring → 2 * cyclesPerSec ≤ u.fc - l →
      exec (.shaftLockTimer dt) s = .next { u with
        wheels := { u.wheels with shaft := { u.wheels.shaft with state := .locked, everLocked := true } }
        health := (u.event 0x1001 1 (pack16 1 2)).health }) ∧
    (∀ l, e.lastEdge = some l → e.standstill = false → e.faulted = false → msCycles (u.cn 0x2009 4 0) ≤ u.fc - l →
      exec (.shaftStandstill dt) s = .next { u with
        wheels := { u.wheels with
          enc := { e with standstill := true }, shaft := { u.wheels.shaft with inc := 0, room := none, turnIn := 0 } }
        health := (u.event 0x1005 1 0).health }))

/-- R36, R37: a mains zero crossing of the wrong polarity, or before 40 % of a period has passed, is not accepted; an accepted
one is the wheel's last edge. Without an accepted edge for three nominal periods the mains wheel has no source and no measured
period; without an upward crossing for two periods neither has the sea wheel; it never steps. -/
def Obligations.MainsAndSeaEdges : Prop :=
  ∀ (s : State) (dt : Nat) (rising : Bool), let u := s.elapse dt
    u.works domFabric = true →
    ((rising != decide (u.cn 0x200A 2 0 = 0)) = true ∨ u.mainsEarly = true → exec (.mainsZeroCrossing dt rising) s = .next u) ∧
    (rising = decide (u.cn 0x200A 2 0 = 0) → u.mainsEarly = false → u.wheels.mns.bad = 0 →
      ∃ t, exec (.mainsZeroCrossing dt rising) s = .next t ∧ t.wheels.mns.lastEdge = some u.fc ∧ t.wheels.mains.source = 1 ∧
        t.wheels.mains.lastRef = u.fc ∧ t.wheels.mains.room = some (oneRev - oneUnit) ∧
        t.wheels.mains.visible = BitVec.ofNat 64 ((posRev u.wheels.mains.visible + 1) * oneUnit) ∧
        t = { u with wheels := t.wheels, appts := t.appts, health := t.health }) ∧
    (∀ l, u.wheels.mns.lastEdge = some l → 3 * u.mainsPeriod ≤ ((u.fc - l : Nat) : Rat) →
      ∃ t, exec (.mainsLossTimeout dt) s = .next t ∧ t.wheels.mns = {} ∧ t.wheels.mains.source = 0 ∧
        t.wheels.mains.pos = u.wheels.mains.pos ∧
        t.wheels.mains.state = (if u.wheels.mains.everLocked then .afterLock else .unref) ∧
        t = { u with wheels := t.wheels, health := t.health }) ∧
    (∀ l, u.wheels.est.lastCross = some l →
      2 * (u.wheels.est.period.getD ((u.cn 0x200B 2 0 : Rat) / 1000)) ≤ secs (u.fc - l) →
      ∃ t, exec (.seaWheelLossTimeout dt) s = .next t ∧ t.wheels.sea.source = 0 ∧ t.wheels.sea.pos = u.wheels.sea.pos ∧
        t.wheels.sea.steps = u.wheels.sea.steps ∧
        t.wheels.sea.state = (if u.wheels.sea.everLocked then .afterLock else .unref) ∧
        t.wheels.est.lastCross = none ∧ t = { u with wheels := t.wheels, analog := t.analog, health := t.health })

/-- R39, R40, R44, R45: a one-shot row whose wheel has reached its phase is dispatched once: the dispatch joins the line, at
most four to a cycle, and the row is not due again; a periodic row of one direction is due again at its next grid position.
While its previous dispatch waits in the line the new one is counted late and does not join. A row that is not armed, or whose
wheel has not come to its position, is not due. PPS_OUT rises at a new slot where the policy allows, for its width, and falls at
the end of it; a delivered dispatch of WHL_EVT in mode 1, by the configuration at its due position, raises the output for its
width and in mode 2 toggles it, unless a pulse still runs, which counts the row late; the end of the width lets the output fall.
No other state changes. -/
def Obligations.AppointmentsAndWheelOutputs : Prop :=
  (∀ (s : State) (dt : Nat) (r : Fin 1024) (n : WheelPos), let u := s.elapse dt
    let c := u.apptRow r.val
    u.works domFabric = true →
    (c.armed = false → exec (.appointmentDue dt r) s = .next u) ∧
    (c.armed = true → c.kind = 1 → (u.apptRun r.val).next = some n →
      posAtOrAfter (u.wheels.get c.wheel).visible n = true →
      let x : ApptRow := { u.apptRun r.val with next := none, back := none, fired := true }
      (u.rowWaits r.val = true →
        exec (.appointmentDue dt r) s = .next { u with appts := { u.appts with
          rows := Tbl.put r.val { x with late := x.late + 1 } (Tbl.put r.val x u.appts.rows) } }) ∧
      (u.rowWaits r.val = false →
        let d : Dispatch := { row := r.val, consumer := c.consumer, due := n, dueCycle := u.fc
                              dueTime := if c.wheel = 0 then n else u.time, late := false, slot := 0 }
        let rows := Tbl.put r.val { x with dispatches := x.dispatches + 1, done := c.noteDone n x.done } (Tbl.put r.val x u.appts.rows)
        exec (.appointmentDue dt r) s = .next { u with appts := Appts.join d { u.appts with rows := rows } })) ∧
    (c.armed = true → c.kind = 2 → c.direction = 0 → (u.apptRun r.val).next = some n →
      posAtOrAfter (u.wheels.get c.wheel).visible n = true → u.rowWaits r.val = false →
      let y : ApptRow := { u.apptRun r.val with next := some (c.freshFrom (u.apptRun r.val).done (n + 1)) }
      let d : Dispatch := { row := r.val, consumer := c.consumer, due := n, dueCycle := u.fc
                            dueTime := if c.wheel = 0 then n else u.time, late := false, slot := 0 }
      let rows := Tbl.put r.val { y with dispatches := y.dispatches + 1, done := c.noteDone n y.done } (Tbl.put r.val y u.appts.rows)
      exec (.appointmentDue dt r) s = .next { u with appts := Appts.join d { u.appts with rows := rows } }) ∧
    (c.armed = true → (u.apptRun r.val).next = some n → (u.apptRun r.val).back = none →
      posAtOrAfter (u.wheels.get c.wheel).visible n = false → exec (.appointmentDue dt r) s = .next u)) ∧
  (∀ (s : State) (dt : Nat) (n : Fin 8) (d : Dispatch) (rest : List Dispatch) (x : Nat), let u := s.elapse dt
    u.works domFabric = true →
    (u.appts.ppsLast ≠ some u.ppsSlot →
      (u.ppsAllowed = true → exec (.ppsOutPulseStart dt) s = .next { u with appts := { u.appts with
        ppsLast := some u.ppsSlot, ppsOut := true, ppsEnd := some (u.fc + msCycles (u.cn 0x2018 2 0)) } }) ∧
      (u.ppsAllowed = false → exec (.ppsOutPulseStart dt) s = .next { u with appts := { u.appts with ppsLast := some u.ppsSlot } })) ∧
    (u.appts.ppsEnd = some x → x ≤ u.fc →
      exec (.ppsOutPulseEnd dt) s = .next { u with appts := { u.appts with ppsOut := false, ppsEnd := none } }) ∧
    (takeDispatch u.fc (0x0600 + n.val) u.appts.line = some (d, rest) →
      let v : State := { u with appts := { u.appts with line := rest } }
      let mode := Cfg.nat u.uid (u.cfgAt d.dueTime) 0x2019 (1 + n.val) 0
      (mode = 0 → (u.evt n.val).pulseEnd = none → exec (.whlEvtDispatch dt n) s = .next v) ∧
      (mode = 1 → (u.evt n.val).pulseEnd = none → exec (.whlEvtDispatch dt n) s =
        .next (v.setEvt n.val { level := true
                                pulseEnd := some (u.fc + nsCycles (Cfg.nat u.uid (u.cfgAt d.dueTime) 0x2019 (9 + n.val) 0)) })) ∧
      (2 ≤ mode → (u.evt n.val).pulseEnd = none → exec (.whlEvtDispatch dt n) s =
        .next (v.setEvt n.val { level := !(u.evt n.val).level, pulseEnd := none })) ∧
      ((u.evt n.val).pulseEnd.isSome = true → exec (.whlEvtDispatch dt n) s = .next (v.countLate d.row))) ∧
    ((u.evt n.val).pulseEnd = some x → x ≤ u.fc → exec (.whlEvtPulseEnd dt n) s = .next (u.setEvt n.val
      { level := false, pulseEnd := none })))

/-- R51, R52, R53: an engine that takes from a receive queue takes its oldest element whole: a character of a sentence joins the
framer's text; a datagram's payload and a complete IEC 61162-3 message are carded, once there is credit for the records that
they make, and wait else (R227). Only carding, Bramble's input queues, the queues' own state, statistics, the ZDA records and
the acknowledgements kept for SUP can change beside the queue. A read of an empty queue is an underrun (R228). -/
def Obligations.IntakesTakeTheOldest : Prop :=
  ∀ (s : State) (dt : Nat), let u := s.elapse dt
    u.works domFabric = true →
    (∀ (p : Fin 24) (c : RxChar) (rest : List RxChar), let f : Framer := Tbl.get {} p.val u.carding.framers
      u.engineTakes (engineOf p.val false) p.val = true → u.portMode p.val ≠ 3 → (u.sp p.val).rx = c :: rest →
      f.phase = .sentence → tagReason c.data = none → startsUnit (c.data.setWidth 8).toNat = false →
      f.text.length < 82 → (c.data.setWidth 8 : Byte) ≠ 0x0A → f.text.getLast? ≠ some 0x0D →
      ∃ t, exec (.cardSerialCharacter dt p) s = .next t ∧ (t.sp p.val).rx = rest ∧
        t.carding = { u.carding with framers := Tbl.put p.val { f with text := f.text ++ [c.data.setWidth 8] } u.carding.framers } ∧
        t = { u with serial := t.serial, carding := t.carding, fabric := t.fabric, stats := t.stats }) ∧
    (∀ p : Fin 24, u.engineTakes (engineOf p.val false) p.val = true → (u.sp p.val).rx = [] →
      exec (.cardSerialCharacter dt p) s = .next (u.readEmpty p.val)) ∧
    (∀ (p : Fin 2) (side : Bool) (f : RxFrame) (rest : List RxFrame), let e := engineOf (0x20 + p.val) side
      let w := State.takeDatagram p.val side u
      u.engineTakes e (0x30 + 2 * p.val + side.toNat) = true → (if side then (u.ep p.val).rxB else (u.ep p.val).rxA) = f :: rest →
      (u.fits (engineOutputs e) w = true → ∃ t, exec (.cardDatagram dt p side) s = .next t ∧
        (if side then (t.ep p.val).rxB else (t.ep p.val).rxA) = rest ∧
        t = { u with eth := t.eth, carding := t.carding, bramble := t.bramble, fabric := t.fabric, stats := t.stats
                     wheels := t.wheels, health := t.health }) ∧
      (u.fits (engineOutputs e) w = false → exec (.cardDatagram dt p side) s = .next u)) ∧
    (∀ (p : Fin 2) (m : CanMsg) (rest : List CanMsg), u.engineTakes 3 (0x48 + p.val) = true → (u.cp p.val).rxMsgs = m :: rest →
      (∀ q ∈ engineOutputs 3, u.admits q = true ∧ u.queued q < 512) →
      ∃ t, exec (.cardCanMessage dt p) s = .next t ∧ (t.cp p.val).rxMsgs = rest ∧
        t = { u with can := t.can, carding := t.carding, bramble := t.bramble, fabric := t.fabric, stats := t.stats
                     wheels := t.wheels, health := t.health })

/-- R217, R66, R67: cE3 takes the oldest received PDO. In Operational it becomes a record with the object's bytes, its COB-ID
and its length as the slots, once there is credit for it; outside Operational it is counted as ignored. An enabled row without a
record for three nominal intervals is STALE; at each late penalty its score falls by the late step, held at 0; with time to go
neither changes anything (no group chooses the row, and the unit does not mirror). R58: clearing the discovery list empties it
and touches nothing else. -/
def Obligations.ReceivedPdosAndSourceAge : Prop :=
  (∀ (s : State) (dt cob states : Nat) (data : List Byte) (pip : Pip) (rest : List (Nat × List Byte × Pip × Nat)),
    let u := s.elapse dt
    let v := ({ u with can := Tbl.mod {} 2 (fun x => { x with pdos := rest }) u.can } : State).passed 0x4A 1
    u.works domFabric = true → u.engineTakes 3 0x4A = true → (u.cp 2).pdos = (cob, data, pip, states) :: rest →
    (u.canOpen.nmt = 5 → (∀ q ∈ engineOutputs 3, u.admits q = true ∧ u.queued q < 512) →
      exec (.cardReceivedPdo dt) s = .next (v.acceptLocal
        { port := 0x2A, gen := 3, kind := 0x07, engine := 3, pip := pip, states := states } (.cob cob)
        [dataSlot 0 data, dataSlot 4 data, some (cob : Int), some (data.length : Int)] 0)) ∧
    (u.canOpen.nmt ≠ 5 → exec (.cardReceivedPdo dt) s = .next (v.stat 0x4840 2 9 1))) ∧
  (∀ (s : State) (dt : Nat) (r : Fin 512), let u := s.elapse dt
    let x := u.src r.val
    let iv := u.interval r.val
    (u.works domFabric = true → u.mirrored = false → u.cn 0x2310 2 r.val = 1 → iv ≠ 0 → u.groupsOf r.val = [] →
      (3 * iv < u.fc - x.ref → exec (.sourceStale dt r) s = .next (u.modSrc r.val (fun x => { x with health := 3 }))) ∧
      (u.fc - x.ref ≤ 3 * iv → exec (.sourceStale dt r) s = .next u) ∧
      (x.lateSteps = 0 → x.had = true → x.score ≤ 255 → 3 * iv < 2 * (u.fc - x.ref) → u.fc - x.ref ≤ 3 * iv →
        ∃ t, exec (.sourceLate dt r) s = .next t ∧ (t.src r.val).health = 2 ∧ (t.src r.val).lateSteps = 1 ∧
          (t.src r.val).score = x.score - u.cn 0x2300 7 0 ∧ t = { u with carding := t.carding }) ∧
      (2 * (u.fc - x.ref) ≤ 3 * iv → exec (.sourceLate dt r) s = .next u)) ∧
    (u.works domSup = true → exec (.clearDiscoveryList dt) s = .next { u with carding := { u.carding with discovery := [] } }))

/-- R70 to R72: the voting engine takes its oldest counting record, once there is room for what its groups make of it; the
record is the row's latest value in a group that counts it. R71: a group whose choice is no longer usable takes the usable
candidate with the highest score, with an event; a group of a voting engine that does not run is left alone. -/
def Obligations.VotingTakesAndChooses : Prop :=
  ∀ (s : State) (dt : Nat), let u := s.elapse dt
    u.works domFabric = true →
    (∀ (ce9 : Bool) (q : Nat) (r : FibreRecord) (rest : List (Nat × FibreRecord)),
      u.up (if ce9 then domCardB else domCardA) = true → u.admits (if ce9 then 0x69 else 0x64) = true →
      (if ce9 then u.carding.toVote9 else u.carding.toVote4) = (q, r) :: rest → u.yields q = true →
      u.queued (if ce9 then 0x69 else 0x64) < 960 →
      ∃ t, exec (.voteCountingRecord dt ce9) s = .next t ∧ (if ce9 then t.carding.toVote9 else t.carding.toVote4) = rest ∧
        (∀ g, countingGroups u.uid (u.cfgAt r.pip.time) r (if ce9 then 32 else 0) = [g] →
          Tbl.get r r.source (t.grp g).values = r ∧ r.source ∈ (t.grp g).values.map (fun x => x.1)) ∧
        t = { u with carding := t.carding, fabric := t.fabric, stats := t.stats, bramble := t.bramble, wheels := t.wheels
                     analog := t.analog, control := t.control, health := t.health }) ∧
    (∀ (g : Fin 64) (best : Nat), u.voterUp g.val = true → u.cn 0x2320 2 g.val = 1 → u.mirrored = false →
      (u.grp g.val).chosen = 0xFFFF ∨ u.usable (u.grp g.val).chosen = false →
      u.bestOf (candidates u.uid u.cfg g.val) = some best → best ≠ 0xFFFF → best ≠ (u.grp g.val).chosen →
      ∃ t, exec (.groupHoldExpiry dt g) s = .next t ∧ (t.grp g.val).chosen = best ∧ (t.grp g.val).hold = none ∧
        (t.grp g.val).noChoice = false ∧ t.health = (u.event 0x2002 g.val (pack16 (u.grp g.val).chosen best)).health ∧
        t = { u with carding := t.carding, health := t.health }) ∧
    (∀ g : Fin 64, u.voterUp g.val = false → exec (.groupHoldExpiry dt g) s = .next u)

/-- R81 to R86, R233: Bramble takes the oldest record of an input queue. A record for one enabled listener, of a form it takes,
is queued there behind the others with the listener's next number; one without an enabled listener is counted as without
delivery; one whose word is uncorrectable is discarded and counted at its queue, and no rule sees it. -/
def Obligations.BrambleTakesTheOldest : Prop :=
  ∀ (s : State) (dt : Nat) (q : Fin 11) (r : FibreRecord) (rest : List FibreRecord) (d : Delivery), let u := s.elapse dt
    let v := ({ u with bramble.inputs := Tbl.put q.val rest u.bramble.inputs } : State).popped (0x60 + q.val) u
    let hits := (route u.uid (u.cfgAt r.pip.time) r (ruleRows (u.cfgAt r.pip.time)) {}).hits
    let ds := (route u.uid (u.cfgAt r.pip.time) r (ruleRows (u.cfgAt r.pip.time)) {}).delivery
    let cfg := u.cfgAt r.pip.time
    let x := u.lst d.listener
    let on := ds.filter (fun d => listenerOn u.uid cfg d.listener && (u.boot.mode != 2 || d.listener == 62))
    u.works domFabric = true → u.yields (0x60 + q.val) = true → Tbl.get [] q.val u.bramble.inputs = r :: rest →
    (on = [d] → d.shaper = 0xFFFF → takes (listenerKind u.uid cfg d.listener) r = true → u.storeRefuses cfg r.cls = false →
      x.queue.length < Cfg.nat u.uid cfg 0x2520 4 d.listener → x.slot = none →
      ∃ t, exec (.brambleMatch dt q .clean) s = .next t ∧
        (t.lst d.listener).queue = x.queue ++ [{ rcd := r, seq := x.seq + 1, cls := d.cls, order := u.bramble.order }] ∧
        (t.lst d.listener).seq = x.seq + 1 ∧ (∀ l, l ≠ d.listener → t.lst l = u.lst l) ∧
        Tbl.get [] q.val t.bramble.inputs = rest ∧ t = { u with bramble := t.bramble, stats := t.stats, fabric := t.fabric }) ∧
    (on = [] →
      exec (.brambleMatch dt q .clean) s = .next (({ v with
        bramble.matchCounts := hits.foldl (fun t k => Tbl.mod 0 k (fun x => x + 1) t) v.bramble.matchCounts } : State).stat 0x4821 0 1 1)) ∧
    (∃ t, exec (.brambleMatch dt q .double) s = .next t ∧ t.bramble = v.bramble ∧ t.carding = u.carding ∧
      t.fabric.uncorrectable = u.fabric.uncorrectable + 1 ∧ t.fabric.lastKind = 2 ∧ t.free = u.free + 1 ∧
      t.stats = (u.stat 0x4850 (0x60 + q.val) 5 1).stats)

/-- R90, R86, R88, R95: a dispatch of a shaper that is no slotted shaper only leaves the line; of a slotted shaper towards one
listener that holds nothing it counts a missed slot. The engine takes the entry that stands first by class, then by age, out of
its listener's queue. For the journal it becomes an entry of queue 0x081; on a CAN port without a claimed address its messages
go to no one and are counted; for a serial port its characters wait in the listener's slot. -/
def Obligations.ShapersAndComposition : Prop :=
  (∀ (s : State) (dt l : Nat) (n : Fin 256) (d : Dispatch) (rest : List Dispatch), let u := s.elapse dt
    let v : State := { u with appts := { u.appts with line := rest } }
    u.works domFabric = true → takeDispatch u.fc (0x0400 + n.val) u.appts.line = some (d, rest) →
    (u.cn 0x2530 2 n.val ≠ 3 → exec (.shaperEmission dt n) s = .next v) ∧
    (u.cn 0x2530 2 n.val = 3 → u.shaperListeners n.val = [l] →
      ((u.shp n.val l).held = none → exec (.shaperEmission dt n) s = .next (v.countShaper n.val 2)) ∧
      (∀ r cls, (u.shp n.val l).held = some (r, cls) →
        ∃ t, exec (.shaperEmission dt n) s = .next t ∧ (t.shp n.val l).held = none ∧
          t.bramble.shaperCounts = (u.countShaper n.val 0).bramble.shaperCounts ∧
          t = { u with appts := t.appts, bramble := t.bramble, stats := t.stats, fabric := t.fabric, health := t.health }))) ∧
  (∀ (s : State) (dt l : Nat) (fe1 : Bool) (e : Entry), let u := s.elapse dt
    let v := (u.modLst l (fun x => { x with queue := x.queue.filter (fun y => y.order != e.order) })).popped (0x100 + 4 * l + e.cls) u
    u.works domFull = true → u.nextEntry fe1 = some (l, e) → u.badRecord e.rcd = false →
    (listenerKind u.uid (u.cfgAt e.rcd.pip.time) l = .journal →
      exec (.composeEntry dt fe1 .clean) s = .next (({ v.stat 0x4820 l 3 1 with
        journal.inbox := u.journal.inbox ++ [(e.rcd, e.cls, e.seq.toNat)] } : State).pushed 0x81)) ∧
    (∀ p, listenerKind u.uid (u.cfgAt e.rcd.pip.time) l = .can p → (u.cp p).addrState ≠ 2 →
      exec (.composeEntry dt fe1 .clean) s =
        .next (v.stat 0x4840 p 3 (if e.rcd.fromCan then 1 else (pgnsOf e.rcd.formatter).length))) ∧
    (∀ p tx, listenerKind u.uid (u.cfgAt e.rcd.pip.time) l = .serial p → sentenceText u.uid (u.cfgAt e.rcd.pip.time) l e.rcd = some tx →
      ∃ t, exec (.composeEntry dt fe1 .clean) s = .next t ∧
        (t.lst l).slot = some { entry := e, chars := v.txChars p (v.tagBlock (u.cfgAt e.rcd.pip.time) l e.rcd ++ tx), sent := 0
                                line := (u.lst l).line } ∧
        t = { u with bramble := t.bramble, fabric := t.fabric, stats := t.stats }))

/-- R103, R108: the control pair takes the entry of listener 63 that stands first by class and age, and keeps its record as the
latest of its source; recomputing the totals sums mass and moments over the tanks with a reading. Neither touches anything
outside the control pair but, for the entry taken, its queue, the statistics and the events. -/
def Obligations.ControlTakesAndTotals : Prop :=
  ∀ (s : State) (dt l : Nat) (e : Entry), let u := s.elapse dt
    u.works domCtrl = true →
    (((u.lst 63).queue.filter (fun e => u.yields (0x1FC + e.cls))).foldl (fun b e => betterEntry b 63 e) none = some (l, e) →
      u.badRecord e.rcd = false →
      ∃ t, exec (.controlTakeRecord dt) s = .next t ∧
        Tbl.get (e.rcd, 0) e.rcd.source t.control.sources = (e.rcd, u.fc) ∧
        (t.lst 63).queue = (u.lst 63).queue.filter (fun y => y.order != e.order) ∧
        t = { u with bramble := t.bramble, fabric := t.fabric, stats := t.stats, control := t.control, health := t.health }) ∧
    (∃ t, exec (.modelRecompute dt) s = .next t ∧ t.control.lastModel = u.fc ∧
      t.control.mass = t.sumTanks (fun x => x.mass) ∧ t.control.trans = t.sumTanks (fun x => x.mass * x.tcg / 1000) ∧
      t.control.long = t.sumTanks (fun x => x.mass * x.lcg / 1000) ∧ t = { u with control := t.control })

/-- R106, R109, R104, R105, R170, R171: a valid tank past its stale limit is STALE, with its event; a tank in mode 2 takes, at
the end of a revolution of a LOCKED sea wheel or else of a fallback interval, the mean of the soundings that fell in it, and is
VALID; with no sounding there it forms nothing; in another mode nothing happens. A delivered dispatch of a gauge set that is not
sea-synchronous samples its channel: with AFE down the sample is missed; with a settled channel free of faults the record
carries current, code 0, set and basis 0. A fallback interval of a sea-synchronous set while the sea wheel is not LOCKED, or a
report interval of a free channel, is sampled once when the time wheel has come to it; one that is not due has no effect. -/
def Obligations.TanksAndGauges : Prop :=
  (∀ (s : State) (dt : Nat) (i : Fin 96), let u := s.elapse dt
    let x := u.tank i.val
    let sea := decide (u.wheels.sea.state = .locked)
    let iv := u.cn 0x3110 0x0E i.val
    let idx (y : Sounding) : Nat := if sea then posRev y.sea else intervalOf iv y.at_
    let now := if sea then posRev u.wheels.sea.visible else intervalOf iv u.time
    let formed := if sea then x.formedSea else x.formed
    let l := x.pending.filter (fun y => idx y + 1 == now)
    let kept := x.pending.filter (fun y => decide (posRev u.wheels.sea.visible ≤ posRev y.sea) ||
      decide (intervalOf iv u.time ≤ intervalOf iv y.at_))
    u.works domCtrl = true → u.tankOn i.val = true →
    (x.code = 2 → u.tankLimit i.val < u.fc - x.lastAt →
      exec (.tankStaleTimeout dt i) s = .next ((u.modTank i.val (fun x => { x with code := 3 })).event 0x4001 i.val 0)) ∧
    (u.fc - x.lastAt ≤ u.tankLimit i.val → exec (.tankStaleTimeout dt i) s = .next u) ∧
    (u.cn 0x3110 0x0D i.val ≠ 2 ∨ now = formed → exec (.readingMeanInterval dt i) s = .next u) ∧
    (u.cn 0x3110 0x0D i.val = 2 → now ≠ formed →
      (l = [] → exec (.readingMeanInterval dt i) s = .next (u.modTank i.val (fun x => { x with
        formed := if sea then x.formed else now, formedSea := if sea then now else x.formedSea, pending := kept }))) ∧
      (l ≠ [] → ∃ t, exec (.readingMeanInterval dt i) s = .next t ∧ (t.tank i.val).reading = some (meanSounding l) ∧
        (t.tank i.val).basis = (if sea then 3 else 4) ∧ (t.tank i.val).code = 2 ∧
        (if sea then (t.tank i.val).formedSea else (t.tank i.val).formed) = now ∧ (t.tank i.val).pending = kept ∧
        (t.tank i.val).corrected = meanSounding l + (u.attitude i.val).1 ∧ t = { u with control := t.control }))) ∧
  (∀ (s : State) (dt ch : Nat) (n : Fin 32) (f : Fin 16) (d : Dispatch) (rest : List Dispatch), let u := s.elapse dt
    let v : State := { u with appts := { u.appts with line := rest } }
    let ms := u.fallbackMs n.val
    let every := u.cn 0x2191 0x0A f.val
    u.works domFabric = true →
    (takeDispatch u.fc (0x0200 + n.val) u.appts.line = some (d, rest) → (u.apptRow d.row).seaSync = false →
      u.setChannels n.val = [ch] →
      (u.up domAfe = false → exec (.gaugeSampleSet dt n) s = .next (v.modChan ch (fun x => { x with missed := x.missed + 1 }))) ∧
      (u.up domAfe = true → u.up domCardB = true → u.refFault = false → 3 ≤ (u.chan ch).convs → (u.chan ch).code = 0 →
        exec (.gaugeSampleSet dt n) s = .next (v.acceptLocal
          { port := 0x30 + ch, gen := 3, kind := 4, engine := 8, pip := u.pip, states := u.wheelByte } .channel
          [some (roundReport (u.chan ch).f), some 0, some (n.val : Int), some 0] 0))) ∧
    (u.seaSet n.val = true → u.wheels.sea.state ≠ .locked → (u.fallbackGrid n.val).due ms u.time = true →
      posAfter u.analog.seaLeft (multipleAt ms (intervalOf ms u.time)) = false →
      ∃ t, exec (.fallbackSample dt n) s = .next t ∧ t.fallbackGrid n.val = (u.fallbackGrid n.val).sampled ms u.time ∧
        Tbl.get 1 n.val t.analog.bases = 0 ∧
        t = { u with analog := t.analog, carding := t.carding, bramble := t.bramble, fabric := t.fabric, stats := t.stats
                     wheels := t.wheels, health := t.health }) ∧
    (u.wheels.sea.state = .locked ∨ (u.fallbackGrid n.val).due ms u.time = false → exec (.fallbackSample dt n) s = .next u) ∧
    (u.cn 0x2191 2 f.val ≠ 0 → u.inSet f.val = false → (u.reportGrid f.val).due every u.time = true →
      ∃ t, exec (.freeReportSample dt f) s = .next t ∧ t.reportGrid f.val = (u.reportGrid f.val).sampled every u.time ∧
        (u.up domAfe = false → (t.chan f.val).missed = (u.chan f.val).missed + 1) ∧
        t = { u with analog := t.analog, carding := t.carding, bramble := t.bramble, fabric := t.fabric, stats := t.stats
                     wheels := t.wheels, health := t.health }) ∧
    (u.cn 0x2191 2 f.val = 0 ∨ u.inSet f.val = true ∨ (u.reportGrid f.val).due every u.time = false →
      exec (.freeReportSample dt f) s = .next u))

/-- R113, R118, R119, R120, R112: the dispatch of an inner step leaves the line. A disabled or switched-off cascade does
nothing; a cascade in RUN with a hold command enters HOLD with reason 1, holding its last outputs; with fresh inputs it starts a
step, whose result is issued only when it completes: the output, the step count, no overrun in a row, and SUP's copy. Release is
accepted in HOLD with fresh inputs and refused otherwise; hold is in effect at the next step; rebase moves every anchor of an
enabled tank to its present values and ends the persistence; readmission gives a tank its full weight, and ends the alert of its
exclusion. -/
def Obligations.CascadesStepAndObey : Prop :=
  (∀ (s : State) (dt : Nat) (c : Fin 16) (d : Dispatch) (rest : List Dispatch), let u := s.elapse dt
    let v : State := { u with appts := { u.appts with line := rest } }
    let cfg := u.cfgAt d.dueTime
    let x := u.casc c.val
    let n := Cfg.nat u.uid cfg 0x3010 6 c.val
    u.works domCtrl = true →
    (takeDispatch u.fc (0x0100 + c.val) u.appts.line = some (d, rest) →
      (Cfg.nat u.uid cfg 0x3010 2 c.val ≠ 1 ∨ x.state = 0 → exec (.cascadeInnerStep dt c) s = .next v) ∧
      (Cfg.nat u.uid cfg 0x3010 2 c.val = 1 → x.state = 1 → x.running = none → u.ctrlStandby = false →
        (x.holdCmd = true → ∃ t, exec (.cascadeInnerStep dt c) s = .next t ∧ (t.casc c.val).state = 2 ∧
          (t.casc c.val).reason = 1 ∧ (t.casc c.val).issued = x.issued ∧ (t.stg (2 * c.val + 1)).held = x.issued ∧
          (t.stg (2 * c.val)).held = x.outerOut ∧ t = { v with control := t.control, health := t.health }) ∧
        (x.holdCmd = false → u.inputStale cfg c.val (decide (1 ≤ n) && decide (x.outerIn = 0)) = false →
          ∃ t, exec (.cascadeInnerStep dt c) s = .next t ∧ (t.casc c.val).running.isSome = true ∧ (t.casc c.val).state = 1 ∧
            (t.casc c.val).steps = x.steps ∧ (t.casc c.val).issued = x.issued ∧ t = { v with control := t.control }))) ∧
    (∀ r, x.running = some r → ∃ t, exec (.cascadeStepComplete dt c) s = .next t ∧ (t.casc c.val).running = none ∧
      (t.casc c.val).issued = r.u ∧ (t.casc c.val).outerOut = r.outerOut ∧ (t.casc c.val).steps = x.steps + 1 ∧
      (t.casc c.val).consecutive = 0 ∧ t.stg (2 * c.val + 1) = { r.inner with reseat := (u.stg (2 * c.val + 1)).reseat } ∧
      (x.state ≠ 0 → t.issuedRaw c.val = u.rawOut u.cfg c.val r.u) ∧
      Tbl.get {} c.val t.control.supCascades = t.casc c.val ∧ t = { u with control := t.control }) ∧
    (x.running = none → exec (.cascadeStepComplete dt c) s = .next u)) ∧
  (∀ (s : State) (dt : Nat) (c : Fin 16) (i : Fin 96), let u := s.elapse dt
    u.works domCtrl = true →
    ((u.casc c.val).state = 2 → u.inputStale u.cfg c.val (decide (1 ≤ u.cn 0x3010 6 c.val)) = false →
      exec (.cascadeRelease dt c) s = .next (u.modCasc c.val (fun x => { x with release := true, holdCmd := false }))) ∧
    ((u.casc c.val).state ≠ 2 → exec (.cascadeRelease dt c) s = .next u) ∧
    exec (.cascadeHoldCommand dt c) s = .next (u.modCasc c.val (fun x => { x with holdCmd := true, release := false })) ∧
    (∃ t, exec (.rebase dt) s = .next t ∧ t.control.persistence = none ∧
      (∀ k ∈ u.tanksOn, (t.tank k).anchorSounding = (u.tank k).corrected ∧ (t.tank k).anchorContribution = (u.tank k).contribution) ∧
      (∀ k, (t.tank k).weight = (u.tank k).weight) ∧ t = { u with control := t.control }) ∧
    ((u.tank i.val).weight ≠ 0 → exec (.readmit dt i) s = .next (u.modTank i.val (fun x => { x with weight := 255 }))) ∧
    ((u.tank i.val).weight = 0 →
      exec (.readmit dt i) s = .next ((u.modTank i.val (fun x => { x with weight := 255 })).endAlert 0x4004 i.val)))

/-- R162, R164, R168: the end of a window that is due leaves its figures in the pair, and the next window begins one window
length later; a run length is a figure of a single-ended pair on a start-stop or synchronous port, and a mean over no sample is
a free value. A conversion of an enabled channel without a filter is its filtered current, and counts towards the settling of
the converter; a disabled channel takes none. -/
def Obligations.WindowAndConversion : Prop :=
  ∀ (s : State) (dt refMv : Nat) (p : Fin 24) (o : WindowObs) (ch : Fin 16) (code : BitVec 24), let u := s.elapse dt
    let due := (u.pair p.val).windowAt + msCycles (u.cn 0x2180 4 0)
    let runs := u.cn 0x2181 2 p.val = 1 ∧ (u.portMode p.val = 1 ∨ u.portMode p.val = 2)
    u.works domAfe = true →
      (u.cn 0x2180 1 0 ≠ 0 → u.cn 0x2181 2 p.val ≠ 0 → due ≤ u.fc →
        ∃ t, exec (.classificationWindowEnd dt p o) s = .next t ∧ (t.pair p.val).windowAt = due ∧
          (runs → (t.pair p.val).longHigh = o.longHigh ∧ (t.pair p.val).longLow = o.longLow) ∧
          (¬ runs → (t.pair p.val).longHigh = 0 ∧ (t.pair p.val).longLow = 0) ∧ (t.pair p.val).complete = true ∧
          (t.pair p.val).least = u.diffMv o.minD ∧ (t.pair p.val).greatest = u.diffMv o.maxD ∧
          (o.count ≠ 0 → t.free = u.free ∧ (t.pair p.val).a = u.lineMv ((o.sumA : Rat) / (o.count : Rat)) ∧
            (t.pair p.val).b = u.lineMv ((o.sumB : Rat) / (o.count : Rat))) ∧
          (o.count = 0 → t.free = u.free + 2) ∧
          t = { u with analog := t.analog, serial := t.serial, carding := t.carding, bramble := t.bramble, fabric := t.fabric
                       stats := t.stats, wheels := t.wheels, health := t.health, free := t.free }) ∧
      (u.cn 0x2180 1 0 = 0 ∨ u.cn 0x2181 2 p.val = 0 ∨ u.fc < due → exec (.classificationWindowEnd dt p o) s = .next u) ∧
      (u.cn 0x2191 2 ch.val = 0 → exec (.loopConversion dt ch code refMv) s = .next u) ∧
      (u.cn 0x2191 2 ch.val ≠ 0 → u.cn 0x2191 8 ch.val = 0 →
        ∃ t, exec (.loopConversion dt ch code refMv) s = .next t ∧
          (t.chan ch.val).f = (loopCurrent code.toInt (u.cn 0x2191 5 ch.val) (u.cr 0x2191 6 ch.val) (u.ci 0x2191 7 ch.val) : Rat) ∧
          (t.chan ch.val).convs = Nat.min 3 ((u.chan ch.val).convs + 1) ∧ t = { u with analog := t.analog, health := t.health })

/-- R117, R215, R216: the dispatch of the SYNC period leaves the line. Barred, or with C2 initialising, stopped or in bus-off,
nothing else happens; without its domain or with C2 disabled the SYNC counts as missed; otherwise SYNC goes in front of the
frames of C2 that have not begun, in Operational with the loop PDOs behind it, and what an earlier dispatch left there is
discarded and counted. -/
def Obligations.SyncDispatch : Prop :=
  ∀ (s : State) (dt : Nat) (d : Dispatch) (rest : List Dispatch), let u := s.elapse dt
    let v : State := { u with appts := { u.appts with line := rest } }
    let x := u.cp 2
    let sync : CanTx := { frame := baseFrame (u.cn 0x1005 0 0 % 2048) [], kind := .sync }
    let old := (x.waiting u.fc).filter CanTx.isLoop
    u.works domFabric = true → takeDispatch u.fc 0x0300 u.appts.line = some (d, rest) →
    (v.syncBarred = true ∨ u.canOpen.nmt = 4 ∨ u.canOpen.nmt = 0 ∨ x.state = 3 ∨ x.state = 4 → exec (.syncDispatch dt) s = .next v) ∧
    (v.syncBarred = false → u.canOpen.nmt ≠ 4 → u.canOpen.nmt ≠ 0 → x.state ≠ 3 → x.state ≠ 4 →
      (u.up domCan = false ∨ u.canOn 2 = false ∨ u.flows 0x54 = false →
        exec (.syncDispatch dt) s = .next { v with canOpen := { u.canOpen with missed := u.canOpen.missed + 1 } }) ∧
      (u.up domCan = true → u.canOn 2 = true → u.flows 0x54 = true →
        let pdos := if u.canOpen.nmt = 5 ∧ u.up domCtrl = true ∧ u.flows 0x55 = true then v.loopPdos else []
        ∃ t, exec (.syncDispatch dt) s = .next t ∧
          (t.cp 2).tx = x.begun u.fc ++ [sync] ++ pdos ++ (x.waiting u.fc).filter (fun f => !f.isLoop) ∧
          t.canOpen = { u.canOpen with
            missed := u.canOpen.missed + BitVec.ofNat 32 (old.filter (fun f => f.kind == .sync)).length
            discarded := u.canOpen.discarded + BitVec.ofNat 32 old.length } ∧
          (∀ q, q ≠ 2 → t.cp q = u.cp q) ∧
          t = { v with can := t.can, canOpen := t.canOpen, fabric := t.fabric, stats := t.stats }))

/-- R128, R133, R136, R139, R140: the line of a character gives its bits, under what was in force when it began. A start bit
found at mark is a false start, counted; a character of a start-stop port is queued with its tags and the pip of its stop bit; a
character of spaces puts the port into BREAK, timed from the falling edge of its start bit. A port that is not receiving takes
none, and a line on which no character is complete brings none. The bits of a sent character are received as that character. -/
def Obligations.SerialReception : Prop :=
  (∀ (s : State) (dt : Nat) (p : Fin 24) (line : List WireRun) (ds : List (Bool × Bool)), let u := s.elapse dt
    let x := u.sp p.val
    let span := serialCycles (lineCycles line)
    let from_ := u.fc - span
    let c := u.cfgAt (u.wheels.time.ago span)
    let f := x.formFor from_
    let mode := u.modeOf p.val c
    let g := u.formatIn p.val c f.eightN1
    let r := takeChar g.1 g.2 ds
    u.works domSerial = true →
    (mode = 0 ∨ x.line ≠ 1 ∨ x.wakeHunt = true ∨ from_ < x.huntFrom ∨ u.charBits p.val c f line = none →
      exec (.serialCharacterReceived dt p line) s = .next u) ∧
    (mode = 1 → x.line = 1 → x.wakeHunt = false → x.huntFrom ≤ from_ → u.charBits p.val c f line = some ds →
      (((ds.head?).map (fun d => d.1)).getD false = true →
        exec (.serialCharacterReceived dt p line) s = .next (u.stat 0x4800 p.val 7 1)) ∧
      (((ds.head?).map (fun d => d.1)).getD false = false → g.2 ≠ 5 →
        u.up (engineDom (engineOf p.val false)) = true → u.hasRoom p.val = true →
        ∃ t, exec (.serialCharacterReceived dt p line) s = .next t ∧
          (t.sp p.val).rx = x.rx ++ [{ data := r.word, pip := u.pip, states := u.wheelByte }] ∧
          (r.brk = true → u.autobaudSet p.val = false → (t.sp p.val).line = 3 ∧ (t.sp p.val).breakAt = some from_) ∧
          (∀ q, q ≠ p.val → t.sp q = u.sp q) ∧ t = { u with serial := t.serial, stats := t.stats, fabric := t.fabric })) ∧
    (u.portMode p.val = 1 ∨ u.portMode p.val = 3 → x.line = 1 → x.wakeHunt = false →
      falseBit x.rxDiv (lineRuns x.inverted line) = true → exec (.falseStart dt p line) s = .next (u.stat 0x4800 p.val 7 1)) ∧
    (u.portMode p.val = 0 ∨ u.portMode p.val = 2 ∨ x.line ≠ 1 ∨ x.wakeHunt = true ∨
      falseBit x.rxDiv (lineRuns x.inverted line) = false → exec (.falseStart dt p line) s = .next u)) ∧
  (∀ (data parity : Nat) (v : BitVec 9), data = 7 ∨ data = 8 → parity ≤ 5 →
    takeChar data parity ((sentBits data parity 1 0 v).map (fun b => (b, false))) =
      { value := v.toNat % 2 ^ data, address := decide (parity = 5) && v.getLsbD 8
        brk := false, noise := false, parity := false, framing := false })

/-- R131, R140 to R142, R147, R148, R267: the end of a break returns the port to reception, and a start-stop port takes a
pending divider; a break that lasts the stuck time is STUCK_LOW, with the sticky flag, the pair's evidence and the event; while
it lasts, evidence is taken anew once per stuck time; two characters of mark recover the line; 16 ticks of mark let the receiver
hunt again. A divider written by an admitted client of a unit that is no standby ends a measured one and is taken at once or
waits in each direction. A measurement whose intervals are no `$` changes nothing, the second in a row of one listed rate locks
the port, with its event. A start edge at a wake port wakes the device and loses its character. -/
def Obligations.SerialLinesAndDividers : Prop :=
  (∀ (s : State) (dt : Nat) (p : Fin 24), let u := s.elapse dt
    let x := u.sp p.val
    let ev := u.pairEvidence p.val
    let others (t : State) : Prop := ∀ q, q ≠ p.val → t.sp q = u.sp q
    u.works domSerial = true →
    (x.line = 3 → ∃ t, exec (.breakEnd dt p) s = .next t ∧ (t.sp p.val).line = 1 ∧ (t.sp p.val).breakAt = none ∧
      (t.sp p.val).markIdle = true ∧ (t.sp p.val).wakeHunt = false ∧
      (t.sp p.val).rxDiv = (if u.portMode p.val = 1 then x.pendRx.getD x.rxDiv else x.rxDiv) ∧ (t.sp p.val).rx = x.rx ∧ others t ∧
      t = { u with serial := t.serial }) ∧
    (x.line ≠ 3 → exec (.breakEnd dt p) s = .next u) ∧
    (x.line ≠ 3 ∨ u.portMode p.val = 3 → exec (.stuckLow dt p) s = .next u) ∧
    (∀ b, x.line = 3 → x.breakAt = some b → u.portMode p.val ≠ 3 → b + u.stuckTime p.val ≤ u.fc →
      ∃ t, exec (.stuckLow dt p) s = .next t ∧ (t.sp p.val).line = 4 ∧ (t.sp p.val).flags = setBit (setBit x.flags 1 true) 3 true ∧
        (t.sp p.val).stuckClass = ev ∧ (t.sp p.val).probeAt = b + 2 * u.stuckTime p.val ∧ (t.sp p.val).rx = x.rx ∧
        t.stats = (u.stat 0x4800 p.val 0x0A 1).stats ∧ t.health = (u.event 0x5001 p.val ev).health ∧ others t ∧
        t = { u with serial := t.serial, stats := t.stats, health := t.health }) ∧
    (∀ b, x.breakAt = some b → u.fc < b + u.stuckTime p.val → exec (.stuckLow dt p) s = .next u) ∧
    (x.line = 4 ∨ x.line = 6 → x.probeAt ≤ u.fc →
      ∃ t, exec (.stuckProbe dt p) s = .next t ∧ (t.sp p.val).probeAt = x.probeAt + u.stuckTime p.val ∧
        (t.sp p.val).stuckClass = ev ∧ (t.sp p.val).line = x.line ∧
        t.health = (if ev = x.stuckClass then u else u.event 0x5002 p.val ev).health ∧ others t ∧
        t = { u with serial := t.serial, health := t.health }) ∧
    (x.line ≠ 4 → x.line ≠ 6 → exec (.stuckProbe dt p) s = .next u ∧ exec (.lineRecovered dt p) s = .next u) ∧
    (x.line = 4 ∨ x.line = 6 → u.autobaudSet p.val = false →
      ∃ t, exec (.lineRecovered dt p) s = .next t ∧ (t.sp p.val).line = 1 ∧ (t.sp p.val).flags = setBit x.flags 3 false ∧
        (t.sp p.val).markIdle = true ∧ t.health = (u.event 0x5003 p.val 0).health ∧ others t ∧
        t = { u with serial := t.serial, health := t.health }) ∧
    (u.portMode p.val = 0 ∨ x.line = 3 ∨ x.line = 4 ∨ x.line = 6 → exec (.receiveMarkIdle dt p) s = .next u) ∧
    (u.portMode p.val = 1 → x.line ≠ 3 → x.line ≠ 4 → x.line ≠ 6 →
      ∃ t, exec (.receiveMarkIdle dt p) s = .next t ∧ (t.sp p.val).markIdle = true ∧ (t.sp p.val).wakeHunt = false ∧
        (t.sp p.val).rxDiv = x.pendRx.getD x.rxDiv ∧ (t.sp p.val).line = x.line ∧ others t ∧ t = { u with serial := t.serial })) ∧
  (∀ (s : State) (dt l1 h1 l2 h2 n r : Nat) (p : Fin 24) (who : ClientId) (d : BitVec 16), let u := s.elapse dt
    let x := u.sp p.val
    (Admitted who n (0x2100 + p.val) u → u.twin.role ≠ 1 → u.twin.role ≠ 2 → u.twin.role ≠ 3 →
      u.portMode p.val ≠ 3 → 5 ≤ d.toNat → d.toNat ≤ 15360 →
      ∃ t, exec (.dividerWrite dt who p d) s = .next t ∧ t.dict.reply = some (who, .done []) ∧
        t.cfg = Cfg.set u.uid ⟨0x2100 + p.val, 2, 0⟩ (.num d.toNat) u.cfg ∧ (t.sp p.val).autoDiv = none ∧
        ((t.sp p.val).txDiv = d.toNat ∨ (t.sp p.val).pendTx = some d.toNat) ∧
        ((t.sp p.val).rxDiv = d.toNat ∨ (t.sp p.val).pendRx = some d.toNat) ∧
        t = { u with cfg := t.cfg, serial := t.serial, stats := t.stats, dict := t.dict, twin := t.twin }) ∧
    (u.works domSerial = true →
      (x.line ≠ 5 ∨ judgeDollar l1 h1 l2 h2 = .noDollar → exec (.autobaudMeasurement dt p l1 h1 l2 h2) s = .next u) ∧
      (x.line = 5 → judgeDollar l1 h1 l2 h2 = .uncounted →
        exec (.autobaudMeasurement dt p l1 h1 l2 h2) s = .next (u.modSp p.val (fun x => { x with autoPair := none }))) ∧
      (x.line = 5 → judgeDollar l1 h1 l2 h2 = .counted r →
        (x.autoPair ≠ some r →
          exec (.autobaudMeasurement dt p l1 h1 l2 h2) s = .next (u.modSp p.val (fun x => { x with autoPair := some r }))) ∧
        (x.autoPair = some r → ∃ t, exec (.autobaudMeasurement dt p l1 h1 l2 h2) s = .next t ∧ (t.sp p.val).line = 1 ∧
          (t.sp p.val).autoRate = r ∧ (t.sp p.val).autoDiv = some (4608000 / r) ∧ t.health = (u.event 0x5005 p.val r).health ∧
          t = { u with serial := t.serial, health := t.health }))) ∧
    (u.power.state = 2 ∨ u.power.state = 3 → (u.cn 0x5838 1 0).testBit 1 = true → u.wakePort p.val = true →
      ∃ t, exec (.serialStartEdgeWake dt p) s = .next t ∧ t.power.state = 0 ∧ t.power.wakeSource = 2 ∧
        t.power.wakeDetail = p.val ∧ t.power.wakes = u.power.wakes + 1 ∧ (t.sp p.val).wakeHunt = true) ∧
    (u.power.state < 2 ∨ u.wakePort p.val = false → exec (.serialStartEdgeWake dt p) s = .next u))

/-- R127, R128, R129, R131: a character available to an idle transmitter starts, in driver-enable mode 2 after SER_AUX has been
high for the lead time; its bits are on the line, and what is left of the item waits in the port's queue and behind it in the
order of the item. When a character ends the next one follows without a gap, and after the last the item has been sent; SER_AUX
falls at the end of the lag. A transmitter with nothing to send stays as it is. -/
def Obligations.SerialTransmitter : Prop :=
  ∀ (s : State) (dt l : Nat) (p : Fin 24) (i : Item) (c : BitVec 9) (rest : List (BitVec 9)), let u := s.elapse dt
    let x := u.sp p.val
    let idle := x.busy = none ∧ x.leadEnd = none ∧ x.startAfter = none
    let begun (t : State) : Prop := (t.sp p.val).busy = some c ∧ (t.sp p.val).wire = t.txBits p.val c ∧
      (∃ j, (t.lst l).inFlight = some j ∧ j.entry = i.entry ∧ (t.sp p.val).tx ++ j.chars.drop j.sent = rest) ∧
      (∀ m, m ≠ l → t.lst m = u.lst m) ∧ (∀ q, q ≠ p.val → t.sp q = u.sp q) ∧
      t = { u with serial := t.serial, bramble := t.bramble, stats := t.stats, fabric := t.fabric }
    let item := (u.lst l).inFlight = some i ∨ ((u.lst l).inFlight = none ∧ (u.lst l).slot = some i ∧ x.tx = [])
    u.works domSerial = true → u.portListener p.val = some l → u.admits (0x18 + p.val) = true →
    (u.charReady p.val = false ∨ x.busy.isSome = true → exec (.serialTxStart dt p) s = .next u) ∧
    (u.sends p.val = true → idle → u.charReady p.val = true → u.needsLead p.val = true → u.portN p.val 9 ≠ 0 →
      ∃ t, exec (.serialTxStart dt p) s = .next t ∧ (t.sp p.val).aux = true ∧ (t.sp p.val).busy = none ∧
        (t.sp p.val).leadEnd = some (u.fc + tickCycles x.txDiv (u.portN p.val 9)) ∧ t = { u with serial := t.serial }) ∧
    (item → x.tx ++ i.chars.drop i.sent = c :: rest →
      (u.sends p.val = true → idle → u.charReady p.val = true → u.needsLead p.val = false ∨ u.portN p.val 9 = 0 →
        ∃ t, exec (.serialTxStart dt p) s = .next t ∧ begun t) ∧
      (∀ k, x.leadEnd = some k → u.charReady p.val = true → k ≤ u.fc →
        ∃ t, exec (.driverLeadExpiry dt p) s = .next t ∧ begun t ∧ (t.sp p.val).leadEnd = none)) ∧
    (∀ k, x.leadEnd = some k → u.fc < k → exec (.driverLeadExpiry dt p) s = .next u) ∧
    (x.busy = none → exec (.serialTxDone dt p) s = .next u) ∧
    (∀ b, x.busy = some b → (u.lst l).inFlight = some i →
      (x.tx ++ i.chars.drop i.sent = c :: rest → u.sends p.val = true → u.entitledPort p.val = true → u.yields (0x18 + p.val) = true →
        u.twin.role ≠ 5 → ∃ t, exec (.serialTxDone dt p) s = .next t ∧ begun t ∧ (t.sp p.val).txDiv = x.pendTx.getD x.txDiv) ∧
      (i.chars.length ≤ i.sent → x.tx = [] → (u.lst l).slot = none →
        ∃ t, exec (.serialTxDone dt p) s = .next t ∧ (t.lst l).inFlight = none ∧ (t.sp p.val).busy = none ∧
          Tbl.get (0, 0, 0) i.entry.cls (t.lst l).own = (i.entry.rcd.pip.time, i.entry.rcd.source, rawCrc i.entry.rcd) ∧
          t = { u with serial := t.serial, bramble := t.bramble, stats := t.stats, twin := t.twin, fabric := t.fabric })) ∧
    (∀ k, x.lagEnd = some k →
      (k ≤ u.fc → exec (.driverLagExpiry dt p) s = .next (u.modSp p.val (fun x => { x with aux := false, lagEnd := none }))) ∧
      (u.fc < k → exec (.driverLagExpiry dt p) s = .next u))

/-- R150 to R156: at a slot the commander takes the next entry of its schedule, sends a break and its header, and for a publish
entry its data and checksum; a response that has no byte at its deadline is counted as none, and as cut short where a start bit
had come; an observer takes the header of a subscribed frame, and counts one whose parity is wrong; a bus dominant for the stuck
time is BUS_SHORT. -/
def Obligations.FrameMode : Prop :=
  ∀ (s : State) (dt dom : Nat) (p : Fin 4) (started : Bool) (sync pid : Byte) (f : Slot), let u := s.elapse dt
    let q := 20 + p.val
    let x := u.sp q
    let k := intervalOf (u.portN q 0x16) u.time
    let e := x.sched % u.scheduleLen q
    let id := u.entryN q 3 e
    let n := u.entryN q 4 e
    let bytes : List Byte := [0x55, BitVec.ofNat 8 (protectedId id)] ++ (if u.entryN q 2 e = 1 then
      leBytes n (u.entryN q 7 e) ++ [BitVec.ofNat 8 (frameSum (u.entryN q 5 e == 1) id (leBytes n (u.entryN q 7 e)))] else [])
    u.works domSerial = true →
    (u.portMode q ≠ 3 ∨ x.line = 6 ∨ u.slotOpen q = true → exec (.frameSlotStart dt p) s = .next u) ∧
    (u.portMode q = 3 → u.mayBegin q = true → x.line ≠ 6 → u.scheduleLen q ≠ 0 → x.nextSlot ≤ k → x.slot = none → x.held = false →
      ∃ t, exec (.frameSlotStart dt p) s = .next t ∧ (t.sp q).sched = (e + 1) % u.scheduleLen q ∧
        (t.sp q).nextSlot = k + u.entryN q 6 e ∧ (t.sp q).sending = bytes ∧
        (t.sp q).wire = headerBits (u.portN q 0x15) bytes ∧
        (t.sp q).rxDiv = x.pendRx.getD x.rxDiv ∧ (t.sp q).txDiv = x.pendTx.getD x.txDiv ∧
        (t.sp q).slot = (if u.entryN q 2 e = 1 then none else
          some { entry := e, id := id, length := n, deadline := u.fc + t.frameTime q n, got := [] }) ∧
        t = { u with serial := t.serial }) ∧
    (u.portMode q ≠ 3 ∨ x.slot = none → u.twin.role ≠ 5 → exec (.frameResponseDeadline dt ⟨p, started⟩) s = .next u) ∧
    (u.portMode q = 3 → x.slot = some f →
      (u.fc < f.deadline → u.twin.role ≠ 5 → exec (.frameResponseDeadline dt ⟨p, started⟩) s = .next u) ∧
      (f.deadline ≤ u.fc → x.rx = [] → f.got = [] →
        (started = false → f.begun = false →
          ∃ t, exec (.frameResponseDeadline dt ⟨p, started⟩) s = .next t ∧ (t.sp q).slot = none ∧
            t.stats = (u.stat 0x4800 q 0x0F 1).stats ∧
            t = { u with serial := t.serial, stats := t.stats, fabric := t.fabric, twin := t.twin }) ∧
        (started = true ∨ f.begun = true → u.up (engineDom (engineOf q false)) = false →
          ∃ t, exec (.frameResponseDeadline dt ⟨p, started⟩) s = .next t ∧ (t.sp q).slot = none ∧
            t.stats = (u.stat 0x4800 q 0x10 1).stats ∧
            t = { u with serial := t.serial, stats := t.stats, fabric := t.fabric, twin := t.twin }))) ∧
    (u.portMode q ≠ 3 ∨ u.entitledPort q = true ∨ x.line = 6 ∨ dom < 11 ∨ sync ≠ 0x55 →
      exec (.frameHeaderObserved dt p dom sync pid) s = .next u) ∧
    (u.portMode q = 3 → u.entitledPort q = false → x.line ≠ 6 → 11 ≤ dom →
      (protectedId pid.toNat ≠ pid.toNat →
        exec (.frameHeaderObserved dt p dom 0x55 pid) s = .next (u.stat 0x4800 q 0x12 1)) ∧
      (∀ j, protectedId pid.toNat = pid.toNat → x.slot = none →
        (List.range (u.scheduleLen q)).find? (fun e => u.entryN q 3 e == pid.toNat % 64) = some j → u.entryN q 2 j = 2 →
        ∃ t, exec (.frameHeaderObserved dt p dom 0x55 pid) s = .next t ∧
          (t.sp q).slot = some { entry := j, id := pid.toNat % 64, length := u.entryN q 4 j
                                 deadline := u.fc + u.frameTime q (u.entryN q 4 j) - bitCycles x.rxDiv (dom + 21), got := [] } ∧
          t = { u with serial := t.serial })) ∧
    (u.portMode q ≠ 3 ∨ x.breakAt = none ∨ x.line = 6 → exec (.busShort dt p) s = .next u) ∧
    (∀ b, u.portMode q = 3 → x.breakAt = some b → x.line ≠ 6 →
      (u.fc < b + u.stuckTime q → exec (.busShort dt p) s = .next u) ∧
      (b + u.stuckTime q ≤ u.fc →
        ∃ t, exec (.busShort dt p) s = .next t ∧ (t.sp q).line = 6 ∧ (t.sp q).slot = none ∧ (t.sp q).sending = [] ∧
          (t.sp q).probeAt = b + 2 * u.stuckTime q ∧ t.stats = (u.stat 0x4800 q 0x0A 1).stats ∧
          t.health = (u.event 0x5006 q 0).health ∧ t = { u with serial := t.serial, stats := t.stats, health := t.health }))

/-- R177, R178: a PHY that answers link up on both reads brings the port to the resolved state, with the event; one that answers
link down takes the link away and discards every frame in the MAC's transmit queues; the third bad read in a row is a port
without a PHY. A port that is off is not polled; a link that stays as it is only ends the run of bad reads. -/
def Obligations.PhyPollResolvesTheLink : Prop :=
  ∀ (s : State) (dt : Nat) (p : Fin 2) (r : PhyRegs), let u := s.elapse dt
    let e := u.ep p.val
    u.works (domEth p.val) = true →
    (u.ethN p.val 1 = 0 → exec (.phyPoll dt p r) s = .next u) ∧
    (u.ethN p.val 1 = 1 → phyAbsent r.r1a = false → phyAbsent r.r1b = false → r.r1a.getLsbD 2 = true → r.r1b.getLsbD 2 = true →
      (resolveLink r = e.link →
        ∃ t, exec (.phyPoll dt p r) s = .next t ∧ t.ep p.val = { e with badReads := 0 } ∧ t = { u with eth := t.eth }) ∧
      (e.linkUp = false → resolveLink r = 1 ∨ resolveLink r = 2 ∨ resolveLink r = 3 →
        ∃ t, exec (.phyPoll dt p r) s = .next t ∧ (t.ep p.val).link = resolveLink r ∧ (t.ep p.val).badReads = 0 ∧
          (u.ptpPort p.val = false → t.health = (u.event 0x7001 p.val (resolveLink r)).health) ∧
          t = { u with eth := t.eth, stats := t.stats, fabric := t.fabric, health := t.health, wheels := t.wheels })) ∧
    (u.ethN p.val 1 ≠ 0 → phyAbsent r.r1a = false → phyAbsent r.r1b = false → r.r1b.getLsbD 2 = false → e.linkUp = true →
      ∃ t, exec (.phyPoll dt p r) s = .next t ∧ (t.ep p.val).link = 0 ∧ (t.ep p.val).waiting = false ∧
        (t.ep p.val).inFlight = none ∧ (t.ep p.val).rxA = e.rxA ∧ (t.ep p.val).rxB = e.rxB ∧
        t = { u with eth := t.eth, health := t.health, twin := t.twin, stats := t.stats, fabric := t.fabric, wheels := t.wheels }) ∧
    (u.ethN p.val 1 ≠ 0 → phyAbsent r.r1a = true → 2 ≤ e.badReads → e.badReads ≤ 3 → e.linkUp = false →
      ∃ t, exec (.phyPoll dt p r) s = .next t ∧ (t.ep p.val).link = 5 ∧
        t = { u with eth := t.eth, health := t.health, wheels := t.wheels })

/-- R180 to R182, R184, R195, R196, R239: a good frame addressed to the port goes where Table 8.3 sends it, one for SUP into
SUP's queue with its stamp and pip, a datagram of a group to the engine of its side; one that is not addressed is dropped and
counted; an errored one reaches no one in NORMAL, and the capture ring where it is on. Nothing arrives while the link is down or
the receive clock stands. With the device in Doze or Listen a frame at the listen port wakes it by a pattern. -/
def Obligations.EthernetReception : Prop :=
  ∀ (s : State) (dt : Nat) (p : Fin 2) (bytes : List Byte) (er : Bool), let u := s.elapse dt
    let st := rxStatus (u.ethN p.val 0x0A) bytes er
    let b := (untag bytes).1
    let f : RxFrame := { bytes := b, pip := u.pipBefore (u.ci (0x2200 + p.val) 0x13 0), states := u.wheelByte
                         stamp := u.rxStamp p.val bytes.length, errored := decide (st ≠ 0), status := BitVec.ofNat 16 st
                         length := Nat.min bytes.length 65535 }
    let clocked := u.fabric.stopped.contains (if p.val = 0 then .rx0 else .rx1) = false
    let counted (t : State) : Prop := t = { u with
      eth := t.eth, stats := t.stats, fabric := t.fabric, health := t.health, free := t.free }
    (u.power.state < 2 → u.works (domEth p.val) = true →
      ((u.ep p.val).linkUp = false ∨ ¬ clocked → exec (.ethFrameReceived dt p bytes er) s = .next u) ∧
      ((u.ep p.val).linkUp = true → clocked → st = 0 → u.addressed p.val b = false →
        exec (.ethFrameReceived dt p bytes er) s =
          .next ((((u.useFree.countPatterns p.val bytes).macCount p.val 1 1).macCount p.val 2 bytes.length).macDrop p.val)) ∧
      ((u.ep p.val).linkUp = true → clocked → st = 0 → (untag bytes).2 = none → u.addressed p.val b = true →
        (u.wayOf p.val b = .sup → u.supTakes p.val b = true → u.up domSup = true → u.hasRoom (0x34 + p.val) = true →
          ∃ t, exec (.ethFrameReceived dt p bytes er) s = .next t ∧ (t.ep p.val).supIn = (u.ep p.val).supIn ++ [f] ∧
            (t.ep p.val).rxA = (u.ep p.val).rxA ∧ (t.ep p.val).rxB = (u.ep p.val).rxB ∧ counted t) ∧
        (∀ r, u.wayOf p.val b = .card r → (u.ep p.val).rxFilled f = false →
          (∀ side, u.cardSide p.val b = some side →
            ∃ t, exec (.ethFrameReceived dt p bytes er) s = .next t ∧
              (t.ep p.val).rxA = (u.ep p.val).rxA ++ (if side then [] else [f]) ∧
              (t.ep p.val).rxB = (u.ep p.val).rxB ++ (if side then [f] else []) ∧
              (t.ep p.val).supIn = (u.ep p.val).supIn ∧ counted t))) ∧
      ((u.ep p.val).linkUp = true → clocked → st ≠ 0 →
        ∃ t, exec (.ethFrameReceived dt p bytes er) s = .next t ∧ (t.ep p.val).rxA = (u.ep p.val).rxA ∧
          (t.ep p.val).rxB = (u.ep p.val).rxB ∧ (t.ep p.val).supIn = (u.ep p.val).supIn ∧
          (u.captures p.val = false → (t.ep p.val).ring = (u.ep p.val).ring) ∧
          (u.captures p.val = true → u.cardUp p.val false = true →
            (u.ep p.val).rxFilled { f with bytes := bytes.take (u.ethN p.val 0x0A) } = false →
            (t.ep p.val).ring = ({ f with bytes := bytes.take (u.ethN p.val 0x0A) } :: (u.ep p.val).ring).take 16) ∧ counted t)) ∧
    (u.power.state = 2 ∨ u.power.state = 3 → u.cn 0x2230 1 0 = p.val →
      (u.patternsHit p.val bytes = [] → exec (.ethFrameReceived dt p bytes er) s = .next u) ∧
      (u.patternsHit p.val bytes ≠ [] → (u.cn 0x5838 1 0).testBit 2 = true →
        ∃ t, exec (.ethFrameReceived dt p bytes er) s = .next t ∧ t.power.state = 0 ∧ t.power.wakeSource = 3 ∧
          t.power.wakeDetail = 0x20 + p.val ∧ t.power.wakes = u.power.wakes + 1))

/-- R179, R183: an ARP frame of a host that is known, or that asks for the port's own address, leaves its address in the cache
and no frame waiting for it; one of another host is only taken. A hop without an answer for 250 ms is asked again; a frame that
has waited 1 s is discarded; an entry lives 300 s. R228: a read of SUP's empty queue is an underrun. An echo request is answered
at most 100 times in a second; a query sets the report of a joined group within its maximum response time; when the delay of a
group that is still joined has run out its report is sent, and no other group's. -/
def Obligations.ArpIcmpAndIgmp : Prop :=
  (∀ (s : State) (dt : Nat) (p : Fin 2) (f : RxFrame) (rest : List RxFrame), let u := s.elapse dt
    let e := u.ep p.val
    let spa := netNat 28 4 f.bytes
    let mine := u.ipOf p.val ≠ 0 ∧ netNat 38 4 f.bytes = u.ipOf p.val
    let isArp := f.witness = false ∧ frameType f.bytes = 0x0806
    u.works domSup = true →
    (u.yields (0x34 + p.val) = false → exec (.arpFrame dt p) s = .next u) ∧
    (u.yields (0x34 + p.val) = true →
      (e.supIn = [] → exec (.arpFrame dt p) s = .next (u.readEmpty (0x34 + p.val))) ∧
      (e.supIn = f :: rest →
        (¬ isArp → exec (.arpFrame dt p) s = .next u) ∧
        (isArp → ¬ mine → e.resolve spa = none → ∃ t, exec (.arpFrame dt p) s = .next t ∧ t.ep p.val = { e with supIn := rest } ∧
          (∀ q, q ≠ p.val → t.ep q = u.ep q) ∧ t = { u with eth := t.eth, fabric := t.fabric, stats := t.stats }) ∧
        (isArp → spa ≠ 0 → mine ∨ (e.resolve spa).isSome = true →
          ∃ t, exec (.arpFrame dt p) s = .next t ∧ (t.ep p.val).resolve spa = some (netNat 22 6 f.bytes) ∧
            (∀ w ∈ (t.ep p.val).waits, w.hop ≠ spa) ∧ (t.ep p.val).supIn = rest ∧ (∀ q, q ≠ p.val → t.ep q = u.ep q) ∧
            t = { u with eth := t.eth, fabric := t.fabric, stats := t.stats, health := t.health }))) ∧
    ((∀ w ∈ e.waits, u.fc < w.lastReq + msCycles 250) →
      ∃ t, exec (.arpRetry dt p) s = .next t ∧ t.ep p.val = e ∧ t = { u with eth := t.eth }) ∧
    (∀ w, e.waits = [w] → w.lastReq + msCycles 250 ≤ u.fc → e.linkUp = true → u.ethN p.val 1 ≠ 0 →
      ∃ t, exec (.arpRetry dt p) s = .next t ∧ (t.ep p.val).waits = [{ w with lastReq := u.fc }] ∧
        (t.ep p.val).tx3.length + (t.ep p.val).supWait.length = e.tx3.length + e.supWait.length + 1 ∧
        t = { u with eth := t.eth, fabric := t.fabric, stats := t.stats }) ∧
    exec (.arpResolutionTimeout dt p) s = .next (u.modEp p.val (fun e => { e with
      waits := e.waits.filter (fun w => decide (u.fc < w.since + cyclesPerSec)) })) ∧
    exec (.arpEntryExpiry dt p) s = .next (u.modEp p.val (fun e => { e with
      arp := e.arp.filter (fun a => decide (u.fc < a.at_ + 300 * cyclesPerSec)) }))) ∧
  (∀ (s : State) (dt delay g : Nat) (p : Fin 2) (group : BitVec 32) (f : RxFrame) (rest : List RxFrame), let u := s.elapse dt
    let e := u.ep p.val
    let m := ipPayload f.bytes
    let recent := e.icmpTimes.filter (fun t => decide (u.fc < t + cyclesPerSec))
    u.works domSup = true →
    (u.yields (0x34 + p.val) = true → e.supIn = f :: rest →
      (isProto 1 f = false → exec (.icmpEchoRequest dt p) s = .next u) ∧
      (isProto 1 f = true → 100 ≤ recent.length → ∃ t, exec (.icmpEchoRequest dt p) s = .next t ∧
        t.ep p.val = { e with supIn := rest, icmpTimes := recent } ∧ t = { u with eth := t.eth, fabric := t.fabric, stats := t.stats }) ∧
      (isProto 1 f = true → recent.length < 100 → m.head? = some 8 → m.length ≤ 1480 → foldSum (wordSum m) = 0xFFFF →
        ∃ t, exec (.icmpEchoRequest dt p) s = .next t ∧ (t.ep p.val).icmpTimes = recent ++ [u.fc] ∧
          (t.ep p.val).ipId = e.ipId + 1 ∧ (t.ep p.val).supIn = rest ∧
          t = { u with eth := t.eth, fabric := t.fabric, stats := t.stats, health := t.health }) ∧
      (isProto 2 f = false → exec (.igmpQuery dt p delay) s = .next u) ∧
      (isProto 2 f = true → u.joined p.val = [g] → e.igmpDue = [] → beNat (slice 4 4 m) = 0 ∨ beNat (slice 4 4 m) = g →
        ∃ t, exec (.igmpQuery dt p delay) s = .next t ∧ (t.ep p.val).igmpDue = [(g, u.fc + Nat.min delay (maxResponse m))] ∧
          (t.ep p.val).supIn = rest ∧ t = { u with eth := t.eth, fabric := t.fabric, stats := t.stats })) ∧
    ((∀ x ∈ e.igmpDue, x.1 = group.toNat → u.fc < x.2) → exec (.igmpReportDelay dt p group) s = .next u) ∧
    (∀ d, (group.toNat, d) ∈ e.igmpDue → d ≤ u.fc →
      (group.toNat ∉ u.joined p.val → exec (.igmpReportDelay dt p group) s = .next (u.modEp p.val (fun e => { e with
        igmpDue := e.igmpDue.filter (fun x => x.1 != group.toNat) }))) ∧
      (group.toNat ∈ u.joined p.val →
        ∃ t, exec (.igmpReportDelay dt p group) s = .next t ∧
          (t.ep p.val).igmpDue = e.igmpDue.filter (fun x => x.1 != group.toNat) ∧ (t.ep p.val).ipId = e.ipId + 1 ∧
          (e.linkUp = true → u.ethN p.val 1 ≠ 0 →
            (t.ep p.val).tx3.length + (t.ep p.val).supWait.length = e.tx3.length + e.supWait.length + 1) ∧
          t = { u with eth := t.eth, fabric := t.fabric, stats := t.stats, health := t.health })))

/-- R185, R187, R190: the head of the highest queue starts once the start threshold, or the whole frame, is in the MAC; a frame
that ends is counted, and a datagram marked as sent; a frame that runs out of data raises the start step; the head of the stamp
queue is removed on command. -/
def Obligations.MacSendsFrames : Prop :=
  ∀ (s : State) (dt inMac : Nat) (p : Fin 2) (f : TxFrame), let u := s.elapse dt
    let e := u.ep p.val
    let others (t : State) : Prop := ∀ q, q ≠ p.val → t.ep q = u.ep q
    u.works (domEth p.val) = true →
    (e.headQueue = none ∨ e.inFlight.isSome = true ∨ e.linkUp = false ∨ e.pauseState = 1 →
      exec (.macFrameStart dt p inMac) s = .next u) ∧
    (∀ q rest, e.headQueue = some q → e.txq q = f :: rest → e.inFlight = none → e.linkUp = true → e.pauseState ≠ 1 →
      u.yields (macQueue p.val q f) = true → e.supWait = [] →
      (inMac < 64 * e.step → inMac < f.bytes.length → exec (.macFrameStart dt p inMac) s = .next u) ∧
      (64 * e.step ≤ inMac ∨ f.bytes.length ≤ inMac →
        ∃ t, exec (.macFrameStart dt p inMac) s = .next t ∧ (t.ep p.val).inFlight = some f ∧ (t.ep p.val).txq q = rest ∧
          (t.ep p.val).watchdog = none ∧
          (f.kind = .other → t.ep p.val = { (e.setTxq q rest) with inFlight := some f, watchdog := none }) ∧
          (∀ l y, f.kind = .datagram l y → e.stamps.length < 16 →
            (t.ep p.val).stamps = e.stamps ++ (if (u.ethN p.val 0x15).testBit y.cls then
              [(l, y.seq.toNat % 0x10000, (u.pipBefore (u.clockLag - u.ci (0x2200 + p.val) 0x14 0)).time)] else [])) ∧
          others t ∧ t = { u with eth := t.eth, health := t.health, fabric := t.fabric, stats := t.stats, free := t.free })) ∧
    (e.inFlight = none → exec (.macFrameEnd dt p) s = .next u ∧ exec (.txUnderrun dt p) s = .next u) ∧
    (e.inFlight = some f → e.restart = false →
      (∃ t, exec (.macFrameEnd dt p) s = .next t ∧ (t.ep p.val).inFlight = none ∧
        Tbl.get 0 0x0D (t.ep p.val).mac = Tbl.get 0 0x0D e.mac + 1 ∧
        (∀ l y, f.kind = .datagram l y → Tbl.get (0, 0, 0) y.cls (t.lst l).own = (y.rcd.pip.time, y.rcd.source, rawCrc y.rcd)) ∧
        others t ∧ t = { u with eth := t.eth, health := t.health, stats := t.stats, bramble := t.bramble, twin := t.twin }) ∧
      (∃ t, exec (.txUnderrun dt p) s = .next t ∧ (t.ep p.val).inFlight = none ∧
        (t.ep p.val).step = Nat.min 32 (e.step + 1) ∧ (t.ep p.val).clean = 0 ∧ (t.ep p.val).flags = setBit e.flags 2 true ∧
        Tbl.get 0 0x0F (t.ep p.val).mac = Tbl.get 0 0x0F e.mac + 1 ∧ others t ∧
        t = { u with eth := t.eth, health := t.health, twin := t.twin })) ∧
    (u.works domSup = true → exec (.removeStampHead dt p) s = .next (u.modEp p.val (fun e => { e with stamps := e.stamps.drop 1 })))

/-- R181, R188, R189, R197, R198, R200: a pause ends when its time is over; one that has held frames back for the watchdog limit
ends in a holdoff, with the sticky flag; a holdoff ends when its time is over. Sampling adds what each MAC counter has advanced
since its last sample to its statistic. The capture ring is emptied on command. The registers of the PHYs are reached in the
modes of service only: a read answers what the PHY gives on MDIO, a write is done; in NORMAL and SAFE_LISTEN both are refused.
-/
def Obligations.PauseCountersAndPhyRegisters : Prop :=
  (∀ (s : State) (dt : Nat) (p : Fin 2), let u := s.elapse dt
    let e := u.ep p.val
    let limit := u.ethN p.val 0x0E
    u.works (domEth p.val) = true →
    (e.pauseState ≠ 1 ∨ u.fc < e.pauseEnd → exec (.pauseTimerExpiry dt p) s = .next u) ∧
    (e.pauseState = 1 → e.pauseEnd ≤ u.fc →
      ∃ t, exec (.pauseTimerExpiry dt p) s = .next t ∧ t.ep p.val = { e with pauseState := 0, watchdog := none } ∧
        (∀ q, q ≠ p.val → t.ep q = u.ep q) ∧ t = { u with eth := t.eth }) ∧
    (e.watchdog = none ∨ limit = 0 ∨ e.waiting = false → exec (.pauseWatchdog dt p) s = .next u) ∧
    (∀ w, e.watchdog = some w → limit ≠ 0 → e.waiting = true → w + msCycles limit ≤ u.fc →
      ∃ t, exec (.pauseWatchdog dt p) s = .next t ∧ (t.ep p.val).pauseState = 2 ∧
        (t.ep p.val).holdoffEnd = u.fc + msCycles (u.ethN p.val 0x0F) ∧ (t.ep p.val).watchdog = none ∧
        (t.ep p.val).flags = setBit e.flags 1 true ∧ (∀ q, q ≠ p.val → t.ep q = u.ep q) ∧
        t = { u with eth := t.eth, health := t.health }) ∧
    (e.pauseState ≠ 2 ∨ u.fc < e.holdoffEnd → exec (.pauseHoldoffEnd dt p) s = .next u) ∧
    (e.pauseState = 2 → e.holdoffEnd ≤ u.fc →
      exec (.pauseHoldoffEnd dt p) s = .next (u.modEp p.val (fun e => { e with pauseState := 0 }))) ∧
    (∃ t, exec (.macCounterSample dt p) s = .next t ∧ (t.ep p.val).mac = e.mac ∧ (t.ep p.val).sampledAt = u.fc ∧
      (∀ n, 1 ≤ n → n ≤ 0x12 → Tbl.get 0 n (t.ep p.val).sampled = Tbl.get 0 n e.mac ∧
        t.statOf 0x4830 p.val (n + 1) =
          Nat.min (u.statOf 0x4830 p.val (n + 1) + (Tbl.get 0 n e.mac - Tbl.get 0 n e.sampled).toNat) (2 ^ 64 - 1)) ∧
      t = { u with eth := t.eth, stats := t.stats }) ∧
    (u.works domSup = true → exec (.clearCaptureRing dt p) s = .next (u.modEp p.val (fun e => { e with ring := [] })))) ∧
  (∀ (s : State) (dt n : Nat) (who : ClientId) (v : BitVec 16), let u := s.elapse dt
    Admitted who n 0x2230 u →
    (u.serviceMode = true →
      exec (.phyRegisterRead dt who v) s = .next ((u.accessed who n).answer who (.done (leBytes 2 v.toNat))) ∧
      exec (.phyRegisterWrite dt who v) s = .next ((u.accessed who n).answer who (.done []))) ∧
    (u.serviceMode = false →
      exec (.phyRegisterRead dt who v) s = .next ((u.accessed who n).answer who (.refused abState)) ∧
      exec (.phyRegisterWrite dt who v) s = .next ((u.accessed who n).answer who (.refused abState))))

/-- R192 to R194: an Announce adds its master; masters without an Announce for the timeout go; a Sync of the selected master
opens an exchange where a Delay_Req is due; a Follow_Up supplies t1, a Delay_Resp of the master the interval of the next
request, and t4 where it answers the port's own; the four times give path delay and offset, and a negative delay discards the
exchange; 1 s after its Sync an exchange is over. -/
def Obligations.PtpExchange : Prop :=
  ∀ (s : State) (dt : Nat) (p : Fin 2) (f : RxFrame) (rest : List RxFrame) (m : List Byte) (ex : Exchange), let u := s.elapse dt
    let x := (u.ep p.val).ptp
    let took (type : Nat) : Prop := u.yields (0x34 + p.val) = true ∧ (u.ep p.val).supIn = f :: rest ∧ ptpIs type f = true
    let frame (t : State) : Prop := (t.ep p.val).supIn = rest ∧
      t = { u with eth := t.eth, fabric := t.fabric, wheels := t.wheels, stats := t.stats, health := t.health }
    u.works domSup = true → u.ptpMessage p.val f.bytes = some m →
    (took 11 → byteAt 48 m ≠ 255 → x.masters = [] →
      ∃ t, exec (.ptpAnnounce dt p) s = .next t ∧ frame t ∧ (∃ y, (t.ep p.val).ptp.masters = [y] ∧ (y.clockId, y.portId) = ptpSender m ∧
        y.announces = [u.fc] ∧ y.dataset = datasetOf m ∧ y.interval = logInterval (byteAt 33 m))) ∧
    (∃ t, exec (.ptpAnnounceTimeout dt p) s = .next t ∧
      (∀ y, y ∈ (t.ep p.val).ptp.masters ↔ y ∈ x.masters ∧ ∃ a l, y.announces = a :: l ∧ secs (u.fc - a) < (u.cn 0x2230 2 0 : Rat) * y.interval) ∧
      t = { u with eth := t.eth, wheels := t.wheels, health := t.health }) ∧
    (took 0 → u.fromMaster p.val m = false → ∃ t, exec (.ptpSync dt p) s = .next t ∧ frame t ∧ (t.ep p.val).ptp = x) ∧
    (took 0 → u.fromMaster p.val m = true → x.lastReq = none ∨ (∃ a, x.lastReq = some a ∧ x.reqInterval ≤ secs (u.fc - a)) →
      ∃ t, exec (.ptpSync dt p) s = .next t ∧ frame t ∧ (t.ep p.val).ptp = { x with
        reqSeq := (x.reqSeq + 1) % 0x10000, lastReq := some u.fc
        exchs := x.exchs ++ [{ syncSeq := ptpSeq m, syncAt := u.fc, t1 := if (byteAt 6 m).testBit 1 then none else some (ptpTime 34 m)
                               corr := ptpCorrection m, t2 := f.stamp, reqSeq := (x.reqSeq + 1) % 0x10000, t3 := none, t4 := none }] }) ∧
    (took 9 → u.fromMaster p.val m = true → netNat 44 8 m ≠ u.ownClock p.val ∨ netNat 52 2 m ≠ 1 →
      ∃ t, exec (.ptpDelayResp dt p) s = .next t ∧ frame t ∧ (t.ep p.val).ptp = { x with reqInterval := logInterval (byteAt 33 m) }) ∧
    (x.exchs = [ex] → u.fromMaster p.val m = true →
      (took 8 → ex.syncSeq = ptpSeq m → ex.t1 = none → ex.t3 = none →
        ∃ t, exec (.ptpFollowUp dt p) s = .next t ∧ frame t ∧ (t.ep p.val).ptp = { x with
          exchs := [{ ex with t1 := some (ptpTime 34 m), corr := ex.corr + ptpCorrection m }] }) ∧
      (took 9 → ex.reqSeq = ptpSeq m → ex.t4 = none → netNat 44 8 m = u.ownClock p.val → netNat 52 2 m = 1 →
        (ex.t1 = none → ∃ t, exec (.ptpDelayResp dt p) s = .next t ∧ frame t ∧ (t.ep p.val).ptp = { x with
          reqInterval := logInterval (byteAt 33 m), exchs := [{ ex with t4 := some (ptpTime 34 m, ptpCorrection m) }] }) ∧
        (∀ t1 t3, ex.t1 = some t1 → ex.t3 = some t3 →
          let ms := posNs ex.t2 t1 - ex.corr
          let sm := posNs (ptpTime 34 m) t3 - ptpCorrection m
          (ms + sm < 0 → ∃ t, exec (.ptpDelayResp dt p) s = .next t ∧ frame t ∧ (t.ep p.val).ptp.exchs = [] ∧
            (t.ep p.val).ptp.exchanges = x.exchanges ∧ t.wheels = u.wheels) ∧
          (0 ≤ ms + sm → u.wheels.time.source ≠ 2 + p.val →
            ∃ t, exec (.ptpDelayResp dt p) s = .next t ∧ frame t ∧ (t.ep p.val).ptp.exchs = [] ∧
              (t.ep p.val).ptp.exchanges = x.exchanges + 1 ∧ (t.ep p.val).ptp.delayNs = (ms + sm) / 2 ∧
              (t.ep p.val).ptp.lastNs = (ms - sm) / 2 ∧ (t.ep p.val).ptp.offsetNs = (ms - sm) / 2)))) ∧
    exec (.ptpExchangeTimeout dt p) s = .next (u.modPtp p.val (fun x => { x with
      exchs := x.exchs.filter (fun ex => decide (u.fc < ex.syncAt + cyclesPerSec)) }))

/-- R201, R203, R205, R207, R209, R217, R218, R227: a frame received without error lowers the receive error count. A remote
frame says nothing more; one of the other format is counted; a claim or a request goes to SUP's queue while it has room, and is
an overrun without; a message to another address is let by; a single-frame message goes to carding, with the NAME held for its
source; a frame of the node's NMT or SDO object to SUP, and one of a PDO that an enabled row names to its receive object, in
place of an older one, which is an overrun. A controller that is off or in bus-off takes none. What a frame that no bus carries
stands for is free (log entry 9). -/
def Obligations.CanReception : Prop :=
  ∀ (s : State) (dt : Nat) (p : Fin 3) (f : CanFrame), let u := (s.elapse dt).spend (!f.wellFormed)
    let g := legalFrame s.freeNat f
    let c := u.cp p.val
    let v := u.modCp p.val (fun c => { c with rxErr := c.rxErr - 1 })
    let pgn := pgnOfId g.id
    let frame (t : State) : Prop := (t.cp p.val).rxErr = c.rxErr - 1 ∧ (t.cp p.val).frames = c.frames ∧
      (∀ q, q ≠ p.val → t.cp q = u.cp q) ∧ t = { u with can := t.can, stats := t.stats, fabric := t.fabric }
    let overrun (t : State) : Prop := (t.cp p.val).flags = setBit c.flags 0 true ∧
      t.statOf 0x4840 p.val 4 = (u.stat 0x4840 p.val 4 1).statOf 0x4840 p.val 4
    g.wellFormed = true ∧ (f.wellFormed = true → g = f) ∧ g.ext = f.ext ∧ g.remote = f.remote ∧
    (u.works domCan = true →
      (u.canOn p.val = false ∨ c.state = 3 ∨ c.state = 4 → exec (.canFrameReceived dt p f) s = .next u) ∧
      (u.canOn p.val = true → c.state = 1 → c.txErr ≤ 127 → c.rxErr ≤ 127 →
        (f.remote = true → exec (.canFrameReceived dt p f) s = .next v) ∧
        (f.remote = false → f.ext ≠ decide (p.val < 2) → exec (.canFrameReceived dt p f) s = .next (v.stat 0x4840 p.val 7 1)) ∧
        (f.remote = false → f.ext = true → p.val < 2 → pgn = 59392 →
          exec (.canFrameReceived dt p f) s = .next (v.stat 0x4840 p.val 2 1)) ∧
        (f.remote = false → f.ext = true → p.val < 2 → pgn = 60928 ∨ pgn = 59904 → u.up domSup = true →
          (u.hasRoom (0x4B + p.val) = true →
            ∃ t, exec (.canFrameReceived dt p f) s = .next t ∧ (t.cp p.val).supIn = c.supIn ++ [g] ∧ frame t) ∧
          (u.hasRoom (0x4B + p.val) = false →
            ∃ t, exec (.canFrameReceived dt p f) s = .next t ∧ (t.cp p.val).supIn = c.supIn ∧ overrun t ∧ frame t)) ∧
        (f.remote = false → f.ext = true → p.val < 2 → pgn ≠ 60928 → pgn ≠ 59904 → pgn ≠ 59392 → u.up domCardA = true →
          u.admits (0x48 + p.val) = true →
          (g.id / 2 ^ 16 % 256 < 240 → g.id / 256 % 256 ≠ 255 → ¬(c.addrState = 2 ∧ g.id / 256 % 256 = c.addr) →
            exec (.canFrameReceived dt p f) s = .next (v.stat 0x4840 p.val 2 1)) ∧
          (pgn ≠ 60416 → pgn ≠ 60160 → u.isFast pgn = false →
            240 ≤ g.id / 2 ^ 16 % 256 ∨ g.id / 256 % 256 = 255 ∨ (c.addrState = 2 ∧ g.id / 256 % 256 = c.addr) →
            (u.hasRoom (0x48 + p.val) = true →
              ∃ t, exec (.canFrameReceived dt p f) s = .next t ∧ (t.cp p.val).rxMsgs = c.rxMsgs ++ [{
                ok := true, src := g.id % 256, name := c.nameAt (g.id % 256), pgn := pgn, priority := g.id / 2 ^ 26 % 8
                data := g.data, pip := u.pip, states := u.wheelByte }] ∧ frame t) ∧
            (u.hasRoom (0x48 + p.val) = false →
              ∃ t, exec (.canFrameReceived dt p f) s = .next t ∧ (t.cp p.val).rxMsgs = c.rxMsgs ∧ overrun t ∧ frame t))) ∧
        (f.remote = false → f.ext = false → p.val = 2 → g.id = 0 ∨ g.id = 0x600 + u.nodeId →
          (c.supIn.any (fun x => x.id == g.id) = false →
            ∃ t, exec (.canFrameReceived dt p f) s = .next t ∧ (t.cp p.val).supIn = c.supIn ++ [g] ∧ frame t) ∧
          (c.supIn.any (fun x => x.id == g.id) = true →
            ∃ t, exec (.canFrameReceived dt p f) s = .next t ∧ (t.cp p.val).supIn = c.supIn.filter (fun x => x.id != g.id) ++ [g] ∧
              overrun t)) ∧
        (f.remote = false → f.ext = false → p.val = 2 → g.id ≠ 0 → g.id ≠ 0x600 + u.nodeId →
          (u.pdoRow g.id = false → exec (.canFrameReceived dt p f) s = .next v) ∧
          (u.pdoRow g.id = true →
            ∃ t, exec (.canFrameReceived dt p f) s = .next t ∧
              (t.cp p.val).pdos = c.pdos.filter (fun x => x.1 != g.id) ++ [(g.id, g.data, u.pip, u.wheelByte)] ∧
              (c.pdos.any (fun x => x.1 == g.id) = false → frame t) ∧ (c.pdos.any (fun x => x.1 == g.id) = true → overrun t)))))

/-- R203, R205, R207: a frame that has been sent leaves the head of the queue, and the claim of an address begins the time in
which it may be contested; an error raises the counters, and a transmit count past 255 is bus-off, which discards the frames
queued and ends the claim of the address; recovery starts after the delay, and leaves an error-active controller, which on C0
and C1 claims the address held before. -/
def Obligations.CanTransmissionAndErrors : Prop :=
  ∀ (s : State) (dt : Nat) (p : Fin 3) (x : CanErr) (f : CanTx) (rest : List CanTx), let u := s.elapse dt
    let c := u.cp p.val
    let delay := msCycles (u.cn (0x2240 + p.val) 3 0)
    let others (t : State) : Prop := ∀ q, q ≠ p.val → t.cp q = u.cp q
    let none_ := c.txq = [] ∧ c.supWait = [] ∧ (p.val < 2 ∨ u.canOpen.waiting = [])
    u.works domCan = true →
    (u.canOn p.val = false ∨ c.state = 3 ∨ c.state = 4 →
      exec (.canFrameSent dt p) s = .next u ∧ exec (.canBusError dt p x) s = .next u) ∧
    (u.canOn p.val = true → c.state = 1 → c.txErr ≤ 127 → c.rxErr ≤ 127 →
      (c.tx = [] → exec (.canFrameSent dt p) s = .next u) ∧
      (c.tx = f :: rest →
        ∃ t, exec (.canFrameSent dt p) s = .next t ∧ others t ∧
          (none_ → t.cp p.val = { c with tx := rest, offeredAt := u.fc, txErr := c.txErr - 1
                                         claimAt := if c.isClaim f then some u.fc else c.claimAt }) ∧
          (∀ l y, f.kind = .fe l (some y) true →
            Tbl.get (0, 0, 0) y.cls (t.lst l).own = (y.rcd.pip.time, y.rcd.source, rawCrc y.rcd)) ∧
          t.statOf 0x4840 p.val 3 = (u.stat 0x4840 p.val 3 1).statOf 0x4840 p.val 3 ∧
          t = { u with can := t.can, stats := t.stats, bramble := t.bramble, twin := t.twin, fabric := t.fabric
                       canOpen := t.canOpen }) ∧
      (c.txErr + x.txUp ≤ 127 → c.rxErr + x.rxUp ≤ 127 →
        exec (.canBusError dt p x) s =
          .next (u.modCp p.val (fun c => { c with txErr := c.txErr + x.txUp, rxErr := Nat.min 255 (c.rxErr + x.rxUp) }))) ∧
      (255 < c.txErr + x.txUp →
        ∃ t, exec (.canBusError dt p x) s = .next t ∧ (t.cp p.val).state = 3 ∧ (t.cp p.val).busOffAt = u.fc ∧
          (t.cp p.val).flags = setBit c.flags 2 true ∧ (t.cp p.val).claimAt = none ∧
          (t.cp p.val).addrState = (if c.addrState = 3 then 3 else 0) ∧ t.health = (u.event 0x8001 p.val 0).health ∧
          t.statOf 0x4840 p.val 5 = (u.stat 0x4840 p.val 5 1).statOf 0x4840 p.val 5 ∧
          t.statOf 0x4840 p.val 3 = (u.stat 0x4840 p.val 3 c.frames.length).statOf 0x4840 p.val 3 ∧
          (c.supWait = [] → p.val < 2 ∨ u.canOpen.waiting = [] → (t.cp p.val).frames = []) ∧ others t ∧
          t = { u with can := t.can, stats := t.stats, health := t.health, fabric := t.fabric, canOpen := t.canOpen })) ∧
    (c.state ≠ 3 ∨ u.fc - c.busOffAt < delay → exec (.busOffDelay dt p) s = .next u) ∧
    (c.state = 3 → delay ≤ u.fc - c.busOffAt → exec (.busOffDelay dt p) s = .next (u.modCp p.val (fun c => { c with state := 4 }))) ∧
    (c.state ≠ 4 → exec (.busOffRecovered dt p) s = .next u) ∧
    (c.state = 4 → ∃ t, exec (.busOffRecovered dt p) s = .next t ∧ (t.cp p.val).state = 1 ∧ (t.cp p.val).txErr = 0 ∧
      (t.cp p.val).rxErr = 0 ∧ t.health = (u.event 0x8003 p.val 0).health ∧
      (p.val < 2 → c.addrState ≠ 3 → (t.cp p.val).addr = c.addr ∧ (t.cp p.val).addrState = 1 ∧ (t.cp p.val).claimAt = none ∧
        (u.canOn p.val = true → c.txq = [] → u.hasRoom (0x52 + p.val) = true →
          (t.cp p.val).frames = c.frames ++ [u.claimFrame p.val c.addr])) ∧
      (∀ q, q ≠ p.val → q ≠ 2 → t.cp q = u.cp q) ∧
      t = { u with can := t.can, health := t.health, canOpen := t.canOpen, stats := t.stats, fabric := t.fabric })

/-- R207, R208, R210, R211, R228: a claim heard gives its address its NAME, also to the assemblies that are open for it; a claim
of the own address is answered by the lower NAME and lost by the higher; 250 ms without contest after the claim was sent
complete it; a request for the claim is answered, or begins a new claim, and one for another PGN is refused; an assembly 750 ms
past its last frame fails, counted and reported to carding. A read of an empty queue is an underrun. -/
def Obligations.AddressClaimAndAssemblies : Prop :=
  ∀ (s : State) (dt : Nat) (p : Fin 2) (x : CanFrame) (rest : List CanFrame), let u := s.elapse dt
    let c := u.cp p.val
    let name := leNat x.data
    let src := x.id % 256
    let dest := x.id / 256 % 256
    let took (pgn : Nat) : Prop := u.yields (0x4B + p.val) = true ∧ c.supIn = x :: rest ∧ pgnOfId x.id = pgn
    let room := u.canOn p.val = true ∧ c.txq = [] ∧ u.hasRoom (0x52 + p.val) = true
    let frame (t : State) : Prop := (t.cp p.val).supIn = rest ∧ (∀ q, q ≠ p.val → q ≠ 2 → t.cp q = u.cp q) ∧
      t = { u with can := t.can, stats := t.stats, fabric := t.fabric, health := t.health, canOpen := t.canOpen }
    let still (t : State) : Prop := frame t ∧ t.cp 2 = u.cp 2 ∧ t.canOpen = u.canOpen ∧ t.health = u.health
    let sends (t : State) (y : CanTx) : Prop := (t.cp p.val).frames = c.frames ++ [y]
    let failed (a : Assembly) : CanMsg := { ok := false, src := a.src, name := c.nameAt a.src, pgn := a.pgn, priority := a.priority
                                            data := a.data, pip := u.pip, states := u.wheelByte }
    (u.works domSup = true → u.works domCan = true →
      (u.yields (0x4B + p.val) = false → exec (.addressClaim dt p) s = .next u ∧ exec (.pgnRequest dt p) s = .next u) ∧
      (u.yields (0x4B + p.val) = true → c.supIn = [] →
        exec (.addressClaim dt p) s = .next (u.readEmpty (0x4B + p.val)) ∧
        exec (.pgnRequest dt p) s = .next (u.readEmpty (0x4B + p.val))) ∧
      (took 60928 → exec (.pgnRequest dt p) s = .next u ∧
        (254 ≤ src → ∃ t, exec (.addressClaim dt p) s = .next t ∧ still t ∧ (∀ y ∈ (t.cp p.val).names, y.2 ≠ name) ∧
          (t.cp p.val).addr = c.addr) ∧
        (src < 254 → src ≠ c.addr → ∃ t, exec (.addressClaim dt p) s = .next t ∧ still t ∧ (t.cp p.val).nameAt src = some name ∧
          (∀ a ∈ (t.cp p.val).fast, a.src = src → a.name = some name) ∧
          (t.cp p.val).addr = c.addr ∧ (t.cp p.val).addrState = c.addrState) ∧
        (src < 254 → src = c.addr → c.addrState = 1 ∨ c.addrState = 2 → u.ownName p.val ≤ name → room →
          ∃ t, exec (.addressClaim dt p) s = .next t ∧ frame t ∧ (t.cp p.val).addr = src ∧
            (t.cp p.val).addrState = c.addrState ∧ sends t (u.claimFrame p.val src)) ∧
        (src < 254 → src = c.addr → c.addrState = 1 ∨ c.addrState = 2 → name < u.ownName p.val →
          ∃ t, exec (.addressClaim dt p) s = .next t ∧ frame t ∧ (t.cp p.val).addrLost = c.addrLost + 1 ∧
            (t.cp p.val).addr ≠ src ∧ ((t.cp p.val).addrState = 1 ∨ ((t.cp p.val).addrState = 3 ∧ (t.cp p.val).addr = 254)))) ∧
      (took 59904 → exec (.addressClaim dt p) s = .next u ∧
        (leNat (x.data.take 3) = 60928 → dest = 255 ∨ dest = c.addr →
          (c.addrState = 1 ∨ c.addrState = 2 → room →
            ∃ t, exec (.pgnRequest dt p) s = .next t ∧ still t ∧ sends t (u.claimFrame p.val c.addr)) ∧
          (c.addrState = 3 → room →
            ∃ t, exec (.pgnRequest dt p) s = .next t ∧ frame t ∧ (t.cp p.val).addrState = 1 ∧
              (t.cp p.val).addr = u.cn (0x2244 + p.val) 2 0 ∧ sends t (u.claimFrame p.val (u.cn (0x2244 + p.val) 2 0))) ∧
          (c.addrState = 0 → ∃ t, exec (.pgnRequest dt p) s = .next t ∧ still t ∧ (t.cp p.val).frames = c.frames)) ∧
        (leNat (x.data.take 3) ≠ 60928 → c.addrState = 2 → dest = c.addr → room →
          ∃ t, exec (.pgnRequest dt p) s = .next t ∧ still t ∧ sends t (supFrame 59392 255 c.addr
            ([1, 0xFF, 0xFF, 0xFF, BitVec.ofNat 8 src] ++ leBytes 3 (leNat (x.data.take 3))))) ∧
        (dest ≠ c.addr → dest ≠ 255 →
          ∃ t, exec (.pgnRequest dt p) s = .next t ∧ still t ∧ (t.cp p.val).frames = c.frames)) ∧
      (c.addrState ≠ 1 ∨ c.claimAt.all (fun t0 => decide (u.fc - t0 < msCycles 250)) = true →
        exec (.addressClaimComplete dt p) s = .next u) ∧
      (∀ t0, c.addrState = 1 → c.claimAt = some t0 → msCycles 250 ≤ u.fc - t0 →
        exec (.addressClaimComplete dt p) s = .next (u.modCp p.val (fun c => { c with addrState := 2, tried := 1 })))) ∧
    (∀ a, u.works domCardA = true →
      let told (t : State) : Prop := (t.cp p.val).rxMsgs = c.rxMsgs ++ [failed a] ∧ (∀ q, q ≠ p.val → t.cp q = u.cp q) ∧
        t.statOf 0x4840 p.val 8 = (u.stat 0x4840 p.val 8 1).statOf 0x4840 p.val 8 ∧
        t = { u with can := t.can, stats := t.stats, fabric := t.fabric }
      (c.fast.filter (fun a => decide (msCycles 750 < u.fc - a.last)) = [] → exec (.fastPacketTimeout dt p) s = .next u) ∧
      (c.bam.filter (fun a => decide (msCycles 750 < u.fc - a.last)) = [] → exec (.bamTimeout dt p) s = .next u) ∧
      (c.fast.filter (fun a => decide (msCycles 750 < u.fc - a.last)) = [a] →
        ∃ t, exec (.fastPacketTimeout dt p) s = .next t ∧ told t ∧
          (t.cp p.val).fast = c.fast.filter (fun a => decide (u.fc - a.last ≤ msCycles 750))) ∧
      (c.bam.filter (fun a => decide (msCycles 750 < u.fc - a.last)) = [a] →
        ∃ t, exec (.bamTimeout dt p) s = .next t ∧ told t ∧
          (t.cp p.val).bam = c.bam.filter (fun a => decide (u.fc - a.last ≤ msCycles 750))))

/-- R213, R214, R219: an NMT command addressed to the node puts C2 into the state it names; a stop keeps of the frames that have
not begun the heartbeats alone; a reset begins again with the boot-up message. A command for another node is only taken. The
next waiting EMCY goes out when the inhibit time is over, in Pre-operational and Operational alone. -/
def Obligations.NmtCommandsAndEmcy : Prop :=
  ∀ (s : State) (dt : Nat) (node : Byte) (e : Nat × Nat × Nat) (rest : List (Nat × Nat × Nat)), let u := s.elapse dt
    let c := u.cp 2
    let v := (u.modCp 2 (fun c => { c with supIn := c.supIn.filter (fun f => f.id != 0) })).passed 0x4D
      (c.supIn.filter (fun f => f.id == 0)).length
    let co := u.canOpen
    let room := co.waiting = [] ∧ c.txq = [] ∧ (c.frames.filter CanTx.fromSup).length < 3 ∧ u.hasRoom 0x56 = true
    let boot : CanTx := { frame := baseFrame (0x700 + u.nodeId) [0], kind := .sup }
    let beat (f : CanTx) : Bool := f.kind == .heartbeat
    let frame (t : State) : Prop := (∀ q, q ≠ 2 → t.cp q = u.cp q) ∧
      t = { u with can := t.can, canOpen := t.canOpen, stats := t.stats, fabric := t.fabric }
    (u.works domCan = true → u.works domSup = false ∨ u.canOn 2 = false →
      exec (.nmtStart dt node) s = .next u ∧ exec (.nmtStop dt node) s = .next u ∧
      exec (.nmtEnterPreOperational dt node) s = .next u ∧ exec (.nmtResetNode dt node) s = .next u ∧
      exec (.nmtResetCommunication dt node) s = .next u) ∧
    (u.works domCan = true → u.works domSup = true → u.canOn 2 = true →
      (node ≠ 0 → node.toNat ≠ u.nodeId → exec (.nmtStart dt node) s = .next v ∧ exec (.nmtStop dt node) s = .next v ∧
        exec (.nmtEnterPreOperational dt node) s = .next v ∧ exec (.nmtResetNode dt node) s = .next v ∧
        exec (.nmtResetCommunication dt node) s = .next v) ∧
      (node = 0 ∨ node.toNat = u.nodeId →
        exec (.nmtStart dt node) s = .next { v with canOpen := { co with nmt := 5 } } ∧
        exec (.nmtEnterPreOperational dt node) s = .next { v with canOpen := { co with nmt := 127 } } ∧
        (∃ t, exec (.nmtStop dt node) s = .next t ∧ t.canOpen = { co with nmt := 4, waiting := co.waiting.filter beat } ∧
          (t.cp 2).tx = c.begun u.fc ++ (c.waiting u.fc).filter beat ∧ (t.cp 2).txq = c.txq.filter beat ∧ frame t) ∧
        (∃ t, exec (.nmtResetNode dt node) s = .next t ∧ exec (.nmtResetCommunication dt node) s = .next t ∧
          t.canOpen.nmt = (if u.cn 0x2260 2 0 = 1 then 5 else 127) ∧ t.canOpen.lastBeat = u.fc ∧
          (u.admits 0x56 = true → (t.cp 2).frames = [boot] ∧
            t.canOpen = { co with waiting := [], lastBeat := u.fc, nmt := if u.cn 0x2260 2 0 = 1 then 5 else 127 }) ∧
          frame t)) ∧
      (co.emcy = [] ∨ u.emcyFree = false ∨ (co.nmt ≠ 127 ∧ co.nmt ≠ 5) → exec (.emcyInhibitExpiry dt) s = .next u) ∧
      (co.emcy = e :: rest → u.emcyFree = true → co.nmt = 127 ∨ co.nmt = 5 →
        ∃ t, exec (.emcyInhibitExpiry dt) s = .next t ∧ t.canOpen.emcy = rest ∧ t.canOpen.lastEmcy = some u.fc ∧
          (room → (t.cp 2).frames = c.frames ++ [u.emcyFrame e] ∧ t.canOpen.waiting = []) ∧ frame t))

/-- R203, R218, R271: the server takes a request from its receive object. An expedited download, or the last segment of a
segmented one, is one write; an upload is one read, of 1 to 4 bytes at once or of more in segments of 7; a segment with the
wrong toggle bit or out of place fails; an abort or 1000 ms of silence ends the transfer. The server is silent where it does not
run. Data that no frame can carry stand for free bytes (log entry 9). -/
def Obligations.SdoTransfers : Prop :=
  ∀ (s : State) (dt n : Nat) (index : BitVec 16) (sub : Byte) (sized toggle last : Bool) (data d : List Byte) (size : Option Nat)
    (x : Transfer), let u := (s.elapse dt).takeSdo
    let w := s.elapse dt
    let good := expeditedWellFormed sized data
    let fine := segmentWellFormed data
    let b1 : List Byte := if good then data else leBytes 4 s.freeNat
    let b7 : List Byte := if fine then data else leBytes 7 s.freeNat
    let e1 : State := { u.spend (!good) with dict := { u.dict with transfer := none } }
    let e7 : State := { u.spend (!fine) with dict := { u.dict with transfer := none } }
    let v : State := { u with dict := { u.dict with transfer := none } }
    let written (v : State) (i j : Nat) (b : List Byte) : Option (ClientId × Reply) :=
      (v.access .sdo i (State.writeBy .sdo i j b)).dict.reply
    let frame (u t : State) : Prop :=
      t = { u with dict := t.dict, can := t.can, canOpen := t.canOpen, stats := t.stats, fabric := t.fabric }
    let room := u.canOpen.waiting = [] ∧ (u.cp 2).txq = [] ∧ ((u.cp 2).frames.filter CanTx.fromSup).length < 3 ∧ u.hasRoom 0x56 = true
    let sends (t : State) (b : List Byte) : Prop := room → (t.cp 2).frames = (u.cp 2).frames ++ [{
      frame := baseFrame (0x580 + u.nodeId) (b ++ List.replicate (8 - b.length) 0), kind := .sup }]
    (w.serves = true → (u.cp 2).supIn = (w.cp 2).supIn.filter (fun f => f.id != 0x600 + w.nodeId)) ∧
    (w.serves = false → u = w) ∧
    (u.sdoOn = false → exec (.sdoDownloadInitiate dt index sub size) s = .next u ∧
      exec (.sdoDownloadSegment dt toggle last data) s = .next (u.spend (!fine)) ∧
      exec (.sdoExpeditedDownload dt index sub sized data) s = .next (u.spend (!good)) ∧
      exec (.sdoUploadSegment dt toggle) s = .next u ∧
      exec (.sdoUploadInitiate dt index sub) s = .next u ∧ exec (.sdoExpeditedUpload dt index sub) s = .next u ∧
      exec (.sdoAbort dt) s = .next u ∧ exec (.sdoSegmentTimeout dt) s = .next w) ∧
    (u.sdoOn = true →
      (∃ t, exec (.sdoExpeditedDownload dt index sub sized data) s = .next t ∧
        t.dict.reply = written e1 index.toNat sub.toNat (expeditedData index.toNat sub.toNat sized b1)) ∧
      (∃ t, exec (.sdoDownloadInitiate dt index sub size) s = .next t ∧ frame u t ∧
        sends t (0x60 :: muxBytes index.toNat sub.toNat) ∧ t.dict = { u.dict with transfer := some {
          index := index.toNat, sub := sub.toNat, upload := false, data := [], toggle := false, last := u.now } }) ∧
      (u.dict.transfer = some x → x.upload = false →
        (x.toggle ≠ toggle → ∃ t, exec (.sdoDownloadSegment dt toggle last data) s = .next t ∧ frame (u.spend (!fine)) t ∧
          sends t (0x80 :: muxBytes x.index x.sub ++ leBytes 4 abToggle) ∧
          t.dict = { u.dict with transfer := none, reply := some (.sdo, .refused abToggle) }) ∧
        (x.toggle = toggle → (x.data ++ b7).length ≤ 4096 → last = false →
          ∃ t, exec (.sdoDownloadSegment dt toggle last data) s = .next t ∧ frame (u.spend (!fine)) t ∧
            sends t [BitVec.ofNat 8 (0x20 + toggleBit toggle)] ∧ t.dict = { u.dict with
              transfer := some { x with data := x.data ++ b7, toggle := !x.toggle, last := u.now } }) ∧
        (x.toggle = toggle → (x.data ++ b7).length ≤ 4096 → last = true →
          ∃ t, exec (.sdoDownloadSegment dt toggle last data) s = .next t ∧
            t.dict.reply = written e7 x.index x.sub (x.data ++ b7)) ∧
        (x.toggle = toggle → 4096 < (x.data ++ b7).length →
          ∃ t, exec (.sdoDownloadSegment dt toggle last data) s = .next t ∧ frame (u.spend (!fine)) t ∧
            t.dict = { u.dict with transfer := none, reply := some (.sdo, .refused abTooLong) })) ∧
      (Admitted .sdo n index.toNat v → ((v.accessed .sdo n).readObj n index.toNat sub.toNat 4096 []).1 = .done d →
        (∃ t, exec (.sdoUploadInitiate dt index sub) s = .next t ∧ exec (.sdoExpeditedUpload dt index sub) s = .next t ∧
          t.dict.reply = some (.sdo, .done d) ∧
          (4 < d.length → t.dict.transfer = some { index := index.toNat, sub := sub.toNat, upload := true, data := d
                                                   toggle := false, last := u.now }))) ∧
      (u.dict.transfer = none → ∃ t, exec (.sdoUploadSegment dt toggle) s = .next t ∧ frame u t ∧
        t.dict = { u.dict with reply := some (.sdo, .refused abCommand) }) ∧
      (u.dict.transfer = some x → x.upload = true → x.toggle = toggle →
        ∃ t, exec (.sdoUploadSegment dt toggle) s = .next t ∧ frame u t ∧
          sends t (BitVec.ofNat 8 (toggleBit toggle + 2 * (7 - (x.data.take 7).length) + (if x.data.length ≤ 7 then 1 else 0)) ::
            x.data.take 7) ∧
          t.dict = { u.dict with
            transfer := if x.data.length ≤ 7 then none else some { x with data := x.data.drop 7, toggle := !x.toggle, last := u.now } }) ∧
      exec (.sdoAbort dt) s = .next v) ∧
    (w.dict.transfer = none ∨ w.sdoOn = false → exec (.sdoSegmentTimeout dt) s = .next w) ∧
    (w.dict.transfer = some x → w.sdoOn = true →
      (w.now < x.last + cyclesPerSec → exec (.sdoSegmentTimeout dt) s = .next w) ∧
      (x.last + cyclesPerSec ≤ w.now →
        ∃ t, exec (.sdoSegmentTimeout dt) s = .next t ∧ frame w t ∧
          t.dict = { w.dict with transfer := none, reply := some (.sdo, .refused abTimeout) }))

/-- R231 to R235, R239: a watched queue whose read pointer has rested for its own stall limit while it holds committed packets
resets its consumer's domain, counted and with the event; one that has not is left alone. The scrubber reads the next word of
its pass, a new pass only a scrub period after the one before began: it corrects a single-bit error and counts a double-bit
error outside a live packet; the last word ends a pass, and a word that is not next is no step of it. A crossing that does not
settle is counted; an external clock stands or runs, and nothing else changes. -/
def Obligations.FabricFaults : Prop :=
  ∀ (s : State) (dt p c t0 : Nat) (q : Fin 512) (a : BitVec 24) (live : Bool) (x : BitVec 16) (k : ExtClock), let u := s.elapse dt
    let limit := msCycles (u.cn 0x5818 8 q.val)
    let due := a.toNat / 16 = u.fabric.scrubAt ∧ (u.fabric.scrubAt = 0 → ∀ b, u.fabric.scrubFrom = some b →
      u.cn 0x5810 6 0 * cyclesPerSec ≤ u.fc - b)
    let next := if u.fabric.scrubAt = 2 ^ 20 - 1 then 0 else u.fabric.scrubAt + 1
    let v : State := { u with
      fabric.scrubAt := next, fabric.scrubPasses := if next = 0 then u.fabric.scrubPasses + 1 else u.fabric.scrubPasses
      fabric.scrubFrom := if u.fabric.scrubAt = 0 then some u.fc else u.fabric.scrubFrom }
    (u.works domFabric = true →
      ((u.que q.val).since = none ∨ u.visible q.val = 0 ∨ watchedQueue q.val = false → exec (.queueStall dt q) s = .next u) ∧
      ((u.que q.val).since = some t0 → u.fc - t0 < limit → exec (.queueStall dt q) s = .next u) ∧
      ((u.que q.val).since = some t0 → limit ≤ u.fc - t0 → queueEnds q.val = some (p, c) → 3 ≤ c → c ≤ 6 → u.up c = true →
        u.visible q.val ≠ 0 → u.creditFor q.val = true →
        ∃ t, exec (.queueStall dt q) s = .next t ∧ t.dom c = 2 ∧ (∀ d, d ≠ c → t.dom d = u.dom d) ∧
          (t.que q.val).tripped = true ∧ (t.que q.val).wasReset = some .consumer ∧
          t.stats = (u.stat 0x4850 q.val 8 1).stats ∧ t.health = (u.event 0x9001 q.val c).health ∧
          t = { u with fabric := t.fabric, stats := t.stats, health := t.health, power := t.power, carding := t.carding
                       can := t.can, bramble := t.bramble, control := t.control }) ∧
      (¬ due → ∀ e, exec (.scrubRead dt a e live) s = .next u) ∧
      (due →
        exec (.scrubRead dt a .clean live) s = .next v ∧ exec (.scrubRead dt a .double true) s = .next v ∧
        (∃ t, exec (.scrubRead dt a .single live) s = .next t ∧ t.fabric.corrected = u.fabric.corrected + 1 ∧
          t.fabric.lastAddr = a.toNat ∧ t.fabric.lastKind = 1 ∧
          Tbl.get 0 (bankOf a.toNat) t.fabric.bankCorr = Tbl.get 0 (bankOf a.toNat) u.fabric.bankCorr + 1 ∧
          t = { v with fabric := { v.fabric with
            corrected := t.fabric.corrected, bankCorr := t.fabric.bankCorr, lastAddr := t.fabric.lastAddr
            lastKind := t.fabric.lastKind } }) ∧
        (∃ t, exec (.scrubRead dt a .double false) s = .next t ∧ t.fabric.uncorrectable = u.fabric.uncorrectable + 1 ∧
          t.fabric.lastAddr = a.toNat ∧ t.fabric.lastKind = 2 ∧
          Tbl.get 0 (bankOf a.toNat) t.fabric.bankUnc = Tbl.get 0 (bankOf a.toNat) u.fabric.bankUnc + 1 ∧
          t.health = (u.event 0x9002 (bankOf a.toNat) a.toNat).health ∧
          t = { v with
            health := t.health
            fabric := { v.fabric with
              uncorrectable := t.fabric.uncorrectable, bankUnc := t.fabric.bankUnc, lastAddr := t.fabric.lastAddr
              lastKind := t.fabric.lastKind } })) ∧
      (∃ t, exec (.unsettled dt x) s = .next t ∧ t.fabric.unsettled = u.fabric.unsettled + 1 ∧ t.fabric.lastUnsettled = x.toNat ∧
        t.health = (u.event 0x9006 x.toNat (u.fabric.unsettled + 1).toNat).health ∧
        t = { u with fabric := t.fabric, health := t.health })) ∧
    (∃ t, exec (.externalClockStop dt k) s = .next t ∧ (∀ j, j ∈ t.fabric.stopped ↔ j = k ∨ j ∈ u.fabric.stopped) ∧
      t = { u with fabric := { u.fabric with stopped := t.fabric.stopped } }) ∧
    (∃ t, exec (.externalClockResume dt k) s = .next t ∧ (∀ j, j ∈ t.fabric.stopped ↔ j ≠ k ∧ j ∈ u.fabric.stopped) ∧
      t = { u with fabric := { u.fabric with stopped := t.fabric.stopped } })

/-- R242, R243 and Table 10.5: a queue that a reset left in need of realignment passes through request, acknowledge (which
presents the count of the packets committed before the reset that still stand), accept (in which a consumer that was reset
discards what was presented, counted) and resume, which is counted and restores credit, each only while the sides it needs run,
and each once (where SUP fills the queue it may then put frames of its own in). With both sides reset the exchange is the
consumer's, and a producer that returns first raises its request and waits. No other queue changes. -/
def Obligations.RealignmentInFourPhases : Prop :=
  ∀ (s : State) (dt : Nat) (q : Fin 512) (side : Side), let u := s.elapse dt
    let x := u.que q.val
    let others (t : State) : Prop := ∀ k, k ≠ q.val → t.que k = u.que k
    u.works domFabric = true →
    (x.wasReset = some side → x.phase = 0 → u.sideRuns q.val side = true →
      exec (.realignRequest dt q side) s = .next (u.modQue q.val (fun x => { x with phase := 1 }))) ∧
    (x.wasReset = some (otherSide side) → x.both = true → x.phase = 0 → u.sideRuns q.val side = true →
      exec (.realignRequest dt q side) s = .next (u.modQue q.val (fun x => { x with raised := true }))) ∧
    (x.wasReset = none ∨ (x.wasReset = some (otherSide side) ∧ x.both = false) ∨ x.phase ≠ 0 ∨ u.sideRuns q.val side = false →
      exec (.realignRequest dt q side) s = .next u) ∧
    (x.wasReset = none → exec (.realignAcknowledge dt q) s = .next u ∧ exec (.realignAccept dt q) s = .next u ∧
      exec (.realignResume dt q) s = .next u) ∧
    (x.wasReset = some side →
      (x.phase = 1 → u.sideRuns q.val (otherSide side) = true →
        exec (.realignAcknowledge dt q) s = .next (u.modQue q.val (fun x => { x with
          phase := 2, presented := Nat.min x.frozen (u.queued q.val) }))) ∧
      (x.phase ≠ 1 → exec (.realignAcknowledge dt q) s = .next u) ∧
      (x.phase = 2 → u.sideRuns q.val side = true → side = .producer →
        exec (.realignAccept dt q) s = .next (u.modQue q.val (fun x => { x with phase := 3 }))) ∧
      (x.phase = 2 → u.sideRuns q.val side = true → side = .consumer → q.val ≤ 0x17 → x.presented ≠ 0 →
        ∃ t, exec (.realignAccept dt q) s = .next t ∧ (t.sp q.val).rx = (u.sp q.val).rx.drop x.presented ∧ (t.que q.val).phase = 3 ∧
          t.statOf 0x4850 q.val 4 = (u.stat 0x4850 q.val 4 x.presented).statOf 0x4850 q.val 4 ∧
          (x.presented ≤ x.frozen → t.stats = (u.stat 0x4850 q.val 4 x.presented).stats) ∧ t.health = (u.event 0x9003 q.val x.presented).health ∧ others t ∧
          t = { u with fabric := t.fabric, serial := t.serial, stats := t.stats, health := t.health }) ∧
      (x.phase ≠ 2 → exec (.realignAccept dt q) s = .next u) ∧
      (x.phase = 3 → u.sideRuns q.val side = true → u.sideRuns q.val (otherSide side) = true →
        ∃ t, exec (.realignResume dt q) s = .next t ∧ (t.que q.val).wasReset = none ∧ (t.que q.val).phase = 0 ∧
          (t.que q.val).both = false ∧ t.admits q.val = true ∧ t.yields q.val = true ∧
          t.statOf 0x4850 q.val 7 = (u.stat 0x4850 q.val 7 1).statOf 0x4850 q.val 7 ∧
          (∀ k, k ≠ q.val → ¬ (0x38 ≤ q.val ∧ q.val ≤ 0x56) → { t.que k with since := (u.que k).since } = u.que k) ∧
          (¬ (0x38 ≤ q.val ∧ q.val ≤ 0x56) → t = { u with fabric := { u.fabric with
            queues := t.fabric.queues, countOvf := t.fabric.countOvf, ovfCrossing := t.fabric.ovfCrossing }, stats := t.stats }) ∧
          (¬ (0x38 ≤ q.val ∧ q.val ≤ 0x56) → t.visible q.val = u.visible q.val → t.stats = (u.stat 0x4850 q.val 7 1).stats)) ∧
      (x.phase ≠ 3 → exec (.realignResume dt q) s = .next u))

/-- R228, R248, R249, R253, R254: DRAMIF takes the oldest packet of queue 0x081 into the ring as the record of the next
sequence, or leaves it while the ring has no room for it; a read of the empty queue is an underrun; with the journal FULL or
disabled it is discarded and counted; a flush marks every record so far to be programmed; a page that is programmed joins the
journal, a failed one retires its block; an erased block loses its pages. -/
def Obligations.JournalRecordsAndFlushes : Prop :=
  ∀ (s : State) (dt cls dseq : Nat) (r : FibreRecord) (rest : List (FibreRecord × Nat × Nat)) (d : Dispatch) (line : List Dispatch)
    (recs : List JRecord) (b : Nat), let u := s.elapse dt
    let v : State := { u with appts := { u.appts with line := line } }
    let took := ({ u with journal := { u.journal with inbox := rest } } : State).popped 0x81 u
    let need := 32 + (journalBody r).length
    (u.works domDram = true → u.yields 0x81 = false → exec (.journalTakeRecord dt) s = .next u) ∧
    (u.works domDram = true → u.yields 0x81 = true → u.journal.inbox = [] → exec (.journalTakeRecord dt) s = .next (u.readEmpty 0x81)) ∧
    (u.works domDram = true → u.yields 0x81 = true → u.journal.inbox = (r, cls, dseq) :: rest →
      (u.journal.state = 0 ∨ u.journal.state = 4 → exec (.journalTakeRecord dt) s = .next (took.stat 0x4860 0 7 1)) ∧
      (u.journal.state ≠ 0 → u.journal.state ≠ 4 → u.cn 0x3800 2 0 * 2 ^ 20 < ringBytes (u.roomFor need) + need →
        exec (.journalTakeRecord dt) s = .next u) ∧
      (u.journal.state ≠ 0 → u.journal.state ≠ 4 → ringBytes (u.roomFor need) + need ≤ u.cn 0x3800 2 0 * 2 ^ 20 →
        ∃ t, exec (.journalTakeRecord dt) s = .next t ∧ t.journal.inbox = rest ∧ t.journal.nextSeq = u.journal.nextSeq + 1 ∧
          t.journal.ring = u.roomFor need ++ [{ page := none, rcd := {
            type := 1, cls := cls, seq := u.journal.nextSeq, dseq := dseq, taken := u.time, body := journalBody r } }] ∧
          t.stats = (took.stat 0x4860 0 1 1).stats ∧ t = { u with journal := t.journal, fabric := t.fabric, stats := t.stats })) ∧
    (u.works domFabric = true → u.works domDram = true → takeDispatch u.fc 0x0700 u.appts.line = some (d, line) →
      (u.recording = false → exec (.journalFlush dt) s = .next v) ∧
      (u.recording = true → ∃ t, exec (.journalFlush dt) s = .next t ∧ t.journal.flushTo = u.journal.nextSeq - 1 ∧
        t.journal.ring = u.journal.ring ∧ t.journal.nand = u.journal.nand ∧ t = { v with journal := t.journal })) ∧
    (u.works domSup = true → u.works domDram = true →
      (u.recording = false → exec (.flushNow dt) s = .next u) ∧
      (u.recording = true → ∃ t, exec (.flushNow dt) s = .next t ∧ t.journal.flushTo = u.journal.nextSeq - 1 ∧
        t.journal.ring = u.journal.ring ∧ t.journal.nand = u.journal.nand ∧ t = { u with journal := t.journal })) ∧
    (u.works domDram = true →
      (u.journal.programming = none → exec (.pageProgrammed dt true) s = .next u ∧ exec (.pageProgrammed dt false) s = .next u) ∧
      (u.journal.programming = some recs →
        (u.journal.pageInBlock + 1 < 64 → ∃ t, exec (.pageProgrammed dt true) s = .next t ∧
          t.journal.nand = u.journal.nand ++ [{ seq := u.journal.pageSeq, block := u.journal.blockNo, recs := recs }] ∧
          t.journal.pageSeq = u.journal.pageSeq + 1 ∧ t.journal.pageInBlock = u.journal.pageInBlock + 1 ∧
          t.journal.bad = u.journal.bad ∧ t = { u with journal := t.journal, stats := t.stats, health := t.health }) ∧
        (∃ t, exec (.pageProgrammed dt false) s = .next t ∧ t.journal.bad = u.journal.bad ++ [u.journal.blockNo] ∧
          t.journal.retired = u.journal.retired + 1 ∧ t.journal.tableGen = u.journal.tableGen + 1 ∧
          t.journal.nand = u.journal.nand.filter (fun p => p.block != u.journal.blockNo) ∧
          t = { u with journal := t.journal, stats := t.stats, health := t.health })) ∧
      (u.journal.erasing = none → exec (.blockErased dt true) s = .next u ∧ exec (.blockErased dt false) s = .next u) ∧
      (u.journal.erasing = some b →
        (∃ t, exec (.blockErased dt true) s = .next t ∧ t.journal.nand = u.journal.nand.filter (fun p => p.block != b) ∧
          b ∈ t.journal.erased ∧ t.journal.erasing ≠ some b ∧ t.journal.bad = u.journal.bad ∧
          t = { u with journal := t.journal, health := t.health }) ∧
        (∃ t, exec (.blockErased dt false) s = .next t ∧ t.journal.bad = u.journal.bad ++ [b] ∧
          t = { u with journal := t.journal, stats := t.stats, health := t.health })))

/-- R248, R252, R255 to R258: the third NAND operation in a row that times out fails the device, and a block whose read times
out is retired before that; a mount finds no device that is supported, a device to be formatted, or the journal it holds, and
numbers on from it; a device that no longer answers Read ID has failed; a completed format records under a new identity; a
format by command, in the modes of service, empties journal and ring. -/
def Obligations.JournalDevice : Prop :=
  ∀ (s : State) (dt n b : Nat) (f : MountFound) (op : NandOp) (who : ClientId), let u := s.elapse dt
    let j := u.journal
    let frame (t : State) : Prop := t = { u with journal := t.journal, stats := t.stats, health := t.health }
    (u.works domDram = true →
      (j.state = 0 ∨ j.state = 6 ∨ j.state = 7 ∨ u.nandLate op = false → exec (.nandTimeout dt op) s = .next u) ∧
      (j.state ≠ 0 → j.state ≠ 6 → j.state ≠ 7 →
        (u.nandLate op = true → 2 ≤ j.timeouts → ∃ t, exec (.nandTimeout dt op) s = .next t ∧ frame t ∧ t.journal.state = 7 ∧
          t.journal.programming = none ∧ t.journal.erasing = none ∧ t.journal.timeouts = j.timeouts + 1) ∧
        (j.timeouts < 2 →
          (b < 2 ∨ j.blocks ≤ b ∨ b ∈ j.bad → ∃ t, exec (.nandTimeout dt (.read b)) s = .next t ∧ frame t ∧
            t.journal = { j with timeouts := j.timeouts + 1 } ∧ t.stats = (u.stat 0x4860 0 5 1).stats) ∧
          (2 ≤ b → b < j.blocks → b ∉ j.bad → ∃ t, exec (.nandTimeout dt (.read b)) s = .next t ∧ frame t ∧
            t.journal.bad = j.bad ++ [b] ∧ t.journal.retired = j.retired + 1))) ∧
      (j.state ≠ 1 → f.answered = true ∨ j.state < 3 ∨ 5 < j.state → exec (.mountComplete dt f) s = .next u) ∧
      (3 ≤ j.state → j.state ≤ 5 → f.answered = false → ∃ t, exec (.mountComplete dt f) s = .next t ∧ frame t ∧ t.journal.state = 7) ∧
      (j.state = 1 →
        (f.answered = false ∨ supportedNand f = false → ∃ t, exec (.mountComplete dt f) s = .next t ∧ frame t ∧ t.journal.state = 6 ∧
          t.health = (u.event 0xA004 0 0).health) ∧
        (f.answered = true → supportedNand f = true → f.tableValid = false → ∃ t, exec (.mountComplete dt f) s = .next t ∧ frame t ∧
          t.journal.state = 2 ∧ t.journal.nand = [] ∧ t.journal.nextSeq = 1 + j.ring.length ∧ t.health = u.health) ∧
        (f.answered = true → supportedNand f = true → f.tableValid = true → 16 ≤ f.blocks - f.bad.length → 1000 * f.retired ≤ u.cn 0x3800 8 0 * f.blocks →
          u.cn 0x3800 5 0 = 0 →
          ∃ t, exec (.mountComplete dt f) s = .next t ∧ frame t ∧ t.journal.state = 3 ∧ t.journal.nand = f.pages ∧
            t.journal.formatId = f.formatId ∧ t.journal.bad = f.bad ∧
            (∀ g ∈ f.pages, ∀ r ∈ g.recs, r.seq < t.journal.nextSeq))) ∧
      (j.state ≠ 2 → exec (.formatComplete dt) s = .next u) ∧
      (j.state = 2 → 16 ≤ j.blocks - j.bad.length → 1000 * j.retired ≤ u.cn 0x3800 8 0 * j.blocks →
        ∃ t, exec (.formatComplete dt) s = .next t ∧ frame t ∧ t.journal.state = 3 ∧
          t.journal.formatId = u.count.toNat % 2 ^ 32 ∧ t.journal.tableGen = j.tableGen + 1 ∧ t.journal.nand = j.nand)) ∧
    (Admitted who n 0x3800 u →
      (u.serviceMode = false →
        exec (.journalFormat dt who 0x4A) s = .next ((u.accessed who n).answer who (.refused abState))) ∧
      (u.serviceMode = true → u.works domDram = true → j.state ≠ 0 → j.state ≠ 6 → j.state ≠ 7 →
        ∃ t, exec (.journalFormat dt who 0x4A) s = .next t ∧ t.dict.reply = some (who, .done []) ∧ t.journal.state = 2 ∧
          t.journal.nand = [] ∧ t.journal.ring = [] ∧
          t = { u with journal := t.journal, stats := t.stats, health := t.health, dict := t.dict }))

/-- R260, R261, R300: a seek places the client's cursor as its mode, sequence or position says; a read answers with records from
the cursor on, no more than the client's limit or its path takes, and leaves the cursor behind them. Only the client's cursor
and the counts of the access change. A seek places the client's cursor in the event log; a read answers with whole records of 32
bytes from the cursor on, within what the path carries, and leaves the cursor behind them; the log is emptied by command in the
modes of service, and its next sequence goes on. -/
def Obligations.RecordRetrieval : Prop :=
  (∀ (s : State) (dt n : Nat) (who : ClientId) (c : Client) (bad : List Nat), let u := s.elapse dt
    let v := u.accessed who n
    let at_ := c.journal.getD (if u.oldestSeq = 0 then u.journal.nextSeq else u.oldestSeq)
    let got := u.journalRead at_ (Nat.min (pathLimit who) (v.heldBy n 0x3810 5)) bad
    Admitted who n 0x3810 u → v.clientAt n = some c →
    exec (.journalSeek dt who) s = .next ((v.modClient n (fun c => { c with
      journal := some (u.seekCursor (v.heldBy n 0x3810 1) (v.heldBy n 0x3810 2) (BitVec.ofNat 64 (v.heldBy n 0x3810 3))) })).answer who (.done [])) ∧
    (∃ t, exec (.journalDataRead dt who bad) s = .next t ∧ t.dict.reply = some (who, .done got.1) ∧
      got.1.length ≤ pathLimit who ∧ t.clientAt n = some { c with journal := some got.2.1 } ∧
      t = { u with dict := t.dict, stats := t.stats })) ∧
  (∀ (s : State) (dt n : Nat) (who : ClientId) (c : Client), let u := s.elapse dt
    let v := u.accessed who n
    let mode := v.heldBy n 0x5802 1
    let at_ : BitVec 32 := match c.log with
      | some k => BitVec.ofNat 32 k
      | none => u.health.nextSeq - 1
    let l := u.logFrom c.logNewest at_ (pathLimit who)
    Admitted who n 0x5802 u → v.clientAt n = some c →
    exec (.eventLogSeek dt who) s = .next ((v.modClient n (fun c => { c with
      log := some (u.logPlace mode (BitVec.ofNat 32 (v.heldBy n 0x5802 2))).toNat, logNewest := mode == 0 })).answer who (.done [])) ∧
    (∃ t, exec (.eventLogDataRead dt who) s = .next t ∧ t.dict.reply = some (who, .done (l.flatMap LogRec.bytes)) ∧
      l.length * 32 ≤ pathLimit who ∧ t.health = u.health ∧ t = { u with dict := t.dict, stats := t.stats }) ∧
    (u.serviceMode = true → exec (.clearLog dt who 0x4A) s =
      .next (({ v with health := { u.health with log := [] } } : State).answer who (.done []))) ∧
    (u.serviceMode = false → exec (.clearLog dt who 0x4A) s = .next (v.answer who (.refused abState))))

/-- R278, R279, R281, R284, R309: the owner's commands. Open begins a cycle on a copy of the configuration in force; check
begins a check; set, in CHECKED, takes a set point 2 ms to 3600 s ahead; abandon ends a cycle that is not committed; load
factory defaults empties the shadow. Each is refused to a client that is not the owner, and where the state does not allow it.
-/
def Obligations.BlockingCycleCommands : Prop :=
  ∀ (s : State) (dt n : Nat) (who : ClientId), let u := s.elapse dt
    let v := u.accessed who n
    let c := u.cycle
    let refused (code : Nat) : Host.Outcome State Fault Refusal := .next (v.answer who (.refused code))
    let done (t : State) : Prop := t.dict.reply = some (who, .done []) ∧
      t = { u with cycle := t.cycle, dict := t.dict, stats := t.stats, twin := t.twin, appts := t.appts, fabric := t.fabric, free := t.free }
    let sp := u.wantedPoint
    let ahead := posDiff sp u.time
    Admitted who n 0x5000 u →
    (u.twin.role = 1 ∨ u.twin.role = 2 ∨ u.twin.role = 3 → exec (.cycleOpen dt who) s = refused abStandby) ∧
    (u.twin.role = 0 ∨ u.twin.role = 4 → u.writesCopy = false → c.state = 0 →
      ∃ t, exec (.cycleOpen dt who) s = .next t ∧ done t ∧ t.cycle = { c with
        state := 1, owner := some n, shadow := if u.boot.mode = 3 then [] else u.cfg, staged := 0, openedAt := u.now
        committed := false, pending := none, twinPass := none, asked := false, found := none, acked := false, fromTwin := none
        whole := false }) ∧
    (c.state ≠ 0 → c.owner ≠ some n →
      exec (.cycleCheck dt who) s = refused abOwned ∧ exec (.cycleSet dt who) s = refused abOwned ∧
      exec (.cycleAbandon dt who) s = refused abOwned ∧ exec (.loadFactoryDefaults dt who) s = refused abOwned) ∧
    (c.owner = some n →
      (c.state = 1 ∨ c.state = 4 → ∃ t, exec (.cycleCheck dt who) s = .next t ∧ done t ∧ t.cycle.state = 2 ∧
        t.cycle.shadow = c.shadow ∧ t.cycle.owner = c.owner ∧ t.appts = u.appts) ∧
      (c.state ≠ 1 → c.state ≠ 4 → exec (.cycleCheck dt who) s = refused abState) ∧
      (c.state ≠ 3 → exec (.cycleSet dt who) s = refused abUnchecked) ∧
      (c.state = 3 → ahead * 1000 < 2 * 2 ^ 32 → exec (.cycleSet dt who) s = refused abSoon) ∧
      (c.state = 3 → 2 * 2 ^ 32 ≤ ahead * 1000 → ahead ≤ 3600 * 2 ^ 32 →
        sortEntries ({ u := u.uid, c := Cfg.withBnd c.shadow u.cfg, point := sp } : Check).oneShots = [] →
        ∃ t, exec (.cycleSet dt who) s = .next t ∧ done t ∧ t.cycle = { c with state := 5, pending := some sp, committed := false, acked := false } ∧
          t.appts.setRow = some sp) ∧
      (c.state = 0 → exec (.cycleAbandon dt who) s = refused abState) ∧
      (c.state ≠ 0 → c.committed = true → exec (.cycleAbandon dt who) s = refused abCommitted) ∧
      (c.state ≠ 0 → c.state ≠ 5 → c.committed = false → ∃ t, exec (.cycleAbandon dt who) s = .next t ∧ done t ∧
        t.cycle.state = 0 ∧ t.cycle.owner = none ∧ t.cycle.shadow = [] ∧ t.cycle.result = 3 ∧ t.cycle.generation = c.generation) ∧
      (c.state = 1 ∨ c.state = 3 ∨ c.state = 4 → ∃ t, exec (.loadFactoryDefaults dt who) s = .next t ∧ done t ∧
        t.cycle = { c with shadow := [], state := 1 }) ∧
      (c.state ≠ 1 → c.state ≠ 3 → c.state ≠ 4 → exec (.loadFactoryDefaults dt who) s = refused abState))

/-- R20, R280 to R284: a finished check is CHECKED without a violation and FAILED with the first 64 of them; from 1 ms before it
the set point is committed; at it the shadow, with the BND values in force, is the configuration in force, of the next
generation, for all that is stamped at or after the due position its dispatch carries, and its copy is begun; a copy that is
written, where its content fits one, is sealed; a cycle past the release time is abandoned. -/
def Obligations.BlockingCycleProceeds : Prop :=
  ∀ (s : State) (dt n : Nat) (sp : WheelPos) (d : Dispatch) (rest : List Dispatch) (ok : Bool), let u := s.elapse dt
    let c := u.cycle
    let p := Cfg.nat u.uid u.dict.imm 0x5000 4 0
    let own := u.checkShadow c.shadow (if p = 0 then u.time else BitVec.ofNat 64 p)
    (u.works domSup = true →
      (c.state ≠ 2 → exec (.checkComplete dt) s = .next u) ∧
      (c.state = 2 → u.awaitsTwin = true → exec (.checkComplete dt) s = .next { u with cycle := { c with found := some own } }) ∧
      (c.state = 2 → u.awaitsTwin = false → c.twinPass ≠ some false →
        (own = [] → ∃ t, exec (.checkComplete dt) s = .next t ∧ t.cycle.state = 3 ∧ t.cycle.failures = [] ∧ t.cycle.failCount = 0 ∧
          t.cycle.result = c.result ∧ t = { u with cycle := t.cycle }) ∧
        (own ≠ [] → ∃ t, exec (.checkComplete dt) s = .next t ∧ t.cycle.state = 4 ∧ t.cycle.result = 2 ∧
          t.cycle.failures = (sortEntries own).take 64 ∧ t.cycle.failCount = own.length ∧ t.cycle.shadow = c.shadow ∧
          t = { u with cycle := t.cycle })) ∧
      (c.pending = none ∨ c.state ≠ 5 → exec (.cycleCommit dt) s = .next u) ∧
      (c.pending = some sp → c.state = 5 →
        (posDiff sp u.time * 1000 ≤ 2 ^ 32 → exec (.cycleCommit dt) s = .next { u with cycle := { c with committed := true } }) ∧
        (2 ^ 32 < posDiff sp u.time * 1000 → exec (.cycleCommit dt) s = .next u)) ∧
      (c.writing = none → exec (.copyWriteComplete dt ok) s = .next u) ∧
      (c.writing = some n → let fine := ok && fitsCopy (u.copy n).content
        ∃ t, exec (.copyWriteComplete dt ok) s = .next t ∧ t.cycle.state = 0 ∧ t.cycle.owner = none ∧
        t.cycle.writing = none ∧ t.cycle.copyWritten = n ∧ t.cycle.result = (if fine then 1 else 5) ∧ t.cfg = u.cfg ∧
        (∀ k, t.copy k = if fine = true ∧ k = n then { u.copy k with sealed := true } else u.copy k) ∧
        t.boot.copyInForce = (if fine then some n else u.boot.copyInForce) ∧
        t.health = (if fine then u.event 0xB001 c.generation n else u.event 0xB002 n c.generation).health ∧
        t = { u with cycle := t.cycle, boot := t.boot, health := t.health, appts := t.appts, twin := t.twin, fabric := t.fabric
                     stats := t.stats }) ∧
      (c.state = 0 ∨ c.state = 5 ∨ u.now - c.openedAt ≤ u.cn 0x5040 1 0 * cyclesPerSec → exec (.cycleTimeout dt) s = .next u) ∧
      (c.state ≠ 0 → c.state ≠ 5 → u.cn 0x5040 1 0 * cyclesPerSec < u.now - c.openedAt →
        ∃ t, exec (.cycleTimeout dt) s = .next t ∧ t.cycle.state = 0 ∧ t.cycle.owner = none ∧ t.cycle.result = 4 ∧
          t.cfg = u.cfg ∧ t.cycle.generation = c.generation)) ∧
    (u.works domFabric = true → takeDispatch u.fc 0x0800 u.appts.line = some (d, rest) →
      (c.state ≠ 5 ∨ c.writing.isSome = true →
        exec (.blockingSetPoint dt) s = .next { u with appts := { u.appts with line := rest } }) ∧
      (c.state = 5 → c.writing = none → ∃ t, exec (.blockingSetPoint dt) s = .next t ∧ t.cfg = u.newCfg ∧
        t.cycle = { c with committed := true, shadow := [], generation := u.nextGen, lastSet := d.due, writing := some u.copyToWrite
                           old := (u.cfg, d.due) :: c.old } ∧
        (∀ p, t.cfgAt p = if posAtOrAfter p d.due then u.newCfg else u.cfgAt p) ∧
        t.copy u.copyToWrite = { generation := u.nextGen, sealed := false, content := u.newCfg, setPoint := d.due } ∧
        t.dict = u.dict))

/-- R264, R266 to R269, R279, R286, R291, R269, R284: what a write or a read of an object does, by its effect. An STG value goes
into the owner's shadow; a BND value into the configuration in force; a value held per client into the client's slot; a 1
written to a sticky flag clears it; a statistic is read and cleared. Whatever is refused changes nothing but the counts. A
client that has made no access for the release time is released, or one by command: its slot, selections and cursors are free,
and its cycle, where it has not been committed, is abandoned. -/
def Obligations.ObjectAccessAndClients : Prop :=
  (∀ (s : State) (dt n : Nat) (who : ClientId) (index : BitVec 16) (sub : Byte) (b : List Byte) (mask : BitVec 16) (g : Group) (o : Obj)
    (x : Val), let u := s.elapse dt
    let v := u.accessed who n
    let i := index.toNat
    let j := sub.toNat
    let row := v.rowOf n g i
    let refused (code : Nat) : Host.Outcome State Fault Refusal := .next (v.answer who (.refused code))
    let writes (r : Host.Outcome State Fault Refusal) : Prop := exec (.stgWrite dt who index sub b) s = r ∧
      exec (.bndWrite dt who index sub b) s = r ∧ exec (.registerWrite dt who index sub b) s = r
    (u.serves = false → writes (.next u) ∧ exec (.flagClear dt who index sub mask) s = .next u ∧
      exec (.statisticRead dt who index sub) s = .next u) ∧
    (u.serves = true → u.slotOf who = none → u.freeSlot = none →
      writes (.next (((u.stat 0x4870 (pathOf who) 2 1).stat 0x4870 (pathOf who) 6 1).answer who (.refused abClients)))) ∧
    (Admitted who n i u → b.length ≤ pathLimit who →
      (findGroup i = none → writes (refused abNoObject) ∧ exec (.statisticRead dt who index sub) s = refused abNoObject) ∧
      (findGroup i = some g → j ≠ 0 →
        (g.line j = none → writes (refused abNoSub) ∧ exec (.statisticRead dt who index sub) s = refused abNoSub) ∧
        (g.line j = some o →
          (o.acc = .ro ∨ o.acc = .const → writes (refused abReadOnly)) ∧
          (o.acc = .wo → exec (.statisticRead dt who index sub) s = refused abWriteOnly) ∧
          (o.acc = .rw ∨ o.acc = .wo → lockedRow i j row = false → o.judge b = .ok x →
            (o.eff = .stg →
              (u.cycle.state = 0 → exec (.stgWrite dt who index sub b) s = refused abNoCycle) ∧
              (u.cycle.state ≠ 0 → u.cycle.owner ≠ some n → exec (.stgWrite dt who index sub b) s = refused abOwned) ∧
              (u.cycle.state ≠ 0 → u.cycle.state ≠ 2 → u.cycle.state ≠ 5 → u.cycle.owner = some n →
                exec (.stgWrite dt who index sub b) s = .next (({ v with cycle := { u.cycle with
                  state := 1, staged := u.cycle.staged + 1, shadow := Cfg.set u.uid ⟨i, j, row⟩ x u.cycle.shadow } } : State).answer who (.done [])))) ∧
            (o.eff = .bnd → u.twin.role ≠ 1 → u.twin.role ≠ 2 → u.twin.role ≠ 3 → i < 0x2100 ∨ 0x2117 < i →
              ∃ t, exec (.bndWrite dt who index sub b) s = .next t ∧ t.dict.reply = some (who, .done []) ∧
                t.cfg = Cfg.set u.uid ⟨i, j, row⟩ x u.cfg ∧
                t = { u with cfg := t.cfg, dict := t.dict, stats := t.stats, twin := t.twin }) ∧
            (o.eff = .imm → perClient g j = true →
              exec (.registerWrite dt who index sub b) s = .next ((v.holdFor n i j x).answer who (.done [])))) ∧
          (o.acc ≠ .wo → 0x4800 ≤ i → i ≤ 0x48FF → i ≠ 0x4830 → perClient g j = false →
            (o.ty.encode (.num (v.statOf i row j : Nat))).length ≤ pathLimit who →
            exec (.statisticRead dt who index sub) s = .next (({ v with stats := Tbl.del (statKey i row j) v.stats } : State).answer who
              (.done (o.ty.encode (.num (v.statOf i row j : Nat)))))))) ∧
      (∀ p : Fin 24, i = 0x2100 + p.val → j = 0x21 →
        exec (.flagClear dt who index sub mask) s =
          .next ((v.modSp p.val (fun y => { y with flags := wipe y.flags 0x07 mask.toNat })).answer who (.done []))))) ∧
  (∀ (s : State) (dt : Nat) (k : Fin 4) (c : Client), let u := s.elapse dt
    let gone (t : State) : Prop := t.dict.clients = u.dict.clients.filter (fun x => x.1 != k.val) ∧ t.cfg = u.cfg ∧
      (c.id = .sdo → t.dict.transfer = none) ∧
      (u.cycle.owner = some k.val → u.cycle.state ≠ 0 → u.cycle.committed = false →
        t.cycle.state = 0 ∧ t.cycle.shadow = [] ∧ t.cycle.result = 4) ∧
      (u.cycle.owner ≠ some k.val → t.cycle = u.cycle)
    (u.serves = false ∨ u.clientAt k.val = none → exec (.clientRelease dt k) s = .next u ∧ exec (.clientReleaseTimeout dt k) s = .next u) ∧
    (u.serves = true → u.clientAt k.val = some c →
      (∃ t, exec (.clientRelease dt k) s = .next t ∧ gone t) ∧
      (u.now < c.last + u.cn 0x5040 1 0 * cyclesPerSec → exec (.clientReleaseTimeout dt k) s = .next u) ∧
      (c.last + u.cn 0x5040 1 0 * cyclesPerSec ≤ u.now → ∃ t, exec (.clientReleaseTimeout dt k) s = .next t ∧ gone t)))

/-- R272 to R274: SUP takes the datagram's frame from the head of its queue of the port. A request without a valid form or tag
is discarded and counted; an echo is answered and nothing else; a request that repeats the last one is answered with the reply
that was kept; one of another start, or with a counter that is not higher, is refused; another is accepted: a read or a write is
one access, a close releases the client. -/
def Obligations.LapRequests : Prop :=
  ∀ (s : State) (dt : Nat) (p : Fin 2) (ip : BitVec 32) (udp : BitVec 16) (b : List Byte) (r : LapReq) (f : RxFrame)
    (rest : List RxFrame), let w0 := s.elapse dt
    let u := w0.takeLap p.val ip udp b
    let who : ClientId := .lap r.key ip udp
    let k := r.key.val
    let w : State := { u with dict := { u.dict with laps := Tbl.put k { (u.lapKey k) with counter := r.counter } u.dict.laps } }
    let rd := w.access who r.index (fun n s => s.readObj n r.index r.sub 1024 [])
    let wr := w.access who r.index (fun n s =>
      if s.cn 0x5042 2 k = 1 then refuse abLapRead s else s.writeBy who r.index r.sub r.data n)
    let all (t : State) : Prop := exec (.lapRead dt p ip udp b) s = .next t ∧ exec (.lapWrite dt p ip udp b) s = .next t ∧
      exec (.lapClose dt p ip udp b) s = .next t ∧ exec (.lapEcho dt p ip udp b) s = .next t
    ((w0.ep p.val).supIn = [] ∨ w0.yields (0x34 + p.val) = false → u = w0) ∧
    ((w0.ep p.val).supIn = f :: rest → w0.yields (0x34 + p.val) = true → isLap ip udp b f = true →
      u = (w0.modEp p.val (fun e => { e with supIn := rest })).popped (0x34 + p.val) w0) ∧
    ((w0.ep p.val).supIn = f :: rest → isLap ip udp b f = false → u = w0) ∧
    (w0.serves = false ∨ w0.up (domEth p.val) = false → all w0) ∧
    (w0.serves = true → w0.up (domEth p.val) = true → u.lapValid b = none → all (u.stat 0x4870 1 4 1)) ∧
    (w0.serves = true → w0.up (domEth p.val) = true → u.lapValid b = some r →
      (r.op = 4 → all (u.lapSend p.val ip.toNat udp.toNat (u.lapReply b r 0xFF (.done [])))) ∧
      (r.op ≠ 4 → (u.lapKey k).request = b → all (u.lapSend p.val ip.toNat udp.toNat (u.lapKey k).reply)) ∧
      (r.op ≠ 4 → (u.lapKey k).request ≠ b → r.start ≠ u.dict.startCount →
        all (u.lapStale p.val ip.toNat udp.toNat b r who abStart)) ∧
      (r.op ≠ 4 → (u.lapKey k).request ≠ b → r.start = u.dict.startCount → r.counter ≤ (u.lapKey k).counter →
        all (u.lapStale p.val ip.toNat udp.toNat b r who abCounter)) ∧
      (∀ code, (u.lapStale p.val ip.toNat udp.toNat b r who code).dict = { u.dict with reply := some (who, .refused code) }) ∧
      ((u.lapKey k).request ≠ b → r.start = u.dict.startCount → (u.lapKey k).counter < r.counter →
        (r.op = 1 → ∃ t, exec (.lapRead dt p ip udp b) s = .next t ∧ t.dict.reply = rd.dict.reply ∧
          (w.sameStart rd = true → (t.lapKey k).request = b ∧ (t.lapKey k).counter = r.counter)) ∧
        (r.op = 2 → ∃ t, exec (.lapWrite dt p ip udp b) s = .next t ∧ t.dict.reply = wr.dict.reply ∧ t.cfg = wr.cfg ∧
          t.cycle = wr.cycle ∧ (w.sameStart wr = true → (t.lapKey k).request = b ∧ (t.lapKey k).counter = r.counter)) ∧
        (∀ n, r.op = 3 → u.slotOf who = some n → ∃ t, exec (.lapClose dt p ip udp b) s = .next t ∧
          t.dict.reply = some (who, .done []) ∧ t.dict.clients = u.dict.clients.filter (fun x => x.1 != n) ∧
          (t.lapKey k).request = b ∧ (t.lapKey k).counter = r.counter)))

/-- R239, R240, R275 to R277: nothing comes while SPI_T_SCK stands or queue 0x084 is to be realigned; MISO carries 0xFF while a
request comes; a transaction too short or without the request byte is discarded and counted; a request that is not sound is
answered with the SPI abort code; a sound one is one access, whose reply waits for a fetch; a fetch clocks out the status of no
reply, or that of a reply whose commit has not settled, or the reply's frame, which is consumed when it has gone out whole. -/
def Obligations.SpiTarget : Prop :=
  ∀ (s : State) (dt clocked seq : Nat) (b : List Byte) (r : Reply), let u := s.elapse dt
    let out := fun (l : List Byte) => u.miso l
    let v := out (List.replicate b.length 0xFF)
    let w := v.spiClear.passed 0x84 1
    let clock := u.fabric.stopped.contains .spi = false
    let index := fieldLe 4 2 b
    let sub := byteAt 6 b
    let rd := w.access .spi index (fun n s => s.readObj n index sub 1024 [])
    let wr := w.access .spi index (State.writeBy .spi index sub (slice 10 (fieldLe 8 2 b) b))
    (u.fabric.stopped.contains .spi = true → exec (.spiReadRequest dt b) s = .next u ∧ exec (.spiWriteRequest dt b) s = .next u ∧
      exec (.spiFetch dt clocked) s = .next u) ∧
    (clock → u.serves = false ∨ u.flows 0x84 = false → exec (.spiReadRequest dt b) s = .next v ∧ exec (.spiWriteRequest dt b) s = .next v) ∧
    (clock → u.serves = false → exec (.spiFetch dt clocked) s = .next (out (List.replicate (1 + clocked) 0xFF))) ∧
    (u.serves = true → clock → u.flows 0x84 = true →
      (b.length < 12 ∨ byteAt 0 b ≠ 0xA5 → exec (.spiReadRequest dt b) s = .next (v.stat 0x4870 2 4 1) ∧
        exec (.spiWriteRequest dt b) s = .next (v.stat 0x4870 2 4 1)) ∧
      (12 ≤ b.length → byteAt 0 b = 0xA5 →
        (spiSound b = false → ∃ t, exec (.spiReadRequest dt b) s = .next t ∧ exec (.spiWriteRequest dt b) s = .next t ∧
          t.dict = { v.dict with spiReply := some (byteAt 2 b, .refused abSpi), spiAt := u.now } ∧
          t = { u with dict := t.dict, stats := t.stats, fabric := t.fabric }) ∧
        (spiSound b = true → byteAt 1 b = 1 → ∃ t, exec (.spiReadRequest dt b) s = .next t ∧ t.dict.reply = rd.dict.reply ∧
          (w.sameStart rd = true → t.dict.spiReply = some (byteAt 2 b, rd.lastReply))) ∧
        (spiSound b = true → byteAt 1 b = 2 → ∃ t, exec (.spiWriteRequest dt b) s = .next t ∧ t.dict.reply = wr.dict.reply ∧
          t.cfg = wr.cfg ∧ t.cycle = wr.cycle ∧ (w.sameStart wr = true → t.dict.spiReply = some (byteAt 2 b, wr.lastReply))))) ∧
    (u.serves = true → clock →
      (u.dict.spiReply = none → exec (.spiFetch dt clocked) s = .next (out (0xFF :: [(0x02 : Byte)].take clocked))) ∧
      (u.dict.spiReply = some (seq, r) →
        (u.yields 0x85 = false → u.spiFresh = false →
          exec (.spiFetch dt clocked) s = .next (out (0xFF :: [(0x00 : Byte)].take clocked))) ∧
        (u.yields 0x85 = true → u.spiFresh = true → ∃ t, exec (.spiFetch dt clocked) s = .next t ∧
          (t.dict.spiOut = (out (0xFF :: [(0x00 : Byte)].take clocked)).dict.spiOut ∨ t.dict.spiOut = (out (0xFF :: (spiFrame seq r).take clocked)).dict.spiOut) ∧
          t = { u with dict := t.dict, fabric := t.fabric, stats := t.stats, free := u.free + 1 }) ∧
        (u.yields 0x85 = true → u.spiFresh = false → clocked < (spiFrame seq r).length →
          exec (.spiFetch dt clocked) s = .next (out (0xFF :: (spiFrame seq r).take clocked))) ∧
        (u.yields 0x85 = true → u.spiFresh = false → (spiFrame seq r).length ≤ clocked → ∃ t, exec (.spiFetch dt clocked) s = .next t ∧ t.dict = { (out (0xFF :: spiFrame seq r)).dict with
          spiReply := none } ∧ t = { u with dict := t.dict, fabric := t.fabric })))

/-- R292 to R294, R296, R297: SUP writes the oldest event raised at the head of the log, unless 16 of its code came within a
second; a raise puts a new alert in the lowest free row, in state V; an acknowledgement takes V to A, and U to N, out of the
table; through the dictionary one names a row or all of them, through ACN the alert itself. -/
def Obligations.EventLogAndAlerts : Prop :=
  ∀ (s : State) (dt r : Nat) (row : Fin 64) (e : Event) (rest : List Event) (x : Alert) (q : FibreRecord), let u := s.elapse dt
    let h := u.health
    let inst := e.a % 0x10000 + 1
    let near := (Tbl.get [] e.code h.rates).filter (fun t => decide (e.fc < t + cyclesPerSec))
    let frame (t : State) : Prop := t = { u with health := t.health, canOpen := t.canOpen, can := t.can, stats := t.stats
                                                 fabric := t.fabric, bramble := t.bramble, free := t.free }
    let acked (k : Nat) (t : State) : Prop := t.health.alerts.find? (fun y => y.1 == k) =
      some (k, { x with state := 2, revision := x.revision % 99 + 1, changed := u.time, sentAt := u.fc })
    u.works domSup = true →
    (h.waiting = [] → exec (.eventLogWrite dt) s = .next u) ∧
    (h.waiting = e :: rest → e.kind = 0 → 16 ≤ near.length →
      ∃ t, exec (.eventLogWrite dt) s = .next t ∧ frame t ∧ t.health = { h with waiting := rest, suppressed := h.suppressed + 1 }) ∧
    (h.waiting = e :: rest → e.kind = 0 → near.length < 16 →
      ∃ t, exec (.eventLogWrite dt) s = .next t ∧ frame t ∧ t.health.waiting = rest ∧ t.health.nextSeq = h.nextSeq + 1 ∧
        t.health.log.length ≤ 16384 ∧ t.health.alerts = h.alerts ∧ t.health.log.getLast? = some {
          seq := h.nextSeq, at_ := e.at_, code := e.code, wstate := e.wstate, kind := 0, astate := 0, a := e.a, b := e.b, start := e.start }) ∧
    (h.waiting = e :: rest → e.kind = 1 → u.alertRow e.code inst = none → u.alertRow 0xE0FF 1 = none →
      (List.range 63).find? (fun r => !h.alerts.any (fun y => y.1 == r)) = some r → evKind e.code ≠ .occurrence →
      ∃ t, exec (.eventLogWrite dt) s = .next t ∧ frame t ∧ t.health.waiting = rest ∧ t.health.nextSeq = h.nextSeq + 1 ∧
        t.health.alerts = Tbl.put r { code := e.code, instance_ := inst, state := 1, revision := 1, raised := e.at_, a := e.a, b := e.b
                                      sentAt := u.fc, changed := e.at_ } h.alerts) ∧
    (h.alerts.find? (fun y => y.1 == row.val) = none → exec (.alertAcknowledge dt row) s = .next u) ∧
    (h.alerts.find? (fun y => y.1 == row.val) = some (row.val, x) →
      (x.state ≠ 1 → x.state ≠ 3 → exec (.alertAcknowledge dt row) s = .next u) ∧
      (x.state = 1 → ∃ t, exec (.alertAcknowledge dt row) s = .next t ∧ frame t ∧ acked row.val t) ∧
      (x.state = 3 → h.alerts.find? (fun y => y.1 == 63) = none →
        ∃ t, exec (.alertAcknowledge dt row) s = .next t ∧ frame t ∧ t.health.alerts = Tbl.del row.val h.alerts)) ∧
    (h.alerts = [] → exec (.acknowledgeAll dt) s = .next u) ∧
    (h.alerts = [(r, x)] → x.state = 1 → ∃ t, exec (.acknowledgeAll dt) s = .next t ∧ frame t ∧ acked r t) ∧
    (h.acnIn = [] → exec (.acnAcknowledge dt) s = .next u) ∧
    (h.acnIn = [q] → (acnFields q).1 = ascii "HLX" → (acnFields q).2.2.2 = ascii "A" →
      u.alertRow (acnFields q).2.1 (acnFields q).2.2.1 = some r → h.alerts.find? (fun y => y.1 == r) = some (r, x) → x.state = 1 →
      ∃ t, exec (.acnAcknowledge dt) s = .next t ∧ frame t ∧ acked r t ∧ t.health.acnIn = [])

/-- R79, R296, R297, R299: the sentences of the device source enter Bramble one record each: the ALF of a standing alert on its
repeat interval or on request, the list of alerts on its interval, the status and the wheel report at the multiples of theirs.
The health score of such a record is a free value. Where nothing is due nothing is sent. -/
def Obligations.DeviceSentences : Prop :=
  ∀ (s : State) (dt r : Nat) (row : Fin 64) (x : Alert) (q : FibreRecord), let u := s.elapse dt
    let h := u.health
    let iv := u.cn 0x5800 5 0
    let lv := u.cn 0x5800 6 0
    let sd := h.statusGrid.due (u.cn 0x5803 1 0) u.time
    let wd := h.wheelGrid.due (u.cn 0x5803 2 0) u.time
    let sent (n : Nat) (t : State) : Prop :=
      (Tbl.get [] 10 t.bramble.inputs).length = (Tbl.get [] 10 u.bramble.inputs).length + n ∧
      (Tbl.get [] 10 t.bramble.inputs).take (Tbl.get [] 10 u.bramble.inputs).length = Tbl.get [] 10 u.bramble.inputs ∧
      t = { u with health := t.health, bramble := t.bramble, stats := t.stats, fabric := t.fabric, free := u.free + n }
    u.works domSup = true →
    (h.alerts.find? (fun y => y.1 == row.val) = none ∨ iv = 0 → exec (.alfRepeat dt row) s = .next u) ∧
    (h.alerts.find? (fun y => y.1 == row.val) = some (row.val, x) →
      (x.state = 2 ∨ u.fc - x.sentAt < iv * cyclesPerSec → exec (.alfRepeat dt row) s = .next u) ∧
      (iv ≠ 0 → x.state = 1 ∨ x.state = 3 → iv * cyclesPerSec ≤ u.fc - x.sentAt →
        ∃ t, exec (.alfRepeat dt row) s = .next t ∧ sent 1 t ∧ t.health.alerts = Tbl.put row.val { x with sentAt := u.fc } h.alerts)) ∧
    (h.acnIn = [] → exec (.acnRepeatRequest dt) s = .next u) ∧
    (h.acnIn = [q] → (acnFields q).1 = ascii "HLX" → (acnFields q).2.2.2 = ascii "Q" →
      u.alertRow (acnFields q).2.1 (acnFields q).2.2.1 = some r → h.alerts.find? (fun y => y.1 == r) = some (r, x) →
      ∃ t, exec (.acnRepeatRequest dt) s = .next t ∧ sent 1 t ∧ t.health.acnIn = []) ∧
    (lv = 0 ∨ u.fc - h.lastAlc < lv * cyclesPerSec → exec (.alcEmission dt) s = .next u) ∧
    (lv ≠ 0 → lv * cyclesPerSec ≤ u.fc - h.lastAlc →
      (h.alerts = [] → exec (.alcEmission dt) s = .next { u with health := { h with lastAlc := u.fc } }) ∧
      (h.alerts ≠ [] → h.alerts.length ≤ 4 →
        ∃ t, exec (.alcEmission dt) s = .next t ∧ sent 1 t ∧ t.health.lastAlc = u.fc ∧ t.health.alcId = (h.alcId + 1) % 10)) ∧
    (u.works domFabric = true →
      (sd = false → exec (.phlxStatus dt) s = .next u) ∧
      (sd = true → ∃ t, exec (.phlxStatus dt) s = .next t ∧ sent 1 t ∧
        t.health.statusGrid = h.statusGrid.sampled (u.cn 0x5803 1 0) u.time) ∧
      (wd = false → exec (.phlxWheelReport dt) s = .next u) ∧
      (wd = true → ∃ t, exec (.phlxWheelReport dt) s = .next t ∧
        sent ((List.range 4).filter (fun w => (u.cn 0x5803 3 0).testBit w)).length t ∧
        t.health.wheelGrid = h.wheelGrid.sampled (u.cn 0x5803 2 0) u.time))

/-- R238 to R240, R304 to R307, R311: lanes, HELLO and HEARTBEAT. A refused peer leaves the link in state 4; an accepted one is
held and its reports count; a unit in JOINING beside an active peer becomes standby; 40 µs without a HEARTBEAT lose it, cancel
an agreed handover, and raise what Table 14.5 says. Nothing happens where its condition is not met, nor comes from the peer
while the clock of the link stands or queue 0x083 is to be realigned. -/
def Obligations.LinkAndHeartbeat : Prop :=
  ∀ (s : State) (dt b f : Nat) (lane : Fin 2) (h : Hello) (hb : Heartbeat), let u := s.elapse dt
    let x := u.twin
    let v := u.passed 0x83 1
    let link := u.flows 0x83 = true ∧ u.fabric.stopped.contains .joile = false
    let fromPeer (t : State) : Prop :=
      t = { u with twin := t.twin, stats := t.stats, fabric := t.fabric, health := t.health, appts := t.appts, free := t.free }
    let joins (role : Nat) (t : State) : Prop :=
      (x.role = 1 → activeRole role = true → t.twin.role = 2) ∧ (x.role ≠ 1 ∨ activeRole role = false → t.twin.role = x.role)
    u.works domSup = true → u.works domJoile = true →
    (x.role = 0 ∨ u.lanesUsed.contains lane.val = false → exec (.laneUp dt lane) s = .next u) ∧
    (x.role ≠ 0 → u.lanesUsed.contains lane.val = true → ∃ t, exec (.laneUp dt lane) s = .next t ∧
      Tbl.get false lane.val t.twin.lanes = true ∧ t.twin.role = x.role ∧ fromPeer t ∧ t.appts = u.appts) ∧
    (Tbl.get false lane.val x.lanes = false → exec (.laneLost dt lane) s = .next u) ∧
    (Tbl.get false lane.val x.lanes = true → ∃ t, exec (.laneLost dt lane) s = .next t ∧ Tbl.get false lane.val t.twin.lanes = false ∧
      t.statOf 0x4880 0 9 = (u.stat 0x4880 0 9 1).statOf 0x4880 0 9 ∧ t = { u with twin := t.twin, stats := t.stats, fabric := t.fabric } ∧
      t.twin.peer = x.peer ∧ (t.lanesUp = [] → t.formed = false ∧ (u.yields 0x82 = true → t.twin.out = []))) ∧
    (x.role = 0 ∨ u.linkUp = false ∨ u.helloDue = false → exec (.helloSend dt) s = .next u) ∧
    (x.role ≠ 0 → u.linkUp = true → u.helloDue = true → ∃ t, exec (.helloSend dt) s = .next t ∧
      (u.admits 0x82 = true → JFrame.hello u.ownHello ∈ t.twin.out) ∧
      t.twin.lastHello = u.now ∧ t.twin.helloSent = some (u.boot.mode, x.role, u.cycle.generation) ∧ fromPeer t ∧ t.appts = u.appts) ∧
    (¬ link → exec (.helloReceived dt h) s = .next u ∧ exec (.heartbeatReceived dt hb) s = .next u) ∧
    (link → x.role = 0 ∨ u.linkUp = false → exec (.helloReceived dt h) s = .next v) ∧
    (link → x.role ≠ 0 → u.linkUp = true → ∃ t, exec (.helloReceived dt h) s = .next t ∧ fromPeer t ∧ t.twin.peer = some h ∧
      t.twin.peerMode = h.mode ∧ t.twin.peerGen = h.generation ∧
      (u.refusesPeer h = true → t.linkCode = 4 ∧ t.formed = false ∧ t.alertOn 0xC002 0 = true ∧ t.twin.role = x.role) ∧
      (u.refusesPeer h = false → t.twin.link = 0 ∧ t.twin.peerAccepted = true ∧ t.twin.peerRole = x.peerRole ∧ joins h.role t)) ∧
    (link → x.role = 0 ∨ u.linkUp = false ∨ x.peerAccepted = false → exec (.heartbeatReceived dt hb) s = .next v) ∧
    (link → x.role ≠ 0 → u.linkUp = true → x.peerAccepted = true → ∃ t, exec (.heartbeatReceived dt hb) s = .next t ∧ fromPeer t ∧
      t.twin.lastBeat = some u.fc ∧ t.twin.peerMode = hb.mode ∧ t.twin.peerGen = hb.generation ∧ t.twin.peerAlerts = hb.alerts ∧
      t.twin.peerStates = hb.wheelStates ∧ t.twin.lastRxSeq = hb.frameSeq ∧ t.formed = true ∧ t.twin.peerRole = hb.role ∧ t.twin.beatGen = hb.generation ∧ joins hb.role t) ∧
    (u.works domFabric = true →
      (u.formed = false ∨ u.fc - x.lastHb < 10 * cyclesPerUs → exec (.heartbeatSend dt) s = .next u) ∧
      (u.formed = true → 10 * cyclesPerUs ≤ u.fc - x.lastHb → ∃ t h l, exec (.heartbeatSend dt) s = .next t ∧
        (u.flows 0x82 = true → t.twin.out = .heartbeat h :: l) ∧ h.role = x.role ∧ h.mode = u.boot.mode ∧ h.generation = u.cycle.generation ∧ h.sentAt = u.time ∧
        h.alerts = u.health.alerts.length ∧ h.errBound = u.errorBound 0 ∧ h.echoSeq = x.lastRxSeq ∧ t.twin.lastHb = u.fc ∧
        t = { u with twin := t.twin, stats := t.stats, fabric := t.fabric, free := t.free }) ∧
      (x.lostAt.isSome = true → exec (.heartbeatLost dt) s = .next u) ∧
      (x.lostAt = none → x.heartbeat = true → x.lastBeat = some b → x.formedAt = some f →
        (u.fc - Nat.max b f < 40 * cyclesPerUs → exec (.heartbeatLost dt) s = .next u) ∧
        (40 * cyclesPerUs ≤ u.fc - Nat.max b f → x.role ≠ 5 → x.handIn = false → ∃ t, exec (.heartbeatLost dt) s = .next t ∧
          t.twin.heartbeat = false ∧ t.twin.lostAt = some u.now ∧ t.twin.handover = none ∧ t.appts.handRow = none ∧
          t.twin.role = x.role ∧ t.stats = (u.stat 0x4880 0 3 1).stats ∧ t.alertOn (if x.beatIn then 0xC002 else 0xC003) 0 = true ∧
          t = { u with twin := t.twin, stats := t.stats, appts := t.appts, health := t.health })))

/-- R311 to R314: the wires and the claim. BEAT_OUT toggles every 500 µs, and BEAT_IN is absent after 1.5 ms; ARB_N low by the
peer makes a joining or taking unit standby; where it rises a joining unit's claim timer starts; a standby takes over once ARB_N
has been high long enough, confirms after 2 ms, and a claim that expires makes the unit active. -/
def Obligations.WiresAndRoles : Prop :=
  ∀ (s : State) (dt c : Nat), let u := s.elapse dt
    let x := u.twin
    (x.role ≠ 1 → x.role ≠ 3 → exec (.arbNFall dt) s = .next { u with twin := { x with arbPeer := true, claimAt := none } }) ∧
    (x.role = 1 ∨ x.role = 3 → u.up domSup = true → ∃ t, exec (.arbNFall dt) s = .next t ∧ t.twin.role = 2 ∧ t.twin.arbPeer = true ∧
      t.twin.arbOwn = false ∧ t.twin.claimAt = none ∧ t.appts.handRow = none ∧
      t = { u with twin := t.twin, appts := t.appts, bramble := t.bramble, serial := t.serial, eth := t.eth, can := t.can
                   control := t.control, fabric := t.fabric, stats := t.stats }) ∧
    (x.arbOwn = true ∨ x.arbPeer = false → u.up domSup = false ∨ x.role ≠ 5 ∨ x.lostAt = none →
      exec (.arbNRise dt) s = .next { u with twin.arbPeer := false }) ∧
    (x.arbOwn = true → u.up domSup = true → x.role = 5 → x.lostAt.isSome = true → ∃ t, exec (.arbNRise dt) s = .next t ∧
      t.twin.role = 4 ∧ t.twin.arbPeer = false) ∧
    (x.arbOwn = false → x.arbPeer = true → u.up domSup = true → exec (.arbNRise dt) s = .next { u with twin := { x with
      arbPeer := false, arbSince := u.now
      claimAt := if x.role = 1 ∧ u.boot.mode ≠ 4 then some (u.now + 800000 + 600000 * u.rank + (if u.boot.mode = 2 ∨ u.boot.mode = 3 then 8000000 else 0))
        else none } }) ∧
    (u.works domSup = true →
      (x.role = 0 ∨ u.boot.supRunning = false ∨ u.now - x.beatOutAt < 500 * cyclesPerUs → exec (.beatOutToggle dt) s = .next u) ∧
      (x.role ≠ 0 → u.boot.supRunning = true → 500 * cyclesPerUs ≤ u.now - x.beatOutAt →
        exec (.beatOutToggle dt) s = .next { u with twin := { x with beatOut := !x.beatOut, beatOutAt := u.now } }) ∧
      (x.role = 0 → exec (.beatInEdge dt) s = .next u) ∧
      (x.role ≠ 0 → ∃ t, exec (.beatInEdge dt) s = .next t ∧ t.alertOn 0xC003 0 = false ∧
        t = { u with twin := { x with beatIn := true, beatInAt := u.now }, health := t.health }) ∧
      (x.beatIn = false ∨ u.now - x.beatInAt < 1500 * cyclesPerUs → exec (.beatInAbsent dt) s = .next u) ∧
      (x.beatIn = true → 1500 * cyclesPerUs ≤ u.now - x.beatInAt →
        (x.lostAt = none → exec (.beatInAbsent dt) s = .next { u with twin.beatIn := false }) ∧
        (x.lostAt.isSome = true → ∃ t, exec (.beatInAbsent dt) s = .next t ∧ t.alertOn 0xC003 0 = true ∧
          t = { u with twin := { x with beatIn := false }, health := t.health })) ∧
      (u.mayTake = false → exec (.takingEntry dt) s = .next u) ∧
      (u.mayTake = true → ∃ t, exec (.takingEntry dt) s = .next t ∧ t.twin.role = (if u.lateRise then 4 else 3) ∧
        t.twin.arbOwn = (if u.lateRise then true else x.arbOwn) ∧ (∃ e ∈ t.health.waiting, e.code = 0xC001 ∧ e.a = 0 ∧ e.b = 1) ∧
        t = { u with twin := t.twin, stats := t.stats, health := t.health, bramble := t.bramble, eth := t.eth, can := t.can, fabric := t.fabric }) ∧
      (x.role ≠ 3 ∨ u.arbHigh = false ∨ u.now - x.arbSince < 2 * cyclesPerMs → exec (.takingConfirm dt) s = .next u) ∧
      (x.role = 3 → u.arbHigh = true → 2 * cyclesPerMs ≤ u.now - x.arbSince →
        ∃ t, exec (.takingConfirm dt) s = .next t ∧ t.twin.role = 4 ∧ t.twin.arbOwn = true ∧
          t = { u with twin := t.twin, appts := t.appts, stats := t.stats, fabric := t.fabric, free := t.free }) ∧
      (x.claimAt = none ∨ x.role ≠ 1 ∨ u.arbHigh = false → exec (.claimTimerExpiry dt) s = .next u) ∧
      (x.claimAt = some c → u.now < c → exec (.claimTimerExpiry dt) s = .next u) ∧
      (x.claimAt = some c → c ≤ u.now → x.role = 1 → u.arbHigh = true → x.lastBeat = none ∨ activeRole x.peerRole = false →
        ∃ t, exec (.claimTimerExpiry dt) s = .next t ∧ t.twin.role = 4 ∧ t.twin.arbOwn = true ∧
          t = { u with twin := t.twin, fabric := t.fabric, appts := t.appts, stats := t.stats, free := t.free }))

/-- R313, R315, R319, R320: SUP takes the oldest frame of the port, where the witness received it; a witness datagram of another
unit counts, raises 0xC004, and makes the unit of lower standing step down, until its hold ends; a standby asks, once, with its
reason; the active unit agrees with a set point where no cycle is open and the client's command finds its standby; at the set
point the standby is active and the active unit hands over. -/
def Obligations.WitnessAndHandover : Prop :=
  ∀ (s : State) (dt n w : Nat) (port : Fin 2) (f : RxFrame) (rest : List RxFrame) (reason : Byte) (sp p : WheelPos) (who : ClientId)
    (d : Dispatch) (line : List Dispatch), let u := s.elapse dt
    let x := u.twin
    let shut := (u.modEp port.val (fun e => { e with supIn := rest })).popped (0x34 + port.val) u
    let v := u.passed 0x83 1
    let link := u.flows 0x83 = true ∧ u.fabric.stopped.contains .joile = false
    let agrees (v t : State) : Prop := let q := u.time + BitVec.ofNat 64 (msPos (u.cn 0x4000 4 0))
      t.twin.handover = some q ∧ t.appts.handRow = some q ∧ t.twin.handoverAsked = none ∧ t.twin.role = 4 ∧
      t = { v with twin := t.twin, appts := t.appts, stats := t.stats, fabric := t.fabric, dict := t.dict, free := t.free }
    let free := u.cycle.state = 0 ∧ u.cycle.writing = none ∧ x.handover = none
    u.works domSup = true →
    (u.yields (0x34 + port.val) = false → exec (.witnessDatagram dt port) s = .next u) ∧
    (u.yields (0x34 + port.val) = true → (u.ep port.val).supIn = [] →
      exec (.witnessDatagram dt port) s = .next (u.readEmpty (0x34 + port.val))) ∧
    (u.yields (0x34 + port.val) = true → (u.ep port.val).supIn = f :: rest →
      (f.witness = false → exec (.witnessDatagram dt port) s = .next u) ∧
      (f.witness = true →
      (shut.isWitness f = false → exec (.witnessDatagram dt port) s = .next shut) ∧
      (shut.isWitness f = true → x.handAt = 0 →
        (x.role ≠ 3 → x.role ≠ 4 → exec (.witnessDatagram dt port) s =
          .next (({ shut with twin.witnessAt := some u.now } : State).stat 0x4880 0 8 1)) ∧
        (x.role = 3 ∨ x.role = 4 → ∃ t, exec (.witnessDatagram dt port) s = .next t ∧ t.twin.witnessAt = some u.now ∧
          (∃ e ∈ t.health.waiting, e.code = 0xC004) ∧ t.twin.role = (if u.stepsDown then 2 else x.role) ∧
          (u.stepsDown = true → t.twin.steppedDown = true ∧ t.twin.arbOwn = false ∧ ∃ e ∈ t.health.waiting, e.code = 0xC005))))) ∧
    (x.witnessAt = none → exec (.witnessHoldExpiry dt) s = .next u) ∧
    (x.witnessAt = some w → exec (.witnessHoldExpiry dt) s =
      .next (if msCycles (u.cn 0x4000 8 0) ≤ u.now - w then { u with twin.steppedDown := false } else u)) ∧
    (x.role ≠ 2 ∨ u.formed = false ∨ x.heartbeat = false ∨ u.askReason = none → exec (.revertHoldExpiry dt) s = .next u) ∧
    (x.role = 2 → u.formed = true → x.heartbeat = true → x.handoverAsked = none → x.handover = none → u.askReason = some n →
      ∃ t, exec (.revertHoldExpiry dt) s = .next t ∧ t.twin.handoverAsked = some n ∧
        t = { u with twin := t.twin, stats := t.stats, fabric := t.fabric, free := t.free } ∧
        (u.up domJoile = true → u.admits 0x82 = true → t.twin.out = x.out ++ [JFrame.handoverRequest n])) ∧
    (Admitted who n 0x4000 u →
      (x.role ≠ 4 ∨ 2 ≤ u.boot.mode ∨ x.peerRole ≠ 2 ∨ x.heartbeat = false →
        exec (.handoverCommand dt who) s = .next ((u.accessed who n).answer who (.refused abState))) ∧
      (x.role = 4 → u.boot.mode ≤ 1 → x.peerRole = 2 → x.heartbeat = true →
        ∃ t, exec (.handoverCommand dt who) s = .next t ∧ t.dict.reply = some (who, .done []) ∧
          (free → agrees u t) ∧ (¬ free → t.twin = { x with handoverAsked := some 0 }))) ∧
    (u.works domJoile = true → ¬ link → exec (.handoverRequest dt reason) s = .next u ∧ exec (.handoverAgree dt sp) s = .next u) ∧
    (u.works domJoile = true → link →
      (x.role ≠ 4 ∨ u.formed = false ∨ x.handover.isSome = true → exec (.handoverRequest dt reason) s = .next v) ∧
      (x.role = 4 → u.formed = true → x.handover = none → ∃ t, exec (.handoverRequest dt reason) s = .next t ∧
        (free → agrees v t) ∧ (¬ free → t = { v with twin.handoverAsked := some reason.toNat })) ∧
      (x.role ≠ 2 ∨ u.formed = false → exec (.handoverAgree dt sp) s = .next v) ∧
      (x.role = 2 → u.formed = true →
        exec (.handoverAgree dt 0) s = .next { v with twin.handoverAsked := none } ∧
        (sp ≠ 0 → ∃ t, exec (.handoverAgree dt sp) s = .next t ∧ t.twin.handover = some (u.translate sp) ∧
          t.appts.handRow = some (u.translate sp) ∧ t = { v with twin := t.twin, appts := t.appts }))) ∧
    (u.works domFabric = true →
      (takeDispatch u.fc 0x0900 u.appts.line = none → exec (.handoverSetPoint dt) s = .next u) ∧
      (takeDispatch u.fc 0x0900 u.appts.line = some (d, line) →
        (x.handover = none → exec (.handoverSetPoint dt) s = .next { u with appts.line := line }) ∧
        (x.handover = some p → x.role = 2 → ∃ t, exec (.handoverSetPoint dt) s = .next t ∧ t.twin.role = 4 ∧ t.twin.handIn = true ∧
          t.twin.arbOwn = true ∧ t.twin.handover = none ∧ (∃ e ∈ t.health.waiting, e.code = 0xC001 ∧ e.b = 2) ∧
          t.stats = (u.stat 0x4880 0 7 1).stats ∧
          t = { u with twin := t.twin, appts := { u.appts with line := line, handRow := none }, health := t.health, stats := t.stats }) ∧
        (x.handover = some p → x.role = 4 → ∃ t, exec (.handoverSetPoint dt) s = .next t ∧ (t.twin.role = 5 ∨ t.twin.role = 2) ∧
          t.twin.arbPeer = true ∧ t.twin.handover = none ∧ t.health = u.health ∧ t.cycle = u.cycle ∧ t.dict = u.dict)))

/-- R308, R316, R320, R321: a MIRROR counts on a formed link alone, and what it carries takes effect on a standby; a
PORT_RELEASE lets the incoming unit of a handover resume that port, where a start-stop port begins no earlier than O + 2 µs; the
outgoing unit's driver overlap ends at its time. -/
def Obligations.MirrorAndPorts : Prop :=
  ∀ (s : State) (dt p r sc hp tk w e : Nat) (a b : Rat) (q : Byte) (port : Fin 24) (items : List MirrorItem), let u := s.elapse dt
    let x := u.twin
    let v := u.passed 0x83 1
    let link := u.flows 0x83 = true ∧ u.fabric.stopped.contains .joile = false
    (u.works domSup = true → u.works domJoile = true → ¬ link →
      exec (.mirrorReceived dt items) s = .next u ∧ exec (.portRelease dt q items) s = .next u) ∧
    (u.works domSup = true → u.works domJoile = true → link →
      (u.formed = false → exec (.mirrorReceived dt items) s = .next v) ∧
      (u.formed = true → x.role = 2 → exec (.mirrorReceived dt [.source r sc hp, .tank tk w a b]) s =
        .next ((({ v with twin.mirrorAt := some u.now } : State).modSrc r (fun y => { y with score := sc, health := hp })).modTank tk
          (fun y => { y with weight := w, anchored := true, anchorSounding := a, anchorContribution := b }))) ∧
      (u.formed = true → x.role = 4 → x.handIn = false → exec (.mirrorReceived dt items) s = .next v) ∧
      (x.role ≠ 4 ∨ x.handIn = false ∨ listenerPorts.contains q.toNat = false ∨ x.released.contains q.toNat = true →
        exec (.portRelease dt q items) s = .next v) ∧
      (x.role = 4 → x.handIn = true → p ≤ 23 → p = q.toNat → x.released = [] →
        ∃ t, exec (.portRelease dt q []) s = .next t ∧ t.twin.released = [p] ∧ t.twin.handIn = true ∧
          (u.portMode p = 1 → (t.sp p).startAfter = some (u.fc + u.overlap p + 2 * cyclesPerUs)) ∧
          (u.portMode p ≠ 1 → t.serial = u.serial) ∧
          t = { u with twin := t.twin, serial := t.serial, bramble := t.bramble, stats := t.stats, eth := t.eth, can := t.can
                       fabric := t.fabric })) ∧
    (u.works domSerial = true →
      ((u.sp port.val).overlapEnd = none → exec (.serialOverlapExpiry dt port) s = .next u) ∧
      ((u.sp port.val).overlapEnd = some e → exec (.serialOverlapExpiry dt port) s =
        .next (if e ≤ u.fc then u.modSp port.val (fun y => { y with overlapEnd := none }) else u)) ∧
      ((u.sp port.val).startAfter = none → exec (.incomingStartDelay dt port) s = .next u) ∧
      ((u.sp port.val).startAfter = some e → exec (.incomingStartDelay dt port) s =
        .next (if e ≤ u.fc then u.modSp port.val (fun y => { y with startAfter := none }) else u)))

/-- R323: the configuration of a pair. The standby joins the segments of a SHADOW in order and judges the whole; the active
unit's check takes the answer; a SET that comes in time is entered on the standby and acknowledged; unequal generations for 10
ms have the active unit send its sealed configuration, which the standby sets 10 ms on where it finds no fault in it. -/
def Obligations.PairConfiguration : Prop :=
  ∀ (s : State) (dt offset count g r : Nat) (resync pass last : Bool) (data : List Byte) (entries own : List CheckEntry) (point : WheelPos),
    let u := s.elapse dt
    let x := u.twin
    let sp := u.translate point
    let whole := exchange u.uid (contentCfg u.uid data)
    let v := u.passed 0x83 1
    let link := u.flows 0x83 = true ∧ u.fabric.stopped.contains .joile = false
    let sends (t : State) : Prop := t = { u with twin := t.twin, stats := t.stats, fabric := t.fabric, free := t.free }
    u.works domSup = true → u.works domJoile = true →
    (¬ link → exec (.shadow dt resync offset data last) s = .next u ∧ exec (.checkResult dt pass count entries) s = .next u ∧
      exec (.set dt point g) s = .next u ∧ exec (.setAck dt point) s = .next u) ∧
    (link →
    (u.formed = false ∨ x.role ≠ 2 → exec (.shadow dt resync offset data last) s = .next v) ∧
    (u.formed = true → x.role = 2 →
      (offset ≠ 0 → offset ≠ x.inBytes.length → exec (.shadow dt resync offset data last) s = .next { v with twin.inBytes := [] }) ∧
      (offset = 0 → exec (.shadow dt resync offset data false) s = .next { v with twin.inBytes := data }) ∧
      (offset ≠ 0 → offset = x.inBytes.length →
        exec (.shadow dt resync offset data false) s = .next { v with twin.inBytes := x.inBytes ++ data }) ∧
      (∃ t, exec (.shadow dt false 0 data true) s = .next t ∧ sends t ∧ t.twin.inShadow = whole ∧ t.twin.inBytes = [] ∧
        t.twin.inReady = (u.checkShadow whole u.time).isEmpty ∧
        (u.admits 0x82 = true → ∃ n l, t.twin.out = x.out ++ [JFrame.checkResult t.twin.inReady n l])) ∧
      (u.cycle.state ≠ 0 ∨ u.writesCopy = true → exec (.shadow dt true 0 data true) s = .next { v with twin.inBytes := [] }) ∧
      (u.cycle.state = 0 → u.writesCopy = false →
        let found := if whole = u.cfg then [] else Check.all { u := u.uid, c := whole, point := u.time }
        ∃ t, exec (.shadow dt true 0 data true) s = .next t ∧ t.twin.inBytes = [] ∧ t.cfg = u.cfg ∧
          (found = [] → t.cycle.state = 5 ∧ t.cycle.shadow = whole ∧ t.cycle.whole = true ∧ t.cycle.fromTwin = some x.peerGen ∧
            t.appts.setRow = some (u.time + BitVec.ofNat 64 (msPos 10))) ∧
          (found ≠ [] → t.cycle = u.cycle ∧ t.appts = u.appts ∧ t.alertOn 0xC002 0 = true))) ∧
    (x.role ≠ 4 ∨ u.formed = false → exec (.checkResult dt pass count entries) s = .next v) ∧
    (x.role = 4 → u.formed = true → u.cycle.state = 2 → u.cycle.asked = true → u.cycle.twinPass = none →
      (u.cycle.found = none → exec (.checkResult dt pass count entries) s = .next { v with cycle := { u.cycle with
        twinPass := some pass, twinCount := count, twinFails := entries.map (fun e => { e with reason := 9 }) } }) ∧
      (u.cycle.found = some own → ∃ t, exec (.checkResult dt pass count entries) s = .next t ∧
        t.cycle.state = (if own ≠ [] ∨ pass = false then 4 else 3) ∧ t.cycle.twinPass = some pass ∧ t = { v with cycle := t.cycle })) ∧
    (x.role = 4 → u.formed = true → u.cycle.state ≠ 2 → exec (.checkResult dt pass count entries) s =
      .next (if pass then v else { v with twin := { x with resyncFailed := some u.cycle.generation, resyncSince := none } })) ∧
    (x.role ≠ 2 ∨ u.formed = false ∨ x.inReady = false ∨ u.cycle.state ≠ 0 ∨ u.writesCopy = true ∨ posDiff sp u.time * 1000 < 2 ^ 32 →
      exec (.set dt point g) s = .next v) ∧
    (x.role = 2 → u.formed = true → x.inReady = true → u.cycle.state = 0 → u.writesCopy = false → 2 ^ 32 ≤ posDiff sp u.time * 1000 →
      ∃ t, exec (.set dt point g) s = .next t ∧ t.cycle.state = 5 ∧ t.cycle.pending = some sp ∧ t.cycle.shadow = x.inShadow ∧
        t.cycle.fromTwin = some g ∧ t.appts.setRow = some sp ∧ t.twin.inReady = false ∧
        (u.admits 0x82 = true → t.twin.out = x.out ++ [JFrame.setAck sp]) ∧
        t = { u with cycle := t.cycle, appts := t.appts, twin := t.twin, stats := t.stats, fabric := t.fabric, free := t.free }) ∧
    (exec (.setAck dt point) s = .next (if x.role = 4 ∧ u.cycle.state = 5 ∧ u.formed = true then { v with cycle.acked := true } else v))) ∧
    (x.resyncSince = none ∨ x.role ≠ 4 ∨ u.formed = false ∨ x.heartbeat = false ∨ u.unequal = false → exec (.resyncTimer dt) s = .next u) ∧
    (x.resyncSince = some r → u.now - r < 10 * cyclesPerMs → exec (.resyncTimer dt) s = .next u) ∧
    (x.resyncSince = some r → 10 * cyclesPerMs ≤ u.now - r → x.role = 4 → u.formed = true → x.heartbeat = true → u.unequal = true →
      u.boot.copyInForce ≠ none →
      ∃ t, exec (.resyncTimer dt) s = .next t ∧ sends t ∧ (u.admits 0x82 = true → t.twin.out = x.out ++ [JFrame.shadow true u.sealedCfg]) ∧ t.twin.resyncSince = none)

/-- R326 to R330, R340, R341, R373, R374: what a reset of the device keeps, and how it starts. Every domain is held while
RESET_N or the internal reset is; on release the straps are sampled, the boot ROM takes the boot slot's image where it passes
(its start failures and the start count advance), the highest sealed copy is put in force, and the mode is decided: TEST by the
strap, RECOVERY by request or a failed training, COMMISSIONING without a copy, SAFE_LISTEN where copies differ. Without an image
the boot ROM alone runs. -/
def Obligations.ResetAndStart : Prop :=
  ∀ (s : State) (dt n k a0 : Nat) (who : ClientId) (rail : Rail) (us pn te tr : Bool) (a b : ImageFacts), let u := s.elapse dt
    let kept (t : State) : Prop := t.now = u.now ∧ t.health.log = u.health.log ∧ t.health.nextSeq = u.health.nextSeq ∧
      t.boot.copies = u.boot.copies ∧ t.boot.floor = u.boot.floor ∧ t.boot.customerHash = u.boot.customerHash ∧
      t.boot.vendorHash = u.boot.vendorHash ∧ t.boot.serial = u.boot.serial ∧ t.power.burned = u.power.burned
    let held (t : State) : Prop := (∀ d < 15, t.dom d = 2) ∧ t.boot.supRunning = false ∧ t.boot.recovery = false ∧ t.twin.arbOwn = false ∧ kept t
    let started (t : State) : Prop := kept t ∧ (t.boot.supRunning = true ∨ t.boot.bootRom = true)
    (∃ t, exec (.powerOn dt) s = .next t ∧ held t ∧ t.boot.cause = 1 ∧ t.boot.internal = false ∧ t.boot.railsAt = u.now ∧
      t.power.left = 0 ∧ t.boot.resetN = u.boot.resetN) ∧
    (∃ t, exec (.resetNAssert dt) s = .next t ∧ held t ∧ t.boot.resetN = false ∧ t.power.left = u.power.left ∧
      t.boot.cause = (if u.held = true ∧ u.boot.cause = 1 then 1 else 2)) ∧
    (∃ t, exec (.brownOut dt rail) s = .next t ∧ held t ∧ t.boot.internal = false ∧ t.boot.railsAt = u.now ∧
      (rail = .vddAo → t.boot.cause = 1 ∧ t.power.left = 0) ∧
      (rail ≠ .vddAo → t.power.left = u.power.left ∧ t.boot.cause = (if u.held = true ∧ u.boot.cause = 1 then 1 else 2))) ∧
    (u.boot.resetN = true → exec (.resetNRelease dt us pn te a b tr) s = .next u) ∧
    (u.boot.resetN = false → u.boot.internal = false → ∃ t, exec (.resetNRelease dt us pn te a b tr) s = .next t ∧
      t.boot.resetN = true ∧ t.boot.trained = tr ∧ t = { u with boot := t.boot, twin := { u.twin with unitSel := us, prefN := pn, testEn := te } }) ∧
    (u.boot.resetN = false → u.boot.internal = true → u.boot.bootRom = false →
      ∃ t, exec (.resetNRelease dt us pn te a b tr) s = .next t ∧ t.boot.resetN = true ∧ kept t ∧
        t.twin.unitSel = us ∧ t.twin.prefN = pn ∧ t.twin.testEn = te ∧
        (u.boot.slotA.state ≠ 3 → u.boot.slotA.state ≠ 4 → u.boot.slotB.state ≠ 3 → u.boot.slotB.state ≠ 4 →
          t.boot.bootRom = true ∧ t.boot.mode = 2 ∧ t.boot.reason = 2 ∧ t.boot.running = 2 ∧ t.dom domSup = 3 ∧ t.dom domCan = 3 ∧
          t.dom domSerial = 2 ∧ t.dict.startCount = u.dict.startCount) ∧
        (u.boot.bootSlot = 0 → u.boot.slotA.state = 4 → u.boot.slotA.failures < 3 → u.boot.slotB.state ≠ 3 → judgeImage u.boot a = 0x03 →
          t.boot.bootRom = false ∧ t.boot.running = 0 ∧ t.boot.slotA.failures = u.boot.slotA.failures + 1 ∧ t.boot.supRunning = true ∧
          t.boot.startedAt = u.now ∧ t.dict.startCount = u.dict.startCount + 1 ∧ t.boot.startTime ≤ 115000 ∧
          (te = true → t.boot.mode = 4) ∧
          (te = false → u.boot.recovery = true → t.boot.mode = 2 ∧ t.boot.reason = 1) ∧
          (te = false → u.boot.recovery = false → tr = false → t.boot.mode = 2 ∧ t.boot.reason = 3 ∧ t.dom domSerial = 2) ∧
          (te = false → u.boot.recovery = false → tr = true → t.dom domSerial = 3 ∧ t.dom domCardA = 3 ∧ t.dom domFull = 3 ∧
            (u.conflict = true → t.boot.mode = 3 ∧ t.cfg = u.cfg) ∧
            (u.topCopies = [] → u.boot.copyInForce = none → t.boot.mode = 0 ∧ t.cfg = u.cfg) ∧
            (u.topCopies = [k] → t.cfg = (u.copy k).content ∧ t.boot.copyInForce = some k ∧
              t.cycle.generation = (u.copy k).generation ∧ t.boot.mode = t.cn 0x5F01 2 0)))) ∧
    (u.boot.internal = true ∨ u.now < u.boot.railsAt + cyclesPerMs → exec (.internalResetRelease dt) s = .next u) ∧
    (u.boot.internal = false → u.boot.railsAt + cyclesPerMs ≤ u.now →
      (u.boot.resetN = false → exec (.internalResetRelease dt) s = .next { u with boot.internal := true }) ∧
      (u.boot.resetN = true → ∃ t, exec (.internalResetRelease dt) s = .next t ∧ t.boot.internal = true ∧ started t)) ∧
    (u.notStarted = true ∨ u.up domSup = false ∨ u.now < u.boot.startedAt + 200 * cyclesPerMs →
      exec (.bootWatchdog dt) s = .next u) ∧
    (u.notStarted = false → u.up domSup = true → u.boot.startedAt + 200 * cyclesPerMs ≤ u.now →
      ∃ t, exec (.bootWatchdog dt) s = .next t ∧ t.boot.cause = 7 ∧ started t) ∧
    (Admitted who n 0x5F01 u →
      (u.cycle.state = 5 → exec (.restart dt who) s = .next ((u.accessed who n).answer who (.refused abState)) ∧
        exec (.restartIntoRecovery dt who) s = .next ((u.accessed who n).answer who (.refused abState))) ∧
      (u.cycle.state ≠ 5 →
        (∃ t, exec (.restart dt who) s = .next t ∧ t.boot.cause = 3 ∧ t.boot.recovery = false ∧ started t) ∧
        (∃ t, exec (.restartIntoRecovery dt who) s = .next t ∧ t.boot.cause = 3 ∧ t.boot.recovery = true ∧ started t ∧
          (t.boot.bootRom = false → u.twin.testEn = false → t.boot.mode = 2 ∧ t.boot.reason = 1)))) ∧
    (u.serves = false ∨ u.boot.activateAt = none → exec (.imageActivationStart dt) s = .next u) ∧
    (u.serves = true → u.boot.activateAt = some a0 → (u.now < a0 → exec (.imageActivationStart dt) s = .next u) ∧
      (a0 ≤ u.now → ∃ t, exec (.imageActivationStart dt) s = .next t ∧ t.boot.cause = 4 ∧ started t))

/-- R332 to R336, R339: an image update opens the slot that does not run, is filled at its offset, verified against product,
floor, hashes and signatures, activated as a trial, and confirmed by command or after its confirm time; the floor only rises and
the customer key hash is burned once, under two images signed by it; failures clear after 10 s; a stale copy is rewritten. Each
command is refused where its condition is not met. -/
def Obligations.ImageUpdate : Prop :=
  ∀ (s : State) (dt n c : Nat) (who : ClientId) (v : Byte) (data : List Byte) (f : ImageFacts), let u := s.elapse dt
    let w := u.accessed who n
    let b := u.boot
    let refused := (w.answer who (.refused abState))
    let other := if b.running = 0 then 1 else 0
    let run := u.slot15 b.running
    let confirmed (x : State) : State := let y := x.modSlot b.running (fun z => { z with state := 4 })
      { y with boot.bootSlot := b.running }
    (Admitted who n 0x5F11 u →
      (u.updateOpen = true ∨ run.state = 3 → exec (.imageOpen dt who) s = .next refused) ∧
      (u.updateOpen = false → run.state ≠ 3 → ∃ t, exec (.imageOpen dt who) s = .next t ∧ t.dict.reply = some (who, .done []) ∧
        t.slot15 other = { state := 1 } ∧ t.slot15 (1 - other) = u.slot15 (1 - other) ∧ t.boot.target = other ∧ t.boot.owner = some n ∧
        t.boot.status = 1 ∧ t = { u with boot := t.boot, dict := t.dict, stats := t.stats }) ∧
      (data.length ≤ pathLimit who → u.mayFill n = false → exec (.imageDataWrite dt who data) s = .next refused) ∧
      (data.length ≤ pathLimit who → u.mayFill n = true → slotSize < u.imageOffset + data.length →
        exec (.imageDataWrite dt who data) s = .next (w.answer who (.refused abHigh))) ∧
      (data.length ≤ pathLimit who → u.mayFill n = true → u.imageOffset + data.length ≤ slotSize →
        ∃ t, exec (.imageDataWrite dt who data) s = .next t ∧ t.dict.reply = some (who, .done []) ∧
          t.dict.imm = Cfg.set u.uid ⟨0x5F11, 2, 0⟩ (.num (u.imageOffset + data.length : Nat)) u.dict.imm ∧
          t.boot = (u.modSlot b.target (fun z => { z with data := storeBytes u.imageOffset data z.data })).boot ∧
          t = { u with boot := t.boot, dict := t.dict, stats := t.stats }) ∧
      (u.updateOpen = false ∨ b.status = 2 → exec (.imageVerify dt who) s = .next refused) ∧
      (u.updateOpen = true → b.status ≠ 2 → exec (.imageVerify dt who) s = .next (({ w with boot.status := 2 } : State).answer who (.done []))) ∧
      ((u.slot15 b.target).state ≠ 2 ∨ u.cycle.state = 5 ∨ u.mustHandOver = true → exec (.imageActivate dt who) s = .next refused) ∧
      ((u.slot15 b.target).state = 2 → u.cycle.state ≠ 5 → u.mustHandOver = false → ∃ t, exec (.imageActivate dt who) s = .next t ∧
        t.dict.reply = some (who, .done []) ∧ t.boot.activateAt = some (u.now + 10 * cyclesPerMs) ∧ (t.slot15 b.target).state = 3 ∧
        (t.slot15 b.target).trialMade = false ∧ t = { u with boot := t.boot, dict := t.dict, stats := t.stats }) ∧
      (run.state ≠ 3 → exec (.imageConfirm dt who) s = .next refused) ∧
      (run.state = 3 → exec (.imageConfirm dt who) s = .next ((confirmed w).answer who (.done []))) ∧
      ((u.slot15 other).state ≠ 4 → exec (.imagePrevious dt who) s = .next refused) ∧
      ((u.slot15 other).state = 4 → ∃ t, exec (.imagePrevious dt who) s = .next t ∧ t.dict.reply = some (who, .done []) ∧
        t.boot.cause = 3 ∧ t.boot.bootSlot = other ∧ t.health.log = u.health.log ∧ t.boot.copies = b.copies) ∧
      (run.state ≠ 4 ∨ run.facts = none → exec (.raiseFloor dt who) s = .next refused) ∧
      (run.state = 4 → run.facts = some f → exec (.raiseFloor dt who) s =
        .next (({ w with boot.floor := Nat.max b.floor (Nat.min f.security 64) } : State).answer who (.done [])))) ∧
    (Admitted who n 0x5F21 u → let hash := (Cfg.text u.uid u.dict.imm 0x5F21 4 0).foldl (fun (x : Nat) y => 256 * x + y.toNat) 0
      (v ≠ 0x4A → ∃ code, exec (.burnCustomerHash dt who v) s = .next (w.answer who (.refused code))) ∧
      (b.mode ≠ 0 ∨ b.customerHash ≠ 0 ∨ u.customerSigned hash 0 = false ∨ u.customerSigned hash 1 = false →
        exec (.burnCustomerHash dt who 0x4A) s = .next refused) ∧
      (b.mode = 0 → b.customerHash = 0 → hash ≠ 0 → u.customerSigned hash 0 = true → u.customerSigned hash 1 = true →
        exec (.burnCustomerHash dt who 0x4A) s = .next (({ w with boot.customerHash := hash } : State).answer who (.done [])))) ∧
    (u.serves = false ∨ b.status ≠ 2 ∨ u.updateOpen = false → exec (.verifyComplete dt f) s = .next u) ∧
    (u.serves = true → b.status = 2 → u.updateOpen = true → let g := (u.slot15 b.target).judged f
      ∃ t, exec (.verifyComplete dt f) s = .next t ∧
      t.boot.status = judgeImage b g ∧ (t.slot15 b.target).state = (if judgeImage b g = 3 then 2 else 5) ∧
      (t.slot15 b.target).facts = some g ∧ t = { u with boot := t.boot }) ∧
    (u.works domSup = true → let m := u.cn 0x5F11 6 0
      (m = 0 ∨ run.state ≠ 3 ∨ 2 ≤ b.mode ∨ u.now < b.confirmFrom + m * cyclesPerSec → exec (.confirmTimeExpiry dt) s = .next u) ∧
      (m ≠ 0 → run.state = 3 → b.mode ≤ 1 → b.confirmFrom + m * cyclesPerSec ≤ u.now →
        exec (.confirmTimeExpiry dt) s = .next (confirmed u)) ∧
      (u.now < b.startedAt + 10 * cyclesPerSec → exec (.startFailuresClear dt) s = .next u) ∧
      (b.startedAt + 10 * cyclesPerSec ≤ u.now → exec (.startFailuresClear dt) s =
        .next (u.modSlot b.running (fun z => { z with failures := 0 }))) ∧
      (b.copyInForce = none ∨ b.rewriting = none ∧ (b.mode = 3 ∨ u.cycle.state ≠ 0 ∨ u.cycle.writing.isSome = true) →
        exec (.copyRewrite dt) s = .next u) ∧
      (b.copyInForce = some 0 → b.rewriting = none → b.mode ≠ 3 → u.cycle.state = 0 → u.cycle.writing = none → (u.copy 0).sealed = true →
        c = 1 ∨ c = 2 → (u.copy c).sealed = false → (c = 2 → (u.copy 1).sealed = true ∧ (u.copy 0).generation ≤ (u.copy 1).generation) →
        ∃ t, exec (.copyRewrite dt) s = .next t ∧ t.boot.rewriting = some c ∧ (t.copy c).sealed = false ∧
          (∀ j, j ≠ c → t.copy j = u.copy j) ∧ t = { u with boot := t.boot }) ∧
      (b.copyInForce = some 0 → b.rewriting = some c → ∃ t, exec (.copyRewrite dt) s = .next t ∧ t.boot.rewriting = none ∧
        t.copy c = u.copy 0 ∧ (∀ j, j ≠ c → t.copy j = u.copy j) ∧ (∃ e ∈ t.health.waiting, e.code = 0xB103 ∧ e.a = c) ∧
        t = { u with boot := t.boot, health := t.health }))

/-- R12, R21, R240, R291, R327: a domain that enters reset stands in state 2, its resets counted, and the ends it has in queues
are marked; the configuration, the cycle and the other domains are as they were (for SUP: clients, statistics, cycle and roles
are lost, and a trial that runs escalates to a start); AO holds the whole device. A domain that returns runs; SUP joins anew,
FABRIC counts from 0. Resets by command are for TEST; a lockstep mismatch resets SUP or CTRL and is told. -/
def Obligations.DomainResets : Prop :=
  ∀ (s : State) (dt n p : Nat) (who : ClientId) (d : Fin 15), let u := s.elapse dt
    let k := d.val
    let calm := u.runningIn 3 = false ∧ u.cycle.generation = 0
    let counted (j : Nat) (t : State) : Prop := t.dom j = 2 ∧ (∀ i < 15, i ≠ j → t.dom i = u.dom i) ∧
      (Tbl.get ({} : Dom) j t.power.doms).resets = (Tbl.get ({} : Dom) j u.power.doms).resets + 1 ∧
      ∀ q < 512, queueEnds q = some (p, j) → (t.que q).wasReset = some .consumer
    let entered (t : State) : Prop := counted k t ∧ t.cfg = u.cfg ∧ t.boot = u.boot ∧ t.cycle = u.cycle ∧ t.twin.role = u.twin.role ∧
      t.now = u.now ∧ t.fc = u.fc ∧ t.dict.clients = u.dict.clients
    let supLost (t : State) : Prop := counted domSup t ∧ t.cfg = u.cfg ∧ t.boot.supRunning = false ∧ t.boot.copies = u.boot.copies ∧
      t.dict = { startCount := u.dict.startCount, spiReply := u.dict.spiReply, spiAt := u.dict.spiAt } ∧ t.stats = [] ∧ t.cycle.state = 0 ∧ t.cycle.owner = none ∧ t.twin.arbOwn = false ∧
      t.twin.beatOut = false ∧ t.twin.role = (if u.twin.role = 0 then 0 else 1)
    (u.dom k ≠ 3 → exec (.domainResetEnter dt d) s = .next u) ∧
    (k = domAo → u.dom k = 3 → ∃ t, exec (.domainResetEnter dt d) s = .next t ∧ (∀ i < 15, t.dom i = 2) ∧ t.boot.supRunning = false ∧
      t.health.log = u.health.log ∧ t.boot.copies = u.boot.copies) ∧
    (k ≠ domAo → k ≠ domSup → u.dom k = 3 → ∃ t, exec (.domainResetEnter dt d) s = .next t ∧ entered t) ∧
    (k = domSup → u.dom k = 3 → calm → ∃ t, exec (.domainResetEnter dt d) s = .next t ∧ supLost t) ∧
    (k = domSup → u.dom k = 3 → u.escalates = true → ∃ t, exec (.domainResetEnter dt d) s = .next t ∧ t.boot.cause = 6 ∧
      t.health.log = u.health.log ∧ t.boot.copies = u.boot.copies) ∧
    (u.dom k ≠ 2 → exec (.domainResetExit dt d) s = .next u) ∧
    (k ≠ domAo → u.notStarted = true → exec (.domainResetExit dt d) s = .next u) ∧
    (k = domAo → u.dom k = 2 → u.held = true → exec (.domainResetExit dt d) s = .next u) ∧
    (k ≠ domAo → u.notStarted = false → u.boot.trained = true → u.dom k = 2 → ∃ t, exec (.domainResetExit dt d) s = .next t ∧
      t.dom k = 3 ∧ (∀ i < 15, i ≠ k → t.dom i = u.dom i) ∧ t.now = u.now ∧
      (k = domFabric → t.fabricZero = u.fc ∧ t.time = u.resumePos ∧ t.wheels.shaft.visible = 0) ∧
      (k = domSup → t.boot.supRunning = true ∧ t.dict.startCount = u.dict.startCount + 1 ∧ t.cfg = u.sealedCfg ∧ t.boot.startedAt = u.now) ∧
      (k ≠ domSup → t.boot = u.boot ∧ t.cfg = u.cfg ∧ t.dict = u.dict)) ∧
    (Admitted who n 0x5821 u → let w := u.accessed who n
      (u.boot.mode ≠ 4 ∨ k = domAo → exec (.domainResetCommand dt who d) s = .next (w.answer who (.refused abState))) ∧
      (u.boot.mode = 4 → k ≠ domAo → u.dom k ≠ 3 → exec (.domainResetCommand dt who d) s = .next (w.answer who (.done []))) ∧
      (u.boot.mode = 4 → k ≠ domAo → k ≠ domSup → u.dom k = 3 →
        ∃ t, exec (.domainResetCommand dt who d) s = .next t ∧ t.dict.reply = some (who, .done []) ∧ counted k t ∧ t.cfg = u.cfg)) ∧
    (u.works domSup = true →
      (calm → ∃ t, exec (.supLockstep dt) s = .next t ∧ supLost t ∧ (u.power.state < 2 → t.alarmLow = true) ∧
        ∃ e, e.code = 0xE001 ∧ t.health.aoEvents = u.health.aoEvents ++ [e]) ∧
      (u.escalates = true → ∃ t, exec (.supLockstep dt) s = .next t ∧ t.boot.cause = 6 ∧ t.health.log = u.health.log)) ∧
    (u.works domCtrl = true → ∃ t, exec (.ctrlLockstep dt) s = .next t ∧ counted domCtrl t ∧
      (u.up domSup = true → ∃ e, e.code = 0x4008 ∧ t.health.waiting = u.health.waiting ++ [e]) ∧
      t.control = { u.control with cascades := u.control.cascades.map (fun x => (x.1, { x.2 with running := none })) } ∧
      t = { u with control := t.control, health := t.health, power := t.power, fabric := t.fabric })

/-- R344 to R350: a request for a low power state is refused in an active role, with a cascade that is not off, a blocking cycle
or an image update open, or no wake source that works there; otherwise the device enters it: Doze keeps every domain but AO and
WAKE with its clock stopped, Listen switches them off, Deep Standby WAKE also. A WAKE_IN input or the AO timer, where enabled,
wakes it and is recorded; in Run and Surge neither does anything. -/
def Obligations.LowPowerAndWake : Prop :=
  ∀ (s : State) (dt n : Nat) (who : ClientId) (pin : Fin 4) (level : Bool), let u := s.elapse dt
    let w := u.accessed who n
    let en := u.cn 0x5838 1 0
    let refused := w.answer who (.refused abState)
    let barred := 3 ≤ u.twin.role ∧ u.twin.role ≤ 5 ∨ u.control.cascades.any (fun c => c.2.state != 0) = true ∨ u.cycle.state ≠ 0 ∨ u.updateOpen = true
    let free := ¬ barred
    let low (k : Nat) (t : State) : Prop := t.dict.reply = some (who, .done []) ∧ t.power.state = k ∧ t.power.coreVsel = false ∧
      t.power.enteredAt = u.now ∧ t.twin.beatOut = false ∧ t.cfg = u.cfg ∧ t.health.alarm = u.alarmLow ∧ t.boot.copies = u.boot.copies ∧
      t.health.log = u.health.log ∧ (∀ l < 62, (t.lst l).queue = []) ∧ (t.dom domAo = u.dom domAo)
    let woken (k src detail : Nat) (t : State) : Prop := u.power.state = k ∧ t.power.state = 0 ∧ t.power.wakeSource = src ∧
      t.power.wakeDetail = detail ∧ t.power.wakes = u.power.wakes + 1 ∧ t.dict.startCount = u.dict.startCount ∧ t.cfg = u.cfg ∧
      ((∀ i < 15, u.dom i = 1 ∨ u.dom i = 3) → ∀ i < 15, t.dom i = 3)
    let quiet := u.power.state < 2
    (Admitted who n 0x5820 u → u.power.state < 2 →
      (barred → exec (.dozeRequest dt who) s = .next refused ∧ exec (.listenRequest dt who) s = .next refused ∧
        exec (.deepStandbyRequest dt who) s = .next refused) ∧
      (free → u.wakeable 2 = false → exec (.dozeRequest dt who) s = .next refused) ∧
      (free → u.wakeable 3 = false → exec (.listenRequest dt who) s = .next refused) ∧
      (free → u.wakeable 4 = false → exec (.deepStandbyRequest dt who) s = .next refused) ∧
      (free → u.wakeable 2 = true → ∃ t, exec (.dozeRequest dt who) s = .next t ∧ low 2 t ∧
        ∀ i < 15, t.dom i = (if 2 ≤ i ∧ u.dom i = 3 then 1 else u.dom i)) ∧
      (free → u.wakeable 3 = true → ∃ t, exec (.listenRequest dt who) s = .next t ∧ low 3 t ∧ t.dom domWake = u.dom domWake ∧
        ∀ i < 15, 2 ≤ i → t.dom i = 0) ∧
      (free → u.wakeable 4 = true → ∃ t, exec (.deepStandbyRequest dt who) s = .next t ∧ low 4 t ∧ ∀ i < 15, 1 ≤ i → t.dom i = 0)) ∧
    (quiet ∨ en.testBit 0 = false ∨ (u.cn 0x5838 2 0).testBit pin.val = false ∨ (u.cn 0x5838 3 0).testBit pin.val ≠ level →
      exec (.wakeIn dt pin level) s = .next u) ∧
    (u.power.state = 2 → en.testBit 0 = true → (u.cn 0x5838 2 0).testBit pin.val = true → (u.cn 0x5838 3 0).testBit pin.val = level →
      ∃ t, exec (.wakeIn dt pin level) s = .next t ∧ woken 2 1 pin.val t) ∧
    (quiet ∨ en.testBit 3 = false ∨ u.cn 0x5838 4 0 = 0 ∨ u.now < u.power.enteredAt + u.cn 0x5838 4 0 * cyclesPerSec →
      exec (.wakeTimer dt) s = .next u) ∧
    (u.power.state = 2 → en.testBit 3 = true → u.cn 0x5838 4 0 ≠ 0 → u.power.enteredAt + u.cn 0x5838 4 0 * cyclesPerSec ≤ u.now →
      ∃ t, exec (.wakeTimer dt) s = .next t ∧ woken 2 4 0xFF t)

/-- R351 to R357: Surge is entered by policy 1, and by policy 2 above the load threshold, where it is allowed: with time left in
the hour CORE_VSEL rises, otherwise a fuse is burned first; after the settle time 0.86 V let the divider change and less is a
step-down. 110 °C, 14 A and a spent ledger step down; a second is charged at a time; 480 s re-arm; 125 °C hold every domain but
AO until 1 s has passed and AO is below 105 °C. -/
def Obligations.SurgeAndTemperature : Prop :=
  ∀ (s : State) (dt mv ma load e : Nat) (s0 s1 s2 s3 tenths : Int), let u := s.elapse dt
    let p := u.power
    let policy := u.cn 0x5820 3 0
    let settle := u.now + u.cn 0x5820 6 0 * cyclesPerUs
    let may := u.surgeAllowed = true ∧ p.settleAt = none ∧ p.burning = false
    let raised (v : State) : State := { v with power.coreVsel := true, power.settleAt := some settle }
    let entry : State := if p.left = 0 then { u with power.burning := true } else raised u
    let down (cause : Nat) (t : State) : Prop := t.power.state = 0 ∧ t.power.coreVsel = false ∧ t.power.settleAt = none ∧
      t.power.surge = (if cause = 3 then 3 else 2) ∧ t.power.rearmFrom = u.now ∧ t.power.lastStep = cause ∧
      t.power.stepDowns = p.stepDowns + 1 ∧ t.power.burned = p.burned ∧ (u.up domSup = true → ∃ x ∈ t.health.waiting, x.code = 0xD001 ∧ x.b = cause) ∧
      t = { u with power := t.power, health := t.health }
    let read (m : Nat) (v : Power) : Prop := v.current = m ∧ v.highCurrent = Nat.max p.highCurrent m
    let top := max (max s0 s1) (max s2 s3)
    (policy ≠ 1 ∨ ¬ may → exec (.surgeEntry dt) s = .next u) ∧
    (policy = 1 → may → exec (.surgeEntry dt) s = .next entry) ∧
    (p.burning = false → exec (.ledgerHourBurned dt) s = .next u) ∧
    (p.burning = true → let v : State := { u with power := { p with burning := false, burned := p.burned + 1, left := 3600 } }
      exec (.ledgerHourBurned dt) s =
        .next (if p.state = 0 ∧ p.surge = 0 ∧ p.junction < 1050 ∧ u.notStarted = false then raised v else v)) ∧
    (p.settleAt = none → exec (.surgeSettleCheck dt mv) s = .next u) ∧
    (p.settleAt = some e → u.now < e → exec (.surgeSettleCheck dt mv) s = .next u) ∧
    (p.settleAt = some e → e ≤ u.now →
      (mv < 860 → p.state = 0 → ∃ t, exec (.surgeSettleCheck dt mv) s = .next t ∧ down 2 t) ∧
      (860 ≤ mv → exec (.surgeSettleCheck dt mv) s = .next (if u.surgeAllowed then
          { u with power := { p with settleAt := none, state := 1, surge := 1, secondAt := u.now, lowLoadSince := none } }
        else { u with power.settleAt := none, power.coreVsel := false }))) ∧
    (u.works domSup = true → let th := u.cn 0x5820 7 0
      (policy ≠ 2 → exec (.surgeLoadEvaluation dt load) s = .next u) ∧
      (policy = 2 → p.state ≠ 1 →
        (load ≤ th ∨ ¬ may → exec (.surgeLoadEvaluation dt load) s = .next u) ∧ (th < load → may → exec (.surgeLoadEvaluation dt load) s = .next entry)) ∧
      (policy = 2 → p.state = 1 → (th < 2 * load → exec (.surgeLoadEvaluation dt load) s = .next { u with power.lowLoadSince := none }) ∧
        (2 * load ≤ th → p.lowLoadSince = none → exec (.surgeLoadEvaluation dt load) s = .next { u with power.lowLoadSince := some u.now }) ∧
        (2 * load ≤ th → p.lowLoadSince = some e → e + cyclesPerSec ≤ u.now → ∃ t, exec (.surgeLoadEvaluation dt load) s = .next t ∧
          t.power.state = 0 ∧ t.power.coreVsel = false ∧ t = { u with power := t.power }))) ∧
    (∃ t, exec (.temperatureSample dt s0 s1 s2 s3 ma) s = .next t ∧ t.power.junction = top ∧ read ma t.power ∧
      t.power.highest = (if p.samples = 0 then top else max p.highest top) ∧ t.power.samples = p.samples + 1 ∧ t.power.sum = p.sum + top ∧
      t.power.above = (if 1050 < top then p.above + 1 else p.above) ∧
      (1100 ≤ top → p.state = 1 → t.power.state = 0 ∧ t.power.lastStep = 1 ∧ t.power.surge = 2 ∧ t.power.coreVsel = false) ∧
      (top < 1100 ∨ p.state ≠ 1 → t.power.state = p.state ∧ t.power.surge = p.surge ∧ t.health = u.health) ∧
      t = { u with power := t.power, health := t.health }) ∧
    (ma ≤ 14000 ∨ p.state ≠ 1 → ∃ t, exec (.coreOvercurrent dt ma) s = .next t ∧ read ma t.power ∧ t.power.state = p.state ∧
      t = { u with power := t.power }) ∧
    (14000 < ma → p.state = 1 → ∃ t, exec (.coreOvercurrent dt ma) s = .next t ∧ read ma t.power ∧ down 2 t) ∧
    (p.state ≠ 1 ∨ u.now < p.secondAt + cyclesPerSec → exec (.surgeSecond dt) s = .next u) ∧
    (p.state = 1 → p.secondAt + cyclesPerSec ≤ u.now → let v : State := { u with power := { p with
        secondAt := p.secondAt + cyclesPerSec, surgeTime := p.surgeTime + 1, left := p.left - 1 } }
      (2 ≤ p.left → exec (.surgeSecond dt) s = .next v) ∧
      (p.left ≤ 1 → p.burned < 2628 → exec (.surgeSecond dt) s = .next { v with power.burning := true }) ∧
      (p.left ≤ 1 → 2628 ≤ p.burned → ∃ t, exec (.surgeSecond dt) s = .next t ∧ down 3 t ∧ t.power.left = 0)) ∧
    (exec (.rearmWaitExpiry dt) s = .next (if p.surge = 2 ∧ p.rearmFrom + 480 * cyclesPerSec ≤ u.now then { u with power.surge := 0 } else u)) ∧
    (tenths < 1250 ∨ u.dom domAo ≠ 3 ∨ p.shutdownAt.isSome = true → exec (.thermalShutdown dt tenths) s = .next u) ∧
    (1250 ≤ tenths → u.dom domAo = 3 → p.shutdownAt = none → ∃ t, exec (.thermalShutdown dt tenths) s = .next t ∧ t.dom domAo = 3 ∧
      (∀ i < 15, i ≠ domAo → t.dom i = 2) ∧ t.power.shutdownAt = some u.now ∧ t.boot.cause = 5 ∧ t.boot.supRunning = false ∧
      t.power.burned = p.burned ∧ t.health.log = u.health.log ∧ ∃ x, x.code = 0xD003 ∧ t.health.aoEvents = u.health.aoEvents ++ [x]) ∧
    (p.shutdownAt = none → exec (.shutdownRelease dt tenths) s = .next u) ∧
    (p.shutdownAt = some e → (u.now < e + cyclesPerSec ∨ 1050 ≤ tenths → exec (.shutdownRelease dt tenths) s = .next u) ∧
      (e + cyclesPerSec ≤ u.now → tenths < 1050 → ∃ t, exec (.shutdownRelease dt tenths) s = .next t ∧ t.power.shutdownAt = none ∧
        t.boot.cause = 5 ∧ (t.boot.supRunning = true ∨ t.boot.bootRom = true) ∧ t.health.log = u.health.log))
end

