-- ==== Sys2Proof/Laws/Lasting.lean ====
section
/-! SUPPORT. What every operation leaves as it is: true time, the fabric clock, the queue of commands, the fuses and the
wear ledger. One lemma for each operation of the machine; the operations that restart the device, burn a fuse or spend
the ledger stand in Laws/Keeps.lean. -/

namespace Sys2Proof.Machine

open Sys2Proof

/-- True time, the fabric count and its zero, the queue; the security floor, the key hashes, the serial number; the hours
of the wear ledger that are burned, one being burned, and the seconds left of the last. -/
def State.lasting (s : State) : (Nat × Nat × Nat × List Instr) × Nat × Nat × Nat × Nat × Nat × Bool × Nat := ((s.now, s.fc, s.fabricZero, s.pending), s.boot.floor, s.boot.vendorHash, s.boot.customerHash, s.boot.serial, s.power.burned, s.power.burning, s.power.left)

@[simp] theorem State.lasting_mk (a b c d e f g h i j k l m n o p q r s t u v w x y) :
  (State.mk a b c d e f g h i j k l m n o p q r s t u v w x y).lasting = ((a, b, c, y), w.floor, w.vendorHash, w.customerHash, w.serial, x.burned, x.burning, x.left) := (rfl)

@[simp] theorem State.lasting_eta (s : State) : ((s.now, s.fc, s.fabricZero, s.pending), s.boot.floor, s.boot.vendorHash, s.boot.customerHash, s.boot.serial, s.power.burned, s.power.burning, s.power.left) = s.lasting := (rfl)

@[simp] theorem State.lasting_ite (c : Prop) [Decidable c] (s t : State) : (if c then s else t).lasting = if c then s.lasting else t.lasting := by split <;> rfl

@[simp] theorem State.lasting_ite2 {α} (c : Prop) [Decidable c] (s t : α × State) : (if c then s else t).2.lasting = if c then s.2.lasting else t.2.lasting := by split <;> rfl
@[simp] theorem foldl_lasting {α} (f : State → α → State) (h : ∀ s a, (f s a).lasting = s.lasting) (l : List α) (s : State) : (l.foldl f s).lasting = s.lasting := by
  induction l generalizing s with
  | nil => rfl
  | cons a l ih => simp [ih, h]
@[simp] theorem State.useFree_lasting (s : State) : (State.useFree s).lasting = s.lasting := by
  simp [State.useFree]

@[simp] theorem State.spend_lasting (x0 : Bool) (s : State) : (State.spend x0 s).lasting = s.lasting := by
  simp [State.spend]

@[simp] theorem State.stat_lasting (x0 : Nat) (x1 : Nat) (x2 : Nat) (x3 : Nat) (s : State) : (State.stat x0 x1 x2 x3 s).lasting = s.lasting := by
  simp [State.stat]

@[simp] theorem State.raiseKind_lasting (x0 : Nat) (x1 : Nat) (x2 : Nat) (x3 : Nat) (x4 : Nat) (s : State) : (State.raiseKind x0 x1 x2 x3 x4 s).lasting = s.lasting := by
  simp [State.raiseKind]

@[simp] theorem State.event_lasting (x0 : Nat) (x1 : Nat) (x2 : Nat) (s : State) : (State.event x0 x1 x2 s).lasting = s.lasting := by
  unfold State.event; split <;> simp

@[simp] theorem State.endAlert_lasting (x0 : Nat) (x1 : Nat) (s : State) : (State.endAlert x0 x1 s).lasting = s.lasting := by
  simp [State.endAlert]

@[simp] theorem State.whenUp_lasting (d : Nat) (f : State → State) (s : State) (h : ∀ s, (f s).lasting = s.lasting) :
    (s.whenUp d f).lasting = s.lasting := by
  unfold State.whenUp; split <;> simp [h]

@[simp] theorem State.modAppt_lasting (x0 : Nat) (x1 : ApptRow → ApptRow) (s : State) : (State.modAppt x0 x1 s).lasting = s.lasting := by
  simp [State.modAppt]

@[simp] theorem State.countLate_lasting (x0 : Nat) (s : State) : (State.countLate x0 s).lasting = s.lasting := by
  simp [State.countLate]

@[simp] theorem State.dispatch_lasting (x0 : Nat) (x1 : Nat) (x2 : WheelPos) (x3 : Bool) (s : State) : (State.dispatch x0 x1 x2 x3 s).lasting = s.lasting := by
  simp [State.dispatch]

@[simp] theorem State.withDispatch_lasting (c : Nat) (f : Dispatch → State → State) (s : State) (h : ∀ d s, (f d s).lasting = s.lasting) :
    (s.withDispatch c f).lasting = s.lasting := by
  unfold State.withDispatch; split <;> simp [h]

@[simp] theorem State.rephaseRow_lasting (x0 : Nat) (x1 : WheelPos) (x2 : Bool) (x3 : Nat) (s : State) : (State.rephaseRow x0 x1 x2 s x3).lasting = s.lasting := by
  unfold State.rephaseRow; simp only [State.lasting_ite]; (repeat' split) <;> simp

@[simp] theorem State.skipSlots_lasting (x0 : WheelPos) (x1 : WheelPos) (s : State) : (State.skipSlots x0 x1 s).lasting = s.lasting := by
  simp [State.skipSlots]

@[simp] theorem State.skipSamples_lasting (x0 : WheelPos) (s : State) : (State.skipSamples x0 s).lasting = s.lasting := by
  simp [State.skipSamples]

@[simp] theorem State.jumped_lasting (x0 : Nat) (x1 : WheelPos) (x2 : WheelPos) (s : State) : (State.jumped x0 x1 x2 s).lasting = s.lasting := by
  simp [State.jumped]

@[simp] theorem State.shaftMoved_lasting (x0 : Bool) (s : State) : (State.shaftMoved x0 s).lasting = s.lasting := by
  simp [State.shaftMoved]

@[simp] theorem State.armAll_lasting (s : State) : (State.armAll s).lasting = s.lasting := by
  simp [State.armAll]

@[simp] theorem State.appointmentDue_lasting (x0 : Nat) (s : State) : (State.appointmentDue x0 s).lasting = s.lasting := by
  unfold State.appointmentDue; simp only [State.lasting_ite]; (repeat' split) <;> simp

@[simp] theorem State.setInc_lasting (x0 : Nat) (x1 : Int) (s : State) : (State.setInc x0 x1 s).lasting = s.lasting := by
  simp [State.setInc]

@[simp] theorem State.setWheel_lasting (w : Nat) (st : WState) (s : State) : (s.setWheel w st).lasting = s.lasting := by
  unfold State.setWheel; dsimp only; (repeat' split) <;> simp

@[simp] theorem State.moveTo_lasting (x0 : Nat) (x1 : WheelPos) (s : State) : (State.moveTo x0 x1 s).lasting = s.lasting := by
  simp [State.moveTo]

@[simp] theorem State.coast_lasting (x0 : Nat) (s : State) : (State.coast x0 s).lasting = s.lasting := by
  simp [State.coast]

@[simp] theorem State.trackQualified_lasting (s : State) : (State.trackQualified s).lasting = s.lasting := by
  simp [State.trackQualified]

@[simp] theorem State.noteLeap_lasting (x0 : Int) (x1 : WheelPos) (s : State) : (State.noteLeap x0 x1 s).lasting = s.lasting := by
  simp [State.noteLeap]

@[simp] theorem State.keepLeap_lasting (x0 : State → State) (s : State) (h : ∀ s, (x0 s).lasting = s.lasting) :
    (State.keepLeap x0 s).lasting = s.lasting := by
  simp [State.keepLeap, h]

@[simp] theorem State.applyC_lasting (s : State) : (State.applyC s).lasting = s.lasting := by
  simp [State.applyC]

@[simp] theorem State.setLoop_lasting (x0 : Loop → Loop) (s : State) : (State.setLoop x0 s).lasting = s.lasting := by
  simp [State.setLoop]

@[simp] theorem State.followSource_lasting (x0 : Nat) (s : State) : (State.followSource x0 s).lasting = s.lasting := by
  simp [State.followSource]

@[simp] theorem State.acquire_lasting (x0 : Nat) (s : State) : (State.acquire x0 s).lasting = s.lasting := by
  simp [State.acquire]

@[simp] theorem State.coastTime_lasting (s : State) : (State.coastTime s).lasting = s.lasting := by
  simp [State.coastTime]

@[simp] theorem State.takeSource_lasting (x0 : Nat) (s : State) : (State.takeSource x0 s).lasting = s.lasting := by
  simp [State.takeSource]

@[simp] theorem State.chooseSource_lasting (s : State) : (State.chooseSource s).lasting = s.lasting := by
  unfold State.chooseSource; dsimp only; (repeat' split) <;> simp

@[simp] theorem State.lockTime_lasting (s : State) : (State.lockTime s).lasting = s.lasting := by
  simp [State.lockTime]

@[simp] theorem State.judgeSources_lasting (s : State) : (State.judgeSources s).lasting = s.lasting := by
  simp [State.judgeSources]

@[simp] theorem State.sourceChanged_lasting (s : State) : (State.sourceChanged s).lasting = s.lasting := by
  simp [State.sourceChanged]

@[simp] theorem State.discipline_lasting (x0 : Rat) (x1 : Option Rat) (s : State) : (State.discipline x0 x1 s).lasting = s.lasting := by
  simp [State.discipline]

@[simp] theorem State.stepTime_lasting (x0 : Int) (s : State) : (State.stepTime x0 s).lasting = s.lasting := by
  simp [State.stepTime]

@[simp] theorem State.refTime_lasting (x0 : Rat) (x1 : Rat) (s : State) : (State.refTime x0 x1 s).lasting = s.lasting := by
  simp [State.refTime]

@[simp] theorem State.modPps_lasting (x0 : Pps → Pps) (s : State) : (State.modPps x0 s).lasting = s.lasting := by
  simp [State.modPps]

@[simp] theorem State.losePps_lasting (s : State) : (State.losePps s).lasting = s.lasting := by
  simp [State.losePps]

@[simp] theorem State.zdaLabels_lasting (x0 : PpsEdge) (x1 : Nat) (s : State) : (State.zdaLabels x0 x1 s).lasting = s.lasting := by
  simp [State.zdaLabels]

@[simp] theorem State.ppsMeasure_lasting (x0 : PpsEdge) (x1 : Nat) (x2 : Option Int) (s : State) : (State.ppsMeasure x0 x1 x2 s).lasting = s.lasting := by
  simp [State.ppsMeasure]

@[simp] theorem State.ppsEdge_lasting (x0 : Bool) (s : State) : (State.ppsEdge x0 s).lasting = s.lasting := by
  unfold State.ppsEdge; simp only [State.lasting_ite]; (repeat' split) <;> simp

@[simp] theorem State.zdaReceived_lasting (s : State) : (State.zdaReceived s).lasting = s.lasting := by
  unfold State.zdaReceived; dsimp only; (repeat' split) <;> simp

@[simp] theorem State.ppsLossTimeout_lasting (s : State) : (State.ppsLossTimeout s).lasting = s.lasting := by
  unfold State.ppsLossTimeout; split <;> simp

@[simp] theorem State.timeSourceRevert_lasting (s : State) : (State.timeSourceRevert s).lasting = s.lasting := by
  unfold State.timeSourceRevert; simp only [State.lasting_ite]; (repeat' split) <;> simp

@[simp] theorem State.ptpLossTimeout_lasting (x0 : Nat) (s : State) : (State.ptpLossTimeout x0 s).lasting = s.lasting := by
  unfold State.ptpLossTimeout; dsimp only; (repeat' split) <;> simp

@[simp] theorem State.modEnc_lasting (x0 : Shaft → Shaft) (s : State) : (State.modEnc x0 s).lasting = s.lasting := by
  simp [State.modEnc]

@[simp] theorem State.encoderFault_lasting (x0 : Nat) (s : State) : (State.encoderFault x0 s).lasting = s.lasting := by
  simp [State.encoderFault]

@[simp] theorem State.placeShaft_lasting (s : State) : (State.placeShaft s).lasting = s.lasting := by
  simp [State.placeShaft]

@[simp] theorem State.shaftCount_lasting (x0 : Bool) (s : State) : (State.shaftCount x0 s).lasting = s.lasting := by
  unfold State.shaftCount; dsimp only; (repeat' split) <;> simp

@[simp] theorem State.shaftEdge_lasting (x0 : Bool) (x1 : Bool) (s : State) : (State.shaftEdge x0 x1 s).lasting = s.lasting := by
  unfold State.shaftEdge; simp only [State.lasting_ite]; (repeat' split) <;> simp

@[simp] theorem State.setCount_lasting (x0 : Int) (s : State) : (State.setCount x0 s).lasting = s.lasting := by
  simp [State.setCount]

@[simp] theorem State.shaftIndex_lasting (s : State) : (State.shaftIndex s).lasting = s.lasting := by
  unfold State.shaftIndex; simp only [State.lasting_ite]; (repeat' split) <;> simp

@[simp] theorem State.shaftLockTimer_lasting (s : State) : (State.shaftLockTimer s).lasting = s.lasting := by
  unfold State.shaftLockTimer; split <;> simp

@[simp] theorem State.shaftStandstill_lasting (s : State) : (State.shaftStandstill s).lasting = s.lasting := by
  unfold State.shaftStandstill; split <;> simp

@[simp] theorem State.modMains_lasting (x0 : Mains → Mains) (s : State) : (State.modMains x0 s).lasting = s.lasting := by
  simp [State.modMains]

@[simp] theorem State.loseMains_lasting (s : State) : (State.loseMains s).lasting = s.lasting := by
  simp [State.loseMains]

@[simp] theorem State.mainsFollow_lasting (s : State) : (State.mainsFollow s).lasting = s.lasting := by
  simp [State.mainsFollow]

@[simp] theorem State.mainsJudge_lasting (s : State) : (State.mainsJudge s).lasting = s.lasting := by
  unfold State.mainsJudge; split <;> simp

@[simp] theorem State.mainsEdge_lasting (x0 : Bool) (s : State) : (State.mainsEdge x0 s).lasting = s.lasting := by
  simp [State.mainsEdge]

@[simp] theorem State.mainsLossTimeout_lasting (s : State) : (State.mainsLossTimeout s).lasting = s.lasting := by
  unfold State.mainsLossTimeout; split <;> simp

@[simp] theorem State.modSea_lasting (x0 : Sea → Sea) (s : State) : (State.modSea x0 s).lasting = s.lasting := by
  simp [State.modSea]

@[simp] theorem State.coastSea_lasting (x0 : Bool) (s : State) : (State.coastSea x0 s).lasting = s.lasting := by
  unfold State.coastSea; simp only [State.lasting_ite]; (repeat' split) <;> simp

@[simp] theorem State.seaTurn_lasting (x0 : Rat) (x1 : Rat) (x2 : Rat) (s : State) : (State.seaTurn x0 x1 x2 s).lasting = s.lasting := by
  simp [State.seaTurn]

@[simp] theorem State.seaCrossing_lasting (x0 : Rat) (x1 : Pip) (s : State) : (State.seaCrossing x0 x1 s).lasting = s.lasting := by
  unfold State.seaCrossing
  extract_lets -onlyGivenNames e lo hi thr n amp s1 s2 s3
  have h1 : s1.lasting = s.lasting := by unfold s1; split <;> (try split) <;> simp
  have h2 : s2.lasting = s1.lasting := by simp [s2]
  have h3 : s3.lasting = s2.lasting := by unfold s3; split <;> simp
  rw [← h1, ← h2, ← h3]
  clear_value s3
  split
  · split
    · rw [State.coastSea_lasting]; rfl
    · rfl
  · rw [State.seaTurn_lasting]; rfl

@[simp] theorem State.seaRoll_lasting (x0 : FibreRecord) (s : State) : (State.seaRoll x0 s).lasting = s.lasting := by
  unfold State.seaRoll; split <;> simp

@[simp] theorem State.seaLossTimeout_lasting (s : State) : (State.seaLossTimeout s).lasting = s.lasting := by
  unfold State.seaLossTimeout; split <;> simp

@[simp] theorem State.ppsOutStart_lasting (s : State) : (State.ppsOutStart s).lasting = s.lasting := by
  simp [State.ppsOutStart]

@[simp] theorem State.ppsOutEnd_lasting (s : State) : (State.ppsOutEnd s).lasting = s.lasting := by
  unfold State.ppsOutEnd; split <;> simp

@[simp] theorem State.setEvt_lasting (x0 : Nat) (x1 : Evt) (s : State) : (State.setEvt x0 x1 s).lasting = s.lasting := by
  simp [State.setEvt]

@[simp] theorem State.whlEvt_lasting (x0 : Nat) (x1 : Dispatch) (s : State) : (State.whlEvt x0 x1 s).lasting = s.lasting := by
  unfold State.whlEvt; dsimp only
  repeat' split
  all_goals simp

@[simp] theorem State.whlEvtEnd_lasting (x0 : Nat) (s : State) : (State.whlEvtEnd x0 s).lasting = s.lasting := by
  unfold State.whlEvtEnd; dsimp only; (repeat' split) <;> simp

@[simp] theorem State.modQue_lasting (x0 : Nat) (x1 : Queue → Queue) (s : State) : (State.modQue x0 x1 s).lasting = s.lasting := by
  simp [State.modQue]

@[simp] theorem State.withCredit_lasting (x0 : List Nat) (x1 : State → State) (s : State) (h : ∀ s, (x1 s).lasting = s.lasting) :
    (State.withCredit x0 x1 s).lasting = s.lasting := by
  unfold State.withCredit; split <;> simp [h]

@[simp] theorem State.rewatch_lasting (x0 : List Nat) (s : State) : (State.rewatch x0 s).lasting = s.lasting := by
  simp [State.rewatch]

@[simp] theorem State.notices_lasting (x0 : Nat) (x1 : Nat) (s : State) : (State.notices x0 x1 s).lasting = s.lasting := by
  simp [State.notices]

@[simp] theorem State.pushed_lasting (x0 : Nat) (s : State) : (State.pushed x0 s).lasting = s.lasting := by
  simp [State.pushed]

@[simp] theorem State.released_lasting (x0 : Nat) (x1 : State) (s : State) : (State.released x0 s x1).lasting = s.lasting := by
  simp [State.released]

@[simp] theorem State.popped_lasting (x0 : Nat) (x1 : State) (s : State) : (State.popped x0 s x1).lasting = s.lasting := by
  simp [State.popped]

@[simp] theorem State.returned_lasting (x0 : Nat) (x1 : State) (s : State) : (State.returned x0 s x1).lasting = s.lasting := by
  simp [State.returned]

@[simp] theorem State.readEmpty_lasting (x0 : Nat) (s : State) : (State.readEmpty x0 s).lasting = s.lasting := by
  simp [State.readEmpty]

@[simp] theorem State.passed_lasting (x0 : Nat) (x1 : Nat) (s : State) : (State.passed x0 x1 s).lasting = s.lasting := by
  simp [State.passed]

@[simp] theorem State.through_lasting (x0 : Nat) (x1 : State → State) (s : State) (h : ∀ s, (x1 s).lasting = s.lasting) :
    (State.through x0 x1 s).lasting = s.lasting := by
  unfold State.through; split <;> simp [h]

@[simp] theorem State.rewound_lasting (x0 : Nat) (s : State) : (State.rewound x0 s).lasting = s.lasting := by
  simp [State.rewound]

@[simp] theorem State.corrected_lasting (x0 : Nat) (s : State) : (State.corrected x0 s).lasting = s.lasting := by
  simp [State.corrected]

@[simp] theorem State.uncorrectable_lasting (x0 : Nat) (s : State) : (State.uncorrectable x0 s).lasting = s.lasting := by
  simp [State.uncorrectable]

@[simp] theorem State.readEcc_lasting (x0 : Ecc) (s : State) : (State.readEcc x0 s).lasting = s.lasting := by
  unfold State.readEcc; split <;> simp

@[simp] theorem State.discardUnc_lasting (x0 : Nat) (x1 : Nat) (s : State) : (State.discardUnc x0 x1 s).lasting = s.lasting := by
  simp [State.discardUnc]

@[simp] theorem State.without_lasting (x0 : Nat) (x1 : Nat) (s : State) : (State.without x0 x1 s).lasting = s.lasting := by
  simp [State.without]

@[simp] theorem State.dropPackets_lasting (x0 : Nat) (x1 : Nat) (s : State) : (State.dropPackets x0 x1 s).lasting = s.lasting := by
  simp [State.dropPackets]

@[simp] theorem State.unlessBad_lasting (x0 : Nat) (x1 : Ecc) (x2 : State → State) (s : State)
    (h : ∀ s, (x2 s).lasting = s.lasting) : (State.unlessBad x0 x1 x2 s).lasting = s.lasting := by
  cases x1 <;> simp [State.unlessBad, h]

@[simp] theorem State.unlessBadEntry_lasting (x0 : Nat) (x1 : Ecc) (x2 : FibreRecord) (x3 : State → State) (s : State)
    (h : ∀ s, (x3 s).lasting = s.lasting) : (State.unlessBadEntry x0 x1 x2 x3 s).lasting = s.lasting := by
  unfold State.unlessBadEntry
  split
  · simp
  · split <;> simp [h]

@[simp] theorem State.modEp_lasting (x0 : Nat) (x1 : EPort → EPort) (s : State) : (State.modEp x0 x1 s).lasting = s.lasting := by
  simp [State.modEp]

@[simp] theorem State.macCount_lasting (x0 : Nat) (x1 : Nat) (x2 : Nat) (s : State) : (State.macCount x0 x1 x2 s).lasting = s.lasting := by
  simp [State.macCount]

@[simp] theorem State.trackWatchdog_lasting (x0 : Nat) (s : State) : (State.trackWatchdog x0 s).lasting = s.lasting := by
  simp [State.trackWatchdog]

@[simp] theorem State.enterFrame_lasting (x0 : Nat) (x1 : Nat) (x2 : TxFrame) (s : State) : (State.enterFrame x0 x1 x2 s).lasting = s.lasting := by
  simp [State.enterFrame]

@[simp] theorem State.placeFrame_lasting (x0 : Nat) (x1 : Nat) (x2 : TxFrame) (s : State) : (State.placeFrame x0 x1 x2 s).lasting = s.lasting := by
  simp [State.placeFrame]

@[simp] theorem State.letFramesIn_lasting (x0 : Nat) (s : State) : (State.letFramesIn x0 s).lasting = s.lasting := by
  simp [State.letFramesIn]

@[simp] theorem State.queueFrame_lasting (x0 : Nat) (x1 : Nat) (x2 : TxKind) (x3 : List Byte) (s : State) : (State.queueFrame x0 x1 x2 x3 s).lasting = s.lasting := by
  unfold State.queueFrame; split <;> simp

@[simp] theorem State.nextIpId_lasting (x0 : Nat) (s : State) : (State.nextIpId x0 s).lasting = s.lasting := by
  simp [State.nextIpId]

@[simp] theorem State.cardsWith_lasting (x0 : Nat) (x1 : State → State) (s : State) (h : ∀ s, (x1 s).lasting = s.lasting) :
    (State.cardsWith x0 x1 s).lasting = s.lasting := by
  simp [State.cardsWith, h]

@[simp] theorem State.modSrc_lasting (x0 : Nat) (x1 : SrcRow → SrcRow) (s : State) : (State.modSrc x0 x1 s).lasting = s.lasting := by
  simp [State.modSrc]

@[simp] theorem State.stepScore_lasting (x0 : Nat) (x1 : Int) (s : State) : (State.stepScore x0 x1 s).lasting = s.lasting := by
  simp [State.stepScore]

@[simp] theorem State.restartSrc_lasting (x0 : Cfg) (x1 : Nat) (s : State) : (State.restartSrc x0 x1 s).lasting = s.lasting := by
  simp [State.restartSrc]

@[simp] theorem State.takeToken_lasting (c : Cfg) (r : Nat) (s : State) : (s.takeToken c r).2.lasting = s.lasting := by
  unfold State.takeToken; dsimp only; split <;> simp

@[simp] theorem State.discover_lasting (x0 : Cfg) (x1 : Nat) (x2 : SrcKey) (x3 : WheelPos) (s : State) : (State.discover x0 x1 x2 x3 s).lasting = s.lasting := by
  simp [State.discover]

@[simp] theorem State.handOn_lasting (x0 : Nat) (x1 : FibreRecord) (s : State) : (State.handOn x0 x1 s).lasting = s.lasting := by
  simp [State.handOn]

@[simp] theorem State.reject_lasting (x0 : Intake) (x1 : Cfg) (x2 : Option Nat) (x3 : Nat) (x4 : Nat) (x5 : Text) (x6 : Text) (x7 : Text) (s : State) : (State.reject x0 x1 x2 x3 x4 x5 x6 x7 s).lasting = s.lasting := by
  unfold State.reject; split <;> simp

@[simp] theorem State.refreshSrc_lasting (x0 : Nat) (x1 : Pip) (s : State) : (State.refreshSrc x0 x1 s).lasting = s.lasting := by
  simp [State.refreshSrc]

@[simp] theorem State.emitRecord_lasting (x0 : Intake) (x1 : Cfg) (x2 : Nat) (x3 : FibreRecord) (s : State) : (State.emitRecord x0 x1 x2 x3 s).lasting = s.lasting := by
  simp [State.emitRecord]

@[simp] theorem State.accept_lasting (x0 : Intake) (x1 : Cfg) (x2 : Nat) (x3 : List FibreRecord) (s : State) : (State.accept x0 x1 x2 x3 s).lasting = s.lasting := by
  simp [State.accept]

@[simp] theorem State.acceptLocal_lasting (x0 : Intake) (x1 : SrcKey) (x2 : List (Option Int)) (x3 : BitVec 16) (s : State) : (State.acceptLocal x0 x1 x2 x3 s).lasting = s.lasting := by
  unfold State.acceptLocal; dsimp only; (repeat' split) <;> simp

@[simp] theorem State.countGaps_lasting (x0 : Nat) (x1 : Option Nat) (s : State) : (State.countGaps x0 x1 s).lasting = s.lasting := by
  unfold State.countGaps; split <;> simp

@[simp] theorem State.cardFields_lasting (x0 : Intake) (x1 : Cfg) (x2 : Nat) (x3 : Taken) (x4 : AddrForm) (x5 : Text) (x6 : TagInfo) (s : State) : (State.cardFields x0 x1 x2 x3 x4 x5 x6 s).lasting = s.lasting := by
  unfold State.cardFields; dsimp only; (repeat' split) <;> simp

@[simp] theorem State.cardSentence_lasting (x0 : Intake) (x1 : Taken) (x2 : Option Text) (s : State) :
    (State.cardSentence x0 x1 x2 s).lasting = s.lasting := by
  unfold State.cardSentence
  extract_lets c ti s1 addr form sfi key hit s2 row policy a
  have h1 : s1.lasting = s.lasting := by unfold s1; split <;> simp
  have h2 : s2.lasting = s1.lasting := by unfold s2; clear_value key; cases key <;> simp
  rw [← h1, ← h2]
  clear_value s2 policy row hit
  split
  · simp
  · split
    · simp
    · split
      · simp
      · have h := State.takeToken_lasting c ‹Nat› s2
        split <;> simp_all

theorem LineRun.chars_lasting (i : Intake) (l : List Byte) (n : Nat) (f : Framer) (r : LineRun) :
    (LineRun.chars i l n f r).st.lasting = r.st.lasting := by
  induction l generalizing n f r with
  | nil => unfold LineRun.chars; split <;> simp [LineRun.sentence]
  | cons b l ih =>
    unfold LineRun.chars; dsimp only; rw [ih]
    split
    · split <;> simp [LineRun.sentence]
    · split <;> simp

theorem LineRun.line_lasting (i : Intake) (l : List Byte) (r : LineRun) : (LineRun.line i l r).st.lasting = r.st.lasting := by
  unfold LineRun.line; dsimp only
  split <;> simp [LineRun.chars_lasting]

theorem lines_lasting (i : Intake) (l : List (List Byte)) (r : LineRun) :
    (l.foldl (fun r l => LineRun.line i l r) r).st.lasting = r.st.lasting := by
  induction l generalizing r with
  | nil => rfl
  | cons b l ih => rw [List.foldl_cons, ih, LineRun.line_lasting]

@[simp] theorem State.cardPayload_lasting (i : Intake) (b : List Byte) (s : State) :
    (State.cardPayload i b s).lasting = s.lasting := by
  unfold State.cardPayload
  split
  · simp
  · exact lines_lasting ..

@[simp] theorem State.takeDatagram_lasting (x0 : Nat) (x1 : Bool) (s : State) : (State.takeDatagram x0 x1 s).lasting = s.lasting := by
  unfold State.takeDatagram; dsimp only; split <;> simp

@[simp] theorem State.cardDatagram_lasting (x0 : Nat) (x1 : Bool) (s : State) : (State.cardDatagram x0 x1 s).lasting = s.lasting := by
  unfold State.cardDatagram; simp only [State.lasting_ite]; (repeat' split) <;> simp

@[simp] theorem State.cardCan_lasting (x0 : Nat) (x1 : CanMsg) (s : State) : (State.cardCan x0 x1 s).lasting = s.lasting := by
  unfold State.cardCan
  extract_lets c i key s1
  have h1 : s1.lasting = s.lasting := by unfold s1; clear_value key; cases key <;> simp
  rw [← h1]
  clear_value s1
  split
  · split <;> simp
  · split
    · simp
    · have := State.takeToken_lasting c ‹Nat› s1
      split
      · simp_all
      · dsimp only; split <;> simp_all

@[simp] theorem State.takeCanMessage_lasting (x0 : Nat) (s : State) : (State.takeCanMessage x0 s).lasting = s.lasting := by
  unfold State.takeCanMessage; split <;> simp

@[simp] theorem State.cardCanMessage_lasting (x0 : Nat) (s : State) : (State.cardCanMessage x0 s).lasting = s.lasting := by
  unfold State.cardCanMessage; simp only [State.lasting_ite]; (repeat' split) <;> simp

@[simp] theorem State.takePdo_lasting (s : State) : (State.takePdo s).lasting = s.lasting := by
  unfold State.takePdo; split <;> simp

@[simp] theorem State.cardReceivedPdo_lasting (s : State) : (State.cardReceivedPdo s).lasting = s.lasting := by
  unfold State.cardReceivedPdo; simp only [State.lasting_ite]; (repeat' split) <;> simp

@[simp] theorem State.sourceLate_lasting (x0 : Nat) (s : State) : (State.sourceLate x0 s).lasting = s.lasting := by
  simp [State.sourceLate]

@[simp] theorem State.clearDiscovery_lasting (s : State) : (State.clearDiscovery s).lasting = s.lasting := by
  simp [State.clearDiscovery]

@[simp] theorem State.modSp_lasting (x0 : Nat) (x1 : SPort → SPort) (s : State) : (State.modSp x0 x1 s).lasting = s.lasting := by
  simp [State.modSp]

@[simp] theorem State.modPair_lasting (x0 : Nat) (x1 : Pair → Pair) (s : State) : (State.modPair x0 x1 s).lasting = s.lasting := by
  simp [State.modPair]

@[simp] theorem State.modChan_lasting (x0 : Nat) (x1 : Chan → Chan) (s : State) : (State.modChan x0 x1 s).lasting = s.lasting := by
  simp [State.modChan]

@[simp] theorem State.polarity_lasting (x0 : Nat) (x1 : Nat) (s : State) : (State.polarity x0 x1 s).lasting = s.lasting := by
  simp [State.polarity]

@[simp] theorem State.pairRecord_lasting (x0 : Nat) (s : State) : (State.pairRecord x0 s).lasting = s.lasting := by
  simp [State.pairRecord]

@[simp] theorem State.takeVerdict_lasting (x0 : Nat) (x1 : Nat) (s : State) : (State.takeVerdict x0 x1 s).lasting = s.lasting := by
  simp [State.takeVerdict]

@[simp] theorem State.windowFigures_lasting (x0 : Nat) (x1 : WindowObs) (s : State) : (State.windowFigures x0 x1 s).lasting = s.lasting := by
  simp [State.windowFigures]

@[simp] theorem State.windowEnd_lasting (x0 : Nat) (x1 : WindowObs) (s : State) : (State.windowEnd x0 x1 s).lasting = s.lasting := by
  unfold State.windowEnd; simp only [State.lasting_ite]; (repeat' split) <;> simp

@[simp] theorem State.refChange_lasting (x0 : Bool) (s : State) : (State.refChange x0 s).lasting = s.lasting := by
  simp [State.refChange]

@[simp] theorem State.putLoopCode_lasting (x0 : Nat) (x1 : Nat) (s : State) : (State.putLoopCode x0 x1 s).lasting = s.lasting := by
  simp [State.putLoopCode]

@[simp] theorem State.setLoopCode_lasting (x0 : Nat) (x1 : Nat) (s : State) : (State.setLoopCode x0 x1 s).lasting = s.lasting := by
  simp [State.setLoopCode]

@[simp] theorem State.notReady_lasting (x0 : Nat) (s : State) : (State.notReady x0 s).lasting = s.lasting := by
  simp [State.notReady]

@[simp] theorem State.loopConversion_lasting (x0 : Nat) (x1 : BitVec 24) (x2 : Nat) (s : State) : (State.loopConversion x0 x1 x2 s).lasting = s.lasting := by
  simp [State.loopConversion]

@[simp] theorem State.loopSample_lasting (x0 : Int) (x1 : Nat) (x2 : Bool) (x3 : Nat) (s : State) : (State.loopSample x0 x1 x2 s x3).lasting = s.lasting := by
  simp [State.loopSample]

@[simp] theorem State.sampleSet_lasting (x0 : Nat) (x1 : Nat) (x2 : Bool) (x3 : Bool) (s : State) : (State.sampleSet x0 x1 x2 x3 s).lasting = s.lasting := by
  simp [State.sampleSet]

@[simp] theorem State.gaugeSet_lasting (x0 : Nat) (s : State) : (State.gaugeSet x0 s).lasting = s.lasting := by
  simp [State.gaugeSet]

@[simp] theorem State.fallbackSample_lasting (x0 : Nat) (s : State) : (State.fallbackSample x0 s).lasting = s.lasting := by
  simp [State.fallbackSample]

@[simp] theorem State.freeReport_lasting (x0 : Nat) (s : State) : (State.freeReport x0 s).lasting = s.lasting := by
  simp [State.freeReport]

@[simp] theorem State.modGrp_lasting (x0 : Nat) (x1 : GroupRow → GroupRow) (s : State) : (State.modGrp x0 x1 s).lasting = s.lasting := by
  simp [State.modGrp]

@[simp] theorem State.checkHeel_lasting (s : State) : (State.checkHeel s).lasting = s.lasting := by
  simp [State.checkHeel]

@[simp] theorem State.choose_lasting (x0 : Nat) (x1 : Nat) (s : State) : (State.choose x0 x1 s).lasting = s.lasting := by
  simp [State.choose]

@[simp] theorem State.checkSea_lasting (s : State) : (State.checkSea s).lasting = s.lasting := by
  simp [State.checkSea]

@[simp] theorem State.selectGroup_lasting (x0 : Nat) (s : State) : (State.selectGroup x0 s).lasting = s.lasting := by
  unfold State.selectGroup; split
  · rfl
  · extract_lets rows hold first full s1 ch best lead start ran s2 s3
    have h1 : s1.lasting = s.lasting := by simp [s1]
    have h2 : s2.lasting = s1.lasting := by simp [s2]
    have h3 : s3.lasting = s2.lasting := by simp [s3]
    rw [← h1]
    split
    · simp
    · rw [← h2, ← h3]; clear_value s3
      clear_value full first
      cases first <;> cases full <;> simp

@[simp] theorem State.reselect_lasting (x0 : Nat) (s : State) : (State.reselect x0 s).lasting = s.lasting := by
  simp [State.reselect]

@[simp] theorem State.synthetic_lasting (x0 : Cfg) (x1 : Nat) (x2 : Nat) (x3 : FibreRecord) (x4 : Bool) (s : State) : (State.synthetic x0 x1 x2 x3 x4 s).lasting = s.lasting := by
  simp [State.synthetic]

@[simp] theorem State.voteIn_lasting (x0 : Cfg) (x1 : Nat) (x2 : FibreRecord) (x3 : Nat) (s : State) : (State.voteIn x0 x1 x2 s x3).lasting = s.lasting := by
  unfold State.voteIn; simp only [State.lasting_ite]; (repeat' split) <;> simp

@[simp] theorem State.takeCounting_lasting (x0 : Bool) (x1 : Nat) (x2 : FibreRecord) (s : State) : (State.takeCounting x0 x1 x2 s).lasting = s.lasting := by
  simp [State.takeCounting]

@[simp] theorem State.voteCounting_lasting (x0 : Bool) (s : State) : (State.voteCounting x0 s).lasting = s.lasting := by
  unfold State.voteCounting; simp only [State.lasting_ite]; (repeat' split) <;> simp

@[simp] theorem State.groupHoldExpiry_lasting (x0 : Nat) (s : State) : (State.groupHoldExpiry x0 s).lasting = s.lasting := by
  simp [State.groupHoldExpiry]

@[simp] theorem State.sourceStale_lasting (x0 : Nat) (s : State) : (State.sourceStale x0 s).lasting = s.lasting := by
  simp [State.sourceStale]

@[simp] theorem State.modLst_lasting (x0 : Nat) (x1 : Listener → Listener) (s : State) : (State.modLst x0 x1 s).lasting = s.lasting := by
  simp [State.modLst]

@[simp] theorem State.countDiscard_lasting (x0 : Nat) (x1 : Nat) (s : State) : (State.countDiscard x0 x1 s).lasting = s.lasting := by
  simp [State.countDiscard]

@[simp] theorem State.returnEntry_lasting (x0 : Nat) (x1 : Entry) (s : State) : (State.returnEntry x0 x1 s).lasting = s.lasting := by
  simp [State.returnEntry]

@[simp] theorem State.returnSlot_lasting (x0 : Nat) (s : State) : (State.returnSlot x0 s).lasting = s.lasting := by
  unfold State.returnSlot; split <;> simp

@[simp] theorem State.displace_lasting (x0 : Nat) (x1 : Nat) (s : State) : (State.displace x0 x1 s).lasting = s.lasting := by
  unfold State.displace; split <;> simp

@[simp] theorem State.discardOldest_lasting (x0 : Nat) (x1 : Nat) (s : State) : (State.discardOldest x0 x1 s).lasting = s.lasting := by
  simp [State.discardOldest]

@[simp] theorem State.enqueue_lasting (x0 : Cfg) (x1 : Nat) (x2 : Nat) (x3 : FibreRecord) (s : State) : (State.enqueue x0 x1 x2 x3 s).lasting = s.lasting := by
  simp [State.enqueue]

@[simp] theorem State.modShp_lasting (n l : Nat) (f : ShaperState → ShaperState) (s : State) : (s.modShp n l f).lasting = s.lasting := by
  simp [State.modShp]

@[simp] theorem State.countShaper_lasting (x0 : Nat) (x1 : Nat) (s : State) : (State.countShaper x0 x1 s).lasting = s.lasting := by
  simp [State.countShaper]

@[simp] theorem State.countShaped_lasting (x0 : Nat) (x1 : Nat) (s : State) : (State.countShaped x0 x1 s).lasting = s.lasting := by
  simp [State.countShaped]

@[simp] theorem State.deliver_lasting (x0 : Cfg) (x1 : Delivery) (x2 : FibreRecord) (s : State) : (State.deliver x0 x1 x2 s).lasting = s.lasting := by
  unfold State.deliver; dsimp only; (repeat' split) <;> simp

@[simp] theorem State.deliverTo_lasting (x0 : Cfg) (x1 : FibreRecord) (x2 : Delivery) (s : State) : (State.deliverTo x0 x1 s x2).lasting = s.lasting := by
  simp [State.deliverTo]

@[simp] theorem State.matchRecord_lasting (x0 : FibreRecord) (s : State) : (State.matchRecord x0 s).lasting = s.lasting := by
  simp [State.matchRecord]

@[simp] theorem State.brambleMatch_lasting (x0 : Nat) (x1 : Ecc) (s : State) : (State.brambleMatch x0 x1 s).lasting = s.lasting := by
  unfold State.brambleMatch; simp only [State.lasting_ite]; (repeat' split) <;> simp

@[simp] theorem State.emitHeld_lasting (x0 : Nat) (x1 : Nat) (s : State) : (State.emitHeld x0 s x1).lasting = s.lasting := by
  unfold State.emitHeld; split <;> simp

@[simp] theorem State.shaperEmission_lasting (x0 : Nat) (s : State) : (State.shaperEmission x0 s).lasting = s.lasting := by
  simp [State.shaperEmission]

@[simp] theorem State.modCp_lasting (x0 : Nat) (x1 : CPort → CPort) (s : State) : (State.modCp x0 x1 s).lasting = s.lasting := by
  simp [State.modCp]

@[simp] theorem State.withdrawn_lasting (qs : List Nat) (s b : State) : (State.withdrawn qs s b).lasting = s.lasting := by
  exact foldl_lasting _ (fun s q => by split <;> simp) _ _

@[simp] theorem State.loadCan_lasting (x0 : Nat) (s : State) : (State.loadCan x0 s).lasting = s.lasting := by
  unfold State.loadCan; dsimp only
  repeat' split
  all_goals simp

@[simp] theorem State.sendCan_lasting (x0 : Nat) (x1 : CanTx) (s : State) : (State.sendCan x0 x1 s).lasting = s.lasting := by
  simp [State.sendCan]

@[simp] theorem State.queueCan_lasting (x0 : Nat) (x1 : CanTx) (s : State) : (State.queueCan x0 x1 s).lasting = s.lasting := by
  simp [State.queueCan]

@[simp] theorem State.fillCan_lasting (x0 : Nat) (s : State) : (State.fillCan x0 s).lasting = s.lasting := by
  simp [State.fillCan]

@[simp] theorem State.canDropped_lasting (p : Nat) (s b : State) : (State.canDropped p s b).lasting = s.lasting := by
  simp [State.canDropped]

@[simp] theorem State.requeue_lasting (x0 : Nat) (x1 : List CanTx) (s : State) : (State.requeue x0 x1 s).lasting = s.lasting := by
  simp [State.requeue]

@[simp] theorem State.countLine_lasting (x0 : Nat) (x1 : Text) (s : State) : (State.countLine x0 x1 s).lasting = s.lasting := by
  simp [State.countLine]

@[simp] theorem State.regain_lasting (s b : State) : (State.regain s b).lasting = s.lasting := by
  simp [State.regain]

@[simp] theorem State.composeSerial_lasting (x0 : Cfg) (x1 : Nat) (x2 : Nat) (x3 : Entry) (s : State) : (State.composeSerial x0 x1 x2 x3 s).lasting = s.lasting := by
  unfold State.composeSerial; split <;> simp

@[simp] theorem State.composeDatagram_lasting (x0 : Cfg) (x1 : Nat) (x2 : Nat) (x3 : Entry) (s : State) : (State.composeDatagram x0 x1 x2 x3 s).lasting = s.lasting := by
  unfold State.composeDatagram; split <;> simp

@[simp] theorem State.sendPgn_lasting (x0 : Nat) (x1 : Nat) (x2 : Entry) (x3 : Nat) (x4 : Nat) (x5 : List Byte) (s : State) : (State.sendPgn x0 x1 x2 x3 x4 x5 s).lasting = s.lasting := by
  simp [State.sendPgn]

@[simp] theorem State.composeCan_lasting (x0 : Nat) (x1 : Nat) (x2 : Entry) (s : State) : (State.composeCan x0 x1 x2 s).lasting = s.lasting := by
  unfold State.composeCan; simp only [State.lasting_ite]; (repeat' split) <;> simp

@[simp] theorem State.compose_lasting (x0 : Nat) (x1 : Entry) (s : State) : (State.compose x0 x1 s).lasting = s.lasting := by
  unfold State.compose; dsimp only; (repeat' split) <;> simp

@[simp] theorem State.composeEntry_lasting (x0 : Bool) (x1 : Ecc) (s : State) : (State.composeEntry x0 x1 s).lasting = s.lasting := by
  unfold State.composeEntry; split <;> simp

@[simp] theorem State.modTank_lasting (x0 : Nat) (x1 : Tank → Tank) (s : State) : (State.modTank x0 x1 s).lasting = s.lasting := by
  simp [State.modTank]

@[simp] theorem State.fillTank_lasting (x0 : Nat) (s : State) : (State.fillTank x0 s).lasting = s.lasting := by
  simp [State.fillTank]

@[simp] theorem State.takeReading_lasting (x0 : Nat) (x1 : Nat) (x2 : Rat) (x3 : Pip) (s : State) : (State.takeReading x0 x1 x2 x3 s).lasting = s.lasting := by
  simp [State.takeReading]

@[simp] theorem State.totals_lasting (s : State) : (State.totals s).lasting = s.lasting := by
  simp [State.totals]

@[simp] theorem State.beginLoading_lasting (s : State) : (State.beginLoading s).lasting = s.lasting := by
  simp [State.beginLoading]

@[simp] theorem State.setWeight_lasting (x0 : Nat) (x1 : Nat) (s : State) : (State.setWeight x0 x1 s).lasting = s.lasting := by
  simp [State.setWeight]

@[simp] theorem State.anchor_lasting (x0 : Bool) (s : State) : (State.anchor x0 s).lasting = s.lasting := by
  simp [State.anchor]

@[simp] theorem State.blame_lasting (x0 : Rat) (s : State) : (State.blame x0 s).lasting = s.lasting := by
  unfold State.blame; split <;> simp

@[simp] theorem State.crossCheck_lasting (s : State) : (State.crossCheck s).lasting = s.lasting := by
  simp [State.crossCheck]

@[simp] theorem State.recover_lasting (x0 : Nat) (s : State) : (State.recover s x0).lasting = s.lasting := by
  simp [State.recover]

@[simp] theorem State.takeLoading_lasting (s : State) : (State.takeLoading s).lasting = s.lasting := by
  simp [State.takeLoading]

@[simp] theorem State.heelRecord_lasting (x0 : FibreRecord) (s : State) : (State.heelRecord x0 s).lasting = s.lasting := by
  unfold State.heelRecord; split <;> simp

@[simp] theorem State.trimRecord_lasting (x0 : FibreRecord) (s : State) : (State.trimRecord x0 s).lasting = s.lasting := by
  unfold State.trimRecord; split <;> simp

@[simp] theorem State.tankFault_lasting (x0 : Nat) (s : State) : (State.tankFault x0 s).lasting = s.lasting := by
  simp [State.tankFault]

@[simp] theorem State.unfault_lasting (x0 : Nat) (s : State) : (State.unfault x0 s).lasting = s.lasting := by
  simp [State.unfault]

@[simp] theorem State.tankSounding_lasting (x0 : Nat) (x1 : Int) (x2 : FibreRecord) (s : State) : (State.tankSounding x0 x1 x2 s).lasting = s.lasting := by
  unfold State.tankSounding; dsimp only; (repeat' split) <;> simp

@[simp] theorem State.gaugeRecord_lasting (x0 : FibreRecord) (x1 : Nat) (s : State) : (State.gaugeRecord x0 s x1).lasting = s.lasting := by
  unfold State.gaugeRecord; simp only [State.lasting_ite]; (repeat' split) <;> simp

@[simp] theorem State.controlRecord_lasting (x0 : FibreRecord) (s : State) : (State.controlRecord x0 s).lasting = s.lasting := by
  simp [State.controlRecord]

@[simp] theorem State.controlTake_lasting (s : State) : (State.controlTake s).lasting = s.lasting := by
  unfold State.controlTake; split <;> simp

@[simp] theorem State.tankStale_lasting (x0 : Nat) (s : State) : (State.tankStale x0 s).lasting = s.lasting := by
  simp [State.tankStale]

@[simp] theorem State.readingMean_lasting (x0 : Nat) (s : State) : (State.readingMean x0 s).lasting = s.lasting := by
  simp [State.readingMean]

@[simp] theorem State.rebase_lasting (s : State) : (State.rebase s).lasting = s.lasting := by
  simp [State.rebase]

@[simp] theorem State.modCasc_lasting (x0 : Nat) (x1 : Cascade → Cascade) (s : State) : (State.modCasc x0 x1 s).lasting = s.lasting := by
  simp [State.modCasc]

@[simp] theorem State.modStg_lasting (x0 : Nat) (x1 : Stage → Stage) (s : State) : (State.modStg x0 x1 s).lasting = s.lasting := by
  simp [State.modStg]

@[simp] theorem State.readStage_lasting (x0 : Cfg) (x1 : Nat) (x2 : Nat) (x3 : Rat) (s : State) : (State.readStage x0 x1 x2 x3 s).lasting = s.lasting := by
  unfold State.readStage; split <;> simp

@[simp] theorem State.copyCasc_lasting (x0 : Nat) (s : State) : (State.copyCasc x0 s).lasting = s.lasting := by
  simp [State.copyCasc]

@[simp] theorem State.holdCasc_lasting (x0 : Nat) (x1 : Nat) (s : State) : (State.holdCasc x0 x1 s).lasting = s.lasting := by
  simp [State.holdCasc]

@[simp] theorem State.releaseCasc_lasting (x0 : Nat) (s : State) : (State.releaseCasc x0 s).lasting = s.lasting := by
  simp [State.releaseCasc]

@[simp] theorem State.overrun_lasting (x0 : Nat) (s : State) : (State.overrun x0 s).lasting = s.lasting := by
  unfold State.overrun; split <;> simp

@[simp] theorem State.startStep_lasting (x0 : Cfg) (x1 : Nat) (x2 : Nat) (x3 : Rat) (x4 : Bool) (s : State) : (State.startStep x0 x1 x2 x3 x4 s).lasting = s.lasting := by
  simp [State.startStep]

@[simp] theorem State.innerStep_lasting (x0 : Nat) (x1 : Dispatch) (s : State) : (State.innerStep x0 x1 s).lasting = s.lasting := by
  simp [State.innerStep]

@[simp] theorem State.stepComplete_lasting (x0 : Nat) (s : State) : (State.stepComplete x0 s).lasting = s.lasting := by
  unfold State.stepComplete; dsimp only; (repeat' split) <;> simp

theorem State.commandRelease_lasting (c : Nat) (s t : State) (h : s.commandRelease c = .ok t) : t.lasting = s.lasting := by
  unfold State.commandRelease at h; split at h
  · cases h
  · cases h; simp

@[simp] theorem State.commandHold_lasting (x0 : Nat) (s : State) : (State.commandHold x0 s).lasting = s.lasting := by
  simp [State.commandHold]

theorem State.attempt_lasting (r : State → Except Nat State) (s : State) (h : ∀ t, r s = .ok t → t.lasting = s.lasting) :
    (s.attempt r).lasting = s.lasting := by
  unfold State.attempt; split
  · exact h _ ‹_›
  · rfl

@[simp] theorem State.sync_lasting (s : State) : (State.sync s).lasting = s.lasting := by
  simp [State.sync]

@[simp] theorem State.entrySent_lasting (x0 : Nat) (x1 : Entry) (s : State) : (State.entrySent x0 x1 s).lasting = s.lasting := by
  simp [State.entrySent]

@[simp] theorem State.clearTx_lasting (x0 : Nat) (s : State) : (State.clearTx x0 s).lasting = s.lasting := by
  simp [State.clearTx]

@[simp] theorem State.cutSerial_lasting (x0 : Nat) (s : State) : (State.cutSerial x0 s).lasting = s.lasting := by
  unfold State.cutSerial; dsimp only; (repeat' split) <;> simp

@[simp] theorem State.returnQueue_lasting (x0 : Nat) (x1 : Nat) (s : State) : (State.returnQueue x0 x1 s).lasting = s.lasting := by
  exact (foldl_lasting _ (fun s f => by split <;> simp) _ _).trans (by simp)

@[simp] theorem State.returnDatagrams_lasting (x0 : Nat) (s : State) : (State.returnDatagrams x0 s).lasting = s.lasting := by
  simp [State.returnDatagrams]

@[simp] theorem State.returnMessages_lasting (x0 : Nat) (x1 : Bool) (s : State) : (State.returnMessages x0 x1 s).lasting = s.lasting := by
  unfold State.returnMessages
  extract_lets c head stays back s1
  rw [foldl_lasting _ (fun s x => State.returnEntry_lasting ..)]
  simp [s1]

@[simp] theorem State.endEntitlement_lasting (s : State) : (State.endEntitlement s).lasting = s.lasting := by
  simp [State.endEntitlement]

@[simp] theorem State.resumeQueue_lasting (x0 : Nat) (x1 : Nat × WheelPos × Nat × Nat) (s : State) : (State.resumeQueue x0 s x1).lasting = s.lasting := by
  simp [State.resumeQueue]

@[simp] theorem State.takeCounters_lasting (x0 : Nat) (s : State) : (State.takeCounters x0 s).lasting = s.lasting := by
  unfold State.takeCounters; dsimp only; (repeat' split) <;> simp

@[simp] theorem State.resumeListener_lasting (x0 : Nat) (s : State) : (State.resumeListener s x0).lasting = s.lasting := by
  simp [State.resumeListener]

@[simp] theorem State.resumePort_lasting (x0 : Nat) (s : State) : (State.resumePort x0 s).lasting = s.lasting := by
  simp [State.resumePort]

@[simp] theorem State.handoverDone_lasting (s : State) : (State.handoverDone s).lasting = s.lasting := by
  simp [State.handoverDone]

@[simp] theorem State.sendJ_lasting (x0 : JFrame) (s : State) : (State.sendJ x0 s).lasting = s.lasting := by
  simp [State.sendJ]

@[simp] theorem State.clearOut_lasting (s : State) : (State.clearOut s).lasting = s.lasting := by
  simp [State.clearOut]

@[simp] theorem State.releasePort_lasting (x0 : Nat) (s : State) : (State.releasePort x0 s).lasting = s.lasting := by
  simp [State.releasePort]

@[simp] theorem State.releaseIdle_lasting (x0 : Nat) (s : State) : (State.releaseIdle x0 s).lasting = s.lasting := by
  simp [State.releaseIdle]

@[simp] theorem State.startClaim_lasting (s : State) : (State.startClaim s).lasting = s.lasting := by
  simp [State.startClaim]

@[simp] theorem State.driveArb_lasting (x0 : Bool) (s : State) : (State.driveArb x0 s).lasting = s.lasting := by
  simp [State.driveArb]

@[simp] theorem State.linkDown_lasting (s : State) : (State.linkDown s).lasting = s.lasting := by
  simp [State.linkDown]

@[simp] theorem State.dropLanes_lasting (s : State) : (State.dropLanes s).lasting = s.lasting := by
  simp [State.dropLanes]

@[simp] theorem State.forgetPeer_lasting (s : State) : (State.forgetPeer s).lasting = s.lasting := by
  simp [State.forgetPeer]

@[simp] theorem State.dropCycle_lasting (x0 : Nat) (x1 : Bool) (s : State) : (State.dropCycle x0 x1 s).lasting = s.lasting := by
  simp [State.dropCycle]

@[simp] theorem State.loseCycle_lasting (s : State) : (State.loseCycle s).lasting = s.lasting := by
  simp [State.loseCycle]

@[simp] theorem State.raiseOnce_lasting (x0 : Nat) (x1 : Nat) (x2 : Nat) (s : State) : (State.raiseOnce x0 x1 x2 s).lasting = s.lasting := by
  simp [State.raiseOnce]

@[simp] theorem State.endOnce_lasting (x0 : Nat) (x1 : Nat) (s : State) : (State.endOnce x0 x1 s).lasting = s.lasting := by
  simp [State.endOnce]

@[simp] theorem State.enterHandover_lasting (x0 : WheelPos) (s : State) : (State.enterHandover x0 s).lasting = s.lasting := by
  simp [State.enterHandover]

@[simp] theorem State.answerHandover_lasting (s : State) : (State.answerHandover s).lasting = s.lasting := by
  simp [State.answerHandover]

@[simp] theorem State.cancelHandover_lasting (s : State) : (State.cancelHandover s).lasting = s.lasting := by
  simp [State.cancelHandover]

@[simp] theorem State.becomeStandby_lasting (s : State) : (State.becomeStandby s).lasting = s.lasting := by
  simp [State.becomeStandby]

@[simp] theorem State.becomeActive_lasting (s : State) : (State.becomeActive s).lasting = s.lasting := by
  simp [State.becomeActive]

@[simp] theorem State.join_lasting (s : State) : (State.join s).lasting = s.lasting := by
  simp [State.join]

@[simp] theorem State.modClient_lasting (x0 : Nat) (x1 : Client → Client) (s : State) : (State.modClient x0 x1 s).lasting = s.lasting := by
  simp [State.modClient]

theorem State.takeSlot_lasting (who : ClientId) (s t : State) (n : Nat) (h : s.takeSlot who = some (n, t)) : t.lasting = s.lasting := by
  unfold State.takeSlot at h; (repeat' split at h) <;> cases h <;> simp

@[simp] theorem State.closeUpdate_lasting (x0 : Nat) (s : State) : (State.closeUpdate x0 s).lasting = s.lasting := by
  simp [State.closeUpdate]

@[simp] theorem State.releaseClient_lasting (x0 : Nat) (s : State) : (State.releaseClient x0 s).lasting = s.lasting := by
  unfold State.releaseClient; split <;> simp

@[simp] theorem refuse_lasting (x0 : Nat) (s : State) : (refuse x0 s).2.lasting = s.lasting := by
  simp [refuse]

@[simp] theorem granted_lasting (s : State) : (granted s).2.lasting = s.lasting := by
  simp [granted]

@[simp] theorem State.answer_lasting (x0 : ClientId) (x1 : Reply) (s : State) : (State.answer x0 x1 s).lasting = s.lasting := by
  unfold State.answer; split <;> simp

@[simp] theorem State.access_lasting (who : ClientId) (index : Nat) (act : Nat → State → Reply × State) (s : State)
    (h : ∀ n s, (act n s).2.lasting = s.lasting) : (s.access who index act).lasting = s.lasting := by
  unfold State.access; split
  · dsimp only; split
    · simp
    · have ht := State.takeSlot_lasting _ _ _ _ ‹_›
      (repeat' split) <;> simp [h, ht]
  · rfl

@[simp] theorem State.clientTimeout_lasting (x0 : Nat) (s : State) : (State.clientTimeout x0 s).lasting = s.lasting := by
  unfold State.clientTimeout; split <;> simp

@[simp] theorem State.refillSup_lasting (s : State) : (State.refillSup s).lasting = s.lasting := by
  simp [State.refillSup]

@[simp] theorem State.letCanIn_lasting (x0 : Nat) (s : State) : (State.letCanIn x0 s).lasting = s.lasting := by
  simp [State.letCanIn]

@[simp] theorem State.supSend_lasting (x0 : CanTx) (s : State) : (State.supSend x0 s).lasting = s.lasting := by
  simp [State.supSend]

@[simp] theorem State.emcy_lasting (x0 : Nat) (x1 : Nat) (s : State) : (State.emcy x0 x1 s).lasting = s.lasting := by
  simp [State.emcy]

@[simp] theorem State.trackErrors_lasting (s : State) : (State.trackErrors s).lasting = s.lasting := by
  simp [State.trackErrors]

@[simp] theorem State.emcyNext_lasting (s : State) : (State.emcyNext s).lasting = s.lasting := by
  unfold State.emcyNext; split <;> simp

@[simp] theorem State.enterPreOp_lasting (s : State) : (State.enterPreOp s).lasting = s.lasting := by
  simp [State.enterPreOp]

@[simp] theorem State.nmtInit_lasting (s : State) : (State.nmtInit s).lasting = s.lasting := by
  simp [State.nmtInit]

@[simp] theorem State.nmtStop_lasting (s : State) : (State.nmtStop s).lasting = s.lasting := by
  simp [State.nmtStop]

@[simp] theorem State.nmt_lasting (node : Byte) (act : State → State) (s : State) (h : ∀ s, (act s).lasting = s.lasting) :
    (s.nmt node act).lasting = s.lasting := by
  unfold State.nmt; split <;> simp [h]

@[simp] theorem State.heartbeat_lasting (s : State) : (State.heartbeat s).lasting = s.lasting := by
  simp [State.heartbeat]

@[simp] theorem State.claim_lasting (x0 : Nat) (x1 : Nat) (s : State) : (State.claim x0 x1 s).lasting = s.lasting := by
  simp [State.claim]

@[simp] theorem State.claimStart_lasting (x0 : Nat) (x1 : Bool) (s : State) : (State.claimStart x0 x1 s).lasting = s.lasting := by
  simp [State.claimStart]

@[simp] theorem State.canStart_lasting (x0 : Nat) (s : State) : (State.canStart x0 s).lasting = s.lasting := by
  simp [State.canStart]

@[simp] theorem State.dropMessages_lasting (x0 : Nat) (s : State) : (State.dropMessages x0 s).lasting = s.lasting := by
  simp [State.dropMessages]

@[simp] theorem State.loseAddress_lasting (x0 : Nat) (s : State) : (State.loseAddress x0 s).lasting = s.lasting := by
  unfold State.loseAddress; simp only [State.lasting_ite]; (repeat' split) <;> simp

@[simp] theorem State.assemblyFails_lasting (x0 : Nat) (x1 : Assembly) (s : State) : (State.assemblyFails x0 x1 s).lasting = s.lasting := by
  simp [State.assemblyFails]

@[simp] theorem State.heardClaim_lasting (x0 : Nat) (x1 : Nat) (x2 : Nat) (s : State) : (State.heardClaim x0 x1 x2 s).lasting = s.lasting := by
  simp [State.heardClaim]

@[simp] theorem State.takeSup_lasting (p pgn : Nat) (f : CanFrame → State → State) (s : State) (h : ∀ x s, (f x s).lasting = s.lasting) :
    (s.takeSup p pgn f).lasting = s.lasting := by
  unfold State.takeSup
  split
  · rfl
  · split
    · simp
    · split <;> simp [h]

@[simp] theorem State.claimComplete_lasting (x0 : Nat) (s : State) : (State.claimComplete x0 s).lasting = s.lasting := by
  unfold State.claimComplete; split <;> simp

@[simp] theorem State.heardRequest_lasting (x0 : Nat) (x1 : Nat) (x2 : Nat) (x3 : Nat) (s : State) : (State.heardRequest x0 x1 x2 x3 s).lasting = s.lasting := by
  unfold State.heardRequest; simp only [State.lasting_ite]; (repeat' split) <;> simp

@[simp] theorem State.canOverrun_lasting (x0 : Nat) (s : State) : (State.canOverrun x0 s).lasting = s.lasting := by
  simp [State.canOverrun]

@[simp] theorem State.messageIn_lasting (x0 : Nat) (x1 : Nat) (x2 : Nat) (x3 : Nat) (x4 : List Byte) (s : State) : (State.messageIn x0 x1 x2 x3 x4 s).lasting = s.lasting := by
  simp [State.messageIn]

@[simp] theorem State.roomFast_lasting (x0 : Nat) (x1 : Nat) (s : State) : (State.roomFast x0 x1 s).lasting = s.lasting := by
  unfold State.roomFast; simp only [State.lasting_ite]; (repeat' split) <;> simp

@[simp] theorem State.roomBam_lasting (x0 : Nat) (x1 : Nat) (s : State) : (State.roomBam x0 x1 s).lasting = s.lasting := by
  unfold State.roomBam; simp only [State.lasting_ite]; (repeat' split) <;> simp

@[simp] theorem State.fastFrame_lasting (x0 : Nat) (x1 : Nat) (x2 : Nat) (x3 : Nat) (x4 : List Byte) (s : State) : (State.fastFrame x0 x1 x2 x3 x4 s).lasting = s.lasting := by
  unfold State.fastFrame; dsimp only; (repeat' split) <;> simp

@[simp] theorem State.connection_lasting (x0 : Nat) (x1 : Nat) (x2 : Nat) (x3 : Nat) (x4 : List Byte) (s : State) : (State.connection x0 x1 x2 x3 x4 s).lasting = s.lasting := by
  unfold State.connection; simp only [State.lasting_ite]; (repeat' split) <;> simp

@[simp] theorem State.bamPacket_lasting (x0 : Nat) (x1 : Nat) (x2 : Nat) (x3 : List Byte) (s : State) : (State.bamPacket x0 x1 x2 x3 s).lasting = s.lasting := by
  unfold State.bamPacket; split <;> simp

@[simp] theorem State.cardFrame_lasting (x0 : Nat) (x1 : CanFrame) (s : State) : (State.cardFrame x0 x1 s).lasting = s.lasting := by
  simp [State.cardFrame]

@[simp] theorem State.navFrame_lasting (x0 : Nat) (x1 : CanFrame) (s : State) : (State.navFrame x0 x1 s).lasting = s.lasting := by
  simp [State.navFrame]

@[simp] theorem State.fieldFrame_lasting (x0 : CanFrame) (s : State) : (State.fieldFrame x0 s).lasting = s.lasting := by
  simp [State.fieldFrame]

@[simp] theorem State.rxGood_lasting (x0 : Nat) (s : State) : (State.rxGood x0 s).lasting = s.lasting := by
  simp [State.rxGood]

@[simp] theorem State.errorState_lasting (x0 : Nat) (s : State) : (State.errorState x0 s).lasting = s.lasting := by
  simp [State.errorState]

@[simp] theorem State.canReceived_lasting (x0 : Nat) (x1 : CanFrame) (s : State) : (State.canReceived x0 x1 s).lasting = s.lasting := by
  simp [State.canReceived]

@[simp] theorem State.fastTimeout_lasting (x0 : Nat) (s : State) : (State.fastTimeout x0 s).lasting = s.lasting := by
  simp [State.fastTimeout]

@[simp] theorem State.bamTimeout_lasting (x0 : Nat) (s : State) : (State.bamTimeout x0 s).lasting = s.lasting := by
  simp [State.bamTimeout]

@[simp] theorem State.canSent_lasting (x0 : Nat) (s : State) : (State.canSent x0 s).lasting = s.lasting := by
  unfold State.canSent; dsimp only
  repeat' split
  all_goals simp

@[simp] theorem State.busError_lasting (x0 : Nat) (x1 : CanErr) (s : State) : (State.busError x0 x1 s).lasting = s.lasting := by
  simp [State.busError]

@[simp] theorem State.busOffDelay_lasting (x0 : Nat) (s : State) : (State.busOffDelay x0 s).lasting = s.lasting := by
  simp [State.busOffDelay]

@[simp] theorem State.busOffRecovered_lasting (x0 : Nat) (s : State) : (State.busOffRecovered x0 s).lasting = s.lasting := by
  simp [State.busOffRecovered]

@[simp] theorem State.scrubWord_lasting (x0 : BitVec 24) (x1 : Ecc) (x2 : Bool) (s : State) : (State.scrubWord x0 x1 x2 s).lasting = s.lasting := by
  unfold State.scrubWord; split <;> simp

@[simp] theorem State.scrub_lasting (x0 : BitVec 24) (x1 : Ecc) (x2 : Bool) (s : State) : (State.scrub x0 x1 x2 s).lasting = s.lasting := by
  unfold State.scrub; split <;> simp

@[simp] theorem State.notSettled_lasting (x0 : BitVec 16) (s : State) : (State.notSettled x0 s).lasting = s.lasting := by
  simp [State.notSettled]

@[simp] theorem State.realignRequest_lasting (x0 : Nat) (x1 : Side) (s : State) : (State.realignRequest x0 x1 s).lasting = s.lasting := by
  simp [State.realignRequest]

@[simp] theorem State.realignAck_lasting (x0 : Nat) (s : State) : (State.realignAck x0 s).lasting = s.lasting := by
  unfold State.realignAck; split <;> simp

@[simp] theorem State.countRealigned_lasting (x0 : Nat) (x1 : Nat) (s : State) : (State.countRealigned x0 x1 s).lasting = s.lasting := by
  simp [State.countRealigned]

@[simp] theorem State.discardRealigned_lasting (x0 : Nat) (x1 : Nat) (s : State) : (State.discardRealigned x0 x1 s).lasting = s.lasting := by
  simp [State.discardRealigned]

@[simp] theorem State.realignAccept_lasting (x0 : Nat) (s : State) : (State.realignAccept x0 s).lasting = s.lasting := by
  unfold State.realignAccept; dsimp only; (repeat' split) <;> simp

@[simp] theorem State.refill_lasting (x0 : Nat) (s : State) : (State.refill x0 s).lasting = s.lasting := by
  simp [State.refill]

@[simp] theorem State.realignResume_lasting (x0 : Nat) (s : State) : (State.realignResume x0 s).lasting = s.lasting := by
  unfold State.realignResume; split <;> simp

@[simp] theorem State.setJournal_lasting (x0 : Nat) (s : State) : (State.setJournal x0 s).lasting = s.lasting := by
  unfold State.setJournal; simp only [State.lasting_ite]; (repeat' split) <;> simp

@[simp] theorem State.startPage_lasting (s : State) : (State.startPage s).lasting = s.lasting := by
  unfold State.startPage; simp only [State.lasting_ite]; (repeat' split) <;> simp

@[simp] theorem State.earlyFlush_lasting (s : State) : (State.earlyFlush s).lasting = s.lasting := by
  simp [State.earlyFlush]

@[simp] theorem State.ringAppend_lasting (x0 : Nat) (x1 : Nat) (x2 : Nat) (x3 : List Byte) (s : State) : (State.ringAppend x0 x1 x2 x3 s).lasting = s.lasting := by
  simp [State.ringAppend]

@[simp] theorem State.journalMarker_lasting (x0 : Nat) (x1 : List Byte) (s : State) : (State.journalMarker x0 x1 s).lasting = s.lasting := by
  simp [State.journalMarker]

@[simp] theorem State.lossMarker_lasting (x0 : Nat) (x1 : Nat) (s : State) : (State.lossMarker x0 x1 s).lasting = s.lasting := by
  simp [State.lossMarker]

@[simp] theorem State.startMarker_lasting (s : State) : (State.startMarker s).lasting = s.lasting := by
  unfold State.startMarker; dsimp only; (repeat' split) <;> simp

@[simp] theorem State.flushAll_lasting (s : State) : (State.flushAll s).lasting = s.lasting := by
  simp [State.flushAll]

@[simp] theorem State.journalTake_lasting (s : State) : (State.journalTake s).lasting = s.lasting := by
  unfold State.journalTake; simp only [State.lasting_ite]; (repeat' split) <;> simp

@[simp] theorem State.journalFails_lasting (s : State) : (State.journalFails s).lasting = s.lasting := by
  simp [State.journalFails]

@[simp] theorem State.advanceBlock_lasting (s : State) : (State.advanceBlock s).lasting = s.lasting := by
  simp [State.advanceBlock]

@[simp] theorem State.eraseAhead_lasting (s : State) : (State.eraseAhead s).lasting = s.lasting := by
  unfold State.eraseAhead; dsimp only; (repeat' split) <;> simp

@[simp] theorem State.judgeBlocks_lasting (s : State) : (State.judgeBlocks s).lasting = s.lasting := by
  simp [State.judgeBlocks]

@[simp] theorem State.retireBlock_lasting (x0 : Nat) (x1 : Nat) (s : State) : (State.retireBlock x0 x1 s).lasting = s.lasting := by
  simp [State.retireBlock]

@[simp] theorem State.countWear_lasting (s : State) : (State.countWear s).lasting = s.lasting := by
  simp [State.countWear]

@[simp] theorem State.pageDone_lasting (x0 : Bool) (s : State) : (State.pageDone x0 s).lasting = s.lasting := by
  unfold State.pageDone; split <;> simp

@[simp] theorem State.blockDone_lasting (x0 : Bool) (s : State) : (State.blockDone x0 s).lasting = s.lasting := by
  unfold State.blockDone; split <;> simp

@[simp] theorem State.nandTimeout_lasting (x0 : NandOp) (s : State) : (State.nandTimeout x0 s).lasting = s.lasting := by
  unfold State.nandTimeout; simp only [State.lasting_ite]; (repeat' split) <;> simp

@[simp] theorem State.numberFrom_lasting (x0 : Nat) (s : State) : (State.numberFrom x0 s).lasting = s.lasting := by
  simp [State.numberFrom]

@[simp] theorem State.beginFormat_lasting (x0 : Bool) (s : State) : (State.beginFormat x0 s).lasting = s.lasting := by
  simp [State.beginFormat]

@[simp] theorem State.mount_lasting (x0 : MountFound) (s : State) : (State.mount x0 s).lasting = s.lasting := by
  simp [State.mount]

@[simp] theorem State.formatDone_lasting (s : State) : (State.formatDone s).lasting = s.lasting := by
  simp [State.formatDone]

@[simp] theorem State.journalEnable_lasting (s : State) : (State.journalEnable s).lasting = s.lasting := by
  simp [State.journalEnable]

@[simp] theorem State.deviceRecord_lasting (x0 : Nat) (x1 : Nat) (x2 : Text) (x3 : List Text) (x4 : Pip) (s : State) : (State.deviceRecord x0 x1 x2 x3 x4 s).lasting = s.lasting := by
  simp [State.deviceRecord]

@[simp] theorem State.sendAlf_lasting (x0 : Alert) (s : State) : (State.sendAlf x0 s).lasting = s.lasting := by
  simp [State.sendAlf]

@[simp] theorem State.sendAcn_lasting (x0 : Alert) (s : State) : (State.sendAcn x0 s).lasting = s.lasting := by
  simp [State.sendAcn]

@[simp] theorem State.logWrite_lasting (x0 : LogMark) (x1 : Nat) (x2 : Nat) (x3 : Nat) (x4 : Nat) (x5 : Nat) (s : State) : (State.logWrite x0 x1 x2 x3 x4 x5 s).lasting = s.lasting := by
  simp [State.logWrite]

@[simp] theorem State.logEvent_lasting (x0 : LogMark) (x1 : Event) (s : State) : (State.logEvent x0 x1 s).lasting = s.lasting := by
  simp [State.logEvent]

@[simp] theorem State.renewRow_lasting (m : LogMark) (row a b : Nat) (s : State) : (s.renewRow m row a b).lasting = s.lasting := by
  unfold State.renewRow; split <;> simp

@[simp] theorem State.changeRow_lasting (x0 : LogMark) (x1 : Nat) (x2 : Nat) (x3 : Nat) (s : State) : (State.changeRow x0 x1 x2 x3 s).lasting = s.lasting := by
  unfold State.changeRow; split <;> simp

@[simp] theorem State.endRow_lasting (x0 : LogMark) (x1 : Nat) (s : State) : (State.endRow x0 x1 s).lasting = s.lasting := by
  unfold State.endRow; split <;> simp

@[simp] theorem State.judgeFull_lasting (x0 : LogMark) (s : State) : (State.judgeFull x0 s).lasting = s.lasting := by
  simp [State.judgeFull]

@[simp] theorem State.ackRow_lasting (x0 : Nat) (s : State) : (State.ackRow x0 s).lasting = s.lasting := by
  unfold State.ackRow; split <;> simp

@[simp] theorem State.newAlert_lasting (x0 : LogMark) (x1 : Nat) (x2 : Nat) (x3 : Nat) (x4 : Nat) (x5 : Nat) (s : State) : (State.newAlert x0 x1 x2 x3 x4 x5 s).lasting = s.lasting := by
  simp [State.newAlert]

@[simp] theorem State.tableFull_lasting (x0 : LogMark) (x1 : Nat) (x2 : Nat) (x3 : Nat) (s : State) : (State.tableFull x0 x1 x2 x3 s).lasting = s.lasting := by
  unfold State.tableFull; dsimp only; (repeat' split) <;> simp

@[simp] theorem State.raiseAlert_lasting (x0 : LogMark) (x1 : Nat) (x2 : Nat) (x3 : Nat) (s : State) : (State.raiseAlert x0 x1 x2 x3 s).lasting = s.lasting := by
  unfold State.raiseAlert; dsimp only; (repeat' split) <;> simp

@[simp] theorem State.ended_lasting (x0 : LogMark) (x1 : Nat) (x2 : Nat) (s : State) : (State.ended x0 x1 x2 s).lasting = s.lasting := by
  unfold State.ended; split <;> simp

@[simp] theorem State.writeEvent_lasting (s : State) : (State.writeEvent s).lasting = s.lasting := by
  unfold State.writeEvent; dsimp only; (repeat' split) <;> simp

@[simp] theorem State.ackAlert_lasting (x0 : Nat) (s : State) : (State.ackAlert x0 s).lasting = s.lasting := by
  unfold State.ackAlert; split <;> simp

@[simp] theorem State.ackAll_lasting (s : State) : (State.ackAll s).lasting = s.lasting := by
  simp [State.ackAll]

@[simp] theorem State.takeAcn_lasting (b : Bool) (act : Nat → State → State) (s : State) (h : ∀ n s, (act n s).lasting = s.lasting) :
    (s.takeAcn b act).lasting = s.lasting := by
  unfold State.takeAcn; split
  · simp
  · dsimp only; split
    · split <;> simp [h]
    · simp

@[simp] theorem State.repeatAlf_lasting (x0 : Nat) (s : State) : (State.repeatAlf x0 s).lasting = s.lasting := by
  unfold State.repeatAlf; split <;> simp

@[simp] theorem State.alfDue_lasting (x0 : Nat) (s : State) : (State.alfDue x0 s).lasting = s.lasting := by
  unfold State.alfDue; split <;> simp

@[simp] theorem State.alc_lasting (s : State) : (State.alc s).lasting = s.lasting := by
  simp [State.alc]

@[simp] theorem State.phlxStatus_lasting (s : State) : (State.phlxStatus s).lasting = s.lasting := by
  unfold State.phlxStatus
  extract_lets ms k s1
  split
  · rfl
  · rw [State.deviceRecord_lasting]; exact (State.lasting_mk ..).trans (State.lasting_eta s)

@[simp] theorem State.phlxWheels_lasting (s : State) : (State.phlxWheels s).lasting = s.lasting := by
  simp [State.phlxWheels]

@[simp] theorem State.takeTx_lasting (x0 : Nat) (s : State) : (State.takeTx x0 s).lasting = s.lasting := by
  simp [State.takeTx]

@[simp] theorem State.takeRx_lasting (x0 : Nat) (s : State) : (State.takeRx x0 s).lasting = s.lasting := by
  simp [State.takeRx]

@[simp] theorem State.offerDivider_lasting (x0 : Nat) (x1 : Nat) (s : State) : (State.offerDivider x0 x1 s).lasting = s.lasting := by
  unfold State.offerDivider; dsimp only; (repeat' split) <;> simp

@[simp] theorem State.writeDivider_lasting (x0 : Nat) (x1 : Nat) (s : State) : (State.writeDivider x0 x1 s).lasting = s.lasting := by
  simp [State.writeDivider]

@[simp] theorem State.enterAutobaud_lasting (x0 : Nat) (s : State) : (State.enterAutobaud x0 s).lasting = s.lasting := by
  simp [State.enterAutobaud]

@[simp] theorem State.lockAuto_lasting (x0 : Nat) (x1 : Nat) (s : State) : (State.lockAuto x0 x1 s).lasting = s.lasting := by
  simp [State.lockAuto]

@[simp] theorem State.autoMeasure_lasting (x0 : Nat) (x1 : Nat) (x2 : Nat) (x3 : Nat) (x4 : Nat) (s : State) : (State.autoMeasure x0 x1 x2 x3 x4 s).lasting = s.lasting := by
  unfold State.autoMeasure; simp only [State.lasting_ite]; (repeat' split) <;> simp

@[simp] theorem State.countChar_lasting (x0 : Nat) (x1 : RxTaken) (s : State) : (State.countChar x0 x1 s).lasting = s.lasting := by
  simp [State.countChar]

@[simp] theorem State.queueRx_lasting (x0 : Nat) (x1 : BitVec 16) (s : State) : (State.queueRx x0 x1 s).lasting = s.lasting := by
  simp [State.queueRx]

@[simp] theorem State.addressChar_lasting (x0 : Nat) (x1 : Cfg) (x2 : RxTaken) (s : State) : (State.addressChar x0 x1 x2 s).lasting = s.lasting := by
  simp [State.addressChar]

@[simp] theorem State.enterBreak_lasting (x0 : Nat) (x1 : Nat) (s : State) : (State.enterBreak x0 x1 s).lasting = s.lasting := by
  simp [State.enterBreak]

@[simp] theorem State.autoFault_lasting (x0 : Nat) (x1 : RxTaken) (s : State) : (State.autoFault x0 x1 s).lasting = s.lasting := by
  simp [State.autoFault]

@[simp] theorem State.charTaken_lasting (x0 : Nat) (x1 : Nat) (x2 : Cfg) (x3 : Bool) (x4 : RxTaken) (s : State) : (State.charTaken x0 x1 x2 x3 x4 s).lasting = s.lasting := by
  simp [State.charTaken]

@[simp] theorem State.readBack_lasting (x0 : Nat) (x1 : RxTaken) (x2 : Byte) (x3 : List Byte) (s : State) : (State.readBack x0 x1 x2 x3 s).lasting = s.lasting := by
  simp [State.readBack]

@[simp] theorem State.frameQueue_lasting (x0 : Nat) (x1 : Nat) (x2 : RxTaken) (s : State) : (State.frameQueue x0 x1 x2 s).lasting = s.lasting := by
  unfold State.frameQueue; split <;> simp

@[simp] theorem State.ownChar_lasting (x0 : Nat) (x1 : Option Nat) (x2 : RxTaken) (x3 : Byte) (x4 : List Byte) (s : State) : (State.ownChar x0 x1 x2 x3 x4 s).lasting = s.lasting := by
  simp [State.ownChar]

@[simp] theorem State.frameChar_lasting (x0 : Nat) (x1 : Nat) (x2 : Option Nat) (x3 : RxTaken) (s : State) : (State.frameChar x0 x1 x2 x3 s).lasting = s.lasting := by
  unfold State.frameChar; dsimp only; (repeat' split) <;> simp

@[simp] theorem State.keepRx_lasting (x0 : Nat) (x1 : RxForm) (s : State) : (State.keepRx x0 x1 s).lasting = s.lasting := by
  simp [State.keepRx]

@[simp] theorem State.charReceived_lasting (x0 : Nat) (x1 : List WireRun) (s : State) : (State.charReceived x0 x1 s).lasting = s.lasting := by
  unfold State.charReceived; dsimp only
  repeat' split
  all_goals simp

@[simp] theorem State.falseStart_lasting (x0 : Nat) (x1 : List WireRun) (s : State) : (State.falseStart x0 x1 s).lasting = s.lasting := by
  simp [State.falseStart]

@[simp] theorem State.breakEnd_lasting (x0 : Nat) (s : State) : (State.breakEnd x0 s).lasting = s.lasting := by
  simp [State.breakEnd]

@[simp] theorem State.stuckLow_lasting (x0 : Nat) (s : State) : (State.stuckLow x0 s).lasting = s.lasting := by
  simp [State.stuckLow]

@[simp] theorem State.stuckProbe_lasting (x0 : Nat) (s : State) : (State.stuckProbe x0 s).lasting = s.lasting := by
  simp [State.stuckProbe]

@[simp] theorem State.lineRecovered_lasting (x0 : Nat) (s : State) : (State.lineRecovered x0 s).lasting = s.lasting := by
  simp [State.lineRecovered]

@[simp] theorem State.receiveMarkIdle_lasting (x0 : Nat) (s : State) : (State.receiveMarkIdle x0 s).lasting = s.lasting := by
  simp [State.receiveMarkIdle]

@[simp] theorem State.feed_lasting (x0 : Nat) (x1 : Nat) (s : State) : (State.feed x0 x1 s).lasting = s.lasting := by
  unfold State.feed; split <;> simp

@[simp] theorem State.putChar_lasting (x0 : Nat) (s : State) : (State.putChar x0 s).lasting = s.lasting := by
  unfold State.putChar; split <;> simp

@[simp] theorem State.startChar_lasting (x0 : Nat) (s : State) : (State.startChar x0 s).lasting = s.lasting := by
  unfold State.startChar; split <;> simp

@[simp] theorem State.txStart_lasting (x0 : Nat) (s : State) : (State.txStart x0 s).lasting = s.lasting := by
  simp [State.txStart]

@[simp] theorem State.leadExpiry_lasting (x0 : Nat) (s : State) : (State.leadExpiry x0 s).lasting = s.lasting := by
  unfold State.leadExpiry; split <;> simp

@[simp] theorem State.lagExpiry_lasting (x0 : Nat) (s : State) : (State.lagExpiry x0 s).lasting = s.lasting := by
  unfold State.lagExpiry; split <;> simp

@[simp] theorem State.itemDone_lasting (x0 : Nat) (s : State) : (State.itemDone x0 s).lasting = s.lasting := by
  unfold State.itemDone; (try simp); (repeat' (first | split | intro _)) <;> (try simp_all)

@[simp] theorem State.txDone_lasting (x0 : Nat) (s : State) : (State.txDone x0 s).lasting = s.lasting := by
  simp [State.txDone]

@[simp] theorem State.startPort_lasting (x0 : Nat) (s : State) : (State.startPort x0 s).lasting = s.lasting := by
  simp [State.startPort]

@[simp] theorem State.changeMode_lasting (x0 : Nat) (s : State) : (State.changeMode x0 s).lasting = s.lasting := by
  simp [State.changeMode]

@[simp] theorem State.sendIgmp_lasting (x0 : Nat) (x1 : Nat) (x2 : Nat) (x3 : Nat) (s : State) : (State.sendIgmp x0 x1 x2 x3 s).lasting = s.lasting := by
  simp [State.sendIgmp]

@[simp] theorem State.sendReport_lasting (x0 : Nat) (x1 : Nat) (s : State) : (State.sendReport x0 s x1).lasting = s.lasting := by
  simp [State.sendReport]

@[simp] theorem State.sendLeave_lasting (x0 : Nat) (x1 : Nat) (s : State) : (State.sendLeave x0 s x1).lasting = s.lasting := by
  simp [State.sendLeave]

@[simp] theorem State.sendArp_lasting (x0 : Nat) (x1 : Nat) (x2 : Nat) (x3 : Nat) (x4 : Nat) (s : State) : (State.sendArp x0 x1 x2 x3 x4 s).lasting = s.lasting := by
  simp [State.sendArp]

@[simp] theorem State.sendUnicast_lasting (x0 : Nat) (x1 : Nat) (x2 : List Byte) (s : State) : (State.sendUnicast x0 x1 x2 s).lasting = s.lasting := by
  unfold State.sendUnicast; dsimp only; (repeat' split) <;> simp

@[simp] theorem State.sendUdp_lasting (x0 : Nat) (x1 : Nat) (x2 : Nat) (x3 : Nat) (x4 : List Byte) (s : State) : (State.sendUdp x0 x1 x2 x3 x4 s).lasting = s.lasting := by
  simp [State.sendUdp]

@[simp] theorem State.dropQueues_lasting (x0 : Nat) (s : State) : (State.dropQueues x0 s).lasting = s.lasting := by
  simp [State.dropQueues]

@[simp] theorem State.portEnabled_lasting (x0 : Nat) (s : State) : (State.portEnabled x0 s).lasting = s.lasting := by
  simp [State.portEnabled]

@[simp] theorem State.takeSetting_lasting (x0 : Nat) (s : State) : (State.takeSetting x0 s).lasting = s.lasting := by
  simp [State.takeSetting]

@[simp] theorem State.setLink_lasting (x0 : Nat) (x1 : Nat) (s : State) : (State.setLink x0 x1 s).lasting = s.lasting := by
  simp [State.setLink]

@[simp] theorem State.restartPort_lasting (x0 : Nat) (s : State) : (State.restartPort x0 s).lasting = s.lasting := by
  simp [State.restartPort]

@[simp] theorem State.frameBoundary_lasting (x0 : Nat) (s : State) : (State.frameBoundary x0 s).lasting = s.lasting := by
  simp [State.frameBoundary]

@[simp] theorem State.phyPoll_lasting (x0 : Nat) (x1 : PhyRegs) (s : State) : (State.phyPoll x0 x1 s).lasting = s.lasting := by
  simp [State.phyPoll]

@[simp] theorem State.countErrors_lasting (x0 : Nat) (x1 : Nat) (s : State) : (State.countErrors x0 x1 s).lasting = s.lasting := by
  simp [State.countErrors]

@[simp] theorem State.countPatterns_lasting (x0 : Nat) (x1 : List Byte) (s : State) : (State.countPatterns x0 x1 s).lasting = s.lasting := by
  simp [State.countPatterns]

@[simp] theorem State.endPause_lasting (x0 : Nat) (s : State) : (State.endPause x0 s).lasting = s.lasting := by
  simp [State.endPause]

@[simp] theorem State.pauseFrame_lasting (x0 : Nat) (x1 : List Byte) (s : State) : (State.pauseFrame x0 x1 s).lasting = s.lasting := by
  simp [State.pauseFrame]

@[simp] theorem State.pauseExpiry_lasting (x0 : Nat) (s : State) : (State.pauseExpiry x0 s).lasting = s.lasting := by
  simp [State.pauseExpiry]

@[simp] theorem State.pauseWatchdog_lasting (x0 : Nat) (s : State) : (State.pauseWatchdog x0 s).lasting = s.lasting := by
  unfold State.pauseWatchdog; split <;> simp

@[simp] theorem State.pauseHoldoff_lasting (x0 : Nat) (s : State) : (State.pauseHoldoff x0 s).lasting = s.lasting := by
  simp [State.pauseHoldoff]

@[simp] theorem State.rxFull_lasting (x0 : Nat) (s : State) : (State.rxFull x0 s).lasting = s.lasting := by
  simp [State.rxFull]

@[simp] theorem State.datagramFull_lasting (x0 : Nat) (s : State) : (State.datagramFull x0 s).lasting = s.lasting := by
  simp [State.datagramFull]

@[simp] theorem State.macDrop_lasting (x0 : Nat) (s : State) : (State.macDrop x0 s).lasting = s.lasting := by
  simp [State.macDrop]

@[simp] theorem State.toCarding_lasting (x0 : Nat) (x1 : Nat) (x2 : RxFrame) (s : State) : (State.toCarding x0 x1 x2 s).lasting = s.lasting := by
  unfold State.toCarding; dsimp only
  repeat' split
  all_goals simp

@[simp] theorem State.erroredFrame_lasting (x0 : Nat) (x1 : Nat) (x2 : RxFrame) (s : State) : (State.erroredFrame x0 x1 x2 s).lasting = s.lasting := by
  unfold State.erroredFrame; dsimp only
  repeat' split
  all_goals simp

@[simp] theorem State.toSup_lasting (x0 : Nat) (x1 : RxFrame) (s : State) : (State.toSup x0 x1 s).lasting = s.lasting := by
  simp [State.toSup]

@[simp] theorem State.toWitness_lasting (x0 : Nat) (x1 : RxFrame) (s : State) : (State.toWitness x0 x1 s).lasting = s.lasting := by
  simp [State.toWitness]

@[simp] theorem State.frameIn_lasting (x0 : Nat) (x1 : List Byte) (x2 : Bool) (s : State) : (State.frameIn x0 x1 x2 s).lasting = s.lasting := by
  unfold State.frameIn; simp only [State.lasting_ite]; (repeat' split) <;> simp

@[simp] theorem State.withSup_lasting (p : Nat) (f : RxFrame → Bool) (g : RxFrame → State → State) (s : State)
    (h : ∀ x s, (g x s).lasting = s.lasting) : (s.withSup p f g).lasting = s.lasting := by
  unfold State.withSup
  split
  · rfl
  · split
    · simp
    · split <;> simp [h]

@[simp] theorem State.arpFrame_lasting (x0 : Nat) (x1 : RxFrame) (s : State) : (State.arpFrame x0 x1 s).lasting = s.lasting := by
  simp [State.arpFrame]

@[simp] theorem State.arpRetry_lasting (x0 : Nat) (s : State) : (State.arpRetry x0 s).lasting = s.lasting := by
  simp [State.arpRetry]

@[simp] theorem State.arpTimeout_lasting (x0 : Nat) (s : State) : (State.arpTimeout x0 s).lasting = s.lasting := by
  simp [State.arpTimeout]

@[simp] theorem State.arpExpiry_lasting (x0 : Nat) (s : State) : (State.arpExpiry x0 s).lasting = s.lasting := by
  simp [State.arpExpiry]

@[simp] theorem State.icmpEcho_lasting (x0 : Nat) (x1 : RxFrame) (s : State) : (State.icmpEcho x0 x1 s).lasting = s.lasting := by
  simp [State.icmpEcho]

@[simp] theorem State.igmpQuery_lasting (x0 : Nat) (x1 : Nat) (x2 : RxFrame) (s : State) : (State.igmpQuery x0 x1 x2 s).lasting = s.lasting := by
  simp [State.igmpQuery]

@[simp] theorem State.igmpReport_lasting (x0 : Nat) (x1 : Nat) (s : State) : (State.igmpReport x0 x1 s).lasting = s.lasting := by
  simp [State.igmpReport]

@[simp] theorem State.stampLost_lasting (x0 : Nat) (x1 : Nat) (s : State) : (State.stampLost x0 x1 s).lasting = s.lasting := by
  simp [State.stampLost]

@[simp] theorem State.txStamp_lasting (x0 : Nat) (x1 : TxKind) (s : State) : (State.txStamp x0 x1 s).lasting = s.lasting := by
  unfold State.txStamp; split <;> simp

@[simp] theorem State.macStart_lasting (x0 : Nat) (x1 : Nat) (s : State) : (State.macStart x0 x1 s).lasting = s.lasting := by
  unfold State.macStart; dsimp only; (repeat' split) <;> simp

@[simp] theorem State.cleanFrame_lasting (x0 : Nat) (s : State) : (State.cleanFrame x0 s).lasting = s.lasting := by
  simp [State.cleanFrame]

@[simp] theorem State.macEnd_lasting (x0 : Nat) (s : State) : (State.macEnd x0 s).lasting = s.lasting := by
  unfold State.macEnd; dsimp only; (repeat' split) <;> simp

@[simp] theorem State.dropStamp_lasting (x0 : Nat) (x1 : TxKind) (s : State) : (State.dropStamp x0 x1 s).lasting = s.lasting := by
  unfold State.dropStamp; split <;> simp

@[simp] theorem State.txUnderrun_lasting (x0 : Nat) (s : State) : (State.txUnderrun x0 s).lasting = s.lasting := by
  unfold State.txUnderrun; split <;> simp

@[simp] theorem State.removeStamp_lasting (x0 : Nat) (s : State) : (State.removeStamp x0 s).lasting = s.lasting := by
  simp [State.removeStamp]

@[simp] theorem State.sampleCounter_lasting (x0 : Nat) (x1 : Nat) (s : State) : (State.sampleCounter x0 s x1).lasting = s.lasting := by
  simp [State.sampleCounter]

@[simp] theorem State.sampleCounters_lasting (x0 : Nat) (s : State) : (State.sampleCounters x0 s).lasting = s.lasting := by
  simp [State.sampleCounters]

@[simp] theorem State.clearRing_lasting (x0 : Nat) (s : State) : (State.clearRing x0 s).lasting = s.lasting := by
  simp [State.clearRing]

@[simp] theorem State.modDom_lasting (x0 : Nat) (x1 : Dom → Dom) (s : State) : (State.modDom x0 x1 s).lasting = s.lasting := by
  simp [State.modDom]

@[simp] theorem State.markEnd_lasting (x0 : Nat) (x1 : Side) (s : State) : (State.markEnd x0 x1 s).lasting = s.lasting := by
  simp [State.markEnd]

@[simp] theorem State.markEnds_lasting (x0 : Nat) (s : State) : (State.markEnds x0 s).lasting = s.lasting := by
  exact foldl_lasting _ (fun s q => by (repeat' split) <;> simp) _ _

@[simp] theorem State.restartShapers_lasting (s : State) : (State.restartShapers s).lasting = s.lasting := by
  simp [State.restartShapers]

@[simp] theorem State.emptyQueues_lasting (s : State) : (State.emptyQueues s).lasting = s.lasting := by
  simp [State.emptyQueues]

@[simp] theorem State.fabricEnter_lasting (s : State) : (State.fabricEnter s).lasting = s.lasting := by
  simp [State.fabricEnter]

@[simp] theorem State.reloadPoint_lasting (x0 : Nat) (s : State) : (State.reloadPoint s x0).lasting = s.lasting := by
  simp [State.reloadPoint]

@[simp] theorem State.restartRow_lasting (x0 : Nat) (s : State) : (State.restartRow s x0).lasting = s.lasting := by
  simp [State.restartRow]

@[simp] theorem State.cardEnter_lasting (x0 : Nat) (s : State) : (State.cardEnter x0 s).lasting = s.lasting := by
  simp [State.cardEnter]

@[simp] theorem State.cardExit_lasting (x0 : Nat) (s : State) : (State.cardExit x0 s).lasting = s.lasting := by
  simp [State.cardExit]

@[simp] theorem State.fullEnter_lasting (s : State) : (State.fullEnter s).lasting = s.lasting := by
  simp [State.fullEnter]

@[simp] theorem State.ctrlEnter_lasting (s : State) : (State.ctrlEnter s).lasting = s.lasting := by
  simp [State.ctrlEnter]

@[simp] theorem State.ctrlExit_lasting (s : State) : (State.ctrlExit s).lasting = s.lasting := by
  simp [State.ctrlExit]

@[simp] theorem State.supEnter_lasting (s : State) : (State.supEnter s).lasting = s.lasting := by
  simp [State.supEnter]

@[simp] theorem State.releaseEvents_lasting (s : State) : (State.releaseEvents s).lasting = s.lasting := by
  simp [State.releaseEvents]

@[simp] theorem State.beginReports_lasting (s : State) : s.beginReports.lasting = s.lasting := by
  simp [State.beginReports]

@[simp] theorem State.supStart_lasting (s : State) : (State.supStart s).lasting = s.lasting := by
  simp [State.supStart]

@[simp] theorem State.supExit_lasting (s : State) : (State.supExit s).lasting = s.lasting := by
  simp [State.supExit]

@[simp] theorem State.ethEnter_lasting (x0 : Nat) (s : State) : (State.ethEnter x0 s).lasting = s.lasting := by
  simp [State.ethEnter]

@[simp] theorem State.serialEnter_lasting (s : State) : (State.serialEnter s).lasting = s.lasting := by
  simp [State.serialEnter]

@[simp] theorem State.canEnter_lasting (s : State) : (State.canEnter s).lasting = s.lasting := by
  simp [State.canEnter]

@[simp] theorem State.canExit_lasting (s : State) : (State.canExit s).lasting = s.lasting := by
  simp [State.canExit]

@[simp] theorem State.afeEnter_lasting (s : State) : (State.afeEnter s).lasting = s.lasting := by
  simp [State.afeEnter]

@[simp] theorem State.afeExit_lasting (s : State) : (State.afeExit s).lasting = s.lasting := by
  simp [State.afeExit]

@[simp] theorem State.dramEnter_lasting (s : State) : (State.dramEnter s).lasting = s.lasting := by
  simp [State.dramEnter]

@[simp] theorem State.dramExit_lasting (s : State) : (State.dramExit s).lasting = s.lasting := by
  simp [State.dramExit]

@[simp] theorem State.domainLoses_lasting (x0 : Nat) (s : State) : (State.domainLoses x0 s).lasting = s.lasting := by
  unfold State.domainLoses; split <;> simp

@[simp] theorem State.enterReset_lasting (x0 : Nat) (s : State) : (State.enterReset x0 s).lasting = s.lasting := by
  simp [State.enterReset]

@[simp] theorem State.switchOff_lasting (x0 : Nat) (s : State) : (State.switchOff x0 s).lasting = s.lasting := by
  simp [State.switchOff]

@[simp] theorem State.rejectFrame_lasting (x0 : Nat) (x1 : Slot) (x2 : Nat) (x3 : Nat) (x4 : Pip) (x5 : Nat) (s : State) : (State.rejectFrame x0 x1 x2 x3 x4 x5 s).lasting = s.lasting := by
  simp [State.rejectFrame]

@[simp] theorem State.completeFrame_lasting (x0 : Nat) (x1 : Slot) (x2 : Pip) (x3 : Nat) (s : State) : (State.completeFrame x0 x1 x2 x3 s).lasting = s.lasting := by
  simp [State.completeFrame]

@[simp] theorem State.frameByte_lasting (x0 : Nat) (x1 : RxChar) (s : State) : (State.frameByte x0 x1 s).lasting = s.lasting := by
  unfold State.frameByte; split <;> simp

@[simp] theorem State.sentenceChar_lasting (x0 : Nat) (x1 : RxChar) (s : State) : (State.sentenceChar x0 x1 s).lasting = s.lasting := by
  unfold State.sentenceChar; dsimp only; split <;> simp

@[simp] theorem State.takeChar_lasting (x0 : Nat) (s : State) : (State.takeChar x0 s).lasting = s.lasting := by
  unfold State.takeChar; split <;> simp

@[simp] theorem State.cardSerial_lasting (x0 : Nat) (s : State) : (State.cardSerial x0 s).lasting = s.lasting := by
  unfold State.cardSerial; simp only [State.lasting_ite]; (repeat' split) <;> simp

@[simp] theorem State.takeBytes_lasting (x0 : Nat) (s : State) : (State.takeBytes x0 s).lasting = s.lasting := by
  simp [State.takeBytes]

@[simp] theorem State.frameDeadline_lasting (x0 : Nat) (x1 : Bool) (s : State) : (State.frameDeadline x0 x1 s).lasting = s.lasting := by
  unfold State.frameDeadline; dsimp only; (repeat' split) <;> simp

@[simp] theorem State.frameExpiry_lasting (x0 : Nat) (x1 : Bool) (s : State) : (State.frameExpiry x0 x1 s).lasting = s.lasting := by
  simp [State.frameExpiry]

@[simp] theorem State.sendBus_lasting (x0 : Nat) (x1 : List Byte) (x2 : Option Slot) (s : State) : (State.sendBus x0 x1 x2 s).lasting = s.lasting := by
  simp [State.sendBus]

@[simp] theorem State.sendHeader_lasting (x0 : Nat) (x1 : Nat) (s : State) : (State.sendHeader x0 x1 s).lasting = s.lasting := by
  simp [State.sendHeader]

@[simp] theorem State.slotEnd_lasting (x0 : Nat) (s : State) : (State.slotEnd x0 s).lasting = s.lasting := by
  simp [State.slotEnd]

@[simp] theorem State.slotStart_lasting (x0 : Nat) (s : State) : (State.slotStart x0 s).lasting = s.lasting := by
  simp [State.slotStart]

@[simp] theorem State.headerObserved_lasting (x0 : Nat) (x1 : Nat) (x2 : Byte) (x3 : Byte) (s : State) : (State.headerObserved x0 x1 x2 x3 s).lasting = s.lasting := by
  unfold State.headerObserved; simp only [State.lasting_ite]; (repeat' split) <;> simp

@[simp] theorem State.busShort_lasting (x0 : Nat) (s : State) : (State.busShort x0 s).lasting = s.lasting := by
  unfold State.busShort; split <;> simp

@[simp] theorem State.setWheels_lasting (x0 : Cfg) (s : State) : (State.setWheels x0 s).lasting = s.lasting := by
  simp [State.setWheels]

@[simp] theorem State.setOutputs_lasting (x0 : Cfg) (s : State) : (State.setOutputs x0 s).lasting = s.lasting := by
  simp [State.setOutputs]

@[simp] theorem State.setRow_lasting (x0 : Dispatch) (x1 : Nat) (s : State) : (State.setRow x0 s x1).lasting = s.lasting := by
  simp [State.setRow]

@[simp] theorem State.setAppts_lasting (x0 : Cfg) (x1 : Dispatch) (s : State) : (State.setAppts x0 x1 s).lasting = s.lasting := by
  simp [State.setAppts]

@[simp] theorem State.setSource_lasting (x0 : Cfg) (x1 : Nat) (s : State) : (State.setSource x0 s x1).lasting = s.lasting := by
  simp [State.setSource]

@[simp] theorem State.setGroup_lasting (x0 : Nat) (s : State) : (State.setGroup s x0).lasting = s.lasting := by
  simp [State.setGroup]

@[simp] theorem State.discardAll_lasting (x0 : Nat) (s : State) : (State.discardAll x0 s).lasting = s.lasting := by
  simp [State.discardAll]

@[simp] theorem State.meetLimit_lasting (x0 : Nat) (s : State) : (State.meetLimit x0 s).lasting = s.lasting := by
  simp [State.meetLimit]

@[simp] theorem State.setListener_lasting (x0 : Cfg) (x1 : Nat) (s : State) : (State.setListener x0 s x1).lasting = s.lasting := by
  simp [State.setListener]

@[simp] theorem State.setShaper_lasting (x0 : Nat) (s : State) : (State.setShaper s x0).lasting = s.lasting := by
  simp [State.setShaper]

@[simp] theorem State.setForwarding_lasting (x0 : Cfg) (s : State) : (State.setForwarding x0 s).lasting = s.lasting := by
  simp [State.setForwarding]

@[simp] theorem State.retank_lasting (x0 : Cfg) (s : State) : (State.retank x0 s).lasting = s.lasting := by
  simp [State.retank]

@[simp] theorem State.setAttitude_lasting (x0 : Cfg) (s : State) : (State.setAttitude x0 s).lasting = s.lasting := by
  simp [State.setAttitude]

@[simp] theorem State.startCasc_lasting (x0 : Nat) (s : State) : (State.startCasc x0 s).lasting = s.lasting := by
  simp [State.startCasc]

@[simp] theorem State.endCasc_lasting (x0 : Nat) (s : State) : (State.endCasc x0 s).lasting = s.lasting := by
  simp [State.endCasc]

@[simp] theorem State.reseatStage_lasting (x0 : Nat) (s : State) : (State.reseatStage x0 s).lasting = s.lasting := by
  simp [State.reseatStage]

@[simp] theorem State.setCascade_lasting (x0 : Cfg) (x1 : Nat) (s : State) : (State.setCascade x0 s x1).lasting = s.lasting := by
  simp [State.setCascade]

@[simp] theorem State.endMeasured_lasting (x0 : Nat) (s : State) : (State.endMeasured x0 s).lasting = s.lasting := by
  simp [State.endMeasured]

@[simp] theorem State.setPortMode_lasting (x0 : Cfg) (x1 : Nat) (s : State) : (State.setPortMode x0 x1 s).lasting = s.lasting := by
  simp [State.setPortMode]

@[simp] theorem State.setInversion_lasting (x0 : Nat) (s : State) : (State.setInversion x0 s).lasting = s.lasting := by
  unfold State.setInversion; split <;> simp

@[simp] theorem State.setDriver_lasting (x0 : Cfg) (x1 : Nat) (s : State) : (State.setDriver x0 x1 s).lasting = s.lasting := by
  simp [State.setDriver]

@[simp] theorem State.setPort_lasting (x0 : Cfg) (x1 : Nat) (x2 : Nat) (s : State) : (State.setPort x0 x1 s x2).lasting = s.lasting := by
  simp [State.setPort]

@[simp] theorem State.setAnalog_lasting (x0 : Cfg) (s : State) : (State.setAnalog x0 s).lasting = s.lasting := by
  simp [State.setAnalog]

@[simp] theorem State.setGrids_lasting (x0 : Cfg) (x1 : WheelPos) (s : State) : (State.setGrids x0 x1 s).lasting = s.lasting := by
  simp [State.setGrids]

@[simp] theorem State.setEth_lasting (x0 : Cfg) (x1 : Nat) (x2 : List Nat) (s : State) : (State.setEth x0 x1 x2 s).lasting = s.lasting := by
  simp [State.setEth]

@[simp] theorem State.stopCan_lasting (x0 : Nat) (s : State) : (State.stopCan x0 s).lasting = s.lasting := by
  simp [State.stopCan]

@[simp] theorem State.setCan_lasting (x0 : Cfg) (x1 : Nat) (s : State) : (State.setCan x0 s x1).lasting = s.lasting := by
  simp [State.setCan]

@[simp] theorem State.setMode_lasting (s : State) : (State.setMode s).lasting = s.lasting := by
  simp [State.setMode]

@[simp] theorem State.setTwin_lasting (x0 : Cfg) (s : State) : (State.setTwin x0 s).lasting = s.lasting := by
  simp [State.setTwin]

@[simp] theorem State.modCopy_lasting (x0 : Nat) (x1 : Copy → Copy) (s : State) : (State.modCopy x0 x1 s).lasting = s.lasting := by
  simp [State.modCopy]

@[simp] theorem State.asOwner_lasting (n : Nat) (act : State → Reply × State) (s : State) (h : ∀ s, (act s).2.lasting = s.lasting) :
    (s.asOwner n act).2.lasting = s.lasting := by
  unfold State.asOwner; split <;> simp [h]

@[simp] theorem State.cycleOpen_lasting (x0 : Nat) (s : State) : (State.cycleOpen x0 s).2.lasting = s.lasting := by
  simp [State.cycleOpen]

@[simp] theorem State.askTwin_lasting (s : State) : (State.askTwin s).lasting = s.lasting := by
  simp [State.askTwin]

@[simp] theorem State.cycleCheck_lasting (x0 : Nat) (s : State) : (State.cycleCheck x0 s).2.lasting = s.lasting := by
  simp [State.cycleCheck]

@[simp] theorem State.report_lasting (x0 : List CheckEntry) (s : State) : (State.report x0 s).lasting = s.lasting := by
  simp [State.report]

@[simp] theorem State.checkComplete_lasting (s : State) : (State.checkComplete s).lasting = s.lasting := by
  simp [State.checkComplete]

@[simp] theorem State.enterPoint_lasting (x0 : WheelPos) (s : State) : (State.enterPoint x0 s).lasting = s.lasting := by
  simp [State.enterPoint]

@[simp] theorem State.cycleSet_lasting (x0 : Nat) (s : State) : (State.cycleSet x0 s).2.lasting = s.lasting := by
  simp [State.cycleSet]

@[simp] theorem State.cycleAbandon_lasting (x0 : Nat) (s : State) : (State.cycleAbandon x0 s).2.lasting = s.lasting := by
  simp [State.cycleAbandon]

@[simp] theorem State.loadDefaults_lasting (x0 : Nat) (s : State) : (State.loadDefaults x0 s).2.lasting = s.lasting := by
  unfold State.loadDefaults; refine State.asOwner_lasting _ _ _ (fun s => ?_); split <;> simp [granted, refuse]

@[simp] theorem State.cycleCommit_lasting (s : State) : (State.cycleCommit s).lasting = s.lasting := by
  unfold State.cycleCommit; split <;> simp

@[simp] theorem State.copyWritten_lasting (x0 : Bool) (s : State) : (State.copyWritten x0 s).lasting = s.lasting := by
  unfold State.copyWritten; split <;> simp

@[simp] theorem State.cycleTimeout_lasting (s : State) : (State.cycleTimeout s).lasting = s.lasting := by
  simp [State.cycleTimeout]

@[simp] theorem State.stage_lasting (x0 : Nat) (x1 : Key) (x2 : Val) (s : State) : (State.stage x0 x1 x2 s).2.lasting = s.lasting := by
  simp [State.stage]

@[simp] theorem State.fromPeer_lasting (x0 : State → State) (s : State) (h : ∀ s, (x0 s).lasting = s.lasting) :
    (State.fromPeer x0 s).lasting = s.lasting := by
  unfold State.fromPeer
  refine State.whenUp_lasting _ _ _ fun s => State.whenUp_lasting _ _ _ fun s => ?_
  split <;> simp [h]

@[simp] theorem State.resync_lasting (s : State) : (State.resync s).lasting = s.lasting := by
  simp [State.resync]

@[simp] theorem State.noteFormed_lasting (s : State) : (State.noteFormed s).lasting = s.lasting := by
  simp [State.noteFormed]

@[simp] theorem State.laneUp_lasting (x0 : Nat) (s : State) : (State.laneUp x0 s).lasting = s.lasting := by
  simp [State.laneUp]

@[simp] theorem State.laneLost_lasting (x0 : Nat) (s : State) : (State.laneLost x0 s).lasting = s.lasting := by
  simp [State.laneLost]

@[simp] theorem State.helloSend_lasting (s : State) : (State.helloSend s).lasting = s.lasting := by
  simp [State.helloSend]

@[simp] theorem State.peerReports_lasting (x0 : Nat) (s : State) : (State.peerReports x0 s).lasting = s.lasting := by
  simp [State.peerReports]

@[simp] theorem State.helloReceived_lasting (x0 : Hello) (s : State) : (State.helloReceived x0 s).lasting = s.lasting := by
  simp [State.helloReceived]

@[simp] theorem State.sendMirror_lasting (s : State) : (State.sendMirror s).lasting = s.lasting := by
  simp [State.sendMirror]

@[simp] theorem State.putBnd_lasting (x0 : Key) (x1 : Val) (s : State) : (State.putBnd x0 x1 s).lasting = s.lasting := by
  simp [State.putBnd]

@[simp] theorem State.trim_lasting (x0 : Nat) (x1 : Nat) (x2 : WheelPos) (s : State) : (State.trim x0 x1 x2 s).lasting = s.lasting := by
  simp [State.trim]

@[simp] theorem State.takeMark_lasting (x0 : Nat) (x1 : Nat) (x2 : Nat) (x3 : WheelPos) (x4 : Nat) (s : State) : (State.takeMark x0 x1 x2 x3 x4 s).lasting = s.lasting := by
  simp [State.takeMark]

@[simp] theorem State.takeCascade_lasting (x0 : Nat) (x1 : Nat) (x2 : Nat) (x3 : Rat) (x4 : Rat) (x5 : Rat) (x6 : Rat) (x7 : Rat) (x8 : Rat) (x9 : Nat) (s : State) : (State.takeCascade x0 x1 x2 x3 x4 x5 x6 x7 x8 x9 s).lasting = s.lasting := by
  simp [State.takeCascade]

@[simp] theorem State.takeItem_lasting (x0 : MirrorItem) (s : State) : (State.takeItem s x0).lasting = s.lasting := by
  unfold State.takeItem; dsimp only; (repeat' split) <;> simp

@[simp] theorem State.mirrorReceived_lasting (x0 : List MirrorItem) (s : State) : (State.mirrorReceived x0 s).lasting = s.lasting := by
  simp [State.mirrorReceived]

@[simp] theorem State.heartbeatSend_lasting (s : State) : (State.heartbeatSend s).lasting = s.lasting := by
  simp [State.heartbeatSend]

@[simp] theorem State.echo_lasting (x0 : Heartbeat) (s : State) : (State.echo x0 s).lasting = s.lasting := by
  simp [State.echo]

@[simp] theorem State.beatPresent_lasting (s : State) : (State.beatPresent s).lasting = s.lasting := by
  simp [State.beatPresent]

@[simp] theorem State.watchGenerations_lasting (s : State) : (State.watchGenerations s).lasting = s.lasting := by
  simp [State.watchGenerations]

@[simp] theorem State.heartbeatReceived_lasting (x0 : Heartbeat) (s : State) : (State.heartbeatReceived x0 s).lasting = s.lasting := by
  simp [State.heartbeatReceived]

@[simp] theorem State.lossAlerts_lasting (s : State) : (State.lossAlerts s).lasting = s.lasting := by
  simp [State.lossAlerts]

@[simp] theorem State.takeAllPorts_lasting (s : State) : (State.takeAllPorts s).lasting = s.lasting := by
  simp [State.takeAllPorts]

@[simp] theorem State.returnActive_lasting (s : State) : (State.returnActive s).lasting = s.lasting := by
  simp [State.returnActive]

@[simp] theorem State.heartbeatLost_lasting (s : State) : (State.heartbeatLost s).lasting = s.lasting := by
  simp [State.heartbeatLost]

@[simp] theorem State.beatToggle_lasting (s : State) : (State.beatToggle s).lasting = s.lasting := by
  simp [State.beatToggle]

@[simp] theorem State.beatEdge_lasting (s : State) : (State.beatEdge s).lasting = s.lasting := by
  simp [State.beatEdge]

@[simp] theorem State.beatAbsent_lasting (s : State) : (State.beatAbsent s).lasting = s.lasting := by
  simp [State.beatAbsent]

@[simp] theorem State.arbFall_lasting (s : State) : (State.arbFall s).lasting = s.lasting := by
  simp [State.arbFall]

@[simp] theorem State.arbRise_lasting (s : State) : (State.arbRise s).lasting = s.lasting := by
  simp [State.arbRise]

@[simp] theorem State.takingEntry_lasting (s : State) : (State.takingEntry s).lasting = s.lasting := by
  simp [State.takingEntry]

@[simp] theorem State.takingConfirm_lasting (s : State) : (State.takingConfirm s).lasting = s.lasting := by
  simp [State.takingConfirm]

@[simp] theorem State.claimExpiry_lasting (s : State) : (State.claimExpiry s).lasting = s.lasting := by
  unfold State.claimExpiry; split <;> simp

@[simp] theorem State.witnessed_lasting (s : State) : (State.witnessed s).lasting = s.lasting := by
  simp [State.witnessed]

@[simp] theorem State.witnessDatagram_lasting (x0 : Nat) (s : State) : (State.witnessDatagram x0 s).lasting = s.lasting := by
  simp [State.witnessDatagram]

@[simp] theorem State.witnessHold_lasting (s : State) : (State.witnessHold s).lasting = s.lasting := by
  unfold State.witnessHold; split <;> simp

@[simp] theorem State.revertHold_lasting (s : State) : (State.revertHold s).lasting = s.lasting := by
  unfold State.revertHold; simp only [State.lasting_ite]; (repeat' split) <;> simp

@[simp] theorem State.askHandover_lasting (x0 : Nat) (s : State) : (State.askHandover x0 s).lasting = s.lasting := by
  simp [State.askHandover]

@[simp] theorem State.handoverCommand_lasting (x0 : Nat) (s : State) : (State.handoverCommand x0 s).2.lasting = s.lasting := by
  simp [State.handoverCommand]

@[simp] theorem State.handoverRequest_lasting (x0 : Nat) (s : State) : (State.handoverRequest x0 s).lasting = s.lasting := by
  simp [State.handoverRequest]

@[simp] theorem State.handoverAgree_lasting (x0 : WheelPos) (s : State) : (State.handoverAgree x0 s).lasting = s.lasting := by
  simp [State.handoverAgree]

@[simp] theorem State.returnUnbegun_lasting (s : State) : (State.returnUnbegun s).lasting = s.lasting := by
  simp [State.returnUnbegun]

@[simp] theorem State.handoverPoint_lasting (x0 : Dispatch) (s : State) : (State.handoverPoint x0 s).lasting = s.lasting := by
  simp [State.handoverPoint]

theorem takeMirrors_lasting (items : List MirrorItem) (s : State) : (items.foldl (fun s m => match m with
      | .mark l cls source pip crc => State.takeMark l cls source pip crc s
      | .counters l a b c d e => s.modLst l (fun x => { x with held := some ⟨a, b, c, d, e⟩ })
      | _ => s) s).lasting = s.lasting := foldl_lasting _ (fun s m => by split <;> simp) _ _

@[simp] theorem State.takePort_lasting (port : Nat) (items : List MirrorItem) (s : State) :
    (State.takePort port items s).lasting = s.lasting := by
  unfold State.takePort; split
  · rfl
  · dsimp only
    rw [State.regain_lasting]
    have h := takeMirrors_lasting items s
    generalize (items.foldl _ s) = u at h ⊢
    rw [← h]
    split <;> simp

@[simp] theorem State.overlapExpiry_lasting (x0 : Nat) (s : State) : (State.overlapExpiry x0 s).lasting = s.lasting := by
  unfold State.overlapExpiry; split <;> simp

@[simp] theorem State.startDelay_lasting (x0 : Nat) (s : State) : (State.startDelay x0 s).lasting = s.lasting := by
  unfold State.startDelay; split <;> simp

@[simp] theorem State.judgeShadow_lasting (x0 : Cfg) (s : State) : (State.judgeShadow x0 s).lasting = s.lasting := by
  simp [State.judgeShadow]

@[simp] theorem State.judgeResync_lasting (x0 : Cfg) (s : State) : (State.judgeResync x0 s).lasting = s.lasting := by
  simp [State.judgeResync]

@[simp] theorem State.takeShadow_lasting (x0 : Bool) (x1 : Nat) (x2 : List Byte) (x3 : Bool) (s : State) : (State.takeShadow x0 x1 x2 x3 s).lasting = s.lasting := by
  simp [State.takeShadow]

@[simp] theorem State.takeResult_lasting (x0 : Bool) (x1 : Nat) (x2 : List CheckEntry) (s : State) : (State.takeResult x0 x1 x2 s).lasting = s.lasting := by
  unfold State.takeResult; simp only [State.lasting_ite, State.lasting_mk, State.lasting_eta]; (repeat' split) <;> simp

@[simp] theorem State.takeSet_lasting (x0 : WheelPos) (x1 : Nat) (s : State) : (State.takeSet x0 x1 s).lasting = s.lasting := by
  simp [State.takeSet]

@[simp] theorem State.takeAck_lasting (x0 : WheelPos) (s : State) : (State.takeAck x0 s).lasting = s.lasting := by
  simp [State.takeAck]

@[simp] theorem State.resyncTimer_lasting (s : State) : (State.resyncTimer s).lasting = s.lasting := by
  unfold State.resyncTimer; split <;> simp

@[simp] theorem State.modSlot_lasting (x0 : Nat) (x1 : Slot15 → Slot15) (s : State) : (State.modSlot x0 x1 s).lasting = s.lasting := by
  simp [State.modSlot]

@[simp] theorem State.recordAo_lasting (x0 : Nat) (x1 : Nat) (x2 : Nat) (s : State) : (State.recordAo x0 x1 x2 s).lasting = s.lasting := by
  simp [State.recordAo]

@[simp] theorem State.rejectSlot_lasting (x0 : Nat) (s : State) : (State.rejectSlot x0 s).lasting = s.lasting := by
  simp [State.rejectSlot]

@[simp] theorem State.tryImages_lasting (l : List Nat) (s : State) : (State.tryImages l s).lasting = s.lasting := by
  induction l generalizing s with
  | nil => rfl
  | cons n l ih => unfold State.tryImages; split <;> simp [ih]

@[simp] theorem State.pickImage_lasting (s : State) : (State.pickImage s).lasting = s.lasting := by
  simp [State.pickImage]

@[simp] theorem State.judgeCopies_lasting (s : State) : (State.judgeCopies s).lasting = s.lasting := by
  unfold State.judgeCopies; split <;> simp

@[simp] theorem State.decideMode_lasting (s : State) : (State.decideMode s).lasting = s.lasting := by
  simp [State.decideMode]

@[simp] theorem State.runDomains_lasting (x0 : Nat → Bool) (s : State) : (State.runDomains x0 s).lasting = s.lasting := by
  simp [State.runDomains]

@[simp] theorem State.startWheels_lasting (s : State) : (State.startWheels s).lasting = s.lasting := by
  simp [State.startWheels]

@[simp] theorem State.withheld_lasting (s : State) : (State.withheld s).lasting = s.lasting := by
  simp [State.withheld]

@[simp] theorem State.imageOpen_lasting (x0 : Nat) (s : State) : (State.imageOpen x0 s).2.lasting = s.lasting := by
  simp [State.imageOpen]

@[simp] theorem State.imageSeek_lasting (x0 : Nat) (x1 : Nat) (s : State) : (State.imageSeek x0 x1 s).2.lasting = s.lasting := by
  simp [State.imageSeek]

@[simp] theorem State.imageData_lasting (x0 : Nat) (x1 : List Byte) (s : State) : (State.imageData x0 x1 s).2.lasting = s.lasting := by
  simp [State.imageData]

@[simp] theorem State.imageVerify_lasting (s : State) : (State.imageVerify s).2.lasting = s.lasting := by
  simp [State.imageVerify]

@[simp] theorem State.verifyComplete_lasting (x0 : ImageFacts) (s : State) : (State.verifyComplete x0 s).lasting = s.lasting := by
  simp [State.verifyComplete]

@[simp] theorem State.imageActivate_lasting (s : State) : (State.imageActivate s).2.lasting = s.lasting := by
  simp [State.imageActivate]

@[simp] theorem State.confirmImage_lasting (s : State) : (State.confirmImage s).lasting = s.lasting := by
  simp [State.confirmImage]

@[simp] theorem State.imageConfirm_lasting (s : State) : (State.imageConfirm s).2.lasting = s.lasting := by
  simp [State.imageConfirm]

@[simp] theorem State.confirmDue_lasting (s : State) : (State.confirmDue s).lasting = s.lasting := by
  simp [State.confirmDue]

@[simp] theorem State.clearFailures_lasting (s : State) : (State.clearFailures s).lasting = s.lasting := by
  simp [State.clearFailures]

@[simp] theorem State.copyRewrite_lasting (s : State) : (State.copyRewrite s).lasting = s.lasting := by
  unfold State.copyRewrite; dsimp only; (repeat' split) <;> simp

@[simp] theorem State.finishSerial_lasting (x0 : Nat) (s : State) : (State.finishSerial x0 s).lasting = s.lasting := by
  unfold State.finishSerial; dsimp only; (repeat' split) <;> simp

@[simp] theorem State.discardQueues_lasting (s : State) : (State.discardQueues s).lasting = s.lasting := by
  simp [State.discardQueues]

@[simp] theorem State.quiesce_lasting (s : State) : (State.quiesce s).lasting = s.lasting := by
  simp [State.quiesce]

@[simp] theorem State.completeFlush_lasting (n : Nat) (s : State) : (s.completeFlush n).lasting = s.lasting := by
  induction n generalizing s with
  | zero => rfl
  | succ n ih => unfold State.completeFlush; (repeat' split) <;> simp [ih]

@[simp] theorem State.leaveSurge_lasting (s : State) : (State.leaveSurge s).lasting = s.lasting := by
  simp [State.leaveSurge]

@[simp] theorem State.retainDomains_lasting (s : State) : (State.retainDomains s).lasting = s.lasting := by
  simp [State.retainDomains]

@[simp] theorem State.supOff_lasting (s : State) : s.supOff.lasting = s.lasting := by
  simp [State.supOff]

@[simp] theorem State.offDomains_lasting (x0 : Bool) (s : State) : (State.offDomains x0 s).lasting = s.lasting := by
  simp [State.offDomains]

@[simp] theorem State.enterLow_lasting (x0 : Nat) (s : State) : (State.enterLow x0 s).lasting = s.lasting := by
  simp [State.enterLow]

@[simp] theorem State.lowRequest_lasting (x0 : Nat) (s : State) : (State.lowRequest x0 s).2.lasting = s.lasting := by
  simp [State.lowRequest]

@[simp] theorem State.wakeWheels_lasting (s : State) : (State.wakeWheels s).lasting = s.lasting := by
  simp [State.wakeWheels]

@[simp] theorem State.releaseDomains_lasting (s : State) : (State.releaseDomains s).lasting = s.lasting := by
  simp [State.releaseDomains]

@[simp] theorem State.raiseCore_lasting (s : State) : (State.raiseCore s).lasting = s.lasting := by
  simp [State.raiseCore]

@[simp] theorem State.stepDown_lasting (x0 : Nat) (s : State) : (State.stepDown x0 s).lasting = s.lasting := by
  simp [State.stepDown]

@[simp] theorem State.settleCheck_lasting (x0 : Nat) (s : State) : (State.settleCheck x0 s).lasting = s.lasting := by
  unfold State.settleCheck; split <;> simp

@[simp] theorem State.readCurrent_lasting (x0 : Nat) (s : State) : (State.readCurrent x0 s).lasting = s.lasting := by
  simp [State.readCurrent]

@[simp] theorem State.temperature_lasting (x0 : Int) (x1 : Nat) (s : State) : (State.temperature x0 x1 s).lasting = s.lasting := by
  simp [State.temperature]

@[simp] theorem State.overcurrent_lasting (x0 : Nat) (s : State) : (State.overcurrent x0 s).lasting = s.lasting := by
  simp [State.overcurrent]

@[simp] theorem State.rearm_lasting (s : State) : (State.rearm s).lasting = s.lasting := by
  simp [State.rearm]

@[simp] theorem State.holdFor_lasting (x0 : Nat) (x1 : Nat) (x2 : Nat) (x3 : Val) (s : State) : (State.holdFor x0 x1 x2 x3 s).lasting = s.lasting := by
  simp [State.holdFor]

@[simp] theorem State.journalSeek_lasting (x0 : Nat) (s : State) : (State.journalSeek x0 s).lasting = s.lasting := by
  simp [State.journalSeek]

@[simp] theorem State.logSeek_lasting (x0 : Nat) (s : State) : (State.logSeek x0 s).lasting = s.lasting := by
  simp [State.logSeek]

@[simp] theorem State.logRead_lasting (x0 : Nat) (x1 : Nat) (s : State) : (State.logRead x0 x1 s).2.lasting = s.lasting := by
  unfold State.logRead; split <;> simp

@[simp] theorem State.recordsRead_lasting (x0 : Nat) (x1 : Nat) (x2 : List Nat) (s : State) : (State.recordsRead x0 x1 x2 s).2.lasting = s.lasting := by
  unfold State.recordsRead; split <;> simp

@[simp] theorem State.keepImm_lasting (x0 : Nat) (x1 : Nat) (x2 : Val) (s : State) : (State.keepImm x0 x1 x2 s).2.lasting = s.lasting := by
  simp [State.keepImm]

@[simp] theorem State.inService_lasting (act : State → State) (s : State) (h : ∀ s, (act s).lasting = s.lasting) :
    (s.inService act).2.lasting = s.lasting := by
  unfold State.inService; split <;> simp [h]

@[simp] theorem State.formatNow_lasting (s : State) : (State.formatNow s).lasting = s.lasting := by
  simp [State.formatNow]

@[simp] theorem State.writePoint_lasting (x0 : Nat) (x1 : Nat) (x2 : Val) (s : State) : (State.writePoint x0 x1 x2 s).2.lasting = s.lasting := by
  simp [State.writePoint]

@[simp] theorem State.cycleCommand_lasting (x0 : Nat) (x1 : Nat) (s : State) : (State.cycleCommand x0 x1 s).2.lasting = s.lasting := by
  unfold State.cycleCommand; split <;> simp

@[simp] theorem State.cascadeCommand_lasting (x0 : Nat) (x1 : Nat) (s : State) : (State.cascadeCommand x0 x1 s).2.lasting = s.lasting := by
  unfold State.cascadeCommand; split
  · simp [granted]
  · split
    · exact State.commandRelease_lasting _ _ _ ‹_›
    · rfl

@[simp] theorem State.clearFlags_lasting (x0 : Nat) (x1 : Nat) (x2 : Nat) (s : State) : (State.clearFlags x0 x1 x2 s).lasting = s.lasting := by
  simp [State.clearFlags]

@[simp] theorem State.phyAccess_lasting (x0 : Nat) (x1 : Val) (s : State) : (State.phyAccess x0 x1 s).2.lasting = s.lasting := by
  simp [State.phyAccess]

@[simp] theorem State.writeBnd_lasting (x0 : Key) (x1 : Val) (s : State) : (State.writeBnd x0 x1 s).2.lasting = s.lasting := by
  simp [State.writeBnd]

@[simp] theorem State.takeStat_lasting (index sel sub : Nat) (s : State) : (s.takeStat index sel sub).2.lasting = s.lasting := by
  have h : (s.takeStat index sel sub).2.lasting = (if index = 0x4830 then s.sampleCounters sel else s).lasting := rfl
  rw [h]; split
  · exact State.sampleCounters_lasting ..
  · rfl

@[simp] theorem State.fetchVal_lasting (n index sub row : Nat) (g : Group) (o : Obj) (s : State) :
    (s.fetchVal n index sub row g o).2.lasting = s.lasting := by
  unfold State.fetchVal; (repeat' split) <;> simp

@[simp] theorem State.readObj_lasting (x0 : Nat) (x1 : Nat) (x2 : Nat) (x3 : Nat) (x4 : List Nat) (s : State) : (State.readObj x0 x1 x2 x3 x4 s).2.lasting = s.lasting := by
  unfold State.readObj; dsimp only; (repeat' split) <;> simp

@[simp] theorem State.phyRead_lasting (x0 : BitVec 16) (s : State) : (State.phyRead x0 s).2.lasting = s.lasting := by
  simp [State.phyRead]

@[simp] theorem State.takeSdo_lasting (s : State) : (State.takeSdo s).lasting = s.lasting := by
  simp [State.takeSdo]

@[simp] theorem State.sdoSend_lasting (x0 : List Byte) (s : State) : (State.sdoSend x0 s).lasting = s.lasting := by
  simp [State.sdoSend]

@[simp] theorem State.sdoFail_lasting (x0 : Nat) (x1 : Nat) (x2 : Nat) (s : State) : (State.sdoFail x0 x1 x2 s).lasting = s.lasting := by
  simp [State.sdoFail]

@[simp] theorem State.sdoAnswer_lasting (x0 : List Byte) (x1 : Nat) (x2 : Nat) (s : State) : (State.sdoAnswer x0 x1 x2 s).lasting = s.lasting := by
  unfold State.sdoAnswer; split <;> simp

@[simp] theorem State.sdoUpload_lasting (x0 : Nat) (x1 : Nat) (s : State) : (State.sdoUpload x0 x1 s).lasting = s.lasting := by
  have h (s : State) (b : List Byte) : (State.sdoSend b s).lasting = s.lasting := by simp
  unfold State.sdoUpload
  split
  · dsimp only
    split
    · simp
    · split <;> simp
  · rfl

@[simp] theorem State.sdoBegin_lasting (x0 : Nat) (x1 : Nat) (s : State) : (State.sdoBegin x0 x1 s).lasting = s.lasting := by
  simp [State.sdoBegin]

@[simp] theorem State.sdoSegment_lasting (u t : Bool) (act : Transfer → State → State) (s : State) (h : ∀ x s, (act x s).lasting = s.lasting) :
    (s.sdoSegment u t act).lasting = s.lasting := by
  unfold State.sdoSegment; (repeat' split) <;> simp [h]

@[simp] theorem State.giveUpload_lasting (x0 : Transfer) (s : State) : (State.giveUpload x0 s).lasting = s.lasting := by
  simp [State.giveUpload]

@[simp] theorem State.sdoTimeout_lasting (s : State) : (State.sdoTimeout s).lasting = s.lasting := by
  unfold State.sdoTimeout; split <;> simp

@[simp] theorem State.lapSend_lasting (x0 : Nat) (x1 : Nat) (x2 : Nat) (x3 : List Byte) (s : State) : (State.lapSend x0 x1 x2 x3 s).lasting = s.lasting := by
  simp [State.lapSend]

@[simp] theorem State.lapStale_lasting (x0 : Nat) (x1 : Nat) (x2 : Nat) (x3 : List Byte) (x4 : LapReq) (x5 : ClientId) (x6 : Nat) (s : State) : (State.lapStale x0 x1 x2 x3 x4 x5 x6 s).lasting = s.lasting := by
  simp [State.lapStale]

@[simp] theorem State.spiKeep_lasting (x0 : Nat) (x1 : Reply) (s : State) : (State.spiKeep x0 x1 s).lasting = s.lasting := by
  simp [State.spiKeep]

@[simp] theorem State.spiClear_lasting (s : State) : (State.spiClear s).lasting = s.lasting := by
  simp [State.spiClear]

@[simp] theorem State.miso_lasting (b : List Byte) (s : State) : (s.miso b).lasting = s.lasting := rfl

@[simp] theorem State.spiFetch_lasting (x0 : Nat) (s : State) : (State.spiFetch x0 s).lasting = s.lasting := by
  unfold State.spiFetch; simp only [State.lasting_ite]; (repeat' split) <;> simp

@[simp] theorem State.modPtp_lasting (x0 : Nat) (x1 : Ptp → Ptp) (s : State) : (State.modPtp x0 x1 s).lasting = s.lasting := by
  simp [State.modPtp]

@[simp] theorem State.selectMaster_lasting (x0 : Nat) (s : State) : (State.selectMaster x0 s).lasting = s.lasting := by
  simp [State.selectMaster]

@[simp] theorem State.ptpAnnounce_lasting (x0 : Nat) (x1 : RxFrame) (s : State) : (State.ptpAnnounce x0 x1 s).lasting = s.lasting := by
  unfold State.ptpAnnounce; split <;> simp

@[simp] theorem State.announceTimeout_lasting (x0 : Nat) (s : State) : (State.announceTimeout x0 s).lasting = s.lasting := by
  simp [State.announceTimeout]

@[simp] theorem State.sendDelayReq_lasting (x0 : Nat) (x1 : Nat) (s : State) : (State.sendDelayReq x0 x1 s).lasting = s.lasting := by
  simp [State.sendDelayReq]

@[simp] theorem State.ptpSync_lasting (x0 : Nat) (x1 : RxFrame) (s : State) : (State.ptpSync x0 x1 s).lasting = s.lasting := by
  unfold State.ptpSync; split <;> simp

@[simp] theorem State.ptpOffset_lasting (x0 : Nat) (x1 : Rat) (x2 : Option Nat) (s : State) : (State.ptpOffset x0 x1 x2 s).lasting = s.lasting := by
  simp [State.ptpOffset]

@[simp] theorem State.completeExchange_lasting (x0 : Nat) (x1 : Exchange) (s : State) : (State.completeExchange x0 x1 s).lasting = s.lasting := by
  unfold State.completeExchange; dsimp only; (repeat' split) <;> simp

@[simp] theorem State.advanceExchange_lasting (x0 : Nat) (x1 : Exchange → Bool) (x2 : Exchange → Exchange) (s : State) : (State.advanceExchange x0 x1 x2 s).lasting = s.lasting := by
  unfold State.advanceExchange; split <;> simp

@[simp] theorem State.ptpFollowUp_lasting (x0 : Nat) (x1 : RxFrame) (s : State) : (State.ptpFollowUp x0 x1 s).lasting = s.lasting := by
  unfold State.ptpFollowUp; split <;> simp

@[simp] theorem State.ptpDelayResp_lasting (x0 : Nat) (x1 : RxFrame) (s : State) : (State.ptpDelayResp x0 x1 s).lasting = s.lasting := by
  unfold State.ptpDelayResp; dsimp only; (repeat' split) <;> simp

@[simp] theorem State.exchangeTimeout_lasting (x0 : Nat) (s : State) : (State.exchangeTimeout x0 s).lasting = s.lasting := by
  simp [State.exchangeTimeout]

@[simp] theorem State.takeLap_lasting (p : Nat) (ip : BitVec 32) (udp : BitVec 16) (b : List Byte) (s : State) :
    (State.takeLap p ip udp b s).lasting = s.lasting := by
  unfold State.takeLap; (repeat' split) <;> simp

end Sys2Proof.Machine
end

