-- ==== Sys2Proof/Laws/Keeps.lean ====
section
/-! SUPPORT. How a state follows another at one moment (`Keeps`), and that every operation that restarts the device, burns
a fuse, spends the wear ledger or answers an access leads only to such states. -/

namespace Sys2Proof.Machine

open Sys2Proof

/-- How a state may follow another at one moment, whatever happens: -/
structure Keeps (s t : State) : Prop where
  now : t.now = s.now
  pending : t.pending = s.pending
  vendor : t.boot.vendorHash = s.boot.vendorHash
  serial : t.boot.serial = s.boot.serial
  customer : s.boot.customerHash ≠ 0 → t.boot.customerHash = s.boot.customerHash
  floorUp : s.boot.floor ≤ t.boot.floor
  floorCap : s.boot.floor ≤ 64 → t.boot.floor ≤ 64
  burnedUp : s.power.burned ≤ t.power.burned
  ledger : s.ledgerOk → t.ledgerOk
  zero : s.fabricZero ≤ s.fc → t.fabricZero ≤ t.fc
  fc : t.fc ≤ s.fc

theorem Keeps.refl (s : State) : Keeps s s := ⟨rfl, rfl, rfl, rfl, fun _ => rfl, Nat.le_refl _, id, Nat.le_refl _, id, id, Nat.le_refl _⟩

theorem Keeps.trans {s t u : State} (h : Keeps s t) (k : Keeps t u) : Keeps s u where
  now := k.now.trans h.now
  pending := k.pending.trans h.pending
  vendor := k.vendor.trans h.vendor
  serial := k.serial.trans h.serial
  customer := fun z => (k.customer (by rw [h.customer z]; exact z)).trans (h.customer z)
  floorUp := Nat.le_trans h.floorUp k.floorUp
  floorCap := fun z => k.floorCap (h.floorCap z)
  burnedUp := Nat.le_trans h.burnedUp k.burnedUp
  ledger := fun z => k.ledger (h.ledger z)
  zero := fun z => k.zero (h.zero z)
  fc := Nat.le_trans k.fc h.fc

theorem Keeps.of {s t : State} (h : t.lasting = s.lasting) : Keeps s t := by
  simp only [State.lasting, Prod.mk.injEq] at h
  obtain ⟨⟨h1, h2, h3, h4⟩, h5, h6, h7, h8, h9, h10, h11⟩ := h
  constructor <;> simp_all [State.ledgerOk]

theorem Keeps.ite {s t u : State} (c : Prop) [Decidable c] (h : Keeps s t) (k : Keeps s u) : Keeps s (if c then t else u) := by
  split <;> assumption

theorem Keeps.ite2 {α} {s : State} {t u : α × State} (c : Prop) [Decidable c] (h : Keeps s t.2) (k : Keeps s u.2) :
    Keeps s (if c then t else u).2 := by
  split <;> assumption

theorem Keeps.foldl {α} (f : State → α → State) (h : ∀ s a, Keeps s (f s a)) (l : List α) (s : State) :
    Keeps s (l.foldl f s) := by
  induction l generalizing s with
  | nil => exact .refl s
  | cons a l ih => exact (h s a).trans (ih _)

/-- A state that gives up what only a clock or a fuse could give. -/
theorem Keeps.whenUp {d : Nat} {f : State → State} {s : State} (h : ∀ s, Keeps s (f s)) : Keeps s (s.whenUp d f) := by
  unfold State.whenUp; split
  · exact h s
  · exact .refl s

theorem Keeps.access {who : ClientId} {i : Nat} {act : Nat → State → Reply × State} {s : State}
    (h : ∀ n s, Keeps s (act n s).2) : Keeps s (s.access who i act) := by
  unfold State.access; split
  · dsimp only; split
    · exact .of (by simp)
    · have ht := State.takeSlot_lasting _ _ _ _ ‹_›
      split
      · exact .of (by simp [ht])
      · split
        · exact .of (by simp [ht])
        · exact (Keeps.of (t := _) (by rw [ht]; exact State.stat_lasting ..)).trans ((h _ _).trans (.of (State.answer_lasting ..)))
  · exact .refl s

/-! ### Resets and starts -/

theorem State.blank_keeps (ao : Bool) (s : State) : Keeps s (s.blank ao) := by
  have h := State.driveArb_lasting false s
  simp only [State.lasting, Prod.mk.injEq] at h
  obtain ⟨⟨h1, h2, h3, h4⟩, h5, h6, h7, h8, h9, h10, h11⟩ := h
  unfold State.blank
  constructor <;> simp_all [State.ledgerOk] <;> omega


theorem State.fabricExit_keeps (s : State) : Keeps s s.fabricExit := by
  have h : s.fabricExit.lasting = ({ s with fabricZero := s.fc } : State).lasting := by simp [State.fabricExit]
  refine Keeps.trans (t := { s with fabricZero := s.fc }) ?_ (.of h)
  constructor <;> simp [State.ledgerOk]

theorem State.domainRestores_keeps (d : Nat) (s : State) : Keeps s (s.domainRestores d) := by
  unfold State.domainRestores; split
  · exact State.fabricExit_keeps s
  all_goals exact .of (by simp)

theorem State.switchOn_keeps (d : Nat) (s : State) : Keeps s (s.switchOn d) := by
  unfold State.switchOn; split
  · exact .refl s
  · refine Keeps.trans ?_ (.of (State.regain_lasting ..))
    exact (Keeps.of (State.modDom_lasting ..)).trans (State.domainRestores_keeps ..)

theorem State.exitReset_keeps (d : Nat) (s : State) : Keeps s (s.exitReset d) := by
  unfold State.exitReset; split
  · exact .refl s
  · refine Keeps.trans ?_ (.of (State.regain_lasting ..))
    exact (Keeps.of (State.modDom_lasting ..)).trans (State.domainRestores_keeps ..)

theorem State.powerDomains_keeps (s : State) : Keeps s s.powerDomains := by
  refine (Keeps.foldl _ (fun s d => ?_) _ _).trans (Keeps.foldl _ (fun s d => ?_) _ _)
  · split
    · exact .of (by simp)
    · exact .refl s
  · split
    · exact .refl s
    · exact State.switchOn_keeps ..

theorem State.beginBlocks_keeps (s : State) : Keeps s s.beginBlocks := by
  unfold State.beginBlocks
  extract_lets s1 s2 s3 s4 s5 s6 s7
  refine (Keeps.of ?_).trans (State.powerDomains_keeps _)
  have h3 : s3.lasting = s2.lasting := foldl_lasting _ (fun s p => by split <;> simp) _ _
  have h4 : s4.lasting = s3.lasting := (foldl_lasting _ (fun s p => by simp) _ _).trans (State.beginLoading_lasting _)
  have h5 : s5.lasting = s4.lasting := foldl_lasting _ (fun s p => by simp) _ _
  have h6 : s6.lasting = s5.lasting := foldl_lasting _ (fun s p => by simp) _ _
  rw [State.join_lasting]
  simp [s7, h6, h5, h4, h3, s2, s1]

theorem State.noLeft_keeps (s : State) : Keeps s { s with power.left := 0 } :=
  { Keeps.refl s with ledger := fun h => ⟨h.1, h.2.1, Nat.zero_le _⟩ }

theorem State.start_keeps (s : State) : Keeps s s.start := by
  have h1 : Keeps s (if s.boot.cause = 1 then { s with power.left := 0 } else s) := by
    split
    · exact State.noLeft_keeps s
    · exact .refl s
  refine h1.trans ?_
  unfold State.start
  generalize (if s.boot.cause = 1 then { s with power.left := 0 } else s) = u
  dsimp only
  split
  · exact .of (by simp)
  · split
    · exact (Keeps.of (by simp)).trans (State.beginBlocks_keeps _)
    · exact .of (by simp)

theorem State.startWith_keeps (c : Nat) (s : State) : Keeps s (s.startWith c) :=
  (State.blank_keeps (decide (3 ≤ c)) s).trans
    ((Keeps.of (t := { s.blank (decide (3 ≤ c)) with boot.cause := c }) (by simp)).trans (State.start_keeps _))

theorem State.hold_keeps (c : Nat) (s : State) : Keeps s (s.hold c) :=
  (State.blank_keeps false s).trans (.of (by simp [State.hold]))

theorem State.release_keeps (s : State) : Keeps s s.release := by
  unfold State.release; split
  · exact .refl s
  · exact State.start_keeps s

theorem State.powerOn_keeps (s : State) : Keeps s s.powerOn :=
  (State.hold_keeps 1 s).trans ((State.noLeft_keeps _).trans (.of (by simp [State.powerOn])))

theorem State.resetRelease_keeps (u p t : Bool) (a b : ImageFacts) (tr : Bool) (s : State) :
    Keeps s (s.resetRelease u p t a b tr) := by
  unfold State.resetRelease; split
  · exact .refl s
  · exact (Keeps.of (by simp)).trans (State.release_keeps _)

theorem State.brownOut_keeps (r : Rail) (s : State) : Keeps s (s.brownOut r) := by
  unfold State.brownOut; dsimp only; split
  · exact (State.hold_keeps 1 s).trans ((State.noLeft_keeps _).trans (.of (by simp [*])))
  · exact (State.hold_keeps 2 s).trans (.of (by simp [*]))

theorem State.internalRelease_keeps (s : State) : Keeps s s.internalRelease := by
  unfold State.internalRelease; split
  · exact .refl s
  · exact (Keeps.of (t := { s with boot.internal := true }) (by simp)).trans (State.release_keeps _)

theorem State.bootWatchdog_keeps (s : State) : Keeps s s.bootWatchdog := by
  unfold State.bootWatchdog; split
  · exact .refl s
  · exact State.startWith_keeps ..

theorem State.resetDomain_keeps (d : Nat) (s : State) : Keeps s (s.resetDomain d) := by
  unfold State.resetDomain; split
  · split
    · exact State.hold_keeps ..
    · exact .refl s
  · split
    · exact .refl s
    · dsimp only; split
      · exact (Keeps.of (State.enterReset_lasting d s)).trans (State.startWith_keeps ..)
      · exact .of (State.enterReset_lasting d s)

theorem State.leaveReset_keeps (d : Nat) (s : State) : Keeps s (s.leaveReset d) := by
  unfold State.leaveReset; split
  · split
    · exact State.release_keeps s
    · exact .refl s
  · split
    · exact .refl s
    · exact State.exitReset_keeps ..

theorem State.resetSup_keeps (s : State) : Keeps s s.resetSup := by
  unfold State.resetSup; split
  · exact .refl s
  · exact (Keeps.of (t := { s with health.supReset := true }) (by simp)).trans (State.resetDomain_keeps ..)

theorem State.stall_keeps (q : Nat) (s : State) : Keeps s (s.stall q) := by
  unfold State.stall; split
  · split
    · exact .refl s
    · dsimp only; split
      · exact (Keeps.of (by simp)).trans (State.resetSup_keeps _)
      · exact (Keeps.of (by simp)).trans (State.resetDomain_keeps ..)
  · exact .refl s

/-! ### Images and fuses -/

theorem State.restart_keeps (r : Bool) (s : State) : Keeps s (s.restart r).2 := by
  unfold State.restart; split
  · exact .refl s
  · exact (Keeps.of (by simp)).trans (State.startWith_keeps ..)

theorem State.activationStart_keeps (s : State) : Keeps s s.activationStart := by
  unfold State.activationStart; split
  · split
    · exact .refl s
    · exact State.startWith_keeps ..
  · exact .refl s

theorem State.imagePrevious_keeps (s : State) : Keeps s s.imagePrevious.2 := by
  unfold State.imagePrevious
  dsimp only
  generalize (if s.boot.running = 0 then 1 else 0) = t
  refine Keeps.ite2 _ ?_ (.refl s)
  simp only [granted]
  exact Keeps.trans (.of (by simp)) (State.startWith_keeps 3 _)

theorem State.raiseFloor_keeps (s : State) : Keeps s s.raiseFloor.2 := by
  unfold State.raiseFloor; split
  · split
    · exact { Keeps.refl s with
        floorUp := Nat.le_max_left ..
        floorCap := fun h => Nat.max_le.2 ⟨h, Nat.min_le_right ..⟩ }
    · exact .refl s
  · exact .refl s

theorem State.imageCommand_keeps (n v : Nat) (s : State) : Keeps s (s.imageCommand n v).2 := by
  unfold State.imageCommand; split
  · exact .of (by simp)
  · exact .of (by simp)
  · exact .of (by simp)
  · exact .of (by simp)
  · exact State.imagePrevious_keeps s
  · exact State.raiseFloor_keeps s
  · exact .refl s

theorem State.burnHash_keeps (v : Nat) (s : State) : Keeps s (s.burnHash v).2 := by
  unfold State.burnHash; dsimp only; split
  · exact .refl s
  · split
    · simp only [granted]
      constructor <;> simp_all [State.ledgerOk]
    · exact .refl s

/-! ### Power -/

theorem State.onDomains_keeps (s : State) : Keeps s s.onDomains := by
  have h : Keeps s ([1, 2, 7, 13, 3, 4, 6, 5, 14, 8, 9, 10, 11, 12].foldl (fun s d => if s.unused d then s else s.switchOn d) s) :=
    Keeps.foldl _ (fun s d => Keeps.ite _ (.refl s) (State.switchOn_keeps ..)) _ s
  exact h.trans (.of (by simp [State.onDomains]))

theorem State.wake_keeps (a b : Nat) (s : State) : Keeps s (s.wake a b) := by
  unfold State.wake; dsimp only; split
  · exact .refl s
  · split
    · exact .of (by simp)
    · exact (Keeps.of (by simp)).trans (State.onDomains_keeps _)

theorem State.wakeInput_keeps (n : Nat) (l : Bool) (s : State) : Keeps s (s.wakeInput n l) := by
  unfold State.wakeInput; split
  · exact State.wake_keeps ..
  · exact .refl s

theorem State.wakeTimer_keeps (s : State) : Keeps s s.wakeTimer := by
  unfold State.wakeTimer; dsimp only; split
  · exact State.wake_keeps ..
  · exact .refl s

theorem State.serialWake_keeps (p : Nat) (s : State) : Keeps s (s.serialWake p) := by
  unfold State.serialWake; split
  · exact (State.wake_keeps 2 p s).trans (.of (by simp))
  · exact .refl s

theorem State.frameWhileLow_keeps (p : Nat) (b : List Byte) (s : State) : Keeps s (s.frameWhileLow p b) := by
  unfold State.frameWhileLow; dsimp only; split
  · split
    · exact (Keeps.of (State.countPatterns_lasting ..)).trans (State.wake_keeps ..)
    · exact .of (State.countPatterns_lasting ..)
  · exact .refl s

theorem State.beginSurge_keeps (s : State) : Keeps s s.beginSurge := by
  unfold State.beginSurge; split
  · exact .refl s
  · split
    · have h : s.surgeAllowed = true := by simp_all
      simp only [State.surgeAllowed, State.ledgerHolds, Bool.and_eq_true, Bool.or_eq_true, decide_eq_true_eq] at h
      exact { Keeps.refl s with ledger := fun z => ⟨z.1, fun _ => h.1.2.resolve_left (fun k => k ‹_›), z.2.2⟩ }
    · exact .of (by simp)

theorem State.hourBurned_keeps (s : State) : Keeps s s.hourBurned := by
  unfold State.hourBurned; split
  · exact .refl s
  · have h : Keeps s { s with power.burning := false, power.burned := s.power.burned + 1, power.left := 3600 } := by
      constructor <;> simp_all [State.ledgerOk] <;> omega
    dsimp only; split
    · exact h.trans (.of (State.raiseCore_lasting _))
    · exact h

theorem State.loadEvaluation_keeps (b : Nat) (s : State) : Keeps s (s.loadEvaluation b) := by
  unfold State.loadEvaluation; dsimp only
  (repeat' split) <;> first
    | exact .refl s
    | exact State.beginSurge_keeps s
    | exact .of (by simp)

theorem State.surgeSecond_keeps (s : State) : Keeps s s.surgeSecond := by
  unfold State.surgeSecond; split
  · exact .refl s
  · have h : Keeps s { s with power.secondAt := s.power.secondAt + cyclesPerSec, power.surgeTime := s.power.surgeTime + 1, power.left := s.power.left - 1 } := by
      exact { Keeps.refl s with ledger := fun z => ⟨z.1, z.2.1, Nat.le_trans (Nat.sub_le ..) z.2.2⟩ }
    dsimp only; split
    · exact h
    · split
      · refine h.trans ?_
        constructor <;> simp_all [State.ledgerOk]
      · exact h.trans (.of (by simp))

theorem State.thermalShutdown_keeps (t : Int) (s : State) : Keeps s (s.thermalShutdown t) := by
  unfold State.thermalShutdown; split
  · exact .refl s
  · exact (Keeps.of (State.recordAo_lasting 0xD003 0 (satU32 (t / 10)) s)).trans ((State.blank_keeps true _).trans (.of (by simp)))

theorem State.shutdownRelease_keeps (t : Int) (s : State) : Keeps s (s.shutdownRelease t) := by
  unfold State.shutdownRelease; split
  · split
    · exact .refl s
    · exact (Keeps.of (t := { s with power.shutdownAt := none }) (by simp)).trans (State.startWith_keeps ..)
  · exact .refl s

/-! ### The set point and the access paths -/

theorem State.putInForce_keeps (c : Cfg) (d : Dispatch) (s : State) : Keeps s (s.putInForce c d) := by
  unfold State.putInForce
  extract_lets sp old before mode g0 g1 leap cyc s1 s2 s3 s4 s5 s6 s7 s8
  refine Keeps.trans ?_ (.of (State.regain_lasting ..))
  refine Keeps.trans (.of ?_) (State.powerDomains_keeps _)
  have h8 : s8.lasting = s7.lasting := foldl_lasting _ (fun s p => by simp) _ _
  have h6 : s6.lasting = s5.lasting := foldl_lasting _ (fun s p => by simp) _ _
  have h5 : s5.lasting = s4.lasting := (foldl_lasting _ (fun s p => by simp) _ _).trans (by simp)
  simp [h8, s7, h6, h5, s4, s3, s2, s1]

theorem State.setPoint_keeps (d : Dispatch) (s : State) : Keeps s (s.setPoint d) := by
  unfold State.setPoint; split
  · exact .refl s
  · dsimp only
    refine Keeps.trans ?_ (.of (State.modCopy_lasting ..))
    refine Keeps.trans ?_ (.of (State.journalMarker_lasting ..))
    refine Keeps.trans ?_ (.of (State.journalEnable_lasting _))
    exact Keeps.trans (.of (by simp)) (State.putInForce_keeps ..)

theorem State.domainCommand_keeps (d : Nat) (s : State) : Keeps s (s.domainCommand d).2 := by
  unfold State.domainCommand; split
  · exact State.resetDomain_keeps ..
  · exact .refl s

theorem State.command_keeps (n index sub row : Nat) (v : Val) (s : State) : Keeps s (s.command n index sub row v).2 := by
  unfold State.command; dsimp only
  (repeat' with_reducible apply Keeps.ite2) <;> first
    | exact State.domainCommand_keeps ..
    | exact State.restart_keeps ..
    | exact State.imageCommand_keeps ..
    | exact State.burnHash_keeps ..
    | exact .of (by simp [granted])

theorem State.writeObj_keeps (n index sub : Nat) (b : List Byte) (s : State) : Keeps s (s.writeObj n index sub b).2 := by
  unfold State.writeObj; dsimp only
  (repeat' split) <;> first
    | exact State.command_keeps ..
    | exact .of (by simp [granted])

theorem State.writeBy_keeps (who : ClientId) (index sub : Nat) (b : List Byte) (n : Nat) (s : State) :
    Keeps s (s.writeBy who index sub b n).2 := by
  unfold State.writeBy; split
  · exact .refl s
  · exact State.writeObj_keeps ..

theorem State.sdoWrite_keeps (index sub : Nat) (b ok : List Byte) (s : State) : Keeps s (s.sdoWrite index sub b ok) := by
  have h : Keeps s (s.access .sdo index (State.writeBy .sdo index sub b)) := Keeps.access (fun n s => State.writeBy_keeps ..)
  unfold State.sdoWrite; dsimp only; split
  · exact h.trans (.of (State.sdoAnswer_lasting ..))
  · exact h

theorem State.takeDownload_keeps (last : Bool) (b : List Byte) (t : Transfer) (s : State) : Keeps s (s.takeDownload last b t) := by
  unfold State.takeDownload; dsimp only; split
  · exact .of (by simp)
  · split
    · exact (Keeps.of (t := { s with dict.transfer := none }) (by simp)).trans (State.sdoWrite_keeps ..)
    · exact .of (by simp)

theorem State.sdoExpedited_keeps (index sub : Nat) (z : Bool) (b : List Byte) (s : State) :
    Keeps s (s.sdoExpedited index sub z b) := by
  unfold State.sdoExpedited; split
  · exact (Keeps.of (t := { s with dict.transfer := none }) (by simp)).trans (State.sdoWrite_keeps ..)
  · exact .refl s

theorem Keeps.sdoSegment {u t : Bool} {act : Transfer → State → State} {s : State} (h : ∀ x s, Keeps s (act x s)) :
    Keeps s (s.sdoSegment u t act) := by
  unfold State.sdoSegment
  (repeat' split) <;> first
    | exact h _ _
    | exact .of (by simp)

theorem State.spiRequest_keeps (b : List Byte) (s : State) : Keeps s (s.spiRequest b) := by
  unfold State.spiRequest; split
  · exact .refl s
  · extract_lets s0 s1 seq index sub t
    have h0 : Keeps s s0 := .of (by simp [s0])
    refine h0.trans ?_
    split
    · split
      · exact .of (by simp)
      · have h1 : Keeps s0 s1 := .of (by simp [s1])
        split
        · exact h1.trans (.of (by simp))
        · have h : Keeps s1 t := by
            unfold t; split
            · exact Keeps.access (fun n s => .of (State.readObj_lasting ..))
            · exact Keeps.access (fun n s => State.writeBy_keeps ..)
          split
          · exact (h1.trans h).trans (.of (by simp))
          · exact h1.trans h
    · exact .refl s0

theorem State.lapDo_keeps (r : LapReq) (who : ClientId) (s : State) : Keeps s (s.lapDo r who).2.2 := by
  unfold State.lapDo; split
  · dsimp only; split <;> exact .of (by simp)
  · dsimp only; split
    · exact Keeps.access (fun n s => .of (State.readObj_lasting ..))
    · refine Keeps.access (fun n s => ?_)
      split
      · exact .refl s
      · exact State.writeBy_keeps ..

theorem State.lapAccept_keeps (p ip udp : Nat) (b : List Byte) (r : LapReq) (who : ClientId) (s : State) :
    Keeps s (s.lapAccept p ip udp b r who) := by
  unfold State.lapAccept
  extract_lets k d x s1
  have h1 : Keeps s s1 := .of rfl
  have h := h1.trans (State.lapDo_keeps r who s1)
  split
  rename_i reply slot t heq
  rw [heq] at h
  split
  · exact h.trans (.of (by simp))
  · exact h

theorem State.lapRequest_keeps (p ip udp : Nat) (b : List Byte) (r : LapReq) (who : ClientId) (s : State) :
    Keeps s (s.lapRequest p ip udp b r who) := by
  unfold State.lapRequest; dsimp only
  (repeat' split) <;> first
    | exact State.lapAccept_keeps ..
    | exact .of (by simp)

theorem State.lap_keeps (p : Fin 2) (ip : BitVec 32) (udp : BitVec 16) (b : List Byte) (s : State) :
    Keeps s (s.lap p ip udp b) := by
  unfold State.lap; split
  · dsimp only; split
    · exact .of (by simp)
    · exact (Keeps.of (by simp)).trans (State.lapRequest_keeps ..)
  · exact .refl s

end Sys2Proof.Machine
end

