-- ==== Sys2Proof/Laws/Tables.lean ====
section
/-! SUPPORT. Tables and configurations: what a read finds after a write, and that every operation keeps the canonical form,
keys strictly rising. The body of an image slot is such a table of offsets and bytes. -/

namespace Sys2Proof

/-! ### Tables -/

theorem Tbl.get_put {α : Type} (d : α) (j k : Nat) (v : α) (t : Tbl α) :
    Tbl.get d j (Tbl.put k v t) = if j = k then v else Tbl.get d j t := by
  induction t with
  | nil => simp only [Tbl.put, Tbl.get]; split <;> split <;> simp_all <;> omega
  | cons e t ih =>
    obtain ⟨i, w⟩ := e
    simp only [Tbl.put]
    split
    · simp only [Tbl.get]; repeat' split
      all_goals first | rfl | omega
    · split
      · simp only [Tbl.get]; repeat' split
        all_goals first | rfl | omega
      · simp only [Tbl.get, ih]; repeat' split
        all_goals first | rfl | omega

theorem Tbl.get_mod {α : Type} (d : α) (j k : Nat) (f : α → α) (t : Tbl α) :
    Tbl.get d j (Tbl.mod d k f t) = if j = k then f (Tbl.get d k t) else Tbl.get d j t := Tbl.get_put ..

/-- Every key of a table is above a bound. -/
def Tbl.above {α : Type} (b : Nat) (t : Tbl α) : Prop := ∀ e ∈ t, b < e.1

theorem Tbl.wf_cons {α : Type} (e : Nat × α) (t : Tbl α) : Tbl.wf (e :: t) = true ↔ Tbl.above e.1 t ∧ Tbl.wf t = true := by
  induction t generalizing e with
  | nil => simp [Tbl.wf, Tbl.above]
  | cons x t ih =>
    obtain ⟨i, w⟩ := x
    obtain ⟨j, v⟩ := e
    simp only [Tbl.wf, Bool.and_eq_true, decide_eq_true_eq, ih, Tbl.above, List.mem_cons]
    constructor
    · rintro ⟨h, g, k⟩
      exact ⟨fun e m => m.elim (fun q => q ▸ h) (fun q => Nat.lt_trans h (g e q)), g, k⟩
    · rintro ⟨h, g, k⟩
      exact ⟨h _ (.inl rfl), g, k⟩

theorem Tbl.mem_put {α : Type} (k : Nat) (v : α) (t : Tbl α) (e : Nat × α) (h : e ∈ Tbl.put k v t) : e = (k, v) ∨ e ∈ t := by
  induction t with
  | nil => simpa [Tbl.put] using h
  | cons x t ih =>
    simp only [Tbl.put] at h
    split at h
    · simp only [List.mem_cons] at h ⊢; exact h.elim .inl (fun q => .inr (.inr q))
    · split at h
      · simpa using h
      · simp only [List.mem_cons] at h ⊢
        exact h.elim (fun q => .inr (.inl q)) (fun q => (ih q).elim .inl (fun q => .inr (.inr q)))

theorem Tbl.wf_put {α : Type} (k : Nat) (v : α) (t : Tbl α) (h : Tbl.wf t = true) : Tbl.wf (Tbl.put k v t) = true := by
  induction t with
  | nil => rfl
  | cons x t ih =>
    obtain ⟨j, w⟩ := x
    have hc := (Tbl.wf_cons ..).mp h
    simp only [Tbl.put]
    split
    · next e => subst e; exact (Tbl.wf_cons ..).mpr hc
    · split
      · next g =>
        refine (Tbl.wf_cons ..).mpr ⟨fun e m => ?_, h⟩
        rcases List.mem_cons.mp m with rfl | m
        · exact g
        · exact Nat.lt_trans g (hc.1 e m)
      · refine (Tbl.wf_cons ..).mpr ⟨fun e m => ?_, ih hc.2⟩
        rcases Tbl.mem_put k v t e m with rfl | m
        · show j < k; omega
        · exact hc.1 e m

theorem Tbl.wf_mod {α : Type} (d : α) (k : Nat) (f : α → α) (t : Tbl α) (h : Tbl.wf t = true) : Tbl.wf (Tbl.mod d k f t) = true :=
  Tbl.wf_put _ _ _ h

theorem Tbl.mem_del {α : Type} (k : Nat) (t : Tbl α) (e : Nat × α) (h : e ∈ Tbl.del k t) : e ∈ t := by
  induction t with
  | nil => exact h
  | cons x t ih =>
    simp only [Tbl.del] at h
    split at h
    · exact List.mem_cons_of_mem _ h
    · split at h
      · exact h
      · rcases List.mem_cons.mp h with rfl | h
        · exact List.mem_cons_self ..
        · exact List.mem_cons_of_mem _ (ih h)

theorem Tbl.wf_del {α : Type} (k : Nat) (t : Tbl α) (h : Tbl.wf t = true) : Tbl.wf (Tbl.del k t) = true := by
  induction t with
  | nil => rfl
  | cons x t ih =>
    have hc := (Tbl.wf_cons ..).mp h
    simp only [Tbl.del]
    split
    · exact hc.2
    · split
      · exact h
      · exact (Tbl.wf_cons ..).mpr ⟨fun e m => hc.1 e (Tbl.mem_del k t e m), ih hc.2⟩

/-- Storing bytes one after another keeps the form. -/
theorem Tbl.wf_puts {α β : Type} (key : β → Nat) (val : β → α) (l : List β) (t : Tbl α) (h : Tbl.wf t = true) :
    Tbl.wf (l.foldl (fun t e => Tbl.put (key e) (val e) t) t) = true := by
  induction l generalizing t with
  | nil => exact h
  | cons a l ih => exact ih _ (Tbl.wf_put _ _ _ h)

/-! ### Configurations -/

namespace Machine

theorem Key.lt_iff (a b : Key) : a.lt b = true ↔
    a.index < b.index ∨ (a.index = b.index ∧ (a.sub < b.sub ∨ (a.sub = b.sub ∧ a.row < b.row))) := by
  simp [Key.lt]

theorem Key.lt_trans (a b c : Key) (h : a.lt b = true) (g : b.lt c = true) : a.lt c = true := by
  rw [Key.lt_iff] at *; omega

theorem Key.lt_of_not (a b : Key) (h : a ≠ b) (g : ¬ b.lt a = true) : a.lt b = true := by
  rw [Key.lt_iff] at *
  cases a; cases b
  simp only [ne_eq, Key.mk.injEq] at *
  omega

theorem Cfg.wf_cons (e : Key × Val) (c : Cfg) : Cfg.wf (e :: c) = true ↔ (∀ x ∈ c, e.1.lt x.1 = true) ∧ Cfg.wf c = true := by
  induction c generalizing e with
  | nil => simp [Cfg.wf]
  | cons x t ih =>
    obtain ⟨i, w⟩ := x
    obtain ⟨j, v⟩ := e
    simp only [Cfg.wf, Bool.and_eq_true, ih, List.mem_cons]
    constructor
    · rintro ⟨h, g, k⟩
      exact ⟨fun e m => m.elim (fun q => q ▸ h) (fun q => Key.lt_trans _ _ _ h (g e q)), g, k⟩
    · rintro ⟨h, g, k⟩
      exact ⟨h _ (.inl rfl), g, k⟩

theorem Cfg.mem_put (k : Key) (v : Val) (c : Cfg) (e : Key × Val) (h : e ∈ Cfg.put k v c) : e = (k, v) ∨ e ∈ c := by
  induction c with
  | nil => simpa [Cfg.put] using h
  | cons x t ih =>
    simp only [Cfg.put] at h
    split at h
    · simp only [List.mem_cons] at h ⊢; exact h.elim .inl (fun q => .inr (.inr q))
    · split at h
      · simpa using h
      · simp only [List.mem_cons] at h ⊢
        exact h.elim (fun q => .inr (.inl q)) (fun q => (ih q).elim .inl (fun q => .inr (.inr q)))

theorem Cfg.wf_put (k : Key) (v : Val) (c : Cfg) (h : Cfg.wf c = true) : Cfg.wf (Cfg.put k v c) = true := by
  induction c with
  | nil => rfl
  | cons x t ih =>
    obtain ⟨j, w⟩ := x
    have hc := (Cfg.wf_cons ..).mp h
    simp only [Cfg.put]
    split
    · next e => subst e; exact (Cfg.wf_cons ..).mpr hc
    · next ne =>
      split
      · next g =>
        refine (Cfg.wf_cons ..).mpr ⟨fun e m => ?_, h⟩
        rcases List.mem_cons.mp m with rfl | m
        · exact g
        · exact Key.lt_trans _ _ _ g (hc.1 e m)
      · next g =>
        refine (Cfg.wf_cons ..).mpr ⟨fun e m => ?_, ih hc.2⟩
        rcases Cfg.mem_put k v t e m with rfl | m
        · exact Key.lt_of_not _ _ ne g
        · exact hc.1 e m

theorem Cfg.mem_del (k : Key) (c : Cfg) (e : Key × Val) (h : e ∈ Cfg.del k c) : e ∈ c := by
  induction c with
  | nil => exact h
  | cons x t ih =>
    simp only [Cfg.del] at h
    split at h
    · exact List.mem_cons_of_mem _ h
    · split at h
      · exact h
      · rcases List.mem_cons.mp h with rfl | h
        · exact List.mem_cons_self ..
        · exact List.mem_cons_of_mem _ (ih h)

theorem Cfg.wf_del (k : Key) (c : Cfg) (h : Cfg.wf c = true) : Cfg.wf (Cfg.del k c) = true := by
  induction c with
  | nil => rfl
  | cons x t ih =>
    have hc := (Cfg.wf_cons ..).mp h
    simp only [Cfg.del]
    split
    · exact hc.2
    · split
      · exact h
      · exact (Cfg.wf_cons ..).mpr ⟨fun e m => hc.1 e (Cfg.mem_del k t e m), ih hc.2⟩

/-- Setting a value keeps the canonical form of a configuration. -/
theorem Cfg.wf_set (u : UnitId) (k : Key) (v : Val) (c : Cfg) (h : Cfg.wf c = true) : Cfg.wf (Cfg.set u k v c) = true := by
  unfold Cfg.set; split
  · exact Cfg.wf_del _ _ h
  · exact Cfg.wf_put _ _ _ h

theorem Cfg.find_put (j k : Key) (v : Val) (c : Cfg) : Cfg.find j (Cfg.put k v c) = if j = k then some v else Cfg.find j c := by
  have irr : ∀ a : Key, a.lt a = false := fun a => by
    cases h : a.lt a
    · rfl
    · rw [Key.lt_iff] at h; omega
  have asym : ∀ a b : Key, a.lt b = true → b.lt a = true → False := fun a b h g => by
    rw [Key.lt_iff] at h g; omega
  induction c with
  | nil =>
    by_cases e : k = j
    · subst e; simp [Cfg.put, Cfg.find]
    · have e' : ¬ j = k := fun q => e q.symm
      simp [Cfg.put, Cfg.find, e, e']
  | cons x t ih =>
    obtain ⟨i, w⟩ := x
    by_cases e : j = k
    · subst e
      simp only [Cfg.put]
      split
      · simp [Cfg.find]
      · next ne =>
        split
        · simp [Cfg.find]
        · next g => simp [Cfg.find, ne, g, ih]
    · have e' : ¬ k = j := fun q => e q.symm
      simp only [Cfg.put]
      split
      · next q => subst q; simp [Cfg.find, e']
      · next ne =>
        split
        · next g =>
          simp only [Cfg.find, e', if_false]
          by_cases q : j.lt k = true
          · have qi : j.lt i = true := Key.lt_trans _ _ _ q g
            have ne2 : ¬ i = j := fun r => by rw [r, irr] at qi; cases qi
            simp [q, qi, ne2]
          · simp [q]
        · simp [Cfg.find, e, ih]

end Machine

end Sys2Proof
end

