-- ==== Sys2Proof/Laws/State.lean ====
section
/-! SUPPORT. What each small update of the state leaves as it is, a lemma for every field, and what it makes of the one it
changes: the lemmas by which no proof unfolds a record update. -/

namespace Sys2Proof.Machine

open Sys2Proof

/-! ### modSp -/

@[simp] theorem State.modSp_now (k : Nat) (f : SPort → SPort) (s : State) : (State.modSp k f s).now = s.now := (rfl)
@[simp] theorem State.modSp_fc (k : Nat) (f : SPort → SPort) (s : State) : (State.modSp k f s).fc = s.fc := (rfl)
@[simp] theorem State.modSp_fabricZero (k : Nat) (f : SPort → SPort) (s : State) : (State.modSp k f s).fabricZero = s.fabricZero := (rfl)
@[simp] theorem State.modSp_free (k : Nat) (f : SPort → SPort) (s : State) : (State.modSp k f s).free = s.free := (rfl)
@[simp] theorem State.modSp_cfg (k : Nat) (f : SPort → SPort) (s : State) : (State.modSp k f s).cfg = s.cfg := (rfl)
@[simp] theorem State.modSp_stats (k : Nat) (f : SPort → SPort) (s : State) : (State.modSp k f s).stats = s.stats := (rfl)
@[simp] theorem State.modSp_wheels (k : Nat) (f : SPort → SPort) (s : State) : (State.modSp k f s).wheels = s.wheels := (rfl)
@[simp] theorem State.modSp_appts (k : Nat) (f : SPort → SPort) (s : State) : (State.modSp k f s).appts = s.appts := (rfl)
@[simp] theorem State.modSp_carding (k : Nat) (f : SPort → SPort) (s : State) : (State.modSp k f s).carding = s.carding := (rfl)
@[simp] theorem State.modSp_bramble (k : Nat) (f : SPort → SPort) (s : State) : (State.modSp k f s).bramble = s.bramble := (rfl)
@[simp] theorem State.modSp_control (k : Nat) (f : SPort → SPort) (s : State) : (State.modSp k f s).control = s.control := (rfl)
@[simp] theorem State.modSp_analog (k : Nat) (f : SPort → SPort) (s : State) : (State.modSp k f s).analog = s.analog := (rfl)
@[simp] theorem State.modSp_eth (k : Nat) (f : SPort → SPort) (s : State) : (State.modSp k f s).eth = s.eth := (rfl)
@[simp] theorem State.modSp_can (k : Nat) (f : SPort → SPort) (s : State) : (State.modSp k f s).can = s.can := (rfl)
@[simp] theorem State.modSp_canOpen (k : Nat) (f : SPort → SPort) (s : State) : (State.modSp k f s).canOpen = s.canOpen := (rfl)
@[simp] theorem State.modSp_fabric (k : Nat) (f : SPort → SPort) (s : State) : (State.modSp k f s).fabric = s.fabric := (rfl)
@[simp] theorem State.modSp_journal (k : Nat) (f : SPort → SPort) (s : State) : (State.modSp k f s).journal = s.journal := (rfl)
@[simp] theorem State.modSp_dict (k : Nat) (f : SPort → SPort) (s : State) : (State.modSp k f s).dict = s.dict := (rfl)
@[simp] theorem State.modSp_cycle (k : Nat) (f : SPort → SPort) (s : State) : (State.modSp k f s).cycle = s.cycle := (rfl)
@[simp] theorem State.modSp_health (k : Nat) (f : SPort → SPort) (s : State) : (State.modSp k f s).health = s.health := (rfl)
@[simp] theorem State.modSp_twin (k : Nat) (f : SPort → SPort) (s : State) : (State.modSp k f s).twin = s.twin := (rfl)
@[simp] theorem State.modSp_boot (k : Nat) (f : SPort → SPort) (s : State) : (State.modSp k f s).boot = s.boot := (rfl)
@[simp] theorem State.modSp_power (k : Nat) (f : SPort → SPort) (s : State) : (State.modSp k f s).power = s.power := (rfl)
@[simp] theorem State.modSp_pending (k : Nat) (f : SPort → SPort) (s : State) : (State.modSp k f s).pending = s.pending := (rfl)
@[simp] theorem State.modSp_ci (k : Nat) (f : SPort → SPort) (x y z : Nat) (s : State) : (State.modSp k f s).ci x y z = s.ci x y z := (rfl)
@[simp] theorem State.modSp_cn (k : Nat) (f : SPort → SPort) (x y z : Nat) (s : State) : (State.modSp k f s).cn x y z = s.cn x y z := (rfl)
@[simp] theorem State.modSp_ct (k : Nat) (f : SPort → SPort) (x y z : Nat) (s : State) : (State.modSp k f s).ct x y z = s.ct x y z := (rfl)
@[simp] theorem State.modSp_cr (k : Nat) (f : SPort → SPort) (x y z : Nat) (s : State) : (State.modSp k f s).cr x y z = s.cr x y z := (rfl)
@[simp] theorem State.modSp_up (k : Nat) (f : SPort → SPort) (d : Nat) (s : State) : (State.modSp k f s).up d = s.up d := (rfl)
@[simp] theorem State.modSp_works (k : Nat) (f : SPort → SPort) (d : Nat) (s : State) : State.works d (State.modSp k f s) = State.works d s := (rfl)
@[simp] theorem State.modSp_time (k : Nat) (f : SPort → SPort) (s : State) : (State.modSp k f s).time = s.time := (rfl)
@[simp] theorem State.sp_modSp (k : Nat) (f : SPort → SPort) (q : Nat) (s : State) : (State.modSp k f s).sp q = if q = k then f (s.sp k) else s.sp q :=
  Tbl.get_mod ..

/-! ### modPair -/

@[simp] theorem State.modPair_now (k : Nat) (f : Pair → Pair) (s : State) : (State.modPair k f s).now = s.now := (rfl)
@[simp] theorem State.modPair_fc (k : Nat) (f : Pair → Pair) (s : State) : (State.modPair k f s).fc = s.fc := (rfl)
@[simp] theorem State.modPair_fabricZero (k : Nat) (f : Pair → Pair) (s : State) : (State.modPair k f s).fabricZero = s.fabricZero := (rfl)
@[simp] theorem State.modPair_free (k : Nat) (f : Pair → Pair) (s : State) : (State.modPair k f s).free = s.free := (rfl)
@[simp] theorem State.modPair_cfg (k : Nat) (f : Pair → Pair) (s : State) : (State.modPair k f s).cfg = s.cfg := (rfl)
@[simp] theorem State.modPair_stats (k : Nat) (f : Pair → Pair) (s : State) : (State.modPair k f s).stats = s.stats := (rfl)
@[simp] theorem State.modPair_wheels (k : Nat) (f : Pair → Pair) (s : State) : (State.modPair k f s).wheels = s.wheels := (rfl)
@[simp] theorem State.modPair_appts (k : Nat) (f : Pair → Pair) (s : State) : (State.modPair k f s).appts = s.appts := (rfl)
@[simp] theorem State.modPair_carding (k : Nat) (f : Pair → Pair) (s : State) : (State.modPair k f s).carding = s.carding := (rfl)
@[simp] theorem State.modPair_bramble (k : Nat) (f : Pair → Pair) (s : State) : (State.modPair k f s).bramble = s.bramble := (rfl)
@[simp] theorem State.modPair_control (k : Nat) (f : Pair → Pair) (s : State) : (State.modPair k f s).control = s.control := (rfl)
@[simp] theorem State.modPair_serial (k : Nat) (f : Pair → Pair) (s : State) : (State.modPair k f s).serial = s.serial := (rfl)
@[simp] theorem State.modPair_eth (k : Nat) (f : Pair → Pair) (s : State) : (State.modPair k f s).eth = s.eth := (rfl)
@[simp] theorem State.modPair_can (k : Nat) (f : Pair → Pair) (s : State) : (State.modPair k f s).can = s.can := (rfl)
@[simp] theorem State.modPair_canOpen (k : Nat) (f : Pair → Pair) (s : State) : (State.modPair k f s).canOpen = s.canOpen := (rfl)
@[simp] theorem State.modPair_fabric (k : Nat) (f : Pair → Pair) (s : State) : (State.modPair k f s).fabric = s.fabric := (rfl)
@[simp] theorem State.modPair_journal (k : Nat) (f : Pair → Pair) (s : State) : (State.modPair k f s).journal = s.journal := (rfl)
@[simp] theorem State.modPair_dict (k : Nat) (f : Pair → Pair) (s : State) : (State.modPair k f s).dict = s.dict := (rfl)
@[simp] theorem State.modPair_cycle (k : Nat) (f : Pair → Pair) (s : State) : (State.modPair k f s).cycle = s.cycle := (rfl)
@[simp] theorem State.modPair_health (k : Nat) (f : Pair → Pair) (s : State) : (State.modPair k f s).health = s.health := (rfl)
@[simp] theorem State.modPair_twin (k : Nat) (f : Pair → Pair) (s : State) : (State.modPair k f s).twin = s.twin := (rfl)
@[simp] theorem State.modPair_boot (k : Nat) (f : Pair → Pair) (s : State) : (State.modPair k f s).boot = s.boot := (rfl)
@[simp] theorem State.modPair_power (k : Nat) (f : Pair → Pair) (s : State) : (State.modPair k f s).power = s.power := (rfl)
@[simp] theorem State.modPair_pending (k : Nat) (f : Pair → Pair) (s : State) : (State.modPair k f s).pending = s.pending := (rfl)
@[simp] theorem State.modPair_ci (k : Nat) (f : Pair → Pair) (x y z : Nat) (s : State) : (State.modPair k f s).ci x y z = s.ci x y z := (rfl)
@[simp] theorem State.modPair_cn (k : Nat) (f : Pair → Pair) (x y z : Nat) (s : State) : (State.modPair k f s).cn x y z = s.cn x y z := (rfl)
@[simp] theorem State.modPair_ct (k : Nat) (f : Pair → Pair) (x y z : Nat) (s : State) : (State.modPair k f s).ct x y z = s.ct x y z := (rfl)
@[simp] theorem State.modPair_cr (k : Nat) (f : Pair → Pair) (x y z : Nat) (s : State) : (State.modPair k f s).cr x y z = s.cr x y z := (rfl)
@[simp] theorem State.modPair_up (k : Nat) (f : Pair → Pair) (d : Nat) (s : State) : (State.modPair k f s).up d = s.up d := (rfl)
@[simp] theorem State.modPair_works (k : Nat) (f : Pair → Pair) (d : Nat) (s : State) : State.works d (State.modPair k f s) = State.works d s := (rfl)
@[simp] theorem State.modPair_time (k : Nat) (f : Pair → Pair) (s : State) : (State.modPair k f s).time = s.time := (rfl)
@[simp] theorem State.pair_modPair (k : Nat) (f : Pair → Pair) (q : Nat) (s : State) : (State.modPair k f s).pair q = if q = k then f (s.pair k) else s.pair q :=
  Tbl.get_mod ..

/-! ### modChan -/

@[simp] theorem State.modChan_now (k : Nat) (f : Chan → Chan) (s : State) : (State.modChan k f s).now = s.now := (rfl)
@[simp] theorem State.modChan_fc (k : Nat) (f : Chan → Chan) (s : State) : (State.modChan k f s).fc = s.fc := (rfl)
@[simp] theorem State.modChan_fabricZero (k : Nat) (f : Chan → Chan) (s : State) : (State.modChan k f s).fabricZero = s.fabricZero := (rfl)
@[simp] theorem State.modChan_free (k : Nat) (f : Chan → Chan) (s : State) : (State.modChan k f s).free = s.free := (rfl)
@[simp] theorem State.modChan_cfg (k : Nat) (f : Chan → Chan) (s : State) : (State.modChan k f s).cfg = s.cfg := (rfl)
@[simp] theorem State.modChan_stats (k : Nat) (f : Chan → Chan) (s : State) : (State.modChan k f s).stats = s.stats := (rfl)
@[simp] theorem State.modChan_wheels (k : Nat) (f : Chan → Chan) (s : State) : (State.modChan k f s).wheels = s.wheels := (rfl)
@[simp] theorem State.modChan_appts (k : Nat) (f : Chan → Chan) (s : State) : (State.modChan k f s).appts = s.appts := (rfl)
@[simp] theorem State.modChan_carding (k : Nat) (f : Chan → Chan) (s : State) : (State.modChan k f s).carding = s.carding := (rfl)
@[simp] theorem State.modChan_bramble (k : Nat) (f : Chan → Chan) (s : State) : (State.modChan k f s).bramble = s.bramble := (rfl)
@[simp] theorem State.modChan_control (k : Nat) (f : Chan → Chan) (s : State) : (State.modChan k f s).control = s.control := (rfl)
@[simp] theorem State.modChan_serial (k : Nat) (f : Chan → Chan) (s : State) : (State.modChan k f s).serial = s.serial := (rfl)
@[simp] theorem State.modChan_eth (k : Nat) (f : Chan → Chan) (s : State) : (State.modChan k f s).eth = s.eth := (rfl)
@[simp] theorem State.modChan_can (k : Nat) (f : Chan → Chan) (s : State) : (State.modChan k f s).can = s.can := (rfl)
@[simp] theorem State.modChan_canOpen (k : Nat) (f : Chan → Chan) (s : State) : (State.modChan k f s).canOpen = s.canOpen := (rfl)
@[simp] theorem State.modChan_fabric (k : Nat) (f : Chan → Chan) (s : State) : (State.modChan k f s).fabric = s.fabric := (rfl)
@[simp] theorem State.modChan_journal (k : Nat) (f : Chan → Chan) (s : State) : (State.modChan k f s).journal = s.journal := (rfl)
@[simp] theorem State.modChan_dict (k : Nat) (f : Chan → Chan) (s : State) : (State.modChan k f s).dict = s.dict := (rfl)
@[simp] theorem State.modChan_cycle (k : Nat) (f : Chan → Chan) (s : State) : (State.modChan k f s).cycle = s.cycle := (rfl)
@[simp] theorem State.modChan_health (k : Nat) (f : Chan → Chan) (s : State) : (State.modChan k f s).health = s.health := (rfl)
@[simp] theorem State.modChan_twin (k : Nat) (f : Chan → Chan) (s : State) : (State.modChan k f s).twin = s.twin := (rfl)
@[simp] theorem State.modChan_boot (k : Nat) (f : Chan → Chan) (s : State) : (State.modChan k f s).boot = s.boot := (rfl)
@[simp] theorem State.modChan_power (k : Nat) (f : Chan → Chan) (s : State) : (State.modChan k f s).power = s.power := (rfl)
@[simp] theorem State.modChan_pending (k : Nat) (f : Chan → Chan) (s : State) : (State.modChan k f s).pending = s.pending := (rfl)
@[simp] theorem State.modChan_ci (k : Nat) (f : Chan → Chan) (x y z : Nat) (s : State) : (State.modChan k f s).ci x y z = s.ci x y z := (rfl)
@[simp] theorem State.modChan_cn (k : Nat) (f : Chan → Chan) (x y z : Nat) (s : State) : (State.modChan k f s).cn x y z = s.cn x y z := (rfl)
@[simp] theorem State.modChan_ct (k : Nat) (f : Chan → Chan) (x y z : Nat) (s : State) : (State.modChan k f s).ct x y z = s.ct x y z := (rfl)
@[simp] theorem State.modChan_cr (k : Nat) (f : Chan → Chan) (x y z : Nat) (s : State) : (State.modChan k f s).cr x y z = s.cr x y z := (rfl)
@[simp] theorem State.modChan_up (k : Nat) (f : Chan → Chan) (d : Nat) (s : State) : (State.modChan k f s).up d = s.up d := (rfl)
@[simp] theorem State.modChan_works (k : Nat) (f : Chan → Chan) (d : Nat) (s : State) : State.works d (State.modChan k f s) = State.works d s := (rfl)
@[simp] theorem State.modChan_time (k : Nat) (f : Chan → Chan) (s : State) : (State.modChan k f s).time = s.time := (rfl)
@[simp] theorem State.chan_modChan (k : Nat) (f : Chan → Chan) (q : Nat) (s : State) : (State.modChan k f s).chan q = if q = k then f (s.chan k) else s.chan q :=
  Tbl.get_mod ..

/-! ### modAppt -/

@[simp] theorem State.modAppt_now (k : Nat) (f : ApptRow → ApptRow) (s : State) : (State.modAppt k f s).now = s.now := (rfl)
@[simp] theorem State.modAppt_fc (k : Nat) (f : ApptRow → ApptRow) (s : State) : (State.modAppt k f s).fc = s.fc := (rfl)
@[simp] theorem State.modAppt_fabricZero (k : Nat) (f : ApptRow → ApptRow) (s : State) : (State.modAppt k f s).fabricZero = s.fabricZero := (rfl)
@[simp] theorem State.modAppt_free (k : Nat) (f : ApptRow → ApptRow) (s : State) : (State.modAppt k f s).free = s.free := (rfl)
@[simp] theorem State.modAppt_cfg (k : Nat) (f : ApptRow → ApptRow) (s : State) : (State.modAppt k f s).cfg = s.cfg := (rfl)
@[simp] theorem State.modAppt_stats (k : Nat) (f : ApptRow → ApptRow) (s : State) : (State.modAppt k f s).stats = s.stats := (rfl)
@[simp] theorem State.modAppt_wheels (k : Nat) (f : ApptRow → ApptRow) (s : State) : (State.modAppt k f s).wheels = s.wheels := (rfl)
@[simp] theorem State.modAppt_carding (k : Nat) (f : ApptRow → ApptRow) (s : State) : (State.modAppt k f s).carding = s.carding := (rfl)
@[simp] theorem State.modAppt_bramble (k : Nat) (f : ApptRow → ApptRow) (s : State) : (State.modAppt k f s).bramble = s.bramble := (rfl)
@[simp] theorem State.modAppt_control (k : Nat) (f : ApptRow → ApptRow) (s : State) : (State.modAppt k f s).control = s.control := (rfl)
@[simp] theorem State.modAppt_serial (k : Nat) (f : ApptRow → ApptRow) (s : State) : (State.modAppt k f s).serial = s.serial := (rfl)
@[simp] theorem State.modAppt_analog (k : Nat) (f : ApptRow → ApptRow) (s : State) : (State.modAppt k f s).analog = s.analog := (rfl)
@[simp] theorem State.modAppt_eth (k : Nat) (f : ApptRow → ApptRow) (s : State) : (State.modAppt k f s).eth = s.eth := (rfl)
@[simp] theorem State.modAppt_can (k : Nat) (f : ApptRow → ApptRow) (s : State) : (State.modAppt k f s).can = s.can := (rfl)
@[simp] theorem State.modAppt_canOpen (k : Nat) (f : ApptRow → ApptRow) (s : State) : (State.modAppt k f s).canOpen = s.canOpen := (rfl)
@[simp] theorem State.modAppt_fabric (k : Nat) (f : ApptRow → ApptRow) (s : State) : (State.modAppt k f s).fabric = s.fabric := (rfl)
@[simp] theorem State.modAppt_journal (k : Nat) (f : ApptRow → ApptRow) (s : State) : (State.modAppt k f s).journal = s.journal := (rfl)
@[simp] theorem State.modAppt_dict (k : Nat) (f : ApptRow → ApptRow) (s : State) : (State.modAppt k f s).dict = s.dict := (rfl)
@[simp] theorem State.modAppt_cycle (k : Nat) (f : ApptRow → ApptRow) (s : State) : (State.modAppt k f s).cycle = s.cycle := (rfl)
@[simp] theorem State.modAppt_health (k : Nat) (f : ApptRow → ApptRow) (s : State) : (State.modAppt k f s).health = s.health := (rfl)
@[simp] theorem State.modAppt_twin (k : Nat) (f : ApptRow → ApptRow) (s : State) : (State.modAppt k f s).twin = s.twin := (rfl)
@[simp] theorem State.modAppt_boot (k : Nat) (f : ApptRow → ApptRow) (s : State) : (State.modAppt k f s).boot = s.boot := (rfl)
@[simp] theorem State.modAppt_power (k : Nat) (f : ApptRow → ApptRow) (s : State) : (State.modAppt k f s).power = s.power := (rfl)
@[simp] theorem State.modAppt_pending (k : Nat) (f : ApptRow → ApptRow) (s : State) : (State.modAppt k f s).pending = s.pending := (rfl)
@[simp] theorem State.modAppt_ci (k : Nat) (f : ApptRow → ApptRow) (x y z : Nat) (s : State) : (State.modAppt k f s).ci x y z = s.ci x y z := (rfl)
@[simp] theorem State.modAppt_cn (k : Nat) (f : ApptRow → ApptRow) (x y z : Nat) (s : State) : (State.modAppt k f s).cn x y z = s.cn x y z := (rfl)
@[simp] theorem State.modAppt_ct (k : Nat) (f : ApptRow → ApptRow) (x y z : Nat) (s : State) : (State.modAppt k f s).ct x y z = s.ct x y z := (rfl)
@[simp] theorem State.modAppt_cr (k : Nat) (f : ApptRow → ApptRow) (x y z : Nat) (s : State) : (State.modAppt k f s).cr x y z = s.cr x y z := (rfl)
@[simp] theorem State.modAppt_up (k : Nat) (f : ApptRow → ApptRow) (d : Nat) (s : State) : (State.modAppt k f s).up d = s.up d := (rfl)
@[simp] theorem State.modAppt_works (k : Nat) (f : ApptRow → ApptRow) (d : Nat) (s : State) : State.works d (State.modAppt k f s) = State.works d s := (rfl)
@[simp] theorem State.modAppt_time (k : Nat) (f : ApptRow → ApptRow) (s : State) : (State.modAppt k f s).time = s.time := (rfl)

/-! ### modCopy -/

@[simp] theorem State.modCopy_now (k : Nat) (f : Copy → Copy) (s : State) : (State.modCopy k f s).now = s.now := (rfl)
@[simp] theorem State.modCopy_fc (k : Nat) (f : Copy → Copy) (s : State) : (State.modCopy k f s).fc = s.fc := (rfl)
@[simp] theorem State.modCopy_fabricZero (k : Nat) (f : Copy → Copy) (s : State) : (State.modCopy k f s).fabricZero = s.fabricZero := (rfl)
@[simp] theorem State.modCopy_free (k : Nat) (f : Copy → Copy) (s : State) : (State.modCopy k f s).free = s.free := (rfl)
@[simp] theorem State.modCopy_cfg (k : Nat) (f : Copy → Copy) (s : State) : (State.modCopy k f s).cfg = s.cfg := (rfl)
@[simp] theorem State.modCopy_stats (k : Nat) (f : Copy → Copy) (s : State) : (State.modCopy k f s).stats = s.stats := (rfl)
@[simp] theorem State.modCopy_wheels (k : Nat) (f : Copy → Copy) (s : State) : (State.modCopy k f s).wheels = s.wheels := (rfl)
@[simp] theorem State.modCopy_appts (k : Nat) (f : Copy → Copy) (s : State) : (State.modCopy k f s).appts = s.appts := (rfl)
@[simp] theorem State.modCopy_carding (k : Nat) (f : Copy → Copy) (s : State) : (State.modCopy k f s).carding = s.carding := (rfl)
@[simp] theorem State.modCopy_bramble (k : Nat) (f : Copy → Copy) (s : State) : (State.modCopy k f s).bramble = s.bramble := (rfl)
@[simp] theorem State.modCopy_control (k : Nat) (f : Copy → Copy) (s : State) : (State.modCopy k f s).control = s.control := (rfl)
@[simp] theorem State.modCopy_serial (k : Nat) (f : Copy → Copy) (s : State) : (State.modCopy k f s).serial = s.serial := (rfl)
@[simp] theorem State.modCopy_analog (k : Nat) (f : Copy → Copy) (s : State) : (State.modCopy k f s).analog = s.analog := (rfl)
@[simp] theorem State.modCopy_eth (k : Nat) (f : Copy → Copy) (s : State) : (State.modCopy k f s).eth = s.eth := (rfl)
@[simp] theorem State.modCopy_can (k : Nat) (f : Copy → Copy) (s : State) : (State.modCopy k f s).can = s.can := (rfl)
@[simp] theorem State.modCopy_canOpen (k : Nat) (f : Copy → Copy) (s : State) : (State.modCopy k f s).canOpen = s.canOpen := (rfl)
@[simp] theorem State.modCopy_fabric (k : Nat) (f : Copy → Copy) (s : State) : (State.modCopy k f s).fabric = s.fabric := (rfl)
@[simp] theorem State.modCopy_journal (k : Nat) (f : Copy → Copy) (s : State) : (State.modCopy k f s).journal = s.journal := (rfl)
@[simp] theorem State.modCopy_dict (k : Nat) (f : Copy → Copy) (s : State) : (State.modCopy k f s).dict = s.dict := (rfl)
@[simp] theorem State.modCopy_cycle (k : Nat) (f : Copy → Copy) (s : State) : (State.modCopy k f s).cycle = s.cycle := (rfl)
@[simp] theorem State.modCopy_health (k : Nat) (f : Copy → Copy) (s : State) : (State.modCopy k f s).health = s.health := (rfl)
@[simp] theorem State.modCopy_twin (k : Nat) (f : Copy → Copy) (s : State) : (State.modCopy k f s).twin = s.twin := (rfl)
@[simp] theorem State.modCopy_power (k : Nat) (f : Copy → Copy) (s : State) : (State.modCopy k f s).power = s.power := (rfl)
@[simp] theorem State.modCopy_pending (k : Nat) (f : Copy → Copy) (s : State) : (State.modCopy k f s).pending = s.pending := (rfl)
@[simp] theorem State.modCopy_up (k : Nat) (f : Copy → Copy) (d : Nat) (s : State) : (State.modCopy k f s).up d = s.up d := (rfl)
@[simp] theorem State.modCopy_time (k : Nat) (f : Copy → Copy) (s : State) : (State.modCopy k f s).time = s.time := (rfl)
@[simp] theorem State.copy_modCopy (k : Nat) (f : Copy → Copy) (q : Nat) (s : State) : (State.modCopy k f s).copy q = if q = k then f (s.copy k) else s.copy q :=
  Tbl.get_mod ..

/-! ### modLst -/

@[simp] theorem State.modLst_now (k : Nat) (f : Listener → Listener) (s : State) : (State.modLst k f s).now = s.now := (rfl)
@[simp] theorem State.modLst_fc (k : Nat) (f : Listener → Listener) (s : State) : (State.modLst k f s).fc = s.fc := (rfl)
@[simp] theorem State.modLst_fabricZero (k : Nat) (f : Listener → Listener) (s : State) : (State.modLst k f s).fabricZero = s.fabricZero := (rfl)
@[simp] theorem State.modLst_free (k : Nat) (f : Listener → Listener) (s : State) : (State.modLst k f s).free = s.free := (rfl)
@[simp] theorem State.modLst_cfg (k : Nat) (f : Listener → Listener) (s : State) : (State.modLst k f s).cfg = s.cfg := (rfl)
@[simp] theorem State.modLst_stats (k : Nat) (f : Listener → Listener) (s : State) : (State.modLst k f s).stats = s.stats := (rfl)
@[simp] theorem State.modLst_wheels (k : Nat) (f : Listener → Listener) (s : State) : (State.modLst k f s).wheels = s.wheels := (rfl)
@[simp] theorem State.modLst_appts (k : Nat) (f : Listener → Listener) (s : State) : (State.modLst k f s).appts = s.appts := (rfl)
@[simp] theorem State.modLst_carding (k : Nat) (f : Listener → Listener) (s : State) : (State.modLst k f s).carding = s.carding := (rfl)
@[simp] theorem State.modLst_control (k : Nat) (f : Listener → Listener) (s : State) : (State.modLst k f s).control = s.control := (rfl)
@[simp] theorem State.modLst_serial (k : Nat) (f : Listener → Listener) (s : State) : (State.modLst k f s).serial = s.serial := (rfl)
@[simp] theorem State.modLst_analog (k : Nat) (f : Listener → Listener) (s : State) : (State.modLst k f s).analog = s.analog := (rfl)
@[simp] theorem State.modLst_eth (k : Nat) (f : Listener → Listener) (s : State) : (State.modLst k f s).eth = s.eth := (rfl)
@[simp] theorem State.modLst_can (k : Nat) (f : Listener → Listener) (s : State) : (State.modLst k f s).can = s.can := (rfl)
@[simp] theorem State.modLst_canOpen (k : Nat) (f : Listener → Listener) (s : State) : (State.modLst k f s).canOpen = s.canOpen := (rfl)
@[simp] theorem State.modLst_fabric (k : Nat) (f : Listener → Listener) (s : State) : (State.modLst k f s).fabric = s.fabric := (rfl)
@[simp] theorem State.modLst_journal (k : Nat) (f : Listener → Listener) (s : State) : (State.modLst k f s).journal = s.journal := (rfl)
@[simp] theorem State.modLst_dict (k : Nat) (f : Listener → Listener) (s : State) : (State.modLst k f s).dict = s.dict := (rfl)
@[simp] theorem State.modLst_cycle (k : Nat) (f : Listener → Listener) (s : State) : (State.modLst k f s).cycle = s.cycle := (rfl)
@[simp] theorem State.modLst_health (k : Nat) (f : Listener → Listener) (s : State) : (State.modLst k f s).health = s.health := (rfl)
@[simp] theorem State.modLst_twin (k : Nat) (f : Listener → Listener) (s : State) : (State.modLst k f s).twin = s.twin := (rfl)
@[simp] theorem State.modLst_boot (k : Nat) (f : Listener → Listener) (s : State) : (State.modLst k f s).boot = s.boot := (rfl)
@[simp] theorem State.modLst_power (k : Nat) (f : Listener → Listener) (s : State) : (State.modLst k f s).power = s.power := (rfl)
@[simp] theorem State.modLst_pending (k : Nat) (f : Listener → Listener) (s : State) : (State.modLst k f s).pending = s.pending := (rfl)
@[simp] theorem State.modLst_ci (k : Nat) (f : Listener → Listener) (x y z : Nat) (s : State) : (State.modLst k f s).ci x y z = s.ci x y z := (rfl)
@[simp] theorem State.modLst_cn (k : Nat) (f : Listener → Listener) (x y z : Nat) (s : State) : (State.modLst k f s).cn x y z = s.cn x y z := (rfl)
@[simp] theorem State.modLst_ct (k : Nat) (f : Listener → Listener) (x y z : Nat) (s : State) : (State.modLst k f s).ct x y z = s.ct x y z := (rfl)
@[simp] theorem State.modLst_cr (k : Nat) (f : Listener → Listener) (x y z : Nat) (s : State) : (State.modLst k f s).cr x y z = s.cr x y z := (rfl)
@[simp] theorem State.modLst_up (k : Nat) (f : Listener → Listener) (d : Nat) (s : State) : (State.modLst k f s).up d = s.up d := (rfl)
@[simp] theorem State.modLst_works (k : Nat) (f : Listener → Listener) (d : Nat) (s : State) : State.works d (State.modLst k f s) = State.works d s := (rfl)
@[simp] theorem State.modLst_time (k : Nat) (f : Listener → Listener) (s : State) : (State.modLst k f s).time = s.time := (rfl)
@[simp] theorem State.lst_modLst (k : Nat) (f : Listener → Listener) (q : Nat) (s : State) : (State.modLst k f s).lst q = if q = k then f (s.lst k) else s.lst q :=
  Tbl.get_mod ..

/-! ### modCp -/

@[simp] theorem State.modCp_now (k : Nat) (f : CPort → CPort) (s : State) : (State.modCp k f s).now = s.now := (rfl)
@[simp] theorem State.modCp_fc (k : Nat) (f : CPort → CPort) (s : State) : (State.modCp k f s).fc = s.fc := (rfl)
@[simp] theorem State.modCp_fabricZero (k : Nat) (f : CPort → CPort) (s : State) : (State.modCp k f s).fabricZero = s.fabricZero := (rfl)
@[simp] theorem State.modCp_free (k : Nat) (f : CPort → CPort) (s : State) : (State.modCp k f s).free = s.free := (rfl)
@[simp] theorem State.modCp_cfg (k : Nat) (f : CPort → CPort) (s : State) : (State.modCp k f s).cfg = s.cfg := (rfl)
@[simp] theorem State.modCp_stats (k : Nat) (f : CPort → CPort) (s : State) : (State.modCp k f s).stats = s.stats := (rfl)
@[simp] theorem State.modCp_wheels (k : Nat) (f : CPort → CPort) (s : State) : (State.modCp k f s).wheels = s.wheels := (rfl)
@[simp] theorem State.modCp_appts (k : Nat) (f : CPort → CPort) (s : State) : (State.modCp k f s).appts = s.appts := (rfl)
@[simp] theorem State.modCp_carding (k : Nat) (f : CPort → CPort) (s : State) : (State.modCp k f s).carding = s.carding := (rfl)
@[simp] theorem State.modCp_bramble (k : Nat) (f : CPort → CPort) (s : State) : (State.modCp k f s).bramble = s.bramble := (rfl)
@[simp] theorem State.modCp_control (k : Nat) (f : CPort → CPort) (s : State) : (State.modCp k f s).control = s.control := (rfl)
@[simp] theorem State.modCp_serial (k : Nat) (f : CPort → CPort) (s : State) : (State.modCp k f s).serial = s.serial := (rfl)
@[simp] theorem State.modCp_analog (k : Nat) (f : CPort → CPort) (s : State) : (State.modCp k f s).analog = s.analog := (rfl)
@[simp] theorem State.modCp_eth (k : Nat) (f : CPort → CPort) (s : State) : (State.modCp k f s).eth = s.eth := (rfl)
@[simp] theorem State.modCp_canOpen (k : Nat) (f : CPort → CPort) (s : State) : (State.modCp k f s).canOpen = s.canOpen := (rfl)
@[simp] theorem State.modCp_fabric (k : Nat) (f : CPort → CPort) (s : State) : (State.modCp k f s).fabric = s.fabric := (rfl)
@[simp] theorem State.modCp_journal (k : Nat) (f : CPort → CPort) (s : State) : (State.modCp k f s).journal = s.journal := (rfl)
@[simp] theorem State.modCp_dict (k : Nat) (f : CPort → CPort) (s : State) : (State.modCp k f s).dict = s.dict := (rfl)
@[simp] theorem State.modCp_cycle (k : Nat) (f : CPort → CPort) (s : State) : (State.modCp k f s).cycle = s.cycle := (rfl)
@[simp] theorem State.modCp_health (k : Nat) (f : CPort → CPort) (s : State) : (State.modCp k f s).health = s.health := (rfl)
@[simp] theorem State.modCp_twin (k : Nat) (f : CPort → CPort) (s : State) : (State.modCp k f s).twin = s.twin := (rfl)
@[simp] theorem State.modCp_boot (k : Nat) (f : CPort → CPort) (s : State) : (State.modCp k f s).boot = s.boot := (rfl)
@[simp] theorem State.modCp_power (k : Nat) (f : CPort → CPort) (s : State) : (State.modCp k f s).power = s.power := (rfl)
@[simp] theorem State.modCp_pending (k : Nat) (f : CPort → CPort) (s : State) : (State.modCp k f s).pending = s.pending := (rfl)
@[simp] theorem State.modCp_ci (k : Nat) (f : CPort → CPort) (x y z : Nat) (s : State) : (State.modCp k f s).ci x y z = s.ci x y z := (rfl)
@[simp] theorem State.modCp_cn (k : Nat) (f : CPort → CPort) (x y z : Nat) (s : State) : (State.modCp k f s).cn x y z = s.cn x y z := (rfl)
@[simp] theorem State.modCp_ct (k : Nat) (f : CPort → CPort) (x y z : Nat) (s : State) : (State.modCp k f s).ct x y z = s.ct x y z := (rfl)
@[simp] theorem State.modCp_cr (k : Nat) (f : CPort → CPort) (x y z : Nat) (s : State) : (State.modCp k f s).cr x y z = s.cr x y z := (rfl)
@[simp] theorem State.modCp_up (k : Nat) (f : CPort → CPort) (d : Nat) (s : State) : (State.modCp k f s).up d = s.up d := (rfl)
@[simp] theorem State.modCp_works (k : Nat) (f : CPort → CPort) (d : Nat) (s : State) : State.works d (State.modCp k f s) = State.works d s := (rfl)
@[simp] theorem State.modCp_time (k : Nat) (f : CPort → CPort) (s : State) : (State.modCp k f s).time = s.time := (rfl)
@[simp] theorem State.cp_modCp (k : Nat) (f : CPort → CPort) (q : Nat) (s : State) : (State.modCp k f s).cp q = if q = k then f (s.cp k) else s.cp q :=
  Tbl.get_mod ..

/-! ### modSrc -/

@[simp] theorem State.modSrc_now (k : Nat) (f : SrcRow → SrcRow) (s : State) : (State.modSrc k f s).now = s.now := (rfl)
@[simp] theorem State.modSrc_fc (k : Nat) (f : SrcRow → SrcRow) (s : State) : (State.modSrc k f s).fc = s.fc := (rfl)
@[simp] theorem State.modSrc_fabricZero (k : Nat) (f : SrcRow → SrcRow) (s : State) : (State.modSrc k f s).fabricZero = s.fabricZero := (rfl)
@[simp] theorem State.modSrc_free (k : Nat) (f : SrcRow → SrcRow) (s : State) : (State.modSrc k f s).free = s.free := (rfl)
@[simp] theorem State.modSrc_cfg (k : Nat) (f : SrcRow → SrcRow) (s : State) : (State.modSrc k f s).cfg = s.cfg := (rfl)
@[simp] theorem State.modSrc_stats (k : Nat) (f : SrcRow → SrcRow) (s : State) : (State.modSrc k f s).stats = s.stats := (rfl)
@[simp] theorem State.modSrc_wheels (k : Nat) (f : SrcRow → SrcRow) (s : State) : (State.modSrc k f s).wheels = s.wheels := (rfl)
@[simp] theorem State.modSrc_appts (k : Nat) (f : SrcRow → SrcRow) (s : State) : (State.modSrc k f s).appts = s.appts := (rfl)
@[simp] theorem State.modSrc_bramble (k : Nat) (f : SrcRow → SrcRow) (s : State) : (State.modSrc k f s).bramble = s.bramble := (rfl)
@[simp] theorem State.modSrc_control (k : Nat) (f : SrcRow → SrcRow) (s : State) : (State.modSrc k f s).control = s.control := (rfl)
@[simp] theorem State.modSrc_serial (k : Nat) (f : SrcRow → SrcRow) (s : State) : (State.modSrc k f s).serial = s.serial := (rfl)
@[simp] theorem State.modSrc_analog (k : Nat) (f : SrcRow → SrcRow) (s : State) : (State.modSrc k f s).analog = s.analog := (rfl)
@[simp] theorem State.modSrc_eth (k : Nat) (f : SrcRow → SrcRow) (s : State) : (State.modSrc k f s).eth = s.eth := (rfl)
@[simp] theorem State.modSrc_can (k : Nat) (f : SrcRow → SrcRow) (s : State) : (State.modSrc k f s).can = s.can := (rfl)
@[simp] theorem State.modSrc_canOpen (k : Nat) (f : SrcRow → SrcRow) (s : State) : (State.modSrc k f s).canOpen = s.canOpen := (rfl)
@[simp] theorem State.modSrc_fabric (k : Nat) (f : SrcRow → SrcRow) (s : State) : (State.modSrc k f s).fabric = s.fabric := (rfl)
@[simp] theorem State.modSrc_journal (k : Nat) (f : SrcRow → SrcRow) (s : State) : (State.modSrc k f s).journal = s.journal := (rfl)
@[simp] theorem State.modSrc_dict (k : Nat) (f : SrcRow → SrcRow) (s : State) : (State.modSrc k f s).dict = s.dict := (rfl)
@[simp] theorem State.modSrc_cycle (k : Nat) (f : SrcRow → SrcRow) (s : State) : (State.modSrc k f s).cycle = s.cycle := (rfl)
@[simp] theorem State.modSrc_health (k : Nat) (f : SrcRow → SrcRow) (s : State) : (State.modSrc k f s).health = s.health := (rfl)
@[simp] theorem State.modSrc_twin (k : Nat) (f : SrcRow → SrcRow) (s : State) : (State.modSrc k f s).twin = s.twin := (rfl)
@[simp] theorem State.modSrc_boot (k : Nat) (f : SrcRow → SrcRow) (s : State) : (State.modSrc k f s).boot = s.boot := (rfl)
@[simp] theorem State.modSrc_power (k : Nat) (f : SrcRow → SrcRow) (s : State) : (State.modSrc k f s).power = s.power := (rfl)
@[simp] theorem State.modSrc_pending (k : Nat) (f : SrcRow → SrcRow) (s : State) : (State.modSrc k f s).pending = s.pending := (rfl)
@[simp] theorem State.modSrc_ci (k : Nat) (f : SrcRow → SrcRow) (x y z : Nat) (s : State) : (State.modSrc k f s).ci x y z = s.ci x y z := (rfl)
@[simp] theorem State.modSrc_cn (k : Nat) (f : SrcRow → SrcRow) (x y z : Nat) (s : State) : (State.modSrc k f s).cn x y z = s.cn x y z := (rfl)
@[simp] theorem State.modSrc_ct (k : Nat) (f : SrcRow → SrcRow) (x y z : Nat) (s : State) : (State.modSrc k f s).ct x y z = s.ct x y z := (rfl)
@[simp] theorem State.modSrc_cr (k : Nat) (f : SrcRow → SrcRow) (x y z : Nat) (s : State) : (State.modSrc k f s).cr x y z = s.cr x y z := (rfl)
@[simp] theorem State.modSrc_up (k : Nat) (f : SrcRow → SrcRow) (d : Nat) (s : State) : (State.modSrc k f s).up d = s.up d := (rfl)
@[simp] theorem State.modSrc_works (k : Nat) (f : SrcRow → SrcRow) (d : Nat) (s : State) : State.works d (State.modSrc k f s) = State.works d s := (rfl)
@[simp] theorem State.modSrc_time (k : Nat) (f : SrcRow → SrcRow) (s : State) : (State.modSrc k f s).time = s.time := (rfl)
@[simp] theorem State.src_modSrc (k : Nat) (f : SrcRow → SrcRow) (q : Nat) (s : State) : (State.modSrc k f s).src q = if q = k then f (s.src k) else s.src q :=
  Tbl.get_mod ..

/-! ### modCasc -/

@[simp] theorem State.modCasc_now (k : Nat) (f : Cascade → Cascade) (s : State) : (State.modCasc k f s).now = s.now := (rfl)
@[simp] theorem State.modCasc_fc (k : Nat) (f : Cascade → Cascade) (s : State) : (State.modCasc k f s).fc = s.fc := (rfl)
@[simp] theorem State.modCasc_fabricZero (k : Nat) (f : Cascade → Cascade) (s : State) : (State.modCasc k f s).fabricZero = s.fabricZero := (rfl)
@[simp] theorem State.modCasc_free (k : Nat) (f : Cascade → Cascade) (s : State) : (State.modCasc k f s).free = s.free := (rfl)
@[simp] theorem State.modCasc_cfg (k : Nat) (f : Cascade → Cascade) (s : State) : (State.modCasc k f s).cfg = s.cfg := (rfl)
@[simp] theorem State.modCasc_stats (k : Nat) (f : Cascade → Cascade) (s : State) : (State.modCasc k f s).stats = s.stats := (rfl)
@[simp] theorem State.modCasc_wheels (k : Nat) (f : Cascade → Cascade) (s : State) : (State.modCasc k f s).wheels = s.wheels := (rfl)
@[simp] theorem State.modCasc_appts (k : Nat) (f : Cascade → Cascade) (s : State) : (State.modCasc k f s).appts = s.appts := (rfl)
@[simp] theorem State.modCasc_carding (k : Nat) (f : Cascade → Cascade) (s : State) : (State.modCasc k f s).carding = s.carding := (rfl)
@[simp] theorem State.modCasc_bramble (k : Nat) (f : Cascade → Cascade) (s : State) : (State.modCasc k f s).bramble = s.bramble := (rfl)
@[simp] theorem State.modCasc_serial (k : Nat) (f : Cascade → Cascade) (s : State) : (State.modCasc k f s).serial = s.serial := (rfl)
@[simp] theorem State.modCasc_analog (k : Nat) (f : Cascade → Cascade) (s : State) : (State.modCasc k f s).analog = s.analog := (rfl)
@[simp] theorem State.modCasc_eth (k : Nat) (f : Cascade → Cascade) (s : State) : (State.modCasc k f s).eth = s.eth := (rfl)
@[simp] theorem State.modCasc_can (k : Nat) (f : Cascade → Cascade) (s : State) : (State.modCasc k f s).can = s.can := (rfl)
@[simp] theorem State.modCasc_canOpen (k : Nat) (f : Cascade → Cascade) (s : State) : (State.modCasc k f s).canOpen = s.canOpen := (rfl)
@[simp] theorem State.modCasc_fabric (k : Nat) (f : Cascade → Cascade) (s : State) : (State.modCasc k f s).fabric = s.fabric := (rfl)
@[simp] theorem State.modCasc_journal (k : Nat) (f : Cascade → Cascade) (s : State) : (State.modCasc k f s).journal = s.journal := (rfl)
@[simp] theorem State.modCasc_dict (k : Nat) (f : Cascade → Cascade) (s : State) : (State.modCasc k f s).dict = s.dict := (rfl)
@[simp] theorem State.modCasc_cycle (k : Nat) (f : Cascade → Cascade) (s : State) : (State.modCasc k f s).cycle = s.cycle := (rfl)
@[simp] theorem State.modCasc_health (k : Nat) (f : Cascade → Cascade) (s : State) : (State.modCasc k f s).health = s.health := (rfl)
@[simp] theorem State.modCasc_twin (k : Nat) (f : Cascade → Cascade) (s : State) : (State.modCasc k f s).twin = s.twin := (rfl)
@[simp] theorem State.modCasc_boot (k : Nat) (f : Cascade → Cascade) (s : State) : (State.modCasc k f s).boot = s.boot := (rfl)
@[simp] theorem State.modCasc_power (k : Nat) (f : Cascade → Cascade) (s : State) : (State.modCasc k f s).power = s.power := (rfl)
@[simp] theorem State.modCasc_pending (k : Nat) (f : Cascade → Cascade) (s : State) : (State.modCasc k f s).pending = s.pending := (rfl)
@[simp] theorem State.modCasc_ci (k : Nat) (f : Cascade → Cascade) (x y z : Nat) (s : State) : (State.modCasc k f s).ci x y z = s.ci x y z := (rfl)
@[simp] theorem State.modCasc_cn (k : Nat) (f : Cascade → Cascade) (x y z : Nat) (s : State) : (State.modCasc k f s).cn x y z = s.cn x y z := (rfl)
@[simp] theorem State.modCasc_ct (k : Nat) (f : Cascade → Cascade) (x y z : Nat) (s : State) : (State.modCasc k f s).ct x y z = s.ct x y z := (rfl)
@[simp] theorem State.modCasc_cr (k : Nat) (f : Cascade → Cascade) (x y z : Nat) (s : State) : (State.modCasc k f s).cr x y z = s.cr x y z := (rfl)
@[simp] theorem State.modCasc_up (k : Nat) (f : Cascade → Cascade) (d : Nat) (s : State) : (State.modCasc k f s).up d = s.up d := (rfl)
@[simp] theorem State.modCasc_works (k : Nat) (f : Cascade → Cascade) (d : Nat) (s : State) : State.works d (State.modCasc k f s) = State.works d s := (rfl)
@[simp] theorem State.modCasc_time (k : Nat) (f : Cascade → Cascade) (s : State) : (State.modCasc k f s).time = s.time := (rfl)
@[simp] theorem State.casc_modCasc (k : Nat) (f : Cascade → Cascade) (q : Nat) (s : State) : (State.modCasc k f s).casc q = if q = k then f (s.casc k) else s.casc q :=
  Tbl.get_mod ..

/-! ### modStg -/

@[simp] theorem State.modStg_now (k : Nat) (f : Stage → Stage) (s : State) : (State.modStg k f s).now = s.now := (rfl)
@[simp] theorem State.modStg_fc (k : Nat) (f : Stage → Stage) (s : State) : (State.modStg k f s).fc = s.fc := (rfl)
@[simp] theorem State.modStg_fabricZero (k : Nat) (f : Stage → Stage) (s : State) : (State.modStg k f s).fabricZero = s.fabricZero := (rfl)
@[simp] theorem State.modStg_free (k : Nat) (f : Stage → Stage) (s : State) : (State.modStg k f s).free = s.free := (rfl)
@[simp] theorem State.modStg_cfg (k : Nat) (f : Stage → Stage) (s : State) : (State.modStg k f s).cfg = s.cfg := (rfl)
@[simp] theorem State.modStg_stats (k : Nat) (f : Stage → Stage) (s : State) : (State.modStg k f s).stats = s.stats := (rfl)
@[simp] theorem State.modStg_wheels (k : Nat) (f : Stage → Stage) (s : State) : (State.modStg k f s).wheels = s.wheels := (rfl)
@[simp] theorem State.modStg_appts (k : Nat) (f : Stage → Stage) (s : State) : (State.modStg k f s).appts = s.appts := (rfl)
@[simp] theorem State.modStg_carding (k : Nat) (f : Stage → Stage) (s : State) : (State.modStg k f s).carding = s.carding := (rfl)
@[simp] theorem State.modStg_bramble (k : Nat) (f : Stage → Stage) (s : State) : (State.modStg k f s).bramble = s.bramble := (rfl)
@[simp] theorem State.modStg_serial (k : Nat) (f : Stage → Stage) (s : State) : (State.modStg k f s).serial = s.serial := (rfl)
@[simp] theorem State.modStg_analog (k : Nat) (f : Stage → Stage) (s : State) : (State.modStg k f s).analog = s.analog := (rfl)
@[simp] theorem State.modStg_eth (k : Nat) (f : Stage → Stage) (s : State) : (State.modStg k f s).eth = s.eth := (rfl)
@[simp] theorem State.modStg_can (k : Nat) (f : Stage → Stage) (s : State) : (State.modStg k f s).can = s.can := (rfl)
@[simp] theorem State.modStg_canOpen (k : Nat) (f : Stage → Stage) (s : State) : (State.modStg k f s).canOpen = s.canOpen := (rfl)
@[simp] theorem State.modStg_fabric (k : Nat) (f : Stage → Stage) (s : State) : (State.modStg k f s).fabric = s.fabric := (rfl)
@[simp] theorem State.modStg_journal (k : Nat) (f : Stage → Stage) (s : State) : (State.modStg k f s).journal = s.journal := (rfl)
@[simp] theorem State.modStg_dict (k : Nat) (f : Stage → Stage) (s : State) : (State.modStg k f s).dict = s.dict := (rfl)
@[simp] theorem State.modStg_cycle (k : Nat) (f : Stage → Stage) (s : State) : (State.modStg k f s).cycle = s.cycle := (rfl)
@[simp] theorem State.modStg_health (k : Nat) (f : Stage → Stage) (s : State) : (State.modStg k f s).health = s.health := (rfl)
@[simp] theorem State.modStg_twin (k : Nat) (f : Stage → Stage) (s : State) : (State.modStg k f s).twin = s.twin := (rfl)
@[simp] theorem State.modStg_boot (k : Nat) (f : Stage → Stage) (s : State) : (State.modStg k f s).boot = s.boot := (rfl)
@[simp] theorem State.modStg_power (k : Nat) (f : Stage → Stage) (s : State) : (State.modStg k f s).power = s.power := (rfl)
@[simp] theorem State.modStg_pending (k : Nat) (f : Stage → Stage) (s : State) : (State.modStg k f s).pending = s.pending := (rfl)
@[simp] theorem State.modStg_ci (k : Nat) (f : Stage → Stage) (x y z : Nat) (s : State) : (State.modStg k f s).ci x y z = s.ci x y z := (rfl)
@[simp] theorem State.modStg_cn (k : Nat) (f : Stage → Stage) (x y z : Nat) (s : State) : (State.modStg k f s).cn x y z = s.cn x y z := (rfl)
@[simp] theorem State.modStg_ct (k : Nat) (f : Stage → Stage) (x y z : Nat) (s : State) : (State.modStg k f s).ct x y z = s.ct x y z := (rfl)
@[simp] theorem State.modStg_cr (k : Nat) (f : Stage → Stage) (x y z : Nat) (s : State) : (State.modStg k f s).cr x y z = s.cr x y z := (rfl)
@[simp] theorem State.modStg_up (k : Nat) (f : Stage → Stage) (d : Nat) (s : State) : (State.modStg k f s).up d = s.up d := (rfl)
@[simp] theorem State.modStg_works (k : Nat) (f : Stage → Stage) (d : Nat) (s : State) : State.works d (State.modStg k f s) = State.works d s := (rfl)
@[simp] theorem State.modStg_time (k : Nat) (f : Stage → Stage) (s : State) : (State.modStg k f s).time = s.time := (rfl)
@[simp] theorem State.stg_modStg (k : Nat) (f : Stage → Stage) (q : Nat) (s : State) : (State.modStg k f s).stg q = if q = k then f (s.stg k) else s.stg q :=
  Tbl.get_mod ..

/-! ### modTank -/

@[simp] theorem State.modTank_now (k : Nat) (f : Tank → Tank) (s : State) : (State.modTank k f s).now = s.now := (rfl)
@[simp] theorem State.modTank_fc (k : Nat) (f : Tank → Tank) (s : State) : (State.modTank k f s).fc = s.fc := (rfl)
@[simp] theorem State.modTank_fabricZero (k : Nat) (f : Tank → Tank) (s : State) : (State.modTank k f s).fabricZero = s.fabricZero := (rfl)
@[simp] theorem State.modTank_free (k : Nat) (f : Tank → Tank) (s : State) : (State.modTank k f s).free = s.free := (rfl)
@[simp] theorem State.modTank_cfg (k : Nat) (f : Tank → Tank) (s : State) : (State.modTank k f s).cfg = s.cfg := (rfl)
@[simp] theorem State.modTank_stats (k : Nat) (f : Tank → Tank) (s : State) : (State.modTank k f s).stats = s.stats := (rfl)
@[simp] theorem State.modTank_wheels (k : Nat) (f : Tank → Tank) (s : State) : (State.modTank k f s).wheels = s.wheels := (rfl)
@[simp] theorem State.modTank_appts (k : Nat) (f : Tank → Tank) (s : State) : (State.modTank k f s).appts = s.appts := (rfl)
@[simp] theorem State.modTank_carding (k : Nat) (f : Tank → Tank) (s : State) : (State.modTank k f s).carding = s.carding := (rfl)
@[simp] theorem State.modTank_bramble (k : Nat) (f : Tank → Tank) (s : State) : (State.modTank k f s).bramble = s.bramble := (rfl)
@[simp] theorem State.modTank_serial (k : Nat) (f : Tank → Tank) (s : State) : (State.modTank k f s).serial = s.serial := (rfl)
@[simp] theorem State.modTank_analog (k : Nat) (f : Tank → Tank) (s : State) : (State.modTank k f s).analog = s.analog := (rfl)
@[simp] theorem State.modTank_eth (k : Nat) (f : Tank → Tank) (s : State) : (State.modTank k f s).eth = s.eth := (rfl)
@[simp] theorem State.modTank_can (k : Nat) (f : Tank → Tank) (s : State) : (State.modTank k f s).can = s.can := (rfl)
@[simp] theorem State.modTank_canOpen (k : Nat) (f : Tank → Tank) (s : State) : (State.modTank k f s).canOpen = s.canOpen := (rfl)
@[simp] theorem State.modTank_fabric (k : Nat) (f : Tank → Tank) (s : State) : (State.modTank k f s).fabric = s.fabric := (rfl)
@[simp] theorem State.modTank_journal (k : Nat) (f : Tank → Tank) (s : State) : (State.modTank k f s).journal = s.journal := (rfl)
@[simp] theorem State.modTank_dict (k : Nat) (f : Tank → Tank) (s : State) : (State.modTank k f s).dict = s.dict := (rfl)
@[simp] theorem State.modTank_cycle (k : Nat) (f : Tank → Tank) (s : State) : (State.modTank k f s).cycle = s.cycle := (rfl)
@[simp] theorem State.modTank_health (k : Nat) (f : Tank → Tank) (s : State) : (State.modTank k f s).health = s.health := (rfl)
@[simp] theorem State.modTank_twin (k : Nat) (f : Tank → Tank) (s : State) : (State.modTank k f s).twin = s.twin := (rfl)
@[simp] theorem State.modTank_boot (k : Nat) (f : Tank → Tank) (s : State) : (State.modTank k f s).boot = s.boot := (rfl)
@[simp] theorem State.modTank_power (k : Nat) (f : Tank → Tank) (s : State) : (State.modTank k f s).power = s.power := (rfl)
@[simp] theorem State.modTank_pending (k : Nat) (f : Tank → Tank) (s : State) : (State.modTank k f s).pending = s.pending := (rfl)
@[simp] theorem State.modTank_ci (k : Nat) (f : Tank → Tank) (x y z : Nat) (s : State) : (State.modTank k f s).ci x y z = s.ci x y z := (rfl)
@[simp] theorem State.modTank_cn (k : Nat) (f : Tank → Tank) (x y z : Nat) (s : State) : (State.modTank k f s).cn x y z = s.cn x y z := (rfl)
@[simp] theorem State.modTank_ct (k : Nat) (f : Tank → Tank) (x y z : Nat) (s : State) : (State.modTank k f s).ct x y z = s.ct x y z := (rfl)
@[simp] theorem State.modTank_cr (k : Nat) (f : Tank → Tank) (x y z : Nat) (s : State) : (State.modTank k f s).cr x y z = s.cr x y z := (rfl)
@[simp] theorem State.modTank_up (k : Nat) (f : Tank → Tank) (d : Nat) (s : State) : (State.modTank k f s).up d = s.up d := (rfl)
@[simp] theorem State.modTank_works (k : Nat) (f : Tank → Tank) (d : Nat) (s : State) : State.works d (State.modTank k f s) = State.works d s := (rfl)
@[simp] theorem State.modTank_time (k : Nat) (f : Tank → Tank) (s : State) : (State.modTank k f s).time = s.time := (rfl)
@[simp] theorem State.tank_modTank (k : Nat) (f : Tank → Tank) (q : Nat) (s : State) : (State.modTank k f s).tank q = if q = k then f (s.tank k) else s.tank q :=
  Tbl.get_mod ..

/-! ### modDom -/

@[simp] theorem State.modDom_now (k : Nat) (f : Dom → Dom) (s : State) : (State.modDom k f s).now = s.now := (rfl)
@[simp] theorem State.modDom_fc (k : Nat) (f : Dom → Dom) (s : State) : (State.modDom k f s).fc = s.fc := (rfl)
@[simp] theorem State.modDom_fabricZero (k : Nat) (f : Dom → Dom) (s : State) : (State.modDom k f s).fabricZero = s.fabricZero := (rfl)
@[simp] theorem State.modDom_free (k : Nat) (f : Dom → Dom) (s : State) : (State.modDom k f s).free = s.free := (rfl)
@[simp] theorem State.modDom_cfg (k : Nat) (f : Dom → Dom) (s : State) : (State.modDom k f s).cfg = s.cfg := (rfl)
@[simp] theorem State.modDom_stats (k : Nat) (f : Dom → Dom) (s : State) : (State.modDom k f s).stats = s.stats := (rfl)
@[simp] theorem State.modDom_wheels (k : Nat) (f : Dom → Dom) (s : State) : (State.modDom k f s).wheels = s.wheels := (rfl)
@[simp] theorem State.modDom_appts (k : Nat) (f : Dom → Dom) (s : State) : (State.modDom k f s).appts = s.appts := (rfl)
@[simp] theorem State.modDom_carding (k : Nat) (f : Dom → Dom) (s : State) : (State.modDom k f s).carding = s.carding := (rfl)
@[simp] theorem State.modDom_bramble (k : Nat) (f : Dom → Dom) (s : State) : (State.modDom k f s).bramble = s.bramble := (rfl)
@[simp] theorem State.modDom_control (k : Nat) (f : Dom → Dom) (s : State) : (State.modDom k f s).control = s.control := (rfl)
@[simp] theorem State.modDom_serial (k : Nat) (f : Dom → Dom) (s : State) : (State.modDom k f s).serial = s.serial := (rfl)
@[simp] theorem State.modDom_analog (k : Nat) (f : Dom → Dom) (s : State) : (State.modDom k f s).analog = s.analog := (rfl)
@[simp] theorem State.modDom_eth (k : Nat) (f : Dom → Dom) (s : State) : (State.modDom k f s).eth = s.eth := (rfl)
@[simp] theorem State.modDom_can (k : Nat) (f : Dom → Dom) (s : State) : (State.modDom k f s).can = s.can := (rfl)
@[simp] theorem State.modDom_canOpen (k : Nat) (f : Dom → Dom) (s : State) : (State.modDom k f s).canOpen = s.canOpen := (rfl)
@[simp] theorem State.modDom_fabric (k : Nat) (f : Dom → Dom) (s : State) : (State.modDom k f s).fabric = s.fabric := (rfl)
@[simp] theorem State.modDom_journal (k : Nat) (f : Dom → Dom) (s : State) : (State.modDom k f s).journal = s.journal := (rfl)
@[simp] theorem State.modDom_dict (k : Nat) (f : Dom → Dom) (s : State) : (State.modDom k f s).dict = s.dict := (rfl)
@[simp] theorem State.modDom_cycle (k : Nat) (f : Dom → Dom) (s : State) : (State.modDom k f s).cycle = s.cycle := (rfl)
@[simp] theorem State.modDom_health (k : Nat) (f : Dom → Dom) (s : State) : (State.modDom k f s).health = s.health := (rfl)
@[simp] theorem State.modDom_twin (k : Nat) (f : Dom → Dom) (s : State) : (State.modDom k f s).twin = s.twin := (rfl)
@[simp] theorem State.modDom_boot (k : Nat) (f : Dom → Dom) (s : State) : (State.modDom k f s).boot = s.boot := (rfl)
@[simp] theorem State.modDom_pending (k : Nat) (f : Dom → Dom) (s : State) : (State.modDom k f s).pending = s.pending := (rfl)
@[simp] theorem State.modDom_ci (k : Nat) (f : Dom → Dom) (x y z : Nat) (s : State) : (State.modDom k f s).ci x y z = s.ci x y z := (rfl)
@[simp] theorem State.modDom_cn (k : Nat) (f : Dom → Dom) (x y z : Nat) (s : State) : (State.modDom k f s).cn x y z = s.cn x y z := (rfl)
@[simp] theorem State.modDom_ct (k : Nat) (f : Dom → Dom) (x y z : Nat) (s : State) : (State.modDom k f s).ct x y z = s.ct x y z := (rfl)
@[simp] theorem State.modDom_cr (k : Nat) (f : Dom → Dom) (x y z : Nat) (s : State) : (State.modDom k f s).cr x y z = s.cr x y z := (rfl)
@[simp] theorem State.modDom_time (k : Nat) (f : Dom → Dom) (s : State) : (State.modDom k f s).time = s.time := (rfl)

/-! ### modEp -/

@[simp] theorem State.modEp_now (k : Nat) (f : EPort → EPort) (s : State) : (State.modEp k f s).now = s.now := (rfl)
@[simp] theorem State.modEp_fc (k : Nat) (f : EPort → EPort) (s : State) : (State.modEp k f s).fc = s.fc := (rfl)
@[simp] theorem State.modEp_fabricZero (k : Nat) (f : EPort → EPort) (s : State) : (State.modEp k f s).fabricZero = s.fabricZero := (rfl)
@[simp] theorem State.modEp_free (k : Nat) (f : EPort → EPort) (s : State) : (State.modEp k f s).free = s.free := (rfl)
@[simp] theorem State.modEp_cfg (k : Nat) (f : EPort → EPort) (s : State) : (State.modEp k f s).cfg = s.cfg := (rfl)
@[simp] theorem State.modEp_stats (k : Nat) (f : EPort → EPort) (s : State) : (State.modEp k f s).stats = s.stats := (rfl)
@[simp] theorem State.modEp_wheels (k : Nat) (f : EPort → EPort) (s : State) : (State.modEp k f s).wheels = s.wheels := (rfl)
@[simp] theorem State.modEp_appts (k : Nat) (f : EPort → EPort) (s : State) : (State.modEp k f s).appts = s.appts := (rfl)
@[simp] theorem State.modEp_carding (k : Nat) (f : EPort → EPort) (s : State) : (State.modEp k f s).carding = s.carding := (rfl)
@[simp] theorem State.modEp_bramble (k : Nat) (f : EPort → EPort) (s : State) : (State.modEp k f s).bramble = s.bramble := (rfl)
@[simp] theorem State.modEp_control (k : Nat) (f : EPort → EPort) (s : State) : (State.modEp k f s).control = s.control := (rfl)
@[simp] theorem State.modEp_serial (k : Nat) (f : EPort → EPort) (s : State) : (State.modEp k f s).serial = s.serial := (rfl)
@[simp] theorem State.modEp_analog (k : Nat) (f : EPort → EPort) (s : State) : (State.modEp k f s).analog = s.analog := (rfl)
@[simp] theorem State.modEp_can (k : Nat) (f : EPort → EPort) (s : State) : (State.modEp k f s).can = s.can := (rfl)
@[simp] theorem State.modEp_canOpen (k : Nat) (f : EPort → EPort) (s : State) : (State.modEp k f s).canOpen = s.canOpen := (rfl)
@[simp] theorem State.modEp_fabric (k : Nat) (f : EPort → EPort) (s : State) : (State.modEp k f s).fabric = s.fabric := (rfl)
@[simp] theorem State.modEp_journal (k : Nat) (f : EPort → EPort) (s : State) : (State.modEp k f s).journal = s.journal := (rfl)
@[simp] theorem State.modEp_dict (k : Nat) (f : EPort → EPort) (s : State) : (State.modEp k f s).dict = s.dict := (rfl)
@[simp] theorem State.modEp_cycle (k : Nat) (f : EPort → EPort) (s : State) : (State.modEp k f s).cycle = s.cycle := (rfl)
@[simp] theorem State.modEp_health (k : Nat) (f : EPort → EPort) (s : State) : (State.modEp k f s).health = s.health := (rfl)
@[simp] theorem State.modEp_twin (k : Nat) (f : EPort → EPort) (s : State) : (State.modEp k f s).twin = s.twin := (rfl)
@[simp] theorem State.modEp_boot (k : Nat) (f : EPort → EPort) (s : State) : (State.modEp k f s).boot = s.boot := (rfl)
@[simp] theorem State.modEp_power (k : Nat) (f : EPort → EPort) (s : State) : (State.modEp k f s).power = s.power := (rfl)
@[simp] theorem State.modEp_pending (k : Nat) (f : EPort → EPort) (s : State) : (State.modEp k f s).pending = s.pending := (rfl)
@[simp] theorem State.modEp_ci (k : Nat) (f : EPort → EPort) (x y z : Nat) (s : State) : (State.modEp k f s).ci x y z = s.ci x y z := (rfl)
@[simp] theorem State.modEp_cn (k : Nat) (f : EPort → EPort) (x y z : Nat) (s : State) : (State.modEp k f s).cn x y z = s.cn x y z := (rfl)
@[simp] theorem State.modEp_ct (k : Nat) (f : EPort → EPort) (x y z : Nat) (s : State) : (State.modEp k f s).ct x y z = s.ct x y z := (rfl)
@[simp] theorem State.modEp_cr (k : Nat) (f : EPort → EPort) (x y z : Nat) (s : State) : (State.modEp k f s).cr x y z = s.cr x y z := (rfl)
@[simp] theorem State.modEp_up (k : Nat) (f : EPort → EPort) (d : Nat) (s : State) : (State.modEp k f s).up d = s.up d := (rfl)
@[simp] theorem State.modEp_works (k : Nat) (f : EPort → EPort) (d : Nat) (s : State) : State.works d (State.modEp k f s) = State.works d s := (rfl)
@[simp] theorem State.modEp_time (k : Nat) (f : EPort → EPort) (s : State) : (State.modEp k f s).time = s.time := (rfl)
@[simp] theorem State.ep_modEp (k : Nat) (f : EPort → EPort) (q : Nat) (s : State) : (State.modEp k f s).ep q = if q = k then f (s.ep k) else s.ep q :=
  Tbl.get_mod ..

/-! ### modQue -/

@[simp] theorem State.modQue_now (k : Nat) (f : Queue → Queue) (s : State) : (State.modQue k f s).now = s.now := (rfl)
@[simp] theorem State.modQue_fc (k : Nat) (f : Queue → Queue) (s : State) : (State.modQue k f s).fc = s.fc := (rfl)
@[simp] theorem State.modQue_fabricZero (k : Nat) (f : Queue → Queue) (s : State) : (State.modQue k f s).fabricZero = s.fabricZero := (rfl)
@[simp] theorem State.modQue_free (k : Nat) (f : Queue → Queue) (s : State) : (State.modQue k f s).free = s.free := (rfl)
@[simp] theorem State.modQue_cfg (k : Nat) (f : Queue → Queue) (s : State) : (State.modQue k f s).cfg = s.cfg := (rfl)
@[simp] theorem State.modQue_stats (k : Nat) (f : Queue → Queue) (s : State) : (State.modQue k f s).stats = s.stats := (rfl)
@[simp] theorem State.modQue_wheels (k : Nat) (f : Queue → Queue) (s : State) : (State.modQue k f s).wheels = s.wheels := (rfl)
@[simp] theorem State.modQue_appts (k : Nat) (f : Queue → Queue) (s : State) : (State.modQue k f s).appts = s.appts := (rfl)
@[simp] theorem State.modQue_carding (k : Nat) (f : Queue → Queue) (s : State) : (State.modQue k f s).carding = s.carding := (rfl)
@[simp] theorem State.modQue_bramble (k : Nat) (f : Queue → Queue) (s : State) : (State.modQue k f s).bramble = s.bramble := (rfl)
@[simp] theorem State.modQue_control (k : Nat) (f : Queue → Queue) (s : State) : (State.modQue k f s).control = s.control := (rfl)
@[simp] theorem State.modQue_serial (k : Nat) (f : Queue → Queue) (s : State) : (State.modQue k f s).serial = s.serial := (rfl)
@[simp] theorem State.modQue_analog (k : Nat) (f : Queue → Queue) (s : State) : (State.modQue k f s).analog = s.analog := (rfl)
@[simp] theorem State.modQue_eth (k : Nat) (f : Queue → Queue) (s : State) : (State.modQue k f s).eth = s.eth := (rfl)
@[simp] theorem State.modQue_can (k : Nat) (f : Queue → Queue) (s : State) : (State.modQue k f s).can = s.can := (rfl)
@[simp] theorem State.modQue_canOpen (k : Nat) (f : Queue → Queue) (s : State) : (State.modQue k f s).canOpen = s.canOpen := (rfl)
@[simp] theorem State.modQue_journal (k : Nat) (f : Queue → Queue) (s : State) : (State.modQue k f s).journal = s.journal := (rfl)
@[simp] theorem State.modQue_dict (k : Nat) (f : Queue → Queue) (s : State) : (State.modQue k f s).dict = s.dict := (rfl)
@[simp] theorem State.modQue_cycle (k : Nat) (f : Queue → Queue) (s : State) : (State.modQue k f s).cycle = s.cycle := (rfl)
@[simp] theorem State.modQue_health (k : Nat) (f : Queue → Queue) (s : State) : (State.modQue k f s).health = s.health := (rfl)
@[simp] theorem State.modQue_twin (k : Nat) (f : Queue → Queue) (s : State) : (State.modQue k f s).twin = s.twin := (rfl)
@[simp] theorem State.modQue_boot (k : Nat) (f : Queue → Queue) (s : State) : (State.modQue k f s).boot = s.boot := (rfl)
@[simp] theorem State.modQue_power (k : Nat) (f : Queue → Queue) (s : State) : (State.modQue k f s).power = s.power := (rfl)
@[simp] theorem State.modQue_pending (k : Nat) (f : Queue → Queue) (s : State) : (State.modQue k f s).pending = s.pending := (rfl)
@[simp] theorem State.modQue_ci (k : Nat) (f : Queue → Queue) (x y z : Nat) (s : State) : (State.modQue k f s).ci x y z = s.ci x y z := (rfl)
@[simp] theorem State.modQue_cn (k : Nat) (f : Queue → Queue) (x y z : Nat) (s : State) : (State.modQue k f s).cn x y z = s.cn x y z := (rfl)
@[simp] theorem State.modQue_ct (k : Nat) (f : Queue → Queue) (x y z : Nat) (s : State) : (State.modQue k f s).ct x y z = s.ct x y z := (rfl)
@[simp] theorem State.modQue_cr (k : Nat) (f : Queue → Queue) (x y z : Nat) (s : State) : (State.modQue k f s).cr x y z = s.cr x y z := (rfl)
@[simp] theorem State.modQue_up (k : Nat) (f : Queue → Queue) (d : Nat) (s : State) : (State.modQue k f s).up d = s.up d := (rfl)
@[simp] theorem State.modQue_works (k : Nat) (f : Queue → Queue) (d : Nat) (s : State) : State.works d (State.modQue k f s) = State.works d s := (rfl)
@[simp] theorem State.modQue_time (k : Nat) (f : Queue → Queue) (s : State) : (State.modQue k f s).time = s.time := (rfl)
@[simp] theorem State.que_modQue (k : Nat) (f : Queue → Queue) (q : Nat) (s : State) : (State.modQue k f s).que q = if q = k then f (s.que k) else s.que q :=
  Tbl.get_mod ..

/-! ### modGrp -/

@[simp] theorem State.modGrp_now (k : Nat) (f : GroupRow → GroupRow) (s : State) : (State.modGrp k f s).now = s.now := (rfl)
@[simp] theorem State.modGrp_fc (k : Nat) (f : GroupRow → GroupRow) (s : State) : (State.modGrp k f s).fc = s.fc := (rfl)
@[simp] theorem State.modGrp_fabricZero (k : Nat) (f : GroupRow → GroupRow) (s : State) : (State.modGrp k f s).fabricZero = s.fabricZero := (rfl)
@[simp] theorem State.modGrp_free (k : Nat) (f : GroupRow → GroupRow) (s : State) : (State.modGrp k f s).free = s.free := (rfl)
@[simp] theorem State.modGrp_cfg (k : Nat) (f : GroupRow → GroupRow) (s : State) : (State.modGrp k f s).cfg = s.cfg := (rfl)
@[simp] theorem State.modGrp_stats (k : Nat) (f : GroupRow → GroupRow) (s : State) : (State.modGrp k f s).stats = s.stats := (rfl)
@[simp] theorem State.modGrp_wheels (k : Nat) (f : GroupRow → GroupRow) (s : State) : (State.modGrp k f s).wheels = s.wheels := (rfl)
@[simp] theorem State.modGrp_appts (k : Nat) (f : GroupRow → GroupRow) (s : State) : (State.modGrp k f s).appts = s.appts := (rfl)
@[simp] theorem State.modGrp_bramble (k : Nat) (f : GroupRow → GroupRow) (s : State) : (State.modGrp k f s).bramble = s.bramble := (rfl)
@[simp] theorem State.modGrp_control (k : Nat) (f : GroupRow → GroupRow) (s : State) : (State.modGrp k f s).control = s.control := (rfl)
@[simp] theorem State.modGrp_serial (k : Nat) (f : GroupRow → GroupRow) (s : State) : (State.modGrp k f s).serial = s.serial := (rfl)
@[simp] theorem State.modGrp_analog (k : Nat) (f : GroupRow → GroupRow) (s : State) : (State.modGrp k f s).analog = s.analog := (rfl)
@[simp] theorem State.modGrp_eth (k : Nat) (f : GroupRow → GroupRow) (s : State) : (State.modGrp k f s).eth = s.eth := (rfl)
@[simp] theorem State.modGrp_can (k : Nat) (f : GroupRow → GroupRow) (s : State) : (State.modGrp k f s).can = s.can := (rfl)
@[simp] theorem State.modGrp_canOpen (k : Nat) (f : GroupRow → GroupRow) (s : State) : (State.modGrp k f s).canOpen = s.canOpen := (rfl)
@[simp] theorem State.modGrp_fabric (k : Nat) (f : GroupRow → GroupRow) (s : State) : (State.modGrp k f s).fabric = s.fabric := (rfl)
@[simp] theorem State.modGrp_journal (k : Nat) (f : GroupRow → GroupRow) (s : State) : (State.modGrp k f s).journal = s.journal := (rfl)
@[simp] theorem State.modGrp_dict (k : Nat) (f : GroupRow → GroupRow) (s : State) : (State.modGrp k f s).dict = s.dict := (rfl)
@[simp] theorem State.modGrp_cycle (k : Nat) (f : GroupRow → GroupRow) (s : State) : (State.modGrp k f s).cycle = s.cycle := (rfl)
@[simp] theorem State.modGrp_health (k : Nat) (f : GroupRow → GroupRow) (s : State) : (State.modGrp k f s).health = s.health := (rfl)
@[simp] theorem State.modGrp_twin (k : Nat) (f : GroupRow → GroupRow) (s : State) : (State.modGrp k f s).twin = s.twin := (rfl)
@[simp] theorem State.modGrp_boot (k : Nat) (f : GroupRow → GroupRow) (s : State) : (State.modGrp k f s).boot = s.boot := (rfl)
@[simp] theorem State.modGrp_power (k : Nat) (f : GroupRow → GroupRow) (s : State) : (State.modGrp k f s).power = s.power := (rfl)
@[simp] theorem State.modGrp_pending (k : Nat) (f : GroupRow → GroupRow) (s : State) : (State.modGrp k f s).pending = s.pending := (rfl)
@[simp] theorem State.modGrp_ci (k : Nat) (f : GroupRow → GroupRow) (x y z : Nat) (s : State) : (State.modGrp k f s).ci x y z = s.ci x y z := (rfl)
@[simp] theorem State.modGrp_cn (k : Nat) (f : GroupRow → GroupRow) (x y z : Nat) (s : State) : (State.modGrp k f s).cn x y z = s.cn x y z := (rfl)
@[simp] theorem State.modGrp_ct (k : Nat) (f : GroupRow → GroupRow) (x y z : Nat) (s : State) : (State.modGrp k f s).ct x y z = s.ct x y z := (rfl)
@[simp] theorem State.modGrp_cr (k : Nat) (f : GroupRow → GroupRow) (x y z : Nat) (s : State) : (State.modGrp k f s).cr x y z = s.cr x y z := (rfl)
@[simp] theorem State.modGrp_up (k : Nat) (f : GroupRow → GroupRow) (d : Nat) (s : State) : (State.modGrp k f s).up d = s.up d := (rfl)
@[simp] theorem State.modGrp_works (k : Nat) (f : GroupRow → GroupRow) (d : Nat) (s : State) : State.works d (State.modGrp k f s) = State.works d s := (rfl)
@[simp] theorem State.modGrp_time (k : Nat) (f : GroupRow → GroupRow) (s : State) : (State.modGrp k f s).time = s.time := (rfl)
@[simp] theorem State.grp_modGrp (k : Nat) (f : GroupRow → GroupRow) (q : Nat) (s : State) : (State.modGrp k f s).grp q = if q = k then f (s.grp k) else s.grp q :=
  Tbl.get_mod ..

/-! ### modClient -/

@[simp] theorem State.modClient_now (k : Nat) (f : Client → Client) (s : State) : (State.modClient k f s).now = s.now := (rfl)
@[simp] theorem State.modClient_fc (k : Nat) (f : Client → Client) (s : State) : (State.modClient k f s).fc = s.fc := (rfl)
@[simp] theorem State.modClient_fabricZero (k : Nat) (f : Client → Client) (s : State) : (State.modClient k f s).fabricZero = s.fabricZero := (rfl)
@[simp] theorem State.modClient_free (k : Nat) (f : Client → Client) (s : State) : (State.modClient k f s).free = s.free := (rfl)
@[simp] theorem State.modClient_cfg (k : Nat) (f : Client → Client) (s : State) : (State.modClient k f s).cfg = s.cfg := (rfl)
@[simp] theorem State.modClient_stats (k : Nat) (f : Client → Client) (s : State) : (State.modClient k f s).stats = s.stats := (rfl)
@[simp] theorem State.modClient_wheels (k : Nat) (f : Client → Client) (s : State) : (State.modClient k f s).wheels = s.wheels := (rfl)
@[simp] theorem State.modClient_appts (k : Nat) (f : Client → Client) (s : State) : (State.modClient k f s).appts = s.appts := (rfl)
@[simp] theorem State.modClient_carding (k : Nat) (f : Client → Client) (s : State) : (State.modClient k f s).carding = s.carding := (rfl)
@[simp] theorem State.modClient_bramble (k : Nat) (f : Client → Client) (s : State) : (State.modClient k f s).bramble = s.bramble := (rfl)
@[simp] theorem State.modClient_control (k : Nat) (f : Client → Client) (s : State) : (State.modClient k f s).control = s.control := (rfl)
@[simp] theorem State.modClient_serial (k : Nat) (f : Client → Client) (s : State) : (State.modClient k f s).serial = s.serial := (rfl)
@[simp] theorem State.modClient_analog (k : Nat) (f : Client → Client) (s : State) : (State.modClient k f s).analog = s.analog := (rfl)
@[simp] theorem State.modClient_eth (k : Nat) (f : Client → Client) (s : State) : (State.modClient k f s).eth = s.eth := (rfl)
@[simp] theorem State.modClient_can (k : Nat) (f : Client → Client) (s : State) : (State.modClient k f s).can = s.can := (rfl)
@[simp] theorem State.modClient_canOpen (k : Nat) (f : Client → Client) (s : State) : (State.modClient k f s).canOpen = s.canOpen := (rfl)
@[simp] theorem State.modClient_fabric (k : Nat) (f : Client → Client) (s : State) : (State.modClient k f s).fabric = s.fabric := (rfl)
@[simp] theorem State.modClient_journal (k : Nat) (f : Client → Client) (s : State) : (State.modClient k f s).journal = s.journal := (rfl)
@[simp] theorem State.modClient_cycle (k : Nat) (f : Client → Client) (s : State) : (State.modClient k f s).cycle = s.cycle := (rfl)
@[simp] theorem State.modClient_health (k : Nat) (f : Client → Client) (s : State) : (State.modClient k f s).health = s.health := (rfl)
@[simp] theorem State.modClient_twin (k : Nat) (f : Client → Client) (s : State) : (State.modClient k f s).twin = s.twin := (rfl)
@[simp] theorem State.modClient_boot (k : Nat) (f : Client → Client) (s : State) : (State.modClient k f s).boot = s.boot := (rfl)
@[simp] theorem State.modClient_power (k : Nat) (f : Client → Client) (s : State) : (State.modClient k f s).power = s.power := (rfl)
@[simp] theorem State.modClient_pending (k : Nat) (f : Client → Client) (s : State) : (State.modClient k f s).pending = s.pending := (rfl)
@[simp] theorem State.modClient_ci (k : Nat) (f : Client → Client) (x y z : Nat) (s : State) : (State.modClient k f s).ci x y z = s.ci x y z := (rfl)
@[simp] theorem State.modClient_cn (k : Nat) (f : Client → Client) (x y z : Nat) (s : State) : (State.modClient k f s).cn x y z = s.cn x y z := (rfl)
@[simp] theorem State.modClient_ct (k : Nat) (f : Client → Client) (x y z : Nat) (s : State) : (State.modClient k f s).ct x y z = s.ct x y z := (rfl)
@[simp] theorem State.modClient_cr (k : Nat) (f : Client → Client) (x y z : Nat) (s : State) : (State.modClient k f s).cr x y z = s.cr x y z := (rfl)
@[simp] theorem State.modClient_up (k : Nat) (f : Client → Client) (d : Nat) (s : State) : (State.modClient k f s).up d = s.up d := (rfl)
@[simp] theorem State.modClient_works (k : Nat) (f : Client → Client) (d : Nat) (s : State) : State.works d (State.modClient k f s) = State.works d s := (rfl)
@[simp] theorem State.modClient_time (k : Nat) (f : Client → Client) (s : State) : (State.modClient k f s).time = s.time := (rfl)

/-! ### setLoop -/

@[simp] theorem State.setLoop_now (f : Loop → Loop) (s : State) : (State.setLoop f s).now = s.now := (rfl)
@[simp] theorem State.setLoop_fc (f : Loop → Loop) (s : State) : (State.setLoop f s).fc = s.fc := (rfl)
@[simp] theorem State.setLoop_fabricZero (f : Loop → Loop) (s : State) : (State.setLoop f s).fabricZero = s.fabricZero := (rfl)
@[simp] theorem State.setLoop_free (f : Loop → Loop) (s : State) : (State.setLoop f s).free = s.free := (rfl)
@[simp] theorem State.setLoop_cfg (f : Loop → Loop) (s : State) : (State.setLoop f s).cfg = s.cfg := (rfl)
@[simp] theorem State.setLoop_stats (f : Loop → Loop) (s : State) : (State.setLoop f s).stats = s.stats := (rfl)
@[simp] theorem State.setLoop_appts (f : Loop → Loop) (s : State) : (State.setLoop f s).appts = s.appts := (rfl)
@[simp] theorem State.setLoop_carding (f : Loop → Loop) (s : State) : (State.setLoop f s).carding = s.carding := (rfl)
@[simp] theorem State.setLoop_bramble (f : Loop → Loop) (s : State) : (State.setLoop f s).bramble = s.bramble := (rfl)
@[simp] theorem State.setLoop_control (f : Loop → Loop) (s : State) : (State.setLoop f s).control = s.control := (rfl)
@[simp] theorem State.setLoop_serial (f : Loop → Loop) (s : State) : (State.setLoop f s).serial = s.serial := (rfl)
@[simp] theorem State.setLoop_analog (f : Loop → Loop) (s : State) : (State.setLoop f s).analog = s.analog := (rfl)
@[simp] theorem State.setLoop_eth (f : Loop → Loop) (s : State) : (State.setLoop f s).eth = s.eth := (rfl)
@[simp] theorem State.setLoop_can (f : Loop → Loop) (s : State) : (State.setLoop f s).can = s.can := (rfl)
@[simp] theorem State.setLoop_canOpen (f : Loop → Loop) (s : State) : (State.setLoop f s).canOpen = s.canOpen := (rfl)
@[simp] theorem State.setLoop_fabric (f : Loop → Loop) (s : State) : (State.setLoop f s).fabric = s.fabric := (rfl)
@[simp] theorem State.setLoop_journal (f : Loop → Loop) (s : State) : (State.setLoop f s).journal = s.journal := (rfl)
@[simp] theorem State.setLoop_dict (f : Loop → Loop) (s : State) : (State.setLoop f s).dict = s.dict := (rfl)
@[simp] theorem State.setLoop_cycle (f : Loop → Loop) (s : State) : (State.setLoop f s).cycle = s.cycle := (rfl)
@[simp] theorem State.setLoop_health (f : Loop → Loop) (s : State) : (State.setLoop f s).health = s.health := (rfl)
@[simp] theorem State.setLoop_twin (f : Loop → Loop) (s : State) : (State.setLoop f s).twin = s.twin := (rfl)
@[simp] theorem State.setLoop_boot (f : Loop → Loop) (s : State) : (State.setLoop f s).boot = s.boot := (rfl)
@[simp] theorem State.setLoop_power (f : Loop → Loop) (s : State) : (State.setLoop f s).power = s.power := (rfl)
@[simp] theorem State.setLoop_pending (f : Loop → Loop) (s : State) : (State.setLoop f s).pending = s.pending := (rfl)
@[simp] theorem State.setLoop_ci (f : Loop → Loop) (x y z : Nat) (s : State) : (State.setLoop f s).ci x y z = s.ci x y z := (rfl)
@[simp] theorem State.setLoop_cn (f : Loop → Loop) (x y z : Nat) (s : State) : (State.setLoop f s).cn x y z = s.cn x y z := (rfl)
@[simp] theorem State.setLoop_ct (f : Loop → Loop) (x y z : Nat) (s : State) : (State.setLoop f s).ct x y z = s.ct x y z := (rfl)
@[simp] theorem State.setLoop_cr (f : Loop → Loop) (x y z : Nat) (s : State) : (State.setLoop f s).cr x y z = s.cr x y z := (rfl)
@[simp] theorem State.setLoop_up (f : Loop → Loop) (d : Nat) (s : State) : (State.setLoop f s).up d = s.up d := (rfl)
@[simp] theorem State.setLoop_works (f : Loop → Loop) (d : Nat) (s : State) : State.works d (State.setLoop f s) = State.works d s := (rfl)

/-! ### modPps -/

@[simp] theorem State.modPps_now (f : Pps → Pps) (s : State) : (State.modPps f s).now = s.now := (rfl)
@[simp] theorem State.modPps_fc (f : Pps → Pps) (s : State) : (State.modPps f s).fc = s.fc := (rfl)
@[simp] theorem State.modPps_fabricZero (f : Pps → Pps) (s : State) : (State.modPps f s).fabricZero = s.fabricZero := (rfl)
@[simp] theorem State.modPps_free (f : Pps → Pps) (s : State) : (State.modPps f s).free = s.free := (rfl)
@[simp] theorem State.modPps_cfg (f : Pps → Pps) (s : State) : (State.modPps f s).cfg = s.cfg := (rfl)
@[simp] theorem State.modPps_stats (f : Pps → Pps) (s : State) : (State.modPps f s).stats = s.stats := (rfl)
@[simp] theorem State.modPps_appts (f : Pps → Pps) (s : State) : (State.modPps f s).appts = s.appts := (rfl)
@[simp] theorem State.modPps_carding (f : Pps → Pps) (s : State) : (State.modPps f s).carding = s.carding := (rfl)
@[simp] theorem State.modPps_bramble (f : Pps → Pps) (s : State) : (State.modPps f s).bramble = s.bramble := (rfl)
@[simp] theorem State.modPps_control (f : Pps → Pps) (s : State) : (State.modPps f s).control = s.control := (rfl)
@[simp] theorem State.modPps_serial (f : Pps → Pps) (s : State) : (State.modPps f s).serial = s.serial := (rfl)
@[simp] theorem State.modPps_analog (f : Pps → Pps) (s : State) : (State.modPps f s).analog = s.analog := (rfl)
@[simp] theorem State.modPps_eth (f : Pps → Pps) (s : State) : (State.modPps f s).eth = s.eth := (rfl)
@[simp] theorem State.modPps_can (f : Pps → Pps) (s : State) : (State.modPps f s).can = s.can := (rfl)
@[simp] theorem State.modPps_canOpen (f : Pps → Pps) (s : State) : (State.modPps f s).canOpen = s.canOpen := (rfl)
@[simp] theorem State.modPps_fabric (f : Pps → Pps) (s : State) : (State.modPps f s).fabric = s.fabric := (rfl)
@[simp] theorem State.modPps_journal (f : Pps → Pps) (s : State) : (State.modPps f s).journal = s.journal := (rfl)
@[simp] theorem State.modPps_dict (f : Pps → Pps) (s : State) : (State.modPps f s).dict = s.dict := (rfl)
@[simp] theorem State.modPps_cycle (f : Pps → Pps) (s : State) : (State.modPps f s).cycle = s.cycle := (rfl)
@[simp] theorem State.modPps_health (f : Pps → Pps) (s : State) : (State.modPps f s).health = s.health := (rfl)
@[simp] theorem State.modPps_twin (f : Pps → Pps) (s : State) : (State.modPps f s).twin = s.twin := (rfl)
@[simp] theorem State.modPps_boot (f : Pps → Pps) (s : State) : (State.modPps f s).boot = s.boot := (rfl)
@[simp] theorem State.modPps_power (f : Pps → Pps) (s : State) : (State.modPps f s).power = s.power := (rfl)
@[simp] theorem State.modPps_pending (f : Pps → Pps) (s : State) : (State.modPps f s).pending = s.pending := (rfl)
@[simp] theorem State.modPps_ci (f : Pps → Pps) (x y z : Nat) (s : State) : (State.modPps f s).ci x y z = s.ci x y z := (rfl)
@[simp] theorem State.modPps_cn (f : Pps → Pps) (x y z : Nat) (s : State) : (State.modPps f s).cn x y z = s.cn x y z := (rfl)
@[simp] theorem State.modPps_ct (f : Pps → Pps) (x y z : Nat) (s : State) : (State.modPps f s).ct x y z = s.ct x y z := (rfl)
@[simp] theorem State.modPps_cr (f : Pps → Pps) (x y z : Nat) (s : State) : (State.modPps f s).cr x y z = s.cr x y z := (rfl)
@[simp] theorem State.modPps_up (f : Pps → Pps) (d : Nat) (s : State) : (State.modPps f s).up d = s.up d := (rfl)
@[simp] theorem State.modPps_works (f : Pps → Pps) (d : Nat) (s : State) : State.works d (State.modPps f s) = State.works d s := (rfl)

/-! ### modEnc -/

@[simp] theorem State.modEnc_now (f : Shaft → Shaft) (s : State) : (State.modEnc f s).now = s.now := (rfl)
@[simp] theorem State.modEnc_fc (f : Shaft → Shaft) (s : State) : (State.modEnc f s).fc = s.fc := (rfl)
@[simp] theorem State.modEnc_fabricZero (f : Shaft → Shaft) (s : State) : (State.modEnc f s).fabricZero = s.fabricZero := (rfl)
@[simp] theorem State.modEnc_free (f : Shaft → Shaft) (s : State) : (State.modEnc f s).free = s.free := (rfl)
@[simp] theorem State.modEnc_cfg (f : Shaft → Shaft) (s : State) : (State.modEnc f s).cfg = s.cfg := (rfl)
@[simp] theorem State.modEnc_stats (f : Shaft → Shaft) (s : State) : (State.modEnc f s).stats = s.stats := (rfl)
@[simp] theorem State.modEnc_appts (f : Shaft → Shaft) (s : State) : (State.modEnc f s).appts = s.appts := (rfl)
@[simp] theorem State.modEnc_carding (f : Shaft → Shaft) (s : State) : (State.modEnc f s).carding = s.carding := (rfl)
@[simp] theorem State.modEnc_bramble (f : Shaft → Shaft) (s : State) : (State.modEnc f s).bramble = s.bramble := (rfl)
@[simp] theorem State.modEnc_control (f : Shaft → Shaft) (s : State) : (State.modEnc f s).control = s.control := (rfl)
@[simp] theorem State.modEnc_serial (f : Shaft → Shaft) (s : State) : (State.modEnc f s).serial = s.serial := (rfl)
@[simp] theorem State.modEnc_analog (f : Shaft → Shaft) (s : State) : (State.modEnc f s).analog = s.analog := (rfl)
@[simp] theorem State.modEnc_eth (f : Shaft → Shaft) (s : State) : (State.modEnc f s).eth = s.eth := (rfl)
@[simp] theorem State.modEnc_can (f : Shaft → Shaft) (s : State) : (State.modEnc f s).can = s.can := (rfl)
@[simp] theorem State.modEnc_canOpen (f : Shaft → Shaft) (s : State) : (State.modEnc f s).canOpen = s.canOpen := (rfl)
@[simp] theorem State.modEnc_fabric (f : Shaft → Shaft) (s : State) : (State.modEnc f s).fabric = s.fabric := (rfl)
@[simp] theorem State.modEnc_journal (f : Shaft → Shaft) (s : State) : (State.modEnc f s).journal = s.journal := (rfl)
@[simp] theorem State.modEnc_dict (f : Shaft → Shaft) (s : State) : (State.modEnc f s).dict = s.dict := (rfl)
@[simp] theorem State.modEnc_cycle (f : Shaft → Shaft) (s : State) : (State.modEnc f s).cycle = s.cycle := (rfl)
@[simp] theorem State.modEnc_health (f : Shaft → Shaft) (s : State) : (State.modEnc f s).health = s.health := (rfl)
@[simp] theorem State.modEnc_twin (f : Shaft → Shaft) (s : State) : (State.modEnc f s).twin = s.twin := (rfl)
@[simp] theorem State.modEnc_boot (f : Shaft → Shaft) (s : State) : (State.modEnc f s).boot = s.boot := (rfl)
@[simp] theorem State.modEnc_power (f : Shaft → Shaft) (s : State) : (State.modEnc f s).power = s.power := (rfl)
@[simp] theorem State.modEnc_pending (f : Shaft → Shaft) (s : State) : (State.modEnc f s).pending = s.pending := (rfl)
@[simp] theorem State.modEnc_ci (f : Shaft → Shaft) (x y z : Nat) (s : State) : (State.modEnc f s).ci x y z = s.ci x y z := (rfl)
@[simp] theorem State.modEnc_cn (f : Shaft → Shaft) (x y z : Nat) (s : State) : (State.modEnc f s).cn x y z = s.cn x y z := (rfl)
@[simp] theorem State.modEnc_ct (f : Shaft → Shaft) (x y z : Nat) (s : State) : (State.modEnc f s).ct x y z = s.ct x y z := (rfl)
@[simp] theorem State.modEnc_cr (f : Shaft → Shaft) (x y z : Nat) (s : State) : (State.modEnc f s).cr x y z = s.cr x y z := (rfl)
@[simp] theorem State.modEnc_up (f : Shaft → Shaft) (d : Nat) (s : State) : (State.modEnc f s).up d = s.up d := (rfl)
@[simp] theorem State.modEnc_works (f : Shaft → Shaft) (d : Nat) (s : State) : State.works d (State.modEnc f s) = State.works d s := (rfl)

/-! ### modMains -/

@[simp] theorem State.modMains_now (f : Mains → Mains) (s : State) : (State.modMains f s).now = s.now := (rfl)
@[simp] theorem State.modMains_fc (f : Mains → Mains) (s : State) : (State.modMains f s).fc = s.fc := (rfl)
@[simp] theorem State.modMains_fabricZero (f : Mains → Mains) (s : State) : (State.modMains f s).fabricZero = s.fabricZero := (rfl)
@[simp] theorem State.modMains_free (f : Mains → Mains) (s : State) : (State.modMains f s).free = s.free := (rfl)
@[simp] theorem State.modMains_cfg (f : Mains → Mains) (s : State) : (State.modMains f s).cfg = s.cfg := (rfl)
@[simp] theorem State.modMains_stats (f : Mains → Mains) (s : State) : (State.modMains f s).stats = s.stats := (rfl)
@[simp] theorem State.modMains_appts (f : Mains → Mains) (s : State) : (State.modMains f s).appts = s.appts := (rfl)
@[simp] theorem State.modMains_carding (f : Mains → Mains) (s : State) : (State.modMains f s).carding = s.carding := (rfl)
@[simp] theorem State.modMains_bramble (f : Mains → Mains) (s : State) : (State.modMains f s).bramble = s.bramble := (rfl)
@[simp] theorem State.modMains_control (f : Mains → Mains) (s : State) : (State.modMains f s).control = s.control := (rfl)
@[simp] theorem State.modMains_serial (f : Mains → Mains) (s : State) : (State.modMains f s).serial = s.serial := (rfl)
@[simp] theorem State.modMains_analog (f : Mains → Mains) (s : State) : (State.modMains f s).analog = s.analog := (rfl)
@[simp] theorem State.modMains_eth (f : Mains → Mains) (s : State) : (State.modMains f s).eth = s.eth := (rfl)
@[simp] theorem State.modMains_can (f : Mains → Mains) (s : State) : (State.modMains f s).can = s.can := (rfl)
@[simp] theorem State.modMains_canOpen (f : Mains → Mains) (s : State) : (State.modMains f s).canOpen = s.canOpen := (rfl)
@[simp] theorem State.modMains_fabric (f : Mains → Mains) (s : State) : (State.modMains f s).fabric = s.fabric := (rfl)
@[simp] theorem State.modMains_journal (f : Mains → Mains) (s : State) : (State.modMains f s).journal = s.journal := (rfl)
@[simp] theorem State.modMains_dict (f : Mains → Mains) (s : State) : (State.modMains f s).dict = s.dict := (rfl)
@[simp] theorem State.modMains_cycle (f : Mains → Mains) (s : State) : (State.modMains f s).cycle = s.cycle := (rfl)
@[simp] theorem State.modMains_health (f : Mains → Mains) (s : State) : (State.modMains f s).health = s.health := (rfl)
@[simp] theorem State.modMains_twin (f : Mains → Mains) (s : State) : (State.modMains f s).twin = s.twin := (rfl)
@[simp] theorem State.modMains_boot (f : Mains → Mains) (s : State) : (State.modMains f s).boot = s.boot := (rfl)
@[simp] theorem State.modMains_power (f : Mains → Mains) (s : State) : (State.modMains f s).power = s.power := (rfl)
@[simp] theorem State.modMains_pending (f : Mains → Mains) (s : State) : (State.modMains f s).pending = s.pending := (rfl)
@[simp] theorem State.modMains_ci (f : Mains → Mains) (x y z : Nat) (s : State) : (State.modMains f s).ci x y z = s.ci x y z := (rfl)
@[simp] theorem State.modMains_cn (f : Mains → Mains) (x y z : Nat) (s : State) : (State.modMains f s).cn x y z = s.cn x y z := (rfl)
@[simp] theorem State.modMains_ct (f : Mains → Mains) (x y z : Nat) (s : State) : (State.modMains f s).ct x y z = s.ct x y z := (rfl)
@[simp] theorem State.modMains_cr (f : Mains → Mains) (x y z : Nat) (s : State) : (State.modMains f s).cr x y z = s.cr x y z := (rfl)
@[simp] theorem State.modMains_up (f : Mains → Mains) (d : Nat) (s : State) : (State.modMains f s).up d = s.up d := (rfl)
@[simp] theorem State.modMains_works (f : Mains → Mains) (d : Nat) (s : State) : State.works d (State.modMains f s) = State.works d s := (rfl)

/-! ### modSea -/

@[simp] theorem State.modSea_now (f : Sea → Sea) (s : State) : (State.modSea f s).now = s.now := (rfl)
@[simp] theorem State.modSea_fc (f : Sea → Sea) (s : State) : (State.modSea f s).fc = s.fc := (rfl)
@[simp] theorem State.modSea_fabricZero (f : Sea → Sea) (s : State) : (State.modSea f s).fabricZero = s.fabricZero := (rfl)
@[simp] theorem State.modSea_free (f : Sea → Sea) (s : State) : (State.modSea f s).free = s.free := (rfl)
@[simp] theorem State.modSea_cfg (f : Sea → Sea) (s : State) : (State.modSea f s).cfg = s.cfg := (rfl)
@[simp] theorem State.modSea_stats (f : Sea → Sea) (s : State) : (State.modSea f s).stats = s.stats := (rfl)
@[simp] theorem State.modSea_appts (f : Sea → Sea) (s : State) : (State.modSea f s).appts = s.appts := (rfl)
@[simp] theorem State.modSea_carding (f : Sea → Sea) (s : State) : (State.modSea f s).carding = s.carding := (rfl)
@[simp] theorem State.modSea_bramble (f : Sea → Sea) (s : State) : (State.modSea f s).bramble = s.bramble := (rfl)
@[simp] theorem State.modSea_control (f : Sea → Sea) (s : State) : (State.modSea f s).control = s.control := (rfl)
@[simp] theorem State.modSea_serial (f : Sea → Sea) (s : State) : (State.modSea f s).serial = s.serial := (rfl)
@[simp] theorem State.modSea_analog (f : Sea → Sea) (s : State) : (State.modSea f s).analog = s.analog := (rfl)
@[simp] theorem State.modSea_eth (f : Sea → Sea) (s : State) : (State.modSea f s).eth = s.eth := (rfl)
@[simp] theorem State.modSea_can (f : Sea → Sea) (s : State) : (State.modSea f s).can = s.can := (rfl)
@[simp] theorem State.modSea_canOpen (f : Sea → Sea) (s : State) : (State.modSea f s).canOpen = s.canOpen := (rfl)
@[simp] theorem State.modSea_fabric (f : Sea → Sea) (s : State) : (State.modSea f s).fabric = s.fabric := (rfl)
@[simp] theorem State.modSea_journal (f : Sea → Sea) (s : State) : (State.modSea f s).journal = s.journal := (rfl)
@[simp] theorem State.modSea_dict (f : Sea → Sea) (s : State) : (State.modSea f s).dict = s.dict := (rfl)
@[simp] theorem State.modSea_cycle (f : Sea → Sea) (s : State) : (State.modSea f s).cycle = s.cycle := (rfl)
@[simp] theorem State.modSea_health (f : Sea → Sea) (s : State) : (State.modSea f s).health = s.health := (rfl)
@[simp] theorem State.modSea_twin (f : Sea → Sea) (s : State) : (State.modSea f s).twin = s.twin := (rfl)
@[simp] theorem State.modSea_boot (f : Sea → Sea) (s : State) : (State.modSea f s).boot = s.boot := (rfl)
@[simp] theorem State.modSea_power (f : Sea → Sea) (s : State) : (State.modSea f s).power = s.power := (rfl)
@[simp] theorem State.modSea_pending (f : Sea → Sea) (s : State) : (State.modSea f s).pending = s.pending := (rfl)
@[simp] theorem State.modSea_ci (f : Sea → Sea) (x y z : Nat) (s : State) : (State.modSea f s).ci x y z = s.ci x y z := (rfl)
@[simp] theorem State.modSea_cn (f : Sea → Sea) (x y z : Nat) (s : State) : (State.modSea f s).cn x y z = s.cn x y z := (rfl)
@[simp] theorem State.modSea_ct (f : Sea → Sea) (x y z : Nat) (s : State) : (State.modSea f s).ct x y z = s.ct x y z := (rfl)
@[simp] theorem State.modSea_cr (f : Sea → Sea) (x y z : Nat) (s : State) : (State.modSea f s).cr x y z = s.cr x y z := (rfl)
@[simp] theorem State.modSea_up (f : Sea → Sea) (d : Nat) (s : State) : (State.modSea f s).up d = s.up d := (rfl)
@[simp] theorem State.modSea_works (f : Sea → Sea) (d : Nat) (s : State) : State.works d (State.modSea f s) = State.works d s := (rfl)

/-! ### setInc -/

@[simp] theorem State.setInc_now (w : Nat) (i : Int) (s : State) : (State.setInc w i s).now = s.now := (rfl)
@[simp] theorem State.setInc_fc (w : Nat) (i : Int) (s : State) : (State.setInc w i s).fc = s.fc := (rfl)
@[simp] theorem State.setInc_fabricZero (w : Nat) (i : Int) (s : State) : (State.setInc w i s).fabricZero = s.fabricZero := (rfl)
@[simp] theorem State.setInc_free (w : Nat) (i : Int) (s : State) : (State.setInc w i s).free = s.free := (rfl)
@[simp] theorem State.setInc_cfg (w : Nat) (i : Int) (s : State) : (State.setInc w i s).cfg = s.cfg := (rfl)
@[simp] theorem State.setInc_stats (w : Nat) (i : Int) (s : State) : (State.setInc w i s).stats = s.stats := (rfl)
@[simp] theorem State.setInc_appts (w : Nat) (i : Int) (s : State) : (State.setInc w i s).appts = s.appts := (rfl)
@[simp] theorem State.setInc_carding (w : Nat) (i : Int) (s : State) : (State.setInc w i s).carding = s.carding := (rfl)
@[simp] theorem State.setInc_bramble (w : Nat) (i : Int) (s : State) : (State.setInc w i s).bramble = s.bramble := (rfl)
@[simp] theorem State.setInc_control (w : Nat) (i : Int) (s : State) : (State.setInc w i s).control = s.control := (rfl)
@[simp] theorem State.setInc_serial (w : Nat) (i : Int) (s : State) : (State.setInc w i s).serial = s.serial := (rfl)
@[simp] theorem State.setInc_analog (w : Nat) (i : Int) (s : State) : (State.setInc w i s).analog = s.analog := (rfl)
@[simp] theorem State.setInc_eth (w : Nat) (i : Int) (s : State) : (State.setInc w i s).eth = s.eth := (rfl)
@[simp] theorem State.setInc_can (w : Nat) (i : Int) (s : State) : (State.setInc w i s).can = s.can := (rfl)
@[simp] theorem State.setInc_canOpen (w : Nat) (i : Int) (s : State) : (State.setInc w i s).canOpen = s.canOpen := (rfl)
@[simp] theorem State.setInc_fabric (w : Nat) (i : Int) (s : State) : (State.setInc w i s).fabric = s.fabric := (rfl)
@[simp] theorem State.setInc_journal (w : Nat) (i : Int) (s : State) : (State.setInc w i s).journal = s.journal := (rfl)
@[simp] theorem State.setInc_dict (w : Nat) (i : Int) (s : State) : (State.setInc w i s).dict = s.dict := (rfl)
@[simp] theorem State.setInc_cycle (w : Nat) (i : Int) (s : State) : (State.setInc w i s).cycle = s.cycle := (rfl)
@[simp] theorem State.setInc_health (w : Nat) (i : Int) (s : State) : (State.setInc w i s).health = s.health := (rfl)
@[simp] theorem State.setInc_twin (w : Nat) (i : Int) (s : State) : (State.setInc w i s).twin = s.twin := (rfl)
@[simp] theorem State.setInc_boot (w : Nat) (i : Int) (s : State) : (State.setInc w i s).boot = s.boot := (rfl)
@[simp] theorem State.setInc_power (w : Nat) (i : Int) (s : State) : (State.setInc w i s).power = s.power := (rfl)
@[simp] theorem State.setInc_pending (w : Nat) (i : Int) (s : State) : (State.setInc w i s).pending = s.pending := (rfl)
@[simp] theorem State.setInc_ci (w : Nat) (i : Int) (x y z : Nat) (s : State) : (State.setInc w i s).ci x y z = s.ci x y z := (rfl)
@[simp] theorem State.setInc_cn (w : Nat) (i : Int) (x y z : Nat) (s : State) : (State.setInc w i s).cn x y z = s.cn x y z := (rfl)
@[simp] theorem State.setInc_ct (w : Nat) (i : Int) (x y z : Nat) (s : State) : (State.setInc w i s).ct x y z = s.ct x y z := (rfl)
@[simp] theorem State.setInc_cr (w : Nat) (i : Int) (x y z : Nat) (s : State) : (State.setInc w i s).cr x y z = s.cr x y z := (rfl)
@[simp] theorem State.setInc_up (w : Nat) (i : Int) (d : Nat) (s : State) : (State.setInc w i s).up d = s.up d := (rfl)
@[simp] theorem State.setInc_works (w : Nat) (i : Int) (d : Nat) (s : State) : State.works d (State.setInc w i s) = State.works d s := (rfl)

/-! ### setEvt -/

@[simp] theorem State.setEvt_now (n : Nat) (e : Evt) (s : State) : (State.setEvt n e s).now = s.now := (rfl)
@[simp] theorem State.setEvt_fc (n : Nat) (e : Evt) (s : State) : (State.setEvt n e s).fc = s.fc := (rfl)
@[simp] theorem State.setEvt_fabricZero (n : Nat) (e : Evt) (s : State) : (State.setEvt n e s).fabricZero = s.fabricZero := (rfl)
@[simp] theorem State.setEvt_free (n : Nat) (e : Evt) (s : State) : (State.setEvt n e s).free = s.free := (rfl)
@[simp] theorem State.setEvt_cfg (n : Nat) (e : Evt) (s : State) : (State.setEvt n e s).cfg = s.cfg := (rfl)
@[simp] theorem State.setEvt_stats (n : Nat) (e : Evt) (s : State) : (State.setEvt n e s).stats = s.stats := (rfl)
@[simp] theorem State.setEvt_wheels (n : Nat) (e : Evt) (s : State) : (State.setEvt n e s).wheels = s.wheels := (rfl)
@[simp] theorem State.setEvt_carding (n : Nat) (e : Evt) (s : State) : (State.setEvt n e s).carding = s.carding := (rfl)
@[simp] theorem State.setEvt_bramble (n : Nat) (e : Evt) (s : State) : (State.setEvt n e s).bramble = s.bramble := (rfl)
@[simp] theorem State.setEvt_control (n : Nat) (e : Evt) (s : State) : (State.setEvt n e s).control = s.control := (rfl)
@[simp] theorem State.setEvt_serial (n : Nat) (e : Evt) (s : State) : (State.setEvt n e s).serial = s.serial := (rfl)
@[simp] theorem State.setEvt_analog (n : Nat) (e : Evt) (s : State) : (State.setEvt n e s).analog = s.analog := (rfl)
@[simp] theorem State.setEvt_eth (n : Nat) (e : Evt) (s : State) : (State.setEvt n e s).eth = s.eth := (rfl)
@[simp] theorem State.setEvt_can (n : Nat) (e : Evt) (s : State) : (State.setEvt n e s).can = s.can := (rfl)
@[simp] theorem State.setEvt_canOpen (n : Nat) (e : Evt) (s : State) : (State.setEvt n e s).canOpen = s.canOpen := (rfl)
@[simp] theorem State.setEvt_fabric (n : Nat) (e : Evt) (s : State) : (State.setEvt n e s).fabric = s.fabric := (rfl)
@[simp] theorem State.setEvt_journal (n : Nat) (e : Evt) (s : State) : (State.setEvt n e s).journal = s.journal := (rfl)
@[simp] theorem State.setEvt_dict (n : Nat) (e : Evt) (s : State) : (State.setEvt n e s).dict = s.dict := (rfl)
@[simp] theorem State.setEvt_cycle (n : Nat) (e : Evt) (s : State) : (State.setEvt n e s).cycle = s.cycle := (rfl)
@[simp] theorem State.setEvt_health (n : Nat) (e : Evt) (s : State) : (State.setEvt n e s).health = s.health := (rfl)
@[simp] theorem State.setEvt_twin (n : Nat) (e : Evt) (s : State) : (State.setEvt n e s).twin = s.twin := (rfl)
@[simp] theorem State.setEvt_boot (n : Nat) (e : Evt) (s : State) : (State.setEvt n e s).boot = s.boot := (rfl)
@[simp] theorem State.setEvt_power (n : Nat) (e : Evt) (s : State) : (State.setEvt n e s).power = s.power := (rfl)
@[simp] theorem State.setEvt_pending (n : Nat) (e : Evt) (s : State) : (State.setEvt n e s).pending = s.pending := (rfl)
@[simp] theorem State.setEvt_ci (n : Nat) (e : Evt) (x y z : Nat) (s : State) : (State.setEvt n e s).ci x y z = s.ci x y z := (rfl)
@[simp] theorem State.setEvt_cn (n : Nat) (e : Evt) (x y z : Nat) (s : State) : (State.setEvt n e s).cn x y z = s.cn x y z := (rfl)
@[simp] theorem State.setEvt_ct (n : Nat) (e : Evt) (x y z : Nat) (s : State) : (State.setEvt n e s).ct x y z = s.ct x y z := (rfl)
@[simp] theorem State.setEvt_cr (n : Nat) (e : Evt) (x y z : Nat) (s : State) : (State.setEvt n e s).cr x y z = s.cr x y z := (rfl)
@[simp] theorem State.setEvt_up (n : Nat) (e : Evt) (d : Nat) (s : State) : (State.setEvt n e s).up d = s.up d := (rfl)
@[simp] theorem State.setEvt_works (n : Nat) (e : Evt) (d : Nat) (s : State) : State.works d (State.setEvt n e s) = State.works d s := (rfl)
@[simp] theorem State.setEvt_time (n : Nat) (e : Evt) (s : State) : (State.setEvt n e s).time = s.time := (rfl)

/-! ### useFree -/

@[simp] theorem State.useFree_now (s : State) : (State.useFree s).now = s.now := (rfl)
@[simp] theorem State.useFree_fc (s : State) : (State.useFree s).fc = s.fc := (rfl)
@[simp] theorem State.useFree_fabricZero (s : State) : (State.useFree s).fabricZero = s.fabricZero := (rfl)
@[simp] theorem State.useFree_cfg (s : State) : (State.useFree s).cfg = s.cfg := (rfl)
@[simp] theorem State.useFree_stats (s : State) : (State.useFree s).stats = s.stats := (rfl)
@[simp] theorem State.useFree_wheels (s : State) : (State.useFree s).wheels = s.wheels := (rfl)
@[simp] theorem State.useFree_appts (s : State) : (State.useFree s).appts = s.appts := (rfl)
@[simp] theorem State.useFree_carding (s : State) : (State.useFree s).carding = s.carding := (rfl)
@[simp] theorem State.useFree_bramble (s : State) : (State.useFree s).bramble = s.bramble := (rfl)
@[simp] theorem State.useFree_control (s : State) : (State.useFree s).control = s.control := (rfl)
@[simp] theorem State.useFree_serial (s : State) : (State.useFree s).serial = s.serial := (rfl)
@[simp] theorem State.useFree_analog (s : State) : (State.useFree s).analog = s.analog := (rfl)
@[simp] theorem State.useFree_eth (s : State) : (State.useFree s).eth = s.eth := (rfl)
@[simp] theorem State.useFree_can (s : State) : (State.useFree s).can = s.can := (rfl)
@[simp] theorem State.useFree_canOpen (s : State) : (State.useFree s).canOpen = s.canOpen := (rfl)
@[simp] theorem State.useFree_fabric (s : State) : (State.useFree s).fabric = s.fabric := (rfl)
@[simp] theorem State.useFree_journal (s : State) : (State.useFree s).journal = s.journal := (rfl)
@[simp] theorem State.useFree_dict (s : State) : (State.useFree s).dict = s.dict := (rfl)
@[simp] theorem State.useFree_cycle (s : State) : (State.useFree s).cycle = s.cycle := (rfl)
@[simp] theorem State.useFree_health (s : State) : (State.useFree s).health = s.health := (rfl)
@[simp] theorem State.useFree_twin (s : State) : (State.useFree s).twin = s.twin := (rfl)
@[simp] theorem State.useFree_boot (s : State) : (State.useFree s).boot = s.boot := (rfl)
@[simp] theorem State.useFree_power (s : State) : (State.useFree s).power = s.power := (rfl)
@[simp] theorem State.useFree_pending (s : State) : (State.useFree s).pending = s.pending := (rfl)
@[simp] theorem State.useFree_ci (x y z : Nat) (s : State) : (State.useFree s).ci x y z = s.ci x y z := (rfl)
@[simp] theorem State.useFree_cn (x y z : Nat) (s : State) : (State.useFree s).cn x y z = s.cn x y z := (rfl)
@[simp] theorem State.useFree_ct (x y z : Nat) (s : State) : (State.useFree s).ct x y z = s.ct x y z := (rfl)
@[simp] theorem State.useFree_cr (x y z : Nat) (s : State) : (State.useFree s).cr x y z = s.cr x y z := (rfl)
@[simp] theorem State.useFree_up (d : Nat) (s : State) : (State.useFree s).up d = s.up d := (rfl)
@[simp] theorem State.useFree_works (d : Nat) (s : State) : State.works d (State.useFree s) = State.works d s := (rfl)
@[simp] theorem State.useFree_time (s : State) : (State.useFree s).time = s.time := (rfl)

/-! ### stat -/

@[simp] theorem State.stat_now (i j k n : Nat) (s : State) : (State.stat i j k n s).now = s.now := (rfl)
@[simp] theorem State.stat_fc (i j k n : Nat) (s : State) : (State.stat i j k n s).fc = s.fc := (rfl)
@[simp] theorem State.stat_fabricZero (i j k n : Nat) (s : State) : (State.stat i j k n s).fabricZero = s.fabricZero := (rfl)
@[simp] theorem State.stat_free (i j k n : Nat) (s : State) : (State.stat i j k n s).free = s.free := (rfl)
@[simp] theorem State.stat_cfg (i j k n : Nat) (s : State) : (State.stat i j k n s).cfg = s.cfg := (rfl)
@[simp] theorem State.stat_wheels (i j k n : Nat) (s : State) : (State.stat i j k n s).wheels = s.wheels := (rfl)
@[simp] theorem State.stat_appts (i j k n : Nat) (s : State) : (State.stat i j k n s).appts = s.appts := (rfl)
@[simp] theorem State.stat_carding (i j k n : Nat) (s : State) : (State.stat i j k n s).carding = s.carding := (rfl)
@[simp] theorem State.stat_bramble (i j k n : Nat) (s : State) : (State.stat i j k n s).bramble = s.bramble := (rfl)
@[simp] theorem State.stat_control (i j k n : Nat) (s : State) : (State.stat i j k n s).control = s.control := (rfl)
@[simp] theorem State.stat_serial (i j k n : Nat) (s : State) : (State.stat i j k n s).serial = s.serial := (rfl)
@[simp] theorem State.stat_analog (i j k n : Nat) (s : State) : (State.stat i j k n s).analog = s.analog := (rfl)
@[simp] theorem State.stat_eth (i j k n : Nat) (s : State) : (State.stat i j k n s).eth = s.eth := (rfl)
@[simp] theorem State.stat_can (i j k n : Nat) (s : State) : (State.stat i j k n s).can = s.can := (rfl)
@[simp] theorem State.stat_canOpen (i j k n : Nat) (s : State) : (State.stat i j k n s).canOpen = s.canOpen := (rfl)
@[simp] theorem State.stat_fabric (i j k n : Nat) (s : State) : (State.stat i j k n s).fabric = s.fabric := (rfl)
@[simp] theorem State.stat_journal (i j k n : Nat) (s : State) : (State.stat i j k n s).journal = s.journal := (rfl)
@[simp] theorem State.stat_dict (i j k n : Nat) (s : State) : (State.stat i j k n s).dict = s.dict := (rfl)
@[simp] theorem State.stat_cycle (i j k n : Nat) (s : State) : (State.stat i j k n s).cycle = s.cycle := (rfl)
@[simp] theorem State.stat_health (i j k n : Nat) (s : State) : (State.stat i j k n s).health = s.health := (rfl)
@[simp] theorem State.stat_twin (i j k n : Nat) (s : State) : (State.stat i j k n s).twin = s.twin := (rfl)
@[simp] theorem State.stat_boot (i j k n : Nat) (s : State) : (State.stat i j k n s).boot = s.boot := (rfl)
@[simp] theorem State.stat_power (i j k n : Nat) (s : State) : (State.stat i j k n s).power = s.power := (rfl)
@[simp] theorem State.stat_pending (i j k n : Nat) (s : State) : (State.stat i j k n s).pending = s.pending := (rfl)
@[simp] theorem State.stat_ci (i j k n : Nat) (x y z : Nat) (s : State) : (State.stat i j k n s).ci x y z = s.ci x y z := (rfl)
@[simp] theorem State.stat_cn (i j k n : Nat) (x y z : Nat) (s : State) : (State.stat i j k n s).cn x y z = s.cn x y z := (rfl)
@[simp] theorem State.stat_ct (i j k n : Nat) (x y z : Nat) (s : State) : (State.stat i j k n s).ct x y z = s.ct x y z := (rfl)
@[simp] theorem State.stat_cr (i j k n : Nat) (x y z : Nat) (s : State) : (State.stat i j k n s).cr x y z = s.cr x y z := (rfl)
@[simp] theorem State.stat_up (i j k n : Nat) (d : Nat) (s : State) : (State.stat i j k n s).up d = s.up d := (rfl)
@[simp] theorem State.stat_works (i j k n : Nat) (d : Nat) (s : State) : State.works d (State.stat i j k n s) = State.works d s := (rfl)
@[simp] theorem State.stat_time (i j k n : Nat) (s : State) : (State.stat i j k n s).time = s.time := (rfl)

/-! ### raiseKind -/

@[simp] theorem State.raiseKind_now (i j k a b : Nat) (s : State) : (State.raiseKind i j k a b s).now = s.now := by
  unfold State.raiseKind; dsimp only; split <;> rfl
@[simp] theorem State.raiseKind_fc (i j k a b : Nat) (s : State) : (State.raiseKind i j k a b s).fc = s.fc := by
  unfold State.raiseKind; dsimp only; split <;> rfl
@[simp] theorem State.raiseKind_fabricZero (i j k a b : Nat) (s : State) : (State.raiseKind i j k a b s).fabricZero = s.fabricZero := by
  unfold State.raiseKind; dsimp only; split <;> rfl
@[simp] theorem State.raiseKind_free (i j k a b : Nat) (s : State) : (State.raiseKind i j k a b s).free = s.free := by
  unfold State.raiseKind; dsimp only; split <;> rfl
@[simp] theorem State.raiseKind_cfg (i j k a b : Nat) (s : State) : (State.raiseKind i j k a b s).cfg = s.cfg := by
  unfold State.raiseKind; dsimp only; split <;> rfl
@[simp] theorem State.raiseKind_stats (i j k a b : Nat) (s : State) : (State.raiseKind i j k a b s).stats = s.stats := by
  unfold State.raiseKind; dsimp only; split <;> rfl
@[simp] theorem State.raiseKind_wheels (i j k a b : Nat) (s : State) : (State.raiseKind i j k a b s).wheels = s.wheels := by
  unfold State.raiseKind; dsimp only; split <;> rfl
@[simp] theorem State.raiseKind_appts (i j k a b : Nat) (s : State) : (State.raiseKind i j k a b s).appts = s.appts := by
  unfold State.raiseKind; dsimp only; split <;> rfl
@[simp] theorem State.raiseKind_carding (i j k a b : Nat) (s : State) : (State.raiseKind i j k a b s).carding = s.carding := by
  unfold State.raiseKind; dsimp only; split <;> rfl
@[simp] theorem State.raiseKind_bramble (i j k a b : Nat) (s : State) : (State.raiseKind i j k a b s).bramble = s.bramble := by
  unfold State.raiseKind; dsimp only; split <;> rfl
@[simp] theorem State.raiseKind_control (i j k a b : Nat) (s : State) : (State.raiseKind i j k a b s).control = s.control := by
  unfold State.raiseKind; dsimp only; split <;> rfl
@[simp] theorem State.raiseKind_serial (i j k a b : Nat) (s : State) : (State.raiseKind i j k a b s).serial = s.serial := by
  unfold State.raiseKind; dsimp only; split <;> rfl
@[simp] theorem State.raiseKind_analog (i j k a b : Nat) (s : State) : (State.raiseKind i j k a b s).analog = s.analog := by
  unfold State.raiseKind; dsimp only; split <;> rfl
@[simp] theorem State.raiseKind_eth (i j k a b : Nat) (s : State) : (State.raiseKind i j k a b s).eth = s.eth := by
  unfold State.raiseKind; dsimp only; split <;> rfl
@[simp] theorem State.raiseKind_can (i j k a b : Nat) (s : State) : (State.raiseKind i j k a b s).can = s.can := by
  unfold State.raiseKind; dsimp only; split <;> rfl
@[simp] theorem State.raiseKind_canOpen (i j k a b : Nat) (s : State) : (State.raiseKind i j k a b s).canOpen = s.canOpen := by
  unfold State.raiseKind; dsimp only; split <;> rfl
@[simp] theorem State.raiseKind_fabric (i j k a b : Nat) (s : State) : (State.raiseKind i j k a b s).fabric = s.fabric := by
  unfold State.raiseKind; dsimp only; split <;> rfl
@[simp] theorem State.raiseKind_journal (i j k a b : Nat) (s : State) : (State.raiseKind i j k a b s).journal = s.journal := by
  unfold State.raiseKind; dsimp only; split <;> rfl
@[simp] theorem State.raiseKind_dict (i j k a b : Nat) (s : State) : (State.raiseKind i j k a b s).dict = s.dict := by
  unfold State.raiseKind; dsimp only; split <;> rfl
@[simp] theorem State.raiseKind_cycle (i j k a b : Nat) (s : State) : (State.raiseKind i j k a b s).cycle = s.cycle := by
  unfold State.raiseKind; dsimp only; split <;> rfl
@[simp] theorem State.raiseKind_twin (i j k a b : Nat) (s : State) : (State.raiseKind i j k a b s).twin = s.twin := by
  unfold State.raiseKind; dsimp only; split <;> rfl
@[simp] theorem State.raiseKind_boot (i j k a b : Nat) (s : State) : (State.raiseKind i j k a b s).boot = s.boot := by
  unfold State.raiseKind; dsimp only; split <;> rfl
@[simp] theorem State.raiseKind_power (i j k a b : Nat) (s : State) : (State.raiseKind i j k a b s).power = s.power := by
  unfold State.raiseKind; dsimp only; split <;> rfl
@[simp] theorem State.raiseKind_pending (i j k a b : Nat) (s : State) : (State.raiseKind i j k a b s).pending = s.pending := by
  unfold State.raiseKind; dsimp only; split <;> rfl
@[simp] theorem State.raiseKind_ci (i j k a b : Nat) (x y z : Nat) (s : State) : (State.raiseKind i j k a b s).ci x y z = s.ci x y z := by simp [State.ci, State.uid]
@[simp] theorem State.raiseKind_cn (i j k a b : Nat) (x y z : Nat) (s : State) : (State.raiseKind i j k a b s).cn x y z = s.cn x y z := by simp [State.cn, State.uid]
@[simp] theorem State.raiseKind_ct (i j k a b : Nat) (x y z : Nat) (s : State) : (State.raiseKind i j k a b s).ct x y z = s.ct x y z := by simp [State.ct, State.uid]
@[simp] theorem State.raiseKind_cr (i j k a b : Nat) (x y z : Nat) (s : State) : (State.raiseKind i j k a b s).cr x y z = s.cr x y z := by simp [State.cr, State.uid]
@[simp] theorem State.raiseKind_up (i j k a b : Nat) (d : Nat) (s : State) : (State.raiseKind i j k a b s).up d = s.up d := by simp [State.up, State.dom]
@[simp] theorem State.raiseKind_works (i j k a b : Nat) (d : Nat) (s : State) : State.works d (State.raiseKind i j k a b s) = State.works d s := by simp [State.works, State.up, State.dom]
@[simp] theorem State.raiseKind_time (i j k a b : Nat) (s : State) : (State.raiseKind i j k a b s).time = s.time := by simp [State.time]

/-! ### event -/

@[simp] theorem State.event_now (c a b : Nat) (s : State) : (State.event c a b s).now = s.now := by
  unfold State.event; split <;> simp
@[simp] theorem State.event_fc (c a b : Nat) (s : State) : (State.event c a b s).fc = s.fc := by
  unfold State.event; split <;> simp
@[simp] theorem State.event_fabricZero (c a b : Nat) (s : State) : (State.event c a b s).fabricZero = s.fabricZero := by
  unfold State.event; split <;> simp
@[simp] theorem State.event_free (c a b : Nat) (s : State) : (State.event c a b s).free = s.free := by
  unfold State.event; split <;> simp
@[simp] theorem State.event_cfg (c a b : Nat) (s : State) : (State.event c a b s).cfg = s.cfg := by
  unfold State.event; split <;> simp
@[simp] theorem State.event_stats (c a b : Nat) (s : State) : (State.event c a b s).stats = s.stats := by
  unfold State.event; split <;> simp
@[simp] theorem State.event_wheels (c a b : Nat) (s : State) : (State.event c a b s).wheels = s.wheels := by
  unfold State.event; split <;> simp
@[simp] theorem State.event_appts (c a b : Nat) (s : State) : (State.event c a b s).appts = s.appts := by
  unfold State.event; split <;> simp
@[simp] theorem State.event_carding (c a b : Nat) (s : State) : (State.event c a b s).carding = s.carding := by
  unfold State.event; split <;> simp
@[simp] theorem State.event_bramble (c a b : Nat) (s : State) : (State.event c a b s).bramble = s.bramble := by
  unfold State.event; split <;> simp
@[simp] theorem State.event_control (c a b : Nat) (s : State) : (State.event c a b s).control = s.control := by
  unfold State.event; split <;> simp
@[simp] theorem State.event_serial (c a b : Nat) (s : State) : (State.event c a b s).serial = s.serial := by
  unfold State.event; split <;> simp
@[simp] theorem State.event_analog (c a b : Nat) (s : State) : (State.event c a b s).analog = s.analog := by
  unfold State.event; split <;> simp
@[simp] theorem State.event_eth (c a b : Nat) (s : State) : (State.event c a b s).eth = s.eth := by
  unfold State.event; split <;> simp
@[simp] theorem State.event_can (c a b : Nat) (s : State) : (State.event c a b s).can = s.can := by
  unfold State.event; split <;> simp
@[simp] theorem State.event_canOpen (c a b : Nat) (s : State) : (State.event c a b s).canOpen = s.canOpen := by
  unfold State.event; split <;> simp
@[simp] theorem State.event_fabric (c a b : Nat) (s : State) : (State.event c a b s).fabric = s.fabric := by
  unfold State.event; split <;> simp
@[simp] theorem State.event_journal (c a b : Nat) (s : State) : (State.event c a b s).journal = s.journal := by
  unfold State.event; split <;> simp
@[simp] theorem State.event_dict (c a b : Nat) (s : State) : (State.event c a b s).dict = s.dict := by
  unfold State.event; split <;> simp
@[simp] theorem State.event_cycle (c a b : Nat) (s : State) : (State.event c a b s).cycle = s.cycle := by
  unfold State.event; split <;> simp
@[simp] theorem State.event_twin (c a b : Nat) (s : State) : (State.event c a b s).twin = s.twin := by
  unfold State.event; split <;> simp
@[simp] theorem State.event_boot (c a b : Nat) (s : State) : (State.event c a b s).boot = s.boot := by
  unfold State.event; split <;> simp
@[simp] theorem State.event_power (c a b : Nat) (s : State) : (State.event c a b s).power = s.power := by
  unfold State.event; split <;> simp
@[simp] theorem State.event_pending (c a b : Nat) (s : State) : (State.event c a b s).pending = s.pending := by
  unfold State.event; split <;> simp
@[simp] theorem State.event_ci (c a b : Nat) (x y z : Nat) (s : State) : (State.event c a b s).ci x y z = s.ci x y z := by simp [State.ci, State.uid]
@[simp] theorem State.event_cn (c a b : Nat) (x y z : Nat) (s : State) : (State.event c a b s).cn x y z = s.cn x y z := by simp [State.cn, State.uid]
@[simp] theorem State.event_ct (c a b : Nat) (x y z : Nat) (s : State) : (State.event c a b s).ct x y z = s.ct x y z := by simp [State.ct, State.uid]
@[simp] theorem State.event_cr (c a b : Nat) (x y z : Nat) (s : State) : (State.event c a b s).cr x y z = s.cr x y z := by simp [State.cr, State.uid]
@[simp] theorem State.event_up (c a b : Nat) (d : Nat) (s : State) : (State.event c a b s).up d = s.up d := by simp [State.up, State.dom]
@[simp] theorem State.event_works (c a b : Nat) (d : Nat) (s : State) : State.works d (State.event c a b s) = State.works d s := by simp [State.works, State.up, State.dom]
@[simp] theorem State.event_time (c a b : Nat) (s : State) : (State.event c a b s).time = s.time := by simp [State.time]

/-! ### endAlert -/

@[simp] theorem State.endAlert_now (c a : Nat) (s : State) : (State.endAlert c a s).now = s.now := by simp [State.endAlert]
@[simp] theorem State.endAlert_fc (c a : Nat) (s : State) : (State.endAlert c a s).fc = s.fc := by simp [State.endAlert]
@[simp] theorem State.endAlert_fabricZero (c a : Nat) (s : State) : (State.endAlert c a s).fabricZero = s.fabricZero := by simp [State.endAlert]
@[simp] theorem State.endAlert_free (c a : Nat) (s : State) : (State.endAlert c a s).free = s.free := by simp [State.endAlert]
@[simp] theorem State.endAlert_cfg (c a : Nat) (s : State) : (State.endAlert c a s).cfg = s.cfg := by simp [State.endAlert]
@[simp] theorem State.endAlert_stats (c a : Nat) (s : State) : (State.endAlert c a s).stats = s.stats := by simp [State.endAlert]
@[simp] theorem State.endAlert_wheels (c a : Nat) (s : State) : (State.endAlert c a s).wheels = s.wheels := by simp [State.endAlert]
@[simp] theorem State.endAlert_appts (c a : Nat) (s : State) : (State.endAlert c a s).appts = s.appts := by simp [State.endAlert]
@[simp] theorem State.endAlert_carding (c a : Nat) (s : State) : (State.endAlert c a s).carding = s.carding := by simp [State.endAlert]
@[simp] theorem State.endAlert_bramble (c a : Nat) (s : State) : (State.endAlert c a s).bramble = s.bramble := by simp [State.endAlert]
@[simp] theorem State.endAlert_control (c a : Nat) (s : State) : (State.endAlert c a s).control = s.control := by simp [State.endAlert]
@[simp] theorem State.endAlert_serial (c a : Nat) (s : State) : (State.endAlert c a s).serial = s.serial := by simp [State.endAlert]
@[simp] theorem State.endAlert_analog (c a : Nat) (s : State) : (State.endAlert c a s).analog = s.analog := by simp [State.endAlert]
@[simp] theorem State.endAlert_eth (c a : Nat) (s : State) : (State.endAlert c a s).eth = s.eth := by simp [State.endAlert]
@[simp] theorem State.endAlert_can (c a : Nat) (s : State) : (State.endAlert c a s).can = s.can := by simp [State.endAlert]
@[simp] theorem State.endAlert_canOpen (c a : Nat) (s : State) : (State.endAlert c a s).canOpen = s.canOpen := by simp [State.endAlert]
@[simp] theorem State.endAlert_fabric (c a : Nat) (s : State) : (State.endAlert c a s).fabric = s.fabric := by simp [State.endAlert]
@[simp] theorem State.endAlert_journal (c a : Nat) (s : State) : (State.endAlert c a s).journal = s.journal := by simp [State.endAlert]
@[simp] theorem State.endAlert_dict (c a : Nat) (s : State) : (State.endAlert c a s).dict = s.dict := by simp [State.endAlert]
@[simp] theorem State.endAlert_cycle (c a : Nat) (s : State) : (State.endAlert c a s).cycle = s.cycle := by simp [State.endAlert]
@[simp] theorem State.endAlert_twin (c a : Nat) (s : State) : (State.endAlert c a s).twin = s.twin := by simp [State.endAlert]
@[simp] theorem State.endAlert_boot (c a : Nat) (s : State) : (State.endAlert c a s).boot = s.boot := by simp [State.endAlert]
@[simp] theorem State.endAlert_power (c a : Nat) (s : State) : (State.endAlert c a s).power = s.power := by simp [State.endAlert]
@[simp] theorem State.endAlert_pending (c a : Nat) (s : State) : (State.endAlert c a s).pending = s.pending := by simp [State.endAlert]
@[simp] theorem State.endAlert_ci (c a : Nat) (x y z : Nat) (s : State) : (State.endAlert c a s).ci x y z = s.ci x y z := by simp [State.ci, State.uid]
@[simp] theorem State.endAlert_cn (c a : Nat) (x y z : Nat) (s : State) : (State.endAlert c a s).cn x y z = s.cn x y z := by simp [State.cn, State.uid]
@[simp] theorem State.endAlert_ct (c a : Nat) (x y z : Nat) (s : State) : (State.endAlert c a s).ct x y z = s.ct x y z := by simp [State.ct, State.uid]
@[simp] theorem State.endAlert_cr (c a : Nat) (x y z : Nat) (s : State) : (State.endAlert c a s).cr x y z = s.cr x y z := by simp [State.cr, State.uid]
@[simp] theorem State.endAlert_up (c a : Nat) (d : Nat) (s : State) : (State.endAlert c a s).up d = s.up d := by simp [State.up, State.dom]
@[simp] theorem State.endAlert_works (c a : Nat) (d : Nat) (s : State) : State.works d (State.endAlert c a s) = State.works d s := by simp [State.works, State.up, State.dom]
@[simp] theorem State.endAlert_time (c a : Nat) (s : State) : (State.endAlert c a s).time = s.time := by simp [State.time]

/-! ### elapse -/

@[simp] theorem State.elapse_fabricZero (dt : Nat) (s : State) : (State.elapse dt s).fabricZero = s.fabricZero := by
  unfold State.elapse; split <;> rfl
@[simp] theorem State.elapse_free (dt : Nat) (s : State) : (State.elapse dt s).free = s.free := by
  unfold State.elapse; split <;> rfl
@[simp] theorem State.elapse_cfg (dt : Nat) (s : State) : (State.elapse dt s).cfg = s.cfg := by
  unfold State.elapse; split <;> rfl
@[simp] theorem State.elapse_stats (dt : Nat) (s : State) : (State.elapse dt s).stats = s.stats := by
  unfold State.elapse; split <;> rfl
@[simp] theorem State.elapse_appts (dt : Nat) (s : State) : (State.elapse dt s).appts = s.appts := by
  unfold State.elapse; split <;> rfl
@[simp] theorem State.elapse_carding (dt : Nat) (s : State) : (State.elapse dt s).carding = s.carding := by
  unfold State.elapse; split <;> rfl
@[simp] theorem State.elapse_bramble (dt : Nat) (s : State) : (State.elapse dt s).bramble = s.bramble := by
  unfold State.elapse; split <;> rfl
@[simp] theorem State.elapse_control (dt : Nat) (s : State) : (State.elapse dt s).control = s.control := by
  unfold State.elapse; split <;> rfl
@[simp] theorem State.elapse_serial (dt : Nat) (s : State) : (State.elapse dt s).serial = s.serial := by
  unfold State.elapse; split <;> rfl
@[simp] theorem State.elapse_analog (dt : Nat) (s : State) : (State.elapse dt s).analog = s.analog := by
  unfold State.elapse; split <;> rfl
@[simp] theorem State.elapse_eth (dt : Nat) (s : State) : (State.elapse dt s).eth = s.eth := by
  unfold State.elapse; split <;> rfl
@[simp] theorem State.elapse_can (dt : Nat) (s : State) : (State.elapse dt s).can = s.can := by
  unfold State.elapse; split <;> rfl
@[simp] theorem State.elapse_canOpen (dt : Nat) (s : State) : (State.elapse dt s).canOpen = s.canOpen := by
  unfold State.elapse; split <;> rfl
@[simp] theorem State.elapse_fabric (dt : Nat) (s : State) : (State.elapse dt s).fabric = s.fabric := by
  unfold State.elapse; split <;> rfl
@[simp] theorem State.elapse_journal (dt : Nat) (s : State) : (State.elapse dt s).journal = s.journal := by
  unfold State.elapse; split <;> rfl
@[simp] theorem State.elapse_dict (dt : Nat) (s : State) : (State.elapse dt s).dict = s.dict := by
  unfold State.elapse; split <;> rfl
@[simp] theorem State.elapse_cycle (dt : Nat) (s : State) : (State.elapse dt s).cycle = s.cycle := by
  unfold State.elapse; split <;> rfl
@[simp] theorem State.elapse_health (dt : Nat) (s : State) : (State.elapse dt s).health = s.health := by
  unfold State.elapse; split <;> rfl
@[simp] theorem State.elapse_twin (dt : Nat) (s : State) : (State.elapse dt s).twin = s.twin := by
  unfold State.elapse; split <;> rfl
@[simp] theorem State.elapse_boot (dt : Nat) (s : State) : (State.elapse dt s).boot = s.boot := by
  unfold State.elapse; split <;> rfl
@[simp] theorem State.elapse_power (dt : Nat) (s : State) : (State.elapse dt s).power = s.power := by
  unfold State.elapse; split <;> rfl
@[simp] theorem State.elapse_pending (dt : Nat) (s : State) : (State.elapse dt s).pending = s.pending := by
  unfold State.elapse; split <;> rfl
@[simp] theorem State.elapse_ci (dt : Nat) (x y z : Nat) (s : State) : (State.elapse dt s).ci x y z = s.ci x y z := by simp [State.ci, State.uid]
@[simp] theorem State.elapse_cn (dt : Nat) (x y z : Nat) (s : State) : (State.elapse dt s).cn x y z = s.cn x y z := by simp [State.cn, State.uid]
@[simp] theorem State.elapse_ct (dt : Nat) (x y z : Nat) (s : State) : (State.elapse dt s).ct x y z = s.ct x y z := by simp [State.ct, State.uid]
@[simp] theorem State.elapse_cr (dt : Nat) (x y z : Nat) (s : State) : (State.elapse dt s).cr x y z = s.cr x y z := by simp [State.cr, State.uid]
@[simp] theorem State.elapse_up (dt : Nat) (d : Nat) (s : State) : (State.elapse dt s).up d = s.up d := by simp [State.up, State.dom]
@[simp] theorem State.elapse_works (dt : Nat) (d : Nat) (s : State) : State.works d (State.elapse dt s) = State.works d s := by simp [State.works, State.up, State.dom]

/-! ### What the small operations do, whole -/

theorem State.statOf_stat (i j k n i' j' k' : Nat) (s : State) : (State.stat i j k n s).statOf i' j' k' =
    if statKey i' j' k' = statKey i j k then Nat.min (s.statOf i j k + n) (2 ^ 64 - 1) else s.statOf i' j' k' :=
  Tbl.get_put ..

/-- A statistic never falls by adding to it. -/
theorem State.statOf_stat_le (i j k n i' j' k' : Nat) (s : State) (h : s.statOf i' j' k' ≤ 2 ^ 64 - 1) :
    s.statOf i' j' k' ≤ (State.stat i j k n s).statOf i' j' k' := by
  rw [State.statOf_stat]
  split
  · next e =>
    have e2 : s.statOf i' j' k' = s.statOf i j k := by unfold State.statOf; rw [e]
    rw [e2] at h ⊢
    exact Nat.le_min.mpr ⟨Nat.le_add_right .., h⟩
  · exact Nat.le_refl _

/-- An event is added to those that wait, or, while SUP is in reset and its block holds 16 already, is counted as dropped. -/
theorem State.raiseKind_eq (kind astate code a b : Nat) (s : State) :
    (∃ e : Event, e.code = code ∧ e.a = a ∧ e.b = b ∧ e.kind = kind ∧
      State.raiseKind kind astate code a b s = { s with health.waiting := s.health.waiting ++ [e] }) ∨
    (s.up domSup = false ∧ State.raiseKind kind astate code a b s = { s with health.dropped := s.health.dropped + 1 }) := by
  unfold State.raiseKind
  dsimp only
  split
  · next h => exact .inr ⟨by simp_all, rfl⟩
  · exact .inl ⟨_, rfl, rfl, rfl, rfl, rfl⟩

/-- A command of a block that stands still does nothing. -/
theorem State.whenUp_of_not (d : Nat) (f : State → State) (s : State) (h : s.works d = false) : s.whenUp d f = s := by
  simp [State.whenUp, h]

/-- A command of a block that runs has its effect. -/
theorem State.whenUp_of (d : Nat) (f : State → State) (s : State) (h : s.works d = true) : s.whenUp d f = f s := by
  simp [State.whenUp, h]

/-- Time passes by what the command says. -/
@[simp] theorem State.elapse_now (dt : Nat) (s : State) : (s.elapse dt).now = s.now + dt := by
  unfold State.elapse; split <;> rfl

/-- The fabric count passes with it while FABRIC runs. -/
theorem State.elapse_fc (dt : Nat) (s : State) : (s.elapse dt).fc = if s.up domFabric then s.fc + dt else s.fc := by
  unfold State.elapse; split <;> rfl

/-- The wheels turn while FABRIC runs. -/
theorem State.elapse_wheels (dt : Nat) (s : State) :
    (s.elapse dt).wheels = if s.up domFabric then s.wheels.advance dt else s.wheels := by
  unfold State.elapse; split <;> rfl

/-- A wheel of a number, after one was changed. -/
theorem Wheels.get_mod (n m : Nat) (f : Wheel → Wheel) (w : Wheels) (hn : n < 4) (hm : m < 4) :
    (w.mod n f).get m = if m = n then f (w.get n) else w.get m := by
  match n, m, hn, hm with
  | 0, 0, _, _ | 0, 1, _, _ | 0, 2, _, _ | 0, 3, _, _ | 1, 0, _, _ | 1, 1, _, _ | 1, 2, _, _ | 1, 3, _, _ | 2, 0, _, _
  | 2, 1, _, _ | 2, 2, _, _ | 2, 3, _, _ | 3, 0, _, _ | 3, 1, _, _ | 3, 2, _, _ | 3, 3, _, _ => rfl

/-- A wheel placed at a visible position stands there. -/
@[simp] theorem Wheel.visible_place (p : WheelPos) (w : Wheel) : (w.place p).visible = p := by
  apply BitVec.eq_of_toNat_eq
  have := p.isLt
  simp [Wheel.visible, Wheel.place, accOf, BitVec.toNat_setWidth, BitVec.toNat_ushiftRight, BitVec.toNat_shiftLeft,
    Nat.shiftLeft_eq, Nat.shiftRight_eq_div_pow]
  omega

/-- Bytes stored in an image slot keep its body's canonical form. -/
theorem wf_storeBytes (k : Nat) (b : List Byte) (t : Tbl Byte) (h : Tbl.wf t = true) : Tbl.wf (storeBytes k b t) = true := by
  induction b generalizing k t with
  | nil => exact h
  | cons a b ih => exact ih _ _ (Tbl.wf_put _ _ _ h)

end Sys2Proof.Machine
end

