-- ==== Sys2Proof/Tests/Slice0.lean ====
section
/-! SUPPORT. Tests: the commands that WellFormed refuses, worked examples of the manual on one command each, and for
every obligation with hypotheses a state that meets them, clause by clause. Expected values are the manual's. -/

namespace Sys2Proof.Machine

open Sys2Proof

/-! ### Building a small state -/

/-- Set values of the configuration in force: index, subindex, row, value. -/
def State.put (l : List (Nat × Nat × Nat × Int)) (s : State) : State :=
  { s with cfg := l.foldl (fun c e => Cfg.set s.uid ⟨e.1, e.2.1, e.2.2.1⟩ (.num e.2.2.2) c) s.cfg }

/-- Set a byte string of the configuration in force. -/
def State.putBytes (index sub row : Nat) (b : List Byte) (s : State) : State :=
  { s with cfg := Cfg.set s.uid ⟨index, sub, row⟩ (.bytes b) s.cfg }

/-- Domains in given states. -/
def State.doms (l : List (Nat × Nat)) (s : State) : State :=
  { s with power.doms := l.foldl (fun t x => Tbl.put x.1 { state := x.2 } t) s.power.doms }

end Sys2Proof.Machine

namespace Sys2Proof.Tests

set_option Elab.async false

open Sys2Proof Sys2Proof.Machine

/-- The unit right after reset. -/
def R0 : State := State.reset

/-- The access of a client to an object is admitted, as a test. -/
def admitted (who : ClientId) (n index : Nat) (s : State) : Bool :=
  s.serves && s.slotOf who == some n && !s.dict.gone.contains who && (!s.boot.bootRom || romReaches index)

/-- An object and a group, for where a lookup would fail. -/
def anObj : Obj := ⟨0, 0, .uns 4, .const, .non, 0, .any, 0⟩

/-- A group of no objects. -/
def aGroup : Group := ⟨0, 0, none, []⟩

/-- The object accepts the bytes as the value, as a test. -/
def judges (o : Obj) (b : List Byte) (x : Val) : Bool :=
  match o.judge b with
  | .ok y => decide (y = x)
  | .error _ => false

/-- A request, for where parsing would fail. -/
def aLap : LapReq := ⟨0, 0, 0, 0, 0, 0, 0, []⟩

/-- A request of the Ledger Access Protocol with the tag of client row 1. -/
def lapSealed (s : State) (m : List Byte) : List Byte := m ++ s.lapTag 1 m

/-- A request of the SPI port with its CRC. -/
def spiSealed (m : List Byte) : List Byte := m ++ leBytes 2 (crc16 m).toNat

/-- A frame as it stands on the wire: padded, with its FCS. -/
def onWire (b : List Byte) : List Byte := padFrame b ++ leBytes 4 (crc32 (padFrame b)).toNat

/-- An ARP request of a host for an address. -/
def arpFor (spa tpa : Nat) : List Byte :=
  ethHeader 0xFFFFFFFFFFFF 0x020000000001 0x0806 ++ [0, 1, 8, 0, 6, 4, 0, 1] ++ beBytes 6 0x020000000001 ++ beBytes 4 spa ++
    beBytes 6 0 ++ beBytes 4 tpa

/-- A frame as SUP finds it. -/
def rxf (b : List Byte) : RxFrame :=
  { bytes := b, pip := {}, states := 0, stamp := 0, errored := false, status := 0, length := b.length }

/-- A message of IEEE 1588 on layer 2, with a type, a sequence number and a timestamp. -/
def ptpMsg (type seq sec ns : Nat) (rest : List Byte) : List Byte :=
  ethHeader 0x011B19000000 0x020000000001 0x88F7 ++ [BitVec.ofNat 8 type, 2] ++ beBytes 2 64 ++ [0, 0, 2, 0] ++ beBytes 8 0 ++
    beBytes 4 0 ++ beBytes 8 77 ++ beBytes 2 1 ++ beBytes 2 seq ++ [0, 0] ++ beBytes 6 sec ++ beBytes 4 ns ++ rest

/-- The state a command leaves, judged; a stop fails the test. -/
def after (c : Instr) (s : State) (p : State → Bool) : Bool :=
  match exec c s with
  | .next t => p t
  | _ => false

/-- The command is refused by WellFormed, and runs all the same. -/
def illFormed (c : Instr) : Bool := !c.wellFormed && after c R0 (fun _ => true)

/-! ### Ill-formed commands: one for each check -/

/-- R201: nine data bytes; an identifier of 12 bits in the base format; a remote frame with data. -/
theorem test_canFrame_ill_formed :
    (illFormed (.canFrameReceived 0 0 { ext := true, remote := false, id := 5, data := List.replicate 9 0 }) &&
      illFormed (.canFrameReceived 0 0 { ext := false, remote := false, id := 0x800, data := [] }) &&
      illFormed (.canFrameReceived 0 0 { ext := true, remote := true, id := 5, data := [1] })) = true := by decide +kernel

/-- R162: a window without a sample. -/
theorem test_window_empty :
    illFormed (.classificationWindowEnd 0 0
      { count := 0, sumA := 0, sumB := 0, minA := 0, maxA := 0, minB := 0, maxB := 0, minD := 0
        maxD := 0, rises := 0, falls := 0, longHigh := 0, longLow := 0 }) = true := by decide +kernel

/-- R132: a line on which no time passes. -/
theorem test_line_of_no_time :
    (illFormed (.serialCharacterReceived 0 0 [⟨true, true, 0⟩]) && illFormed (.serialCharacterReceived 0 0 []) &&
      illFormed (.falseStart 0 0 [])) = true := by decide +kernel

/-- R180: a frame without a byte. -/
theorem test_ethernet_empty : illFormed (.ethFrameReceived 0 0 [] false) = true := by decide +kernel

/-- R271: an expedited download of no byte, of five, and of three without a size. -/
theorem test_expedited_length :
    (illFormed (.sdoExpeditedDownload 0 0x2101 3 true []) && illFormed (.sdoExpeditedDownload 0 0x2101 3 true [1, 2, 3, 4, 5]) &&
      illFormed (.sdoExpeditedDownload 0 0x2101 3 false [1, 2, 3])) = true := by decide +kernel

/-- R271: a segment of eight bytes. -/
theorem test_segment_length :
    illFormed (.sdoDownloadSegment 0 false true (List.replicate 8 0)) = true := by decide +kernel

/-! ### Worked examples of the manual -/

/-- Chapter 03, Table 3.11: the datagram of gyro 3, TAG block and all, is the record that the table shows. -/
theorem test_datagram_record :
    let payload := ascii "UdPbC" ++ [0] ++ ascii "\\s:HE0003,n:117*08\\$HEHDT,123.6,T*29" ++ [13, 10]
    let s : State := (R0.put [(0x2310, 2, 9, 1), (0x2310, 3, 9, 0x21), (0x2310, 4, 9, 2), (0x2310, 8, 9, 1)]).putBytes 0x2310 5 9
      (ascii "HE0003")
    after (.cardDatagram 0 1 false)
      { s with eth := [(1, { rxA := [{ rxf (udpFrame 1 2 3 4 1 1 5 6 payload) with states := 0xAA }] })] }
      (fun t => match Tbl.get [] 2 t.bramble.inputs with
        | [r] => decide (r.source = 9 ∧ r.chosenFrom = 9 ∧ r.kind = 2 ∧ r.port = 0x21 ∧ r.group = 0xFF ∧ r.gen = 2 ∧ r.cls = 1 ∧
            r.states = 0xAA ∧ r.flags = 0x0008 ∧ r.address = ascii "HEHDT" ∧ r.formatter = 5 ∧ r.raw.length = 19 ∧ r.tag.length = 19 ∧
            r.tagS = ascii "HE0003" ∧ r.slots = [some 123600])
        | _ => false) = true := by decide +kernel

/-- Chapter 05: gauge T49 at 12.000 mA, offset 4 000 000 and scale 0.00125, reads 10 000 mm. -/
theorem test_gauge_reading :
    (R0.put [(0x3110, 8, 49, 0x3AA3D70A), (0x3110, 9, 49, 0x4A742400)]).sounding 49 12000000 = 10000 := by decide +kernel

/-- R151 and the example of chapter 06: identifier 0x10 goes out as 0x50, and the frame 12 34 A0 0F has the checksum 0xB9. -/
theorem test_frame_checksum : (protectedId 0x10 = 0x50 ∧ frameSum true 0x10 [0x12, 0x34, 0xA0, 0x0F] = 0xB9) := by decide +kernel

/-- The example of chapter 06: at 19 200 bit/s (D = 240) and 40 % the deadline of 4 bytes is 6.125 ms, and the header is sent. -/
theorem test_frame_slot :
    after (.frameSlotStart 0 0)
      { R0.put [(0x2114, 1, 0, 3), (0x2114, 0x16, 0, 2), (0x2114, 0x17, 0, 40), (0x2140, 2, 0, 2), (0x2140, 3, 0, 0x10), (0x2140, 4, 0, 4),
                (0x2140, 5, 0, 1), (0x2140, 6, 0, 5)] with
        twin.role := 0, serial := [(20, { line := 1, txDiv := 240, rxDiv := 240 })] }
      (fun t => decide ((t.sp 20).sending = [0x55, 0x50] ∧ (t.sp 20).nextSlot = 5 ∧
        (t.sp 20).slot.map (fun x => x.deadline) = some 2450000)) = true := by decide +kernel

/-- Chapter 07: code 4 018 479 through the default shunt is 12 000 001 nA. -/
theorem test_loop_current :
    after (.loopConversion 0 3 4018479 2500) { R0 with analog.chans := [(3, { code := 0, convs := 3 })] }
      (fun t => decide ((t.chan 3).f = 12000001 ∧ (t.chan 3).code = 0)) = true := by decide +kernel

/-- Table 8.4: a PAUSE with q = 0xFFFF at 1000 Mbit/s pauses the port for 33.554 ms (13 421 568 cycles). -/
theorem test_pause :
    after (.ethFrameReceived 0 0 (onWire (ethHeader 0x0180C2000001 7 0x8808 ++ [0, 1, 0xFF, 0xFF])) false)
      { R0 with eth := [(0, { link := 1 })] }
      (fun t => decide ((t.ep 0).pauseState = 1 ∧ (t.ep 0).pauseEnd = 13421568)) = true := by decide +kernel

/-- Chapter 09: cascades 0 and 1 issue -10000 and 0 in loop PDO 0 of node 16: SYNC, then 0x190 with F0 D8 00 00. -/
theorem test_sync_pdo :
    let d : Dispatch := { row := 2, consumer := 0x0300, due := 0, dueCycle := 0, dueTime := 0, late := false, slot := 0 }
    after (.syncDispatch 0)
      { R0.put [(0x2242, 1, 0, 1), (0x2260, 1, 0, 16), (0x3010, 2, 0, 1), (0x3010, 9, 0, 0), (0x3010, 2, 1, 1), (0x3010, 9, 1, 0), (0x3010, 0xA, 1, 2)] with
        twin.role := 0, canOpen.nmt := 5, can := [], appts.line := [d]
        control.cascades := [(0, { state := 1, issued := -10000 }), (1, { state := 1 })] }
      (fun t => decide (((t.cp 2).tx.map (fun x => (x.frame.id, x.frame.data))) = [(0x80, []), (0x190, [0xF0, 0xD8, 0, 0])])) = true := by
  decide +kernel

/-- Table 10.6: the realignment of queue 0x000 discards the 17 characters that CE0 has not read. -/
theorem test_realign_seventeen :
    after (.realignAccept 0 0)
      { R0 with fabric.queues := [(0, { wasReset := some .consumer, phase := 2, presented := 17 })]
                serial := [(0, { rx := List.replicate 17 { data := 0x41, pip := {}, states := 0 } })] }
      (fun t => decide (t.statOf 0x4850 0 4 = 17 ∧ (t.sp 0).rx = [])) = true := by decide +kernel

/-- Chapter 12: the published test case of HMAC-SHA-256. -/
theorem test_hmac : (hmac256 (ascii "Jefe") (ascii "what do ya want for nothing?")).take 16 =
    [0x5B, 0xDC, 0xC1, 0x46, 0xBF, 0x60, 0x75, 0x4E, 0x6A, 0x04, 0x24, 0x26, 0x08, 0x95, 0x75, 0xC7] := by decide +kernel

/-- Chapter 13: the status sentence of an active unit in NORMAL, Run, of generation 18, without an alert, at 61 °C, is closed with the
checksum 44 and CR LF. -/
theorem test_status_sentence :
    closeSentence (ascii "$PHLX,ST,N,A,18,0,61,R") = ascii "$PHLX,ST,N,A,18,0,61,R*44" ++ [13, 10] := by decide +kernel

/-- Table 15.10: copies 0 and 1 sealed at generation 22 differ, so the unit starts in SAFE_LISTEN on its factory defaults, and alert
0xB101 names 22. -/
theorem test_conflict :
    after (.resetNRelease 0 true false false State.resetImage State.resetImage true)
      { R0 with boot.resetN := false, boot.slotA := { state := 4 }
                boot.copies := [(0, { generation := 22, sealed := true }), (1, { generation := 22, sealed := true, content := [(⟨0x2101, 3, 0⟩, .num 7)] }),
                                (2, { generation := 21, sealed := true })] }
      (fun t => decide (t.boot.mode = 3 ∧ t.cycle.generation = 0) && t.health.waiting.any (fun e => e.code == 0xB101 && e.b == 22)) = true := by
  decide +kernel

/-! ### The decoder: the table gives no row bits -/

/-- No word spells a command, whatever its width. -/
theorem test_no_word_spells_a_command :
    (decodeTableWord 0 0 = none ∧ decodeTableWord 32 0xFFFFFFFF = none ∧ R0.withFetchWord 32 0xFFFFFFFF = R0) := by decide +kernel

/-! ### States that meet the hypotheses of the obligations -/

/-- With no offset measured, a position of the peer is the unit's own, however reports are rounded. -/
theorem translate_without_offset (p : WheelPos) (s : State) (h : s.twin.offsets = []) : s.translate p = p := by
  have e : roundReport 0 = 0 := by unfold roundReport; split <;> rfl
  have m : s.twinOffset = 0 := by simp [State.twinOffset, meanRat, h]
  simp [State.translate, m, e]

/-- A state whose queue is empty. -/
theorem witness_StepRunsTheFrontCommand : (R0.put [(0x2101, 3, 0, 7)]).pending = [] := by decide +kernel

/-- A well-formed command and an ill-formed one. -/
theorem witness_WellFormedCommandsRun :
    (Instr.phlxStatus 5).wellFormed = true ∧ (Instr.ethFrameReceived 0 0 [] false).wellFormed = false := by decide +kernel

/-- A state after work, with a command in its queue. -/
def worked : State :=
  { R0 with fc := 7000, now := 9000, fabricZero := 1000, boot.floor := 3, boot.customerHash := 5, power.burned := 12, power.left := 40
            power.burning := true, pending := [.phlxStatus 5] }

/-- It meets the invariant, and its step answers a next state. -/
theorem witness_StepsKeepTheInvariant : worked.Inv ∧ ∃ t, step worked = .next t :=
  ⟨⟨by decide, by decide, by decide, by decide, fun _ => by decide, by decide⟩, _, rfl⟩

/-- A command on it answers a next state, with the customer's hash burned. -/
theorem witness_CommandsKeepFusesAndTime : worked.boot.customerHash ≠ 0 ∧ ∃ t, exec (.phlxStatus 5) worked = .next t :=
  ⟨by decide, _, rfl⟩

/-- A number of four bytes that a sealed copy may hold. -/
theorem witness_SealedContentReadsBack :
    Cfg.wf [((⟨0x2201, 6, 0⟩ : Key), Val.num 0x0A000001)] = true ∧
      ∀ e ∈ [((⟨0x2201, 6, 0⟩ : Key), Val.num 0x0A000001)], sealable ⟨7, false⟩ e := by
  refine ⟨by decide +kernel, ?_⟩
  intro e h
  simp only [List.mem_singleton] at h
  subst h
  refine ⟨⟨6, 6, .uns 4, .rw, .stg, 0, .any, 0⟩, by decide +kernel, by decide +kernel, ?_, by decide +kernel, by decide, by decide,
    by decide +kernel⟩
  exact ⟨by decide, by decide, by decide⟩

/-- An identifier of a frame. -/
theorem witness_FrameIdentifierAndChecksum : (16 : Nat) < 64 ∧ frameSum true 16 [] = 0xAF := by decide +kernel

/-- States that meet the hypotheses of CanopenHeartbeat, clause by clause. -/
theorem witness_CanopenHeartbeat :
    ((let s : State := R0
      let dt : Nat := 0
      let u := s.elapse dt
      let co := u.canOpen
      let period := u.cn 0x1017 0 0
      decide (u.works domSup = true ∧ u.works domCan = true ∧ (u.canOn 2 = false ∨ period = 0 ∨ co.nmt = 0 ∨ u.fc - co.lastBeat
        < msCycles period))) &&
     (let s : State := { R0.put [(0x1017,0,0,1000)] with fc := 400000000, now := 400000000 }
      let dt : Nat := 0
      let u := s.elapse dt
      let co := u.canOpen
      let period := u.cn 0x1017 0 0
      decide (u.works domSup = true ∧ u.works domCan = true ∧ u.canOn 2 = true ∧ period ≠ 0 ∧ (co.nmt = 127 ∨ co.nmt = 5 ∨
        co.nmt = 4) ∧ msCycles period ≤ u.fc - co.lastBeat)))
    = true := by decide +kernel

/-- States that meet the hypotheses of PpsEdgesAndZdaLabels, clause by clause. -/
theorem witness_PpsEdgesAndZdaLabels :
    ((let s : State := { R0 with fc := 12345, now := 12345 }
      let dt : Nat := 7
      let rising : Bool := true
      let u := s.elapse dt
      let p := u.wheels.pps
      decide (u.works domFabric = true ∧ 1 ∈ u.sources ∧ rising = decide (u.cn 0x2008 4 0 = 0) ∧ u.wheels.time.state ≠ .locked ∧
        p.seen = false ∧ p.label = none ∧ p.ahead = [])) &&
     (let s : State := { R0 with
          fc := 4000000000, now := 4000000000, wheels.pps.seen := true, wheels.pps.lastEdge := some 17999000000,
          wheels.pps.rejectRun := 1 }
      let dt : Nat := 0
      let rising : Bool := true
      let u := s.elapse dt
      let p := u.wheels.pps
      let at_ : Int := 5 * (u.fc : Int) - 2 * u.ci 0x2008 5 0
      let l := 17999000000
      decide (u.works domFabric = true ∧ 1 ∈ u.sources ∧ rising = decide (u.cn 0x2008 4 0 = 0) ∧ u.wheels.time.state ≠ .locked ∧
        p.seen = true ∧ p.lastEdge = some l ∧ 200000 < (at_ - l - halfNsPerSec).natAbs ∧ p.rejectRun < 2)) &&
     (let s : State := { R0 with
          fc := 4000000000, now := 4000000000, wheels.pps.seen := true, wheels.pps.label := some (5, 6), wheels.pps.lastEdge :=
            some 17999000000, wheels.pps.rejectRun := 2 }
      let dt : Nat := 0
      let rising : Bool := true
      let u := s.elapse dt
      let p := u.wheels.pps
      let at_ : Int := 5 * (u.fc : Int) - 2 * u.ci 0x2008 5 0
      let l := 17999000000
      decide (u.works domFabric = true ∧ 1 ∈ u.sources ∧ rising = decide (u.cn 0x2008 4 0 = 0) ∧ u.wheels.time.state ≠ .locked ∧
        p.seen = true ∧ p.lastEdge = some l ∧ 200000 < (at_ - l - halfNsPerSec).natAbs ∧ 2 ≤ p.rejectRun)) &&
     (let s : State := { R0 with
          fc := 4000000000, now := 4000000000, wheels.pps.seen := true, wheels.pps.present := true, wheels.pps.label := some
            (18000000000, 1000), wheels.pps.lastEdge := some 18000000000 }
      let dt : Nat := 0
      let rising : Bool := true
      let u := s.elapse dt
      let p := u.wheels.pps
      let at_ : Int := 5 * (u.fc : Int) - 2 * u.ci 0x2008 5 0
      let l := 18000000000
      let label := 1000
      decide (u.works domFabric = true ∧ 1 ∈ u.sources ∧ rising = decide (u.cn 0x2008 4 0 = 0) ∧ u.wheels.time.state ≠ .locked ∧
        p.seen = true ∧ p.lastEdge = some l ∧ (at_ - l - halfNsPerSec).natAbs ≤ 200000 ∧ p.label = some (l, label) ∧ label < 2 ^
        32 - 1 ∧ p.ahead = [] ∧ p.present = true ∧ u.wheels.time.source = 0 ∧ u.wheels.time.state ≠ .acquiring)) &&
     (let s : State :=
        { R0.put [(0x2008,3,0,1)] with wheels.zdaIn := [{ slots := [some 43200000, some 27, some 11, some 2025] }, {}] }
      let dt : Nat := 0
      let r : FibreRecord := { slots := [some 43200000, some 27, some 11, some 2025] }
      let rest : List FibreRecord := [{}]
      let label : Nat := (R0.zdaLabel { slots := [some 43200000, some 27, some 11, some 2025] }).getD 0
      let u := s.elapse dt
      decide (u.works domFabric = true ∧ u.wheels.zdaIn = r :: rest ∧ u.zdaLabel r = some label ∧ u.cn 0x2008 3 0 = 1)) &&
     (let s : State :=
        { R0.put [(0x2008,3,0,0)] with wheels.zdaIn := [{ slots := [some 43200000, some 27, some 11, some 2025] }, {}] }
      let dt : Nat := 0
      let r : FibreRecord := { slots := [some 43200000, some 27, some 11, some 2025] }
      let rest : List FibreRecord := [{}]
      let label : Nat := (R0.zdaLabel { slots := [some 43200000, some 27, some 11, some 2025] }).getD 0
      let u := s.elapse dt
      let p := u.wheels.pps
      decide (u.works domFabric = true ∧ u.wheels.zdaIn = r :: rest ∧ u.zdaLabel r = some label ∧ u.cn 0x2008 3 0 ≠ 1 ∧ p.edges
        = [])) &&
     (let s : State := { R0.put [(0x2008,3,0,0)] with
          fc := 4000000000, wheels.pps.edges := [⟨1000000000, none, 7⟩], wheels.zdaIn :=
            [{ pip := { cycle := 400000000 }, slots := [some 43200000, some 27, some 11, some 2025] }, {}] }
      let dt : Nat := 0
      let r : FibreRecord := { pip := { cycle := 400000000 }, slots := [some 43200000, some 27, some 11, some 2025] }
      let rest : List FibreRecord := [{}]
      let label : Nat := (R0.zdaLabel { slots := [some 43200000, some 27, some 11, some 2025] }).getD 0
      let u := s.elapse dt
      let p := u.wheels.pps
      let tz : Int := 5 * ((r.pip.cycle.toNat + u.fabricZero : Nat) : Int)
      let e := ⟨1000000000, none, 7⟩
      let es := ([] : List PpsEdge)
      decide (u.works domFabric = true ∧ u.wheels.zdaIn = r :: rest ∧ u.zdaLabel r = some label ∧ u.cn 0x2008 3 0 ≠ 1 ∧ p.edges
        = e :: es ∧ 0 ≤ tz - e.at_ ∧ tz - e.at_ ≤ 1900000000 ∧ e.label = none ∧ (u.wheels.time.state = .unref ∨
        u.wheels.time.state = .acquiring))))
    = true := by decide +kernel

/-- States that meet the hypotheses of TimeSourceLossAndRevert, clause by clause. -/
theorem witness_TimeSourceLossAndRevert :
    ((let s : State := { R0 with
          fc := 4000000000, now := 4000000000, wheels.pps.seen := true, wheels.pps.present := true, wheels.pps.lastEdge := some
            15000000000, wheels.time.state := .locked, wheels.time.source := 1, wheels.pps.good := 12 }
      let dt : Nat := 0
      let u := s.elapse dt
      let l := 15000000000
      decide (u.works domFabric = true ∧ u.wheels.pps.lastEdge = some l ∧ u.wheels.pps.seen = true ∧ 5000000000 ≤ 5 * (u.fc :
        Int) - l)) &&
     (let s : State := { R0 with
          fc := 4000000000, now := 4000000000, wheels.pps.seen := true, wheels.pps.present := true, wheels.pps.lastEdge := some
            15000000001, wheels.time.state := .locked, wheels.time.source := 1, wheels.pps.good := 12 }
      let dt : Nat := 0
      let u := s.elapse dt
      let l := 15000000001
      decide (u.works domFabric = true ∧ u.wheels.pps.lastEdge = some l ∧ 5 * (u.fc : Int) - l < 5000000000)) &&
     (let s : State := { R0 with
          fc := 4000000000, now := 4000000000, eth := [(1,
          { ptp.present := true, ptp.good := 20, ptp.lastDone := some 2400000000 })] }
      let dt : Nat := 0
      let u := s.elapse dt
      let p : Fin 2 := 1
      let l : Nat := 2400000000
      decide (u.works domFabric = true ∧ (u.ptpOf (p.val + 2)).lastDone = some l ∧ (u.ptpOf (p.val + 2)).present = true ∧ 4 *
        cyclesPerSec ≤ u.fc - l)) &&
     (let s : State := { R0 with
          fc := 4000000000, now := 4000000000, eth := [(1,
          { ptp.present := true, ptp.good := 20, ptp.lastDone := some 2400000001 })] }
      let dt : Nat := 0
      let u := s.elapse dt
      let p : Fin 2 := 1
      let l : Nat := 2400000001
      decide (u.works domFabric = true ∧ (u.ptpOf (p.val + 2)).lastDone = some l ∧ u.fc - l < 4 * cyclesPerSec)) &&
     (let s : State := { R0 with wheels.time.state := .locked, wheels.time.source := 1 }
      let dt : Nat := 0
      let src : Nat := 1
      let u := s.elapse dt
      decide (u.works domFabric = true ∧ u.wheels.time.state = .locked ∧ u.sources.head? = some src ∧ u.wheels.time.source =
        src)) &&
     (let s : State := { R0 with
          fc := 40000000000, now := 40000000000, wheels.time.state := .locked, wheels.time.source := 3, wheels.pps.present :=
            true, wheels.pps.good := 10, wheels.pps.zdaAgreed := true, wheels.pps.qualifiedSince := some 0, wheels.pps.offset :=
            -1 / 2000000 }
      let dt : Nat := 0
      let src : Nat := 1
      let since : Nat := 0
      let u := s.elapse dt
      decide (u.works domFabric = true ∧ u.wheels.time.state = .locked ∧ u.sources.head? = some src ∧ u.wheels.time.source ≠ src
        ∧ u.qualified src = true ∧ u.qualSince src = some since ∧ u.cn 0x2008 9 0 * cyclesPerSec ≤ u.fc - since ∧ (u.offsetOf
        src).abs < 1 / 1000000)) &&
     (let s : State := { R0 with
          fc := 40000000000, now := 40000000000, wheels.time.state := .locked, wheels.time.source := 3, wheels.pps.present :=
            true, wheels.pps.good := 10, wheels.pps.zdaAgreed := true, wheels.pps.qualifiedSince := some 0, wheels.pps.offset :=
            -1 / 1000 }
      let dt : Nat := 0
      let src : Nat := 1
      let since : Nat := 0
      let u := s.elapse dt
      decide (u.works domFabric = true ∧ u.wheels.time.state = .locked ∧ u.sources.head? = some src ∧ u.wheels.time.source ≠ src
        ∧ u.qualified src = true ∧ u.qualSince src = some since ∧ u.cn 0x2008 9 0 * cyclesPerSec ≤ u.fc - since ∧ 1 / 1000000 ≤
        (u.offsetOf src).abs)))
    = true := by decide +kernel

/-- States that meet the hypotheses of ShaftWheelFollowsTheEncoder, clause by clause. -/
theorem witness_ShaftWheelFollowsTheEncoder :
    ((let s : State := { R0 with wheels.enc.a := true }
      let dt : Nat := 0
      let a : Bool := true
      let b : Bool := false
      let u := s.elapse dt
      let e := u.wheels.enc
      decide (u.works domFabric = true ∧ a = e.a ∧ b = e.b)) &&
     (let s : State :=
        { R0 with fc := 4000000000, now := 4000000000, wheels.enc.lastEdge := some 3999999000, wheels.enc.a := true }
      let dt : Nat := 3
      let a : Bool := true
      let b : Bool := true
      let u := s.elapse dt
      let e := u.wheels.enc
      decide (u.works domFabric = true ∧ ((e.edgeAt).all fun l => decide ((u.cn 0x2009 2 0 : Rat) ≤ ((u.fc - l : Nat) : Rat) * 5
        / 2)) = true ∧ (a != e.a) ≠ (b != e.b) ∧ e.faulted = false)) &&
     (let s : State := { R0 with fc := 4000000000, now := 4000000000, wheels.enc.illegalAt := [1, 2] }
      let dt : Nat := 0
      let a : Bool := true
      let b : Bool := true
      let u := s.elapse dt
      let e := u.wheels.enc
      decide (u.works domFabric = true ∧ ((e.edgeAt).all fun l => decide ((u.cn 0x2009 2 0 : Rat) ≤ ((u.fc - l : Nat) : Rat) * 5
        / 2)) = true ∧ a ≠ e.a ∧ b ≠ e.b ∧ e.illegalAt.length < 3)) &&
     (let s : State :=
        { R0.put [(0x2009,1,0,1024)] with wheels.shaft.state := .locked, wheels.enc.count := 8190, wheels.enc.corrections := 1 }
      let dt : Nat := 0
      let u := s.elapse dt
      let e := u.wheels.enc
      let n : Int := u.countsPerTurn
      decide (u.works domFabric = true ∧ u.wheels.shaft.state = .locked ∧ (e.count - (2 * e.count + n) / (2 * n) * n).natAbs ≤
        2)) &&
     (let s : State := { R0 with wheels.shaft.state := .acquiring, wheels.enc.faulted := true }
      let dt : Nat := 0
      let u := s.elapse dt
      let e := u.wheels.enc
      decide (u.works domFabric = true ∧ u.wheels.shaft.state ≠ .locked ∧ (u.cn 0x2009 6 0 = 0 ∨ e.faulted = true))) &&
     (let s : State := { R0 with wheels.enc.a := true }
      let dt : Nat := 0
      let u := s.elapse dt
      let e := u.wheels.enc
      decide (u.works domFabric = true ∧ u.wheels.shaft.state ≠ .locked ∧ u.cn 0x2009 6 0 ≠ 0 ∧ e.faulted = false ∧ e.indexAt =
        none)) &&
     (let s : State := { R0.put [(0x2009,6,0,0)] with
          fc := 800000000, now := 800000000, wheels.enc.legalSince := some 0, wheels.shaft.state := .acquiring }
      let dt : Nat := 0
      let u := s.elapse dt
      let e := u.wheels.enc
      let l := 0
      decide (u.works domFabric = true ∧ e.legalSince = some l ∧ u.cn 0x2009 6 0 = 0 ∧ u.wheels.shaft.state = .acquiring ∧ 2 *
        cyclesPerSec ≤ u.fc - l)) &&
     (let s : State := { R0 with
          fc := 4000000000, now := 4000000000, wheels.enc.lastEdge := some 0, wheels.shaft.state := .locked, wheels.shaft.inc :=
            77 }
      let dt : Nat := 0
      let u := s.elapse dt
      let e := u.wheels.enc
      let l := 0
      decide (u.works domFabric = true ∧ e.lastEdge = some l ∧ e.standstill = false ∧ e.faulted = false ∧ msCycles (u.cn 0x2009
        4 0) ≤ u.fc - l)))
    = true := by decide +kernel

/-- States that meet the hypotheses of MainsAndSeaEdges, clause by clause. -/
theorem witness_MainsAndSeaEdges :
    ((let s : State := R0
      let dt : Nat := 0
      let rising : Bool := false
      let u := s.elapse dt
      decide (u.works domFabric = true ∧ ((rising != decide (u.cn 0x200A 2 0 = 0)) = true ∨ u.mainsEarly = true))) &&
     (let s : State := { R0 with
          fc := 4000000000, now := 4000000000, wheels.mns.lastEdge := some 3992000000, wheels.mns.good := 3, wheels.mains.state
            := .acquiring }
      let dt : Nat := 0
      let rising : Bool := true
      let u := s.elapse dt
      decide (u.works domFabric = true ∧ rising = decide (u.cn 0x200A 2 0 = 0) ∧ u.mainsEarly = false ∧ u.wheels.mns.bad = 0)) &&
     (let s : State := { R0 with
          fc := 4000000000, now := 4000000000, wheels.mns.lastEdge := some 3976000000, wheels.mains.everLocked := true,
          wheels.mains.state := .locked, wheels.mains.source := 1 }
      let dt : Nat := 0
      let u := s.elapse dt
      let l := 3976000000
      decide (u.works domFabric = true ∧ u.wheels.mns.lastEdge = some l ∧ 3 * u.mainsPeriod ≤ ((u.fc - l : Nat) : Rat))) &&
     (let s : State := { R0 with
          fc := 40000000000, now := 40000000000, wheels.est.lastCross := some 0, wheels.sea.state := .locked,
          wheels.sea.everLocked := true, wheels.sea.source := 1 }
      let dt : Nat := 0
      let u := s.elapse dt
      let l := 0
      decide (u.works domFabric = true ∧ u.wheels.est.lastCross = some l ∧ 2 * (u.wheels.est.period.getD ((u.cn 0x200B 2 0 :
        Rat) / 1000)) ≤ secs (u.fc - l))))
    = true := by decide +kernel

/-- States that meet the hypotheses of AppointmentsAndWheelOutputs, clause by clause. -/
theorem witness_AppointmentsAndWheelOutputs :
    ((let s : State := State.reset
      let dt : Nat := 0
      let r : Fin 1024 := 5
      let u := s.elapse dt
      let c := u.apptRow r.val
      decide (u.works domFabric = true ∧ c.armed = false)) &&
     (let s : State := { R0.put [(0x2010,3,5,1),(0x2010,7,5,0x0101)] with
          wheels.time.pos := accOf 0x500000000, fc := 40, now := 40, appts.rows := [(5, { next := some 0x500000000 })],
          appts.line := [{ row := 5, consumer := 0x0101, due := 1, dueCycle := 0, dueTime := 0, late := false, slot := 200 }] }
      let dt : Nat := 0
      let r : Fin 1024 := 5
      let n : WheelPos := 0x500000000
      let u := s.elapse dt
      let c := u.apptRow r.val
      decide (u.works domFabric = true ∧ c.armed = true ∧ c.kind = 1 ∧ (u.apptRun r.val).next = some n ∧ posAtOrAfter
        (u.wheels.get c.wheel).visible n = true ∧ u.rowWaits r.val = true)) &&
     (let s : State := { R0.put [(0x2010,3,5,1),(0x2010,7,5,0x0101)] with
          wheels.time.pos := accOf 0x500000000, fc := 40, now := 40, appts.rows := [(5, { next := some 0x500000000 })],
          appts.line := [{ row := 5, consumer := 0x0101, due := 1, dueCycle := 0, dueTime := 0, late := false, slot := 160 }] }
      let dt : Nat := 0
      let r : Fin 1024 := 5
      let n : WheelPos := 0x500000000
      let u := s.elapse dt
      let c := u.apptRow r.val
      decide (u.works domFabric = true ∧ c.armed = true ∧ c.kind = 1 ∧ (u.apptRun r.val).next = some n ∧ posAtOrAfter
        (u.wheels.get c.wheel).visible n = true ∧ u.rowWaits r.val = false)) &&
     (let s : State := { R0.put [(0x2010,2,5,1),(0x2010,3,5,2),(0x2010,5,5,0x100000000),(0x2010,7,5,0x0101)] with
          wheels.shaft.pos := accOf 0x500000000, fc := 40, now := 40, appts.rows := [(5, { next := some 0x500000000 })] }
      let dt : Nat := 0
      let r : Fin 1024 := 5
      let n : WheelPos := 0x500000000
      let u := s.elapse dt
      let c := u.apptRow r.val
      decide (u.works domFabric = true ∧ c.armed = true ∧ c.kind = 2 ∧ c.direction = 0 ∧ (u.apptRun r.val).next = some n ∧
        posAtOrAfter (u.wheels.get c.wheel).visible n = true ∧ u.rowWaits r.val = false)) &&
     (let s : State := { R0.put [(0x2010,3,5,1),(0x2010,7,5,0x0101)] with
          wheels.time.pos := accOf 0x4FFFFFFFF, fc := 40, now := 40, appts.rows := [(5, { next := some 0x500000000 })] }
      let dt : Nat := 0
      let r : Fin 1024 := 5
      let n : WheelPos := 0x500000000
      let u := s.elapse dt
      let c := u.apptRow r.val
      decide (u.works domFabric = true ∧ c.armed = true ∧ (u.apptRun r.val).next = some n ∧ (u.apptRun r.val).back = none ∧
        posAtOrAfter (u.wheels.get c.wheel).visible n = false)) &&
     (let s : State := { R0 with wheels.time.state := .locked, wheels.time.pos := accOf 0x500000000, fc := 40, now := 40 }
      let dt : Nat := 0
      let u := s.elapse dt
      decide (u.works domFabric = true ∧ u.appts.ppsLast ≠ some u.ppsSlot ∧ u.ppsAllowed = true)) &&
     (let s : State := { R0 with
          appts.line := [{ row := 5, consumer := 0x0603, due := 1, dueCycle := 0, dueTime := 0, late := false, slot := 0
                },{ row := 6, consumer := 0x0604, due := 1, dueCycle := 0, dueTime := 0, late := false, slot := 0 }] }
      let dt : Nat := 0
      let u := s.elapse dt
      decide (u.works domFabric = true ∧ u.appts.ppsLast ≠ some u.ppsSlot ∧ u.ppsAllowed = false)) &&
     (let s : State := { R0 with appts.ppsOut := true, appts.ppsEnd := some 7 }
      let dt : Nat := 7
      let x : Nat := 7
      let u := s.elapse dt
      decide (u.works domFabric = true ∧ u.appts.ppsEnd = some x ∧ x ≤ u.fc)) &&
     (let s : State := { R0 with
          appts.line := [{ row := 5, consumer := 0x0603, due := 1, dueCycle := 0, dueTime := 0, late := false, slot := 0
                },{ row := 6, consumer := 0x0604, due := 1, dueCycle := 0, dueTime := 0, late := false, slot := 0 }] }
      let dt : Nat := 0
      let n : Fin 8 := 3
      let d : Dispatch := { row := 5, consumer := 0x0603, due := 1, dueCycle := 0, dueTime := 0, late := false, slot := 0 }
      let rest : List Dispatch :=
        [{ row := 6, consumer := 0x0604, due := 1, dueCycle := 0, dueTime := 0, late := false, slot := 0 }]
      let u := s.elapse dt
      let mode := Cfg.nat u.uid (u.cfgAt d.dueTime) 0x2019 (1 + n.val) 0
      decide (u.works domFabric = true ∧ takeDispatch u.fc (0x0600 + n.val) u.appts.line = some (d, rest) ∧ mode = 0 ∧ (u.evt
        n.val).pulseEnd = none)) &&
     (let s : State := { R0.put [(0x2019,4,0,1)] with
          appts.line := [{ row := 5, consumer := 0x0603, due := 1, dueCycle := 0, dueTime := 0, late := false, slot := 0
                },{ row := 6, consumer := 0x0604, due := 1, dueCycle := 0, dueTime := 0, late := false, slot := 0 }] }
      let dt : Nat := 0
      let n : Fin 8 := 3
      let d : Dispatch := { row := 5, consumer := 0x0603, due := 1, dueCycle := 0, dueTime := 0, late := false, slot := 0 }
      let rest : List Dispatch :=
        [{ row := 6, consumer := 0x0604, due := 1, dueCycle := 0, dueTime := 0, late := false, slot := 0 }]
      let u := s.elapse dt
      let mode := Cfg.nat u.uid (u.cfgAt d.dueTime) 0x2019 (1 + n.val) 0
      decide (u.works domFabric = true ∧ takeDispatch u.fc (0x0600 + n.val) u.appts.line = some (d, rest) ∧ mode = 1 ∧ (u.evt
        n.val).pulseEnd = none)) &&
     (let s : State := { R0.put [(0x2019,4,0,2)] with
          appts.evt := [(3, { level := true })], appts.line :=
            [{ row := 5, consumer := 0x0603, due := 1, dueCycle := 0, dueTime := 0, late := false, slot := 0
                  },{ row := 6, consumer := 0x0604, due := 1, dueCycle := 0, dueTime := 0, late := false, slot := 0 }] }
      let dt : Nat := 0
      let n : Fin 8 := 3
      let d : Dispatch := { row := 5, consumer := 0x0603, due := 1, dueCycle := 0, dueTime := 0, late := false, slot := 0 }
      let rest : List Dispatch :=
        [{ row := 6, consumer := 0x0604, due := 1, dueCycle := 0, dueTime := 0, late := false, slot := 0 }]
      let u := s.elapse dt
      let mode := Cfg.nat u.uid (u.cfgAt d.dueTime) 0x2019 (1 + n.val) 0
      decide (u.works domFabric = true ∧ takeDispatch u.fc (0x0600 + n.val) u.appts.line = some (d, rest) ∧ 2 ≤ mode ∧ (u.evt
        n.val).pulseEnd = none)) &&
     (let s : State := { R0.put [(0x2019,4,0,1)] with
          appts.evt := [(3, { level := true, pulseEnd := some 100 })], appts.line :=
            [{ row := 5, consumer := 0x0603, due := 1, dueCycle := 0, dueTime := 0, late := false, slot := 0
                  },{ row := 6, consumer := 0x0604, due := 1, dueCycle := 0, dueTime := 0, late := false, slot := 0 }] }
      let dt : Nat := 0
      let n : Fin 8 := 3
      let d : Dispatch := { row := 5, consumer := 0x0603, due := 1, dueCycle := 0, dueTime := 0, late := false, slot := 0 }
      let rest : List Dispatch :=
        [{ row := 6, consumer := 0x0604, due := 1, dueCycle := 0, dueTime := 0, late := false, slot := 0 }]
      let u := s.elapse dt
      decide (u.works domFabric = true ∧ takeDispatch u.fc (0x0600 + n.val) u.appts.line = some (d, rest) ∧ (u.evt
        n.val).pulseEnd.isSome = true)) &&
     (let s : State := { R0 with appts.evt := [(3, { level := true, pulseEnd := some 100 })] }
      let dt : Nat := 100
      let n : Fin 8 := 3
      let x : Nat := 100
      let u := s.elapse dt
      decide (u.works domFabric = true ∧ (u.evt n.val).pulseEnd = some x ∧ x ≤ u.fc)))
    = true := by decide +kernel

/-- States that meet the hypotheses of IntakesTakeTheOldest, clause by clause. -/
theorem witness_IntakesTakeTheOldest :
    ((let s : State := { R0 with
          serial := [(1, { rx := [{ data := 0x41, pip := {}, states := 0 }, { data := 0x42, pip := {}, states := 0 }] })],
          carding.framers := [(1, { phase := .sentence, text := ascii "$GP" })] }
      let dt : Nat := 0
      let u := s.elapse dt
      let p : Fin 24 := 1
      let c : RxChar := { data := 0x41, pip := {}, states := 0 }
      let rest : List RxChar := [{ data := 0x42, pip := {}, states := 0 }]
      let f : Framer := Tbl.get {} p.val u.carding.framers
      decide (u.works domFabric = true ∧ u.engineTakes (engineOf p.val false) p.val = true ∧ u.portMode p.val ≠ 3 ∧ (u.sp
        p.val).rx = c :: rest ∧ f.phase = .sentence ∧ tagReason c.data = none ∧ startsUnit (c.data.setWidth 8).toNat = false ∧
        f.text.length < 82 ∧ (c.data.setWidth 8 : Byte) ≠ 0x0A ∧ f.text.getLast? ≠ some 0x0D)) &&
     (let s : State := { R0 with
          eth := [(1,
          { rxA := [{ bytes := [1,2,3], pip := {}, states := 0, stamp := 0, errored := false, status := 0, length := 3 }] })] }
      let dt : Nat := 0
      let u := s.elapse dt
      let p : Fin 24 := 1
      decide (u.works domFabric = true ∧ u.engineTakes (engineOf p.val false) p.val = true ∧ (u.sp p.val).rx = [])) &&
     (let s : State := { R0 with
          eth := [(1,
          { rxA := [{ bytes := [1,2,3], pip := {}, states := 0, stamp := 0, errored := false, status := 0, length := 3 }] })] }
      let dt : Nat := 0
      let u := s.elapse dt
      let p : Fin 2 := 1
      let side : Bool := false
      let f : RxFrame := { bytes := [1,2,3], pip := {}, states := 0, stamp := 0, errored := false, status := 0, length := 3 }
      let rest : List RxFrame := []
      let e := engineOf (0x20 + p.val) side
      let w := State.takeDatagram p.val side u
      decide (u.works domFabric = true ∧ u.engineTakes e (0x30 + 2 * p.val + side.toNat) = true ∧ (if side then (u.ep p.val).rxB
        else (u.ep p.val).rxA) = f :: rest ∧ u.fits (engineOutputs e) w = true)) &&
     (let s : State := { R0.put [(0x2300,8,0,1)] with
          eth := [(0,
          { rxA := [{ bytes := [1,2,3], pip := {}, states := 0, stamp := 0, errored := true, status := 16, length := 3 }] })],
          bramble.inputs := (List.range 10).map (fun e => (e, List.replicate 1024 { source := 3 })) }
      let dt : Nat := 0
      let u := s.elapse dt
      let p : Fin 2 := 0
      let side : Bool := false
      let f : RxFrame := { bytes := [1,2,3], pip := {}, states := 0, stamp := 0, errored := true, status := 16, length := 3 }
      let rest : List RxFrame := []
      let e := engineOf (0x20 + p.val) side
      let w := State.takeDatagram p.val side u
      decide (u.works domFabric = true ∧ u.engineTakes e (0x30 + 2 * p.val + side.toNat) = true ∧ (if side then (u.ep p.val).rxB
        else (u.ep p.val).rxA) = f :: rest ∧ u.fits (engineOutputs e) w = false)) &&
     (let s : State := { R0 with
          can := [(1, {
              rxMsgs := [{
                  ok := true, src := 5, name := none, pgn := 127250, priority := 2, data := [1,2,3,4,5,6,7,8], pip := {}, states
                    := 0 }] })] }
      let dt : Nat := 0
      let u := s.elapse dt
      let p : Fin 2 := 1
      let m : CanMsg :=
        { ok := true, src := 5, name := none, pgn := 127250, priority := 2, data := [1,2,3,4,5,6,7,8], pip := {}, states := 0 }
      let rest : List CanMsg := []
      decide (u.works domFabric = true ∧ u.engineTakes 3 (0x48 + p.val) = true ∧ (u.cp p.val).rxMsgs = m :: rest ∧ (∀ q ∈
        engineOutputs 3, u.admits q = true ∧ u.queued q < 512))))
    = true := by decide +kernel

/-- States that meet the hypotheses of ReceivedPdosAndSourceAge, clause by clause. -/
theorem witness_ReceivedPdosAndSourceAge :
    ((let s : State := { R0 with can := [(2, { pdos := [(0x181, [1,2,3], {}, 0)] })] }
      let dt : Nat := 0
      let cob : Nat := 0x181
      let states : Nat := 0
      let data : List Byte := [1,2,3]
      let pip : Pip := {}
      let rest : List (Nat × List Byte × Pip × Nat) := []
      let u := s.elapse dt
      decide (u.works domFabric = true ∧ u.engineTakes 3 0x4A = true ∧ (u.cp 2).pdos = (cob, data, pip, states) :: rest ∧
        u.canOpen.nmt = 5 ∧ (∀ q ∈ engineOutputs 3, u.admits q = true ∧ u.queued q < 512))) &&
     (let s : State := { R0 with can := [(2, { pdos := [(0x181, [1,2,3], {}, 0)] })], canOpen.nmt := 127 }
      let dt : Nat := 0
      let cob : Nat := 0x181
      let states : Nat := 0
      let data : List Byte := [1,2,3]
      let pip : Pip := {}
      let rest : List (Nat × List Byte × Pip × Nat) := []
      let u := s.elapse dt
      decide (u.works domFabric = true ∧ u.engineTakes 3 0x4A = true ∧ (u.cp 2).pdos = (cob, data, pip, states) :: rest ∧
        u.canOpen.nmt ≠ 5)) &&
     (let s : State := { R0.put [(0x2310,2,3,1),(0x2310,9,3,1000)] with
          fc := 1200000001, now := 1200000001, carding.sources := [(3, { health := 1, had := true })] }
      let dt : Nat := 0
      let r : Fin 512 := 3
      let u := s.elapse dt
      let x := u.src r.val
      let iv := u.interval r.val
      decide (u.works domFabric = true ∧ u.mirrored = false ∧ u.cn 0x2310 2 r.val = 1 ∧ iv ≠ 0 ∧ u.groupsOf r.val = [] ∧ 3 * iv
        < u.fc - x.ref)) &&
     (let s : State := { R0.put [(0x2310,2,3,1),(0x2310,9,3,1000)] with
          fc := 1200000000, now := 1200000000, carding.sources := [(3, { health := 1, had := true })] }
      let dt : Nat := 0
      let r : Fin 512 := 3
      let u := s.elapse dt
      let x := u.src r.val
      let iv := u.interval r.val
      decide (u.works domFabric = true ∧ u.mirrored = false ∧ u.cn 0x2310 2 r.val = 1 ∧ iv ≠ 0 ∧ u.groupsOf r.val = [] ∧ u.fc -
        x.ref ≤ 3 * iv)) &&
     (let s : State := { R0.put [(0x2310,2,3,1),(0x2310,9,3,1000)] with
          fc := 600000001, now := 600000001, carding.sources := [(3, { health := 1, had := true, score := 7 })] }
      let dt : Nat := 0
      let r : Fin 512 := 3
      let u := s.elapse dt
      let x := u.src r.val
      let iv := u.interval r.val
      decide (u.works domFabric = true ∧ u.mirrored = false ∧ u.cn 0x2310 2 r.val = 1 ∧ iv ≠ 0 ∧ u.groupsOf r.val = [] ∧
        x.lateSteps = 0 ∧ x.had = true ∧ x.score ≤ 255 ∧ 3 * iv < 2 * (u.fc - x.ref) ∧ u.fc - x.ref ≤ 3 * iv)) &&
     (let s : State := { R0.put [(0x2310,2,3,1),(0x2310,9,3,1000)] with
          fc := 600000000, now := 600000000, carding.sources := [(3, { health := 1, had := true, score := 7 })] }
      let dt : Nat := 0
      let r : Fin 512 := 3
      let u := s.elapse dt
      let x := u.src r.val
      let iv := u.interval r.val
      decide (u.works domFabric = true ∧ u.mirrored = false ∧ u.cn 0x2310 2 r.val = 1 ∧ iv ≠ 0 ∧ u.groupsOf r.val = [] ∧ 2 *
        (u.fc - x.ref) ≤ 3 * iv)) &&
     (let s : State :=
        { R0 with carding.discovery := [{ port := 1, kind := 0, text := [], number := 0, sightings := 1, seen := 0 }] }
      let dt : Nat := 0
      let u := s.elapse dt
      decide (u.works domSup = true)))
    = true := by decide +kernel

/-- States that meet the hypotheses of VotingTakesAndChooses, clause by clause. -/
theorem witness_VotingTakesAndChooses :
    ((let s : State := { R0.put [(0x2310,2,3,1),(0x2320,2,40,1),(0x2320,3,40,0xFFFFFFFFFFFF0003),(0x2320,4,40,5)] with
          carding.toVote9 := [(0x60, { source := 3, formatter := 5, slots := [some 7] }), (0x61, {})] }
      let dt : Nat := 0
      let u := s.elapse dt
      let ce9 : Bool := true
      let q : Nat := 0x60
      let r : FibreRecord := { source := 3, formatter := 5, slots := [some 7] }
      let rest : List (Nat × FibreRecord) := [(0x61, {})]
      decide (u.works domFabric = true ∧ u.up (if ce9 then domCardB else domCardA) = true ∧ u.admits (if ce9 then 0x69 else
        0x64) = true ∧ (if ce9 then u.carding.toVote9 else u.carding.toVote4) = (q, r) :: rest ∧ u.yields q = true ∧ u.queued
        (if ce9 then 0x69 else 0x64) < 960)) &&
     (let s : State := { R0.put [(0x2310,2,3,1),(0x2310,2,4,1),(0x2320,2,40,1),(0x2320,3,40,0xFFFFFFFF00040003),(0x2320,4,40,5)]
            with
          carding.sources := [(3, { health := 1, score := 200 }),(4, { health := 1, score := 201 })] }
      let dt : Nat := 0
      let u := s.elapse dt
      let g : Fin 64 := 40
      let best : Nat := 4
      decide (u.works domFabric = true ∧ u.voterUp g.val = true ∧ u.cn 0x2320 2 g.val = 1 ∧ u.mirrored = false ∧ ((u.grp
        g.val).chosen = 0xFFFF ∨ u.usable (u.grp g.val).chosen = false) ∧ u.bestOf (candidates u.uid u.cfg g.val) = some best ∧
        best ≠ 0xFFFF ∧ best ≠ (u.grp g.val).chosen)) &&
     (let s : State := R0.doms [(3, 2)]
      let dt : Nat := 0
      let u := s.elapse dt
      let g : Fin 64 := 31
      decide (u.works domFabric = true ∧ u.voterUp g.val = false)))
    = true := by decide +kernel

/-- States that meet the hypotheses of BrambleTakesTheOldest, clause by clause. -/
theorem witness_BrambleTakesTheOldest :
    ((let s : State := { R0.put [(0x2510,3,0,3),(0x2510,0x0B,0,4),(0x2510,0x0A,0,1),(0x2520,3,2,4)] with
          bramble.inputs := [(5, [{ source := 3, kind := 1, cls := 1, address := ascii "GPGGA", formatter := 5, port := 1 },
          {}])], bramble.order := 9, bramble.listeners := [(2,
          { seq := 4, queue := [{ rcd := {}, seq := 4, cls := 0, order := 3 }] })] }
      let dt : Nat := 0
      let q : Fin 11 := 5
      let r : FibreRecord := { source := 3, kind := 1, cls := 1, address := ascii "GPGGA", formatter := 5, port := 1 }
      let rest : List FibreRecord := [{}]
      let d : Delivery := { listener := 2, cls := 1, shaper := 0xFFFF }
      let u := s.elapse dt
      let ds := (route u.uid (u.cfgAt r.pip.time) r (ruleRows (u.cfgAt r.pip.time)) {}).delivery
      let cfg := u.cfgAt r.pip.time
      let x := u.lst d.listener
      let on := ds.filter (fun d => listenerOn u.uid cfg d.listener && (u.boot.mode != 2 || d.listener == 62))
      decide (u.works domFabric = true ∧ u.yields (0x60 + q.val) = true ∧ Tbl.get [] q.val u.bramble.inputs = r :: rest ∧ on =
        [d] ∧ d.shaper = 0xFFFF ∧ takes (listenerKind u.uid cfg d.listener) r = true ∧ u.storeRefuses cfg r.cls = false ∧
        x.queue.length < Cfg.nat u.uid cfg 0x2520 4 d.listener ∧ x.slot = none)) &&
     (let s : State := { R0.put ((List.range 28).map fun r => (0x2510,2,r,0)) with
          bramble.inputs := [(5, [{ source := 3, kind := 1, cls := 1, address := ascii "GPGGA", formatter := 5, port := 1 },
          {}])] }
      let dt : Nat := 0
      let q : Fin 11 := 5
      let r : FibreRecord := { source := 3, kind := 1, cls := 1, address := ascii "GPGGA", formatter := 5, port := 1 }
      let rest : List FibreRecord := [{}]
      let u := s.elapse dt
      let ds := (route u.uid (u.cfgAt r.pip.time) r (ruleRows (u.cfgAt r.pip.time)) {}).delivery
      let cfg := u.cfgAt r.pip.time
      let on := ds.filter (fun d => listenerOn u.uid cfg d.listener && (u.boot.mode != 2 || d.listener == 62))
      decide (u.works domFabric = true ∧ u.yields (0x60 + q.val) = true ∧ Tbl.get [] q.val u.bramble.inputs = r :: rest ∧ on =
        [])) &&
     (let s : State := { R0 with
          bramble.inputs := [(5, [{ source := 3, kind := 1, cls := 1, address := ascii "GPGGA", formatter := 5, port := 1 },
          {}])] }
      let dt : Nat := 0
      let q : Fin 11 := 5
      let r : FibreRecord := { source := 3, kind := 1, cls := 1, address := ascii "GPGGA", formatter := 5, port := 1 }
      let rest : List FibreRecord := [{}]
      let u := s.elapse dt
      decide (u.works domFabric = true ∧ u.yields (0x60 + q.val) = true ∧ Tbl.get [] q.val u.bramble.inputs = r :: rest)))
    = true := by decide +kernel

/-- States that meet the hypotheses of ShapersAndComposition, clause by clause. -/
theorem witness_ShapersAndComposition :
    ((let s : State := { R0 with
          appts.line := [{ row := 5, consumer := 0x0403, due := 1, dueCycle := 0, dueTime := 0, late := false, slot := 0 }] }
      let dt : Nat := 0
      let n : Fin 256 := 3
      let d : Dispatch := { row := 5, consumer := 0x0403, due := 1, dueCycle := 0, dueTime := 0, late := false, slot := 0 }
      let rest : List Dispatch := []
      let u := s.elapse dt
      decide (u.works domFabric = true ∧ takeDispatch u.fc (0x0400 + n.val) u.appts.line = some (d, rest) ∧ u.cn 0x2530 2 n.val
        ≠ 3)) &&
     (let s : State := { R0.put [(0x2530,2,3,3),(0x2510,0x0B,0,4),(0x2510,0x0D,0,3)] with
          appts.line := [{ row := 5, consumer := 0x0403, due := 1, dueCycle := 0, dueTime := 0, late := false, slot := 0 }] }
      let dt : Nat := 0
      let l : Nat := 2
      let n : Fin 256 := 3
      let d : Dispatch := { row := 5, consumer := 0x0403, due := 1, dueCycle := 0, dueTime := 0, late := false, slot := 0 }
      let rest : List Dispatch := []
      let u := s.elapse dt
      decide (u.works domFabric = true ∧ takeDispatch u.fc (0x0400 + n.val) u.appts.line = some (d, rest) ∧ u.cn 0x2530 2 n.val
        = 3 ∧ u.shaperListeners n.val = [l] ∧ (u.shp n.val l).held = none)) &&
     (let s : State := { R0.put [(0x2530,2,3,3),(0x2510,0x0B,0,4),(0x2510,0x0D,0,3)] with
          appts.line := [{ row := 5, consumer := 0x0403, due := 1, dueCycle := 0, dueTime := 0, late := false, slot := 0 }],
          bramble.shapers := [(194, { held := some ({ source := 3, kind := 1 }, 1) })] }
      let dt : Nat := 0
      let l : Nat := 2
      let n : Fin 256 := 3
      let d : Dispatch := { row := 5, consumer := 0x0403, due := 1, dueCycle := 0, dueTime := 0, late := false, slot := 0 }
      let rest : List Dispatch := []
      let u := s.elapse dt
      let r := { source := 3, kind := 1 }
      let cls := 1
      decide (u.works domFabric = true ∧ takeDispatch u.fc (0x0400 + n.val) u.appts.line = some (d, rest) ∧ u.cn 0x2530 2 n.val
        = 3 ∧ u.shaperListeners n.val = [l] ∧ (u.shp n.val l).held = some (r, cls))) &&
     (let s : State := { R0 with
          bramble.listeners := [(62, {
              queue := [{ rcd := { source := 3 }, seq := 4, cls := 0, order := 3 },
              { rcd := { source := 4 }, seq := 5, cls := 0, order := 4 }] })] }
      let dt : Nat := 0
      let l : Nat := 62
      let fe1 : Bool := true
      let e : Entry := { rcd := { source := 3 }, seq := 4, cls := 0, order := 3 }
      let u := s.elapse dt
      decide (u.works domFull = true ∧ u.nextEntry fe1 = some (l, e) ∧ u.badRecord e.rcd = false ∧ listenerKind u.uid (u.cfgAt
        e.rcd.pip.time) l = .journal)) &&
     (let s : State := { R0.put [(0x2520,3,2,0x28),(0x2242,1,0,1)] with
          can := [], twin.role := 0, bramble.listeners := [(2,
          { queue := [{ rcd := { source := 3 }, seq := 4, cls := 1, order := 3 }] })] }
      let dt : Nat := 0
      let l : Nat := 2
      let fe1 : Bool := false
      let e : Entry := { rcd := { source := 3 }, seq := 4, cls := 1, order := 3 }
      let u := s.elapse dt
      let p := 0
      decide (u.works domFull = true ∧ u.nextEntry fe1 = some (l, e) ∧ u.badRecord e.rcd = false ∧ listenerKind u.uid (u.cfgAt
        e.rcd.pip.time) l = .can p ∧ (u.cp p).addrState ≠ 2)) &&
     (let s : State := { R0.put [(0x2520,3,2,4)] with
          twin.role := 0, bramble.listeners := [(2, {
              queue := [{
                  rcd :=
                    { kind := 1, address := ascii "GPZDA", raw := ascii "$GPZDA,120000.00,27,11,2025,00,00*61" ++ [13,10] }, seq
                    := 4, cls := 1, order := 3 }] })] }
      let dt : Nat := 0
      let l : Nat := 2
      let fe1 : Bool := false
      let e : Entry := {
          rcd := { kind := 1, address := ascii "GPZDA", raw := ascii "$GPZDA,120000.00,27,11,2025,00,00*61" ++ [13,10] }, seq :=
            4, cls := 1, order := 3 }
      let u := s.elapse dt
      let p := 4
      let tx := (sentenceText ({} : State).uid [] 2
        { kind := 1, address := ascii "GPZDA", raw := ascii "$GPZDA,120000.00,27,11,2025,00,00*61" ++ [13,10] }).getD []
      decide (u.works domFull = true ∧ u.nextEntry fe1 = some (l, e) ∧ u.badRecord e.rcd = false ∧ listenerKind u.uid (u.cfgAt
        e.rcd.pip.time) l = .serial p ∧ sentenceText u.uid (u.cfgAt e.rcd.pip.time) l e.rcd = some tx)))
    = true := by decide +kernel

/-- States that meet the hypotheses of ControlTakesAndTotals, clause by clause. -/
theorem witness_ControlTakesAndTotals :
    ((let s : State := { R0 with
          bramble.listeners := [(63, {
              queue := [{ rcd := { source := 3, formatter := 5 }, seq := 4, cls := 2, order := 3 },
              { rcd := { source := 4 }, seq := 5, cls := 1, order := 4 }] })] }
      let dt : Nat := 9
      let l : Nat := 63
      let e : Entry := { rcd := { source := 4 }, seq := 5, cls := 1, order := 4 }
      let u := s.elapse dt
      decide (u.works domCtrl = true ∧ ((u.lst 63).queue.filter (fun e => u.yields (0x1FC + e.cls))).foldl (fun b e =>
        betterEntry b 63 e) none = some (l, e) ∧ u.badRecord e.rcd = false)) &&
     (let s : State := { R0.put [(0x3110,2,3,1),(0x3110,2,5,1)] with
          control.tanks := [(3, { code := 2, mass := 100, tcg := 30, lcg := 5 }), (5, { code := 3, mass := 50, tcg := -10 })] }
      let dt : Nat := 5
      let u := s.elapse dt
      decide (u.works domCtrl = true)))
    = true := by decide +kernel

/-- States that meet the hypotheses of TanksAndGauges, clause by clause. -/
theorem witness_TanksAndGauges :
    ((let s : State := { R0.put [(0x3110,2,3,1),(0x3110,0x0F,3,1000)] with
          fc := 400000001, now := 400000001, control.tanks := [(3, { code := 2 })] }
      let dt : Nat := 0
      let i : Fin 96 := 3
      let u := s.elapse dt
      let x := u.tank i.val
      decide (u.works domCtrl = true ∧ u.tankOn i.val = true ∧ x.code = 2 ∧ u.tankLimit i.val < u.fc - x.lastAt)) &&
     (let s : State := { R0.put [(0x3110,2,3,1),(0x3110,0x0F,3,1000)] with
          fc := 400000000, now := 400000000, control.tanks := [(3, { code := 2 })] }
      let dt : Nat := 0
      let i : Fin 96 := 3
      let u := s.elapse dt
      let x := u.tank i.val
      decide (u.works domCtrl = true ∧ u.tankOn i.val = true ∧ u.fc - x.lastAt ≤ u.tankLimit i.val)) &&
     (let s : State := { R0.put [(0x3110,2,3,1),(0x3110,0x0D,3,2)] with control.tanks := [(3, { code := 2 })] }
      let dt : Nat := 0
      let i : Fin 96 := 3
      let u := s.elapse dt
      let x := u.tank i.val
      let sea := decide (u.wheels.sea.state = .locked)
      let iv := u.cn 0x3110 0x0E i.val
      let now := if sea then posRev u.wheels.sea.visible else intervalOf iv u.time
      let formed := if sea then x.formedSea else x.formed
      decide (u.works domCtrl = true ∧ u.tankOn i.val = true ∧ (u.cn 0x3110 0x0D i.val ≠ 2 ∨ now = formed))) &&
     (let s : State := { R0.put [(0x3110,2,3,1),(0x3110,0x0D,3,2),(0x3110,0x0E,3,1000)] with
          wheels.time.pos := accOf 0x500000000, control.tanks := [(3, {
              code := 2, formed := 4, pending := [{ g := 7, at_ := 0x300000000, sea := 0, basis := 0, fc := 0 },
              { g := 9, at_ := 0x500000000, sea := 0, basis := 0, fc := 0 }] })] }
      let dt : Nat := 0
      let i : Fin 96 := 3
      let u := s.elapse dt
      let x := u.tank i.val
      let sea := decide (u.wheels.sea.state = .locked)
      let iv := u.cn 0x3110 0x0E i.val
      let idx (y : Sounding) : Nat := if sea then posRev y.sea else intervalOf iv y.at_
      let now := if sea then posRev u.wheels.sea.visible else intervalOf iv u.time
      let formed := if sea then x.formedSea else x.formed
      let l := x.pending.filter (fun y => idx y + 1 == now)
      decide (u.works domCtrl = true ∧ u.tankOn i.val = true ∧ u.cn 0x3110 0x0D i.val = 2 ∧ now ≠ formed ∧ l = [])) &&
     (let s : State := { R0.put [(0x3110,2,3,1),(0x3110,0x0D,3,2),(0x3110,0x0E,3,1000)] with
          wheels.time.pos := accOf 0x500000000, control.tanks := [(3, {
              code := 1, formed := 4, pending := [{ g := 7, at_ := 0x480000000, sea := 0, basis := 0, fc := 0 },
              { g := 10, at_ := 0x400000000, sea := 0, basis := 0, fc := 0 }] })] }
      let dt : Nat := 0
      let i : Fin 96 := 3
      let u := s.elapse dt
      let x := u.tank i.val
      let sea := decide (u.wheels.sea.state = .locked)
      let iv := u.cn 0x3110 0x0E i.val
      let idx (y : Sounding) : Nat := if sea then posRev y.sea else intervalOf iv y.at_
      let now := if sea then posRev u.wheels.sea.visible else intervalOf iv u.time
      let formed := if sea then x.formedSea else x.formed
      let l := x.pending.filter (fun y => idx y + 1 == now)
      decide (u.works domCtrl = true ∧ u.tankOn i.val = true ∧ u.cn 0x3110 0x0D i.val = 2 ∧ now ≠ formed ∧ l ≠ [])) &&
     (let s : State := { (R0.put [(0x3120,2,3,4),(0x2191,2,2,1)]).doms [(12, 2)] with
          appts.line := [{ row := 5, consumer := 0x0203, due := 1, dueCycle := 0, dueTime := 0, late := false, slot := 0 }] }
      let dt : Nat := 0
      let ch : Nat := 2
      let n : Fin 32 := 3
      let d : Dispatch := { row := 5, consumer := 0x0203, due := 1, dueCycle := 0, dueTime := 0, late := false, slot := 0 }
      let rest : List Dispatch := []
      let u := s.elapse dt
      decide (u.works domFabric = true ∧ takeDispatch u.fc (0x0200 + n.val) u.appts.line = some (d, rest) ∧ (u.apptRow
        d.row).seaSync = false ∧ u.setChannels n.val = [ch] ∧ u.up domAfe = false)) &&
     (let s : State := { R0.put [(0x3120,2,3,4),(0x2191,2,2,1)] with
          analog.chans := [(2, { code := 0, convs := 3, f := 5 })], appts.line :=
            [{ row := 5, consumer := 0x0203, due := 1, dueCycle := 0, dueTime := 0, late := false, slot := 0 }] }
      let dt : Nat := 0
      let ch : Nat := 2
      let n : Fin 32 := 3
      let d : Dispatch := { row := 5, consumer := 0x0203, due := 1, dueCycle := 0, dueTime := 0, late := false, slot := 0 }
      let rest : List Dispatch := []
      let u := s.elapse dt
      decide (u.works domFabric = true ∧ takeDispatch u.fc (0x0200 + n.val) u.appts.line = some (d, rest) ∧ (u.apptRow
        d.row).seaSync = false ∧ u.setChannels n.val = [ch] ∧ u.up domAfe = true ∧ u.up domCardB = true ∧ u.refFault = false ∧ 3
        ≤ (u.chan ch).convs ∧ (u.chan ch).code = 0)) &&
     (let s : State := { R0.put [(0x3120,2,3,4),(0x2191,2,2,1),(0x2010,2,6,3),(0x2010,3,6,2),(0x2010,6,6,2),(0x2010,7,6,0x0203)]
            with
          wheels.time.pos := accOf 0x500000000, analog.chans := [(2, { code := 0, convs := 3, f := 5 })], analog.bases := [(3,
          1)] }
      let dt : Nat := 0
      let n : Fin 32 := 3
      let u := s.elapse dt
      let ms := u.fallbackMs n.val
      decide (u.works domFabric = true ∧ u.seaSet n.val = true ∧ u.wheels.sea.state ≠ .locked ∧ (u.fallbackGrid n.val).due ms
        u.time = true ∧ posAfter u.analog.seaLeft (multipleAt ms (intervalOf ms u.time)) = false)) &&
     (let s : State := { R0 with wheels.sea.state := .locked }
      let dt : Nat := 0
      let n : Fin 32 := 3
      let u := s.elapse dt
      let ms := u.fallbackMs n.val
      decide (u.works domFabric = true ∧ (u.wheels.sea.state = .locked ∨ (u.fallbackGrid n.val).due ms u.time = false))) &&
     (let s : State :=
        { (R0.put [(0x2191,2,2,1),(0x2191,0x0A,2,1000)]).doms [(12, 2)] with wheels.time.pos := accOf 0x500000000 }
      let dt : Nat := 0
      let f : Fin 16 := 2
      let u := s.elapse dt
      let every := u.cn 0x2191 0x0A f.val
      decide (u.works domFabric = true ∧ u.cn 0x2191 2 f.val ≠ 0 ∧ u.inSet f.val = false ∧ (u.reportGrid f.val).due every u.time
        = true)) &&
     (let s : State := R0.put [(0x2191,2,2,0)]
      let dt : Nat := 0
      let f : Fin 16 := 2
      let u := s.elapse dt
      let every := u.cn 0x2191 0x0A f.val
      decide (u.works domFabric = true ∧ (u.cn 0x2191 2 f.val = 0 ∨ u.inSet f.val = true ∨ (u.reportGrid f.val).due every u.time
        = false))))
    = true := by decide +kernel

/-- States that meet the hypotheses of CascadesStepAndObey, clause by clause. -/
theorem witness_CascadesStepAndObey :
    ((let s : State := { R0 with
          appts.line := [{ row := 5, consumer := 0x0103, due := 1, dueCycle := 0, dueTime := 0, late := false, slot := 0 }] }
      let dt : Nat := 0
      let c : Fin 16 := 3
      let d : Dispatch := { row := 5, consumer := 0x0103, due := 1, dueCycle := 0, dueTime := 0, late := false, slot := 0 }
      let rest : List Dispatch := []
      let u := s.elapse dt
      let cfg := u.cfgAt d.dueTime
      let x := u.casc c.val
      decide (u.works domCtrl = true ∧ takeDispatch u.fc (0x0100 + c.val) u.appts.line = some (d, rest) ∧ (Cfg.nat u.uid cfg
        0x3010 2 c.val ≠ 1 ∨ x.state = 0))) &&
     (let s : State := { R0.put [(0x3010,2,3,1)] with
          control.cascades := [(3, { state := 1, holdCmd := true, issued := 12, outerOut := 4 })], appts.line :=
            [{ row := 5, consumer := 0x0103, due := 1, dueCycle := 0, dueTime := 0, late := false, slot := 0 }] }
      let dt : Nat := 0
      let c : Fin 16 := 3
      let d : Dispatch := { row := 5, consumer := 0x0103, due := 1, dueCycle := 0, dueTime := 0, late := false, slot := 0 }
      let rest : List Dispatch := []
      let u := s.elapse dt
      let cfg := u.cfgAt d.dueTime
      let x := u.casc c.val
      decide (u.works domCtrl = true ∧ takeDispatch u.fc (0x0100 + c.val) u.appts.line = some (d, rest) ∧ Cfg.nat u.uid cfg
        0x3010 2 c.val = 1 ∧ x.state = 1 ∧ x.running = none ∧ u.ctrlStandby = false ∧ x.holdCmd = true)) &&
     (let s : State := { R0.put [(0x3010,2,3,1),(0x3011,2,6,3),(0x3011,3,6,3),(0x3011,2,7,3),(0x3011,3,7,3),(0x3110,2,3,1)] with
          control.tanks := [(3, { code := 2, corrected := 5 })], control.cascades := [(3,
          { state := 1, issued := 12, outerOut := 4 })], appts.line :=
            [{ row := 5, consumer := 0x0103, due := 1, dueCycle := 0, dueTime := 0, late := false, slot := 0 }] }
      let dt : Nat := 0
      let c : Fin 16 := 3
      let d : Dispatch := { row := 5, consumer := 0x0103, due := 1, dueCycle := 0, dueTime := 0, late := false, slot := 0 }
      let rest : List Dispatch := []
      let u := s.elapse dt
      let cfg := u.cfgAt d.dueTime
      let x := u.casc c.val
      let n := Cfg.nat u.uid cfg 0x3010 6 c.val
      decide (u.works domCtrl = true ∧ takeDispatch u.fc (0x0100 + c.val) u.appts.line = some (d, rest) ∧ Cfg.nat u.uid cfg
        0x3010 2 c.val = 1 ∧ x.state = 1 ∧ x.running = none ∧ u.ctrlStandby = false ∧ x.holdCmd = false ∧ u.inputStale cfg c.val
        (decide (1 ≤ n ∧ x.outerIn = 0)) = false)) &&
     (let s : State := { R0.put [(0x3010,2,3,1)] with
          control.cascades := [(3, {
              state := 1, issued := 12, outerOut := 4, running := some
                { outer := none, inner := { y := 3 }, u := 77, outerOut := 5, startedAt := 0 }, consecutive := 2 })] }
      let dt : Nat := 0
      let c : Fin 16 := 3
      let u := s.elapse dt
      let x := u.casc c.val
      let r := { outer := none, inner := { y := 3 }, u := 77, outerOut := 5, startedAt := 0 }
      decide (u.works domCtrl = true ∧ x.running = some r)) &&
     (let s : State := State.reset
      let dt : Nat := 0
      let c : Fin 16 := 3
      let u := s.elapse dt
      let x := u.casc c.val
      decide (u.works domCtrl = true ∧ x.running = none)) &&
     (let s : State := { R0.put [(0x3010,2,3,1),(0x3011,2,6,3),(0x3011,3,6,3),(0x3011,2,7,3),(0x3011,3,7,3),(0x3110,2,3,1)] with
          control.tanks := [(3, { code := 2, corrected := 5 })], control.cascades := [(3,
          { state := 2, issued := 12, outerOut := 4 })] }
      let dt : Nat := 0
      let c : Fin 16 := 3
      let u := s.elapse dt
      decide (u.works domCtrl = true ∧ (u.casc c.val).state = 2 ∧ u.inputStale u.cfg c.val (decide (1 ≤ u.cn 0x3010 6 c.val)) =
        false)) &&
     (let s : State := { R0.put [(0x3010,2,3,1)] with control.cascades := [(3, { state := 1, issued := 12, outerOut := 4 })] }
      let dt : Nat := 0
      let c : Fin 16 := 3
      let u := s.elapse dt
      decide (u.works domCtrl = true ∧ (u.casc c.val).state ≠ 2)) &&
     (let s : State := { R0.put [(0x3010,2,3,1)] with control.cascades := [(3, { state := 1, issued := 12, release := true })] }
      let dt : Nat := 0
      let u := s.elapse dt
      decide (u.works domCtrl = true)) &&
     (let s : State := { R0.put [(0x3110,2,3,1),(0x3110,2,5,1)] with
          control.tanks := [(3, { code := 2, mass := 100, tcg := 30, corrected := 5, contribution := 6 }), (5,
          { code := 3, mass := 50, tcg := -10, corrected := 8, weight := 3 })], control.persistence := some 4 }
      let dt : Nat := 5
      let u := s.elapse dt
      decide (u.works domCtrl = true)) &&
     (let s : State := { R0.put [(0x3110,2,3,1),(0x3110,2,5,1)] with control.tanks := [(3, { code := 2, weight := 100 })] }
      let dt : Nat := 0
      let i : Fin 96 := 3
      let u := s.elapse dt
      decide (u.works domCtrl = true ∧ (u.tank i.val).weight ≠ 0)) &&
     (let s : State := { R0.put [(0x3110,2,3,1),(0x3110,2,5,1)] with control.tanks := [(3, { code := 2, weight := 0 })] }
      let dt : Nat := 0
      let i : Fin 96 := 3
      let u := s.elapse dt
      decide (u.works domCtrl = true ∧ (u.tank i.val).weight = 0)))
    = true := by decide +kernel

/-- States that meet the hypotheses of WindowAndConversion, clause by clause. -/
theorem witness_WindowAndConversion :
    ((let s : State := { R0.put [(0x2180,1,0,1),(0x2181,2,2,1)] with
          fc := 4000000000, now := 4000000000, analog.pairs := [(2, { windowAt := 5 })] }
      let dt : Nat := 0
      let p : Fin 24 := 2
      let u := s.elapse dt
      let due := (u.pair p.val).windowAt + msCycles (u.cn 0x2180 4 0)
      decide (u.works domAfe = true ∧ u.cn 0x2180 1 0 ≠ 0 ∧ u.cn 0x2181 2 p.val ≠ 0 ∧ due ≤ u.fc)) &&
     (let s : State := State.reset
      let dt : Nat := 0
      let p : Fin 24 := 0
      let u := s.elapse dt
      let due := (u.pair p.val).windowAt + msCycles (u.cn 0x2180 4 0)
      decide (u.works domAfe = true ∧ (u.cn 0x2180 1 0 = 0 ∨ u.cn 0x2181 2 p.val = 0 ∨ u.fc < due))) &&
     (let s : State := R0.put [(0x2191,2,2,0)]
      let dt : Nat := 0
      let ch : Fin 16 := 2
      let u := s.elapse dt
      decide (u.works domAfe = true ∧ u.cn 0x2191 2 ch.val = 0)) &&
     (let s : State := State.reset
      let dt : Nat := 0
      let ch : Fin 16 := 0
      let u := s.elapse dt
      decide (u.works domAfe = true ∧ u.cn 0x2191 2 ch.val ≠ 0 ∧ u.cn 0x2191 8 ch.val = 0)))
    = true := by decide +kernel

/-- States that meet the hypotheses of SyncDispatch, clause by clause. -/
theorem witness_SyncDispatch :
    ((let s : State := { R0 with
          appts.line := [{ row := 5, consumer := 0x0300, due := 1, dueCycle := 0, dueTime := 0, late := false, slot := 0 }] }
      let dt : Nat := 0
      let d : Dispatch := { row := 5, consumer := 0x0300, due := 1, dueCycle := 0, dueTime := 0, late := false, slot := 0 }
      let rest : List Dispatch := []
      let u := s.elapse dt
      let v : State := { u with appts := { u.appts with line := rest } }
      let x := u.cp 2
      decide (u.works domFabric = true ∧ takeDispatch u.fc 0x0300 u.appts.line = some (d, rest) ∧ (v.syncBarred = true ∨
        u.canOpen.nmt = 4 ∨ u.canOpen.nmt = 0 ∨ x.state = 3 ∨ x.state = 4))) &&
     (let s : State := { R0.put [(0x2242,1,0,0)] with
          twin.role := 0, appts.line :=
            [{ row := 5, consumer := 0x0300, due := 1, dueCycle := 0, dueTime := 0, late := false, slot := 0 }] }
      let dt : Nat := 0
      let d : Dispatch := { row := 5, consumer := 0x0300, due := 1, dueCycle := 0, dueTime := 0, late := false, slot := 0 }
      let rest : List Dispatch := []
      let u := s.elapse dt
      let v : State := { u with appts := { u.appts with line := rest } }
      let x := u.cp 2
      decide (u.works domFabric = true ∧ takeDispatch u.fc 0x0300 u.appts.line = some (d, rest) ∧ v.syncBarred = false ∧
        u.canOpen.nmt ≠ 4 ∧ u.canOpen.nmt ≠ 0 ∧ x.state ≠ 3 ∧ x.state ≠ 4 ∧ (u.up domCan = false ∨ u.canOn 2 = false ∨ u.flows
        0x54 = false))) &&
     (let s : State := { R0.put [(0x2242,1,0,1)] with
          canOpen.nmt := 127, twin.role := 0, can := [], appts.line :=
            [{ row := 5, consumer := 0x0300, due := 1, dueCycle := 0, dueTime := 0, late := false, slot := 0 }] }
      let dt : Nat := 0
      let d : Dispatch := { row := 5, consumer := 0x0300, due := 1, dueCycle := 0, dueTime := 0, late := false, slot := 0 }
      let rest : List Dispatch := []
      let u := s.elapse dt
      let v : State := { u with appts := { u.appts with line := rest } }
      let x := u.cp 2
      decide (u.works domFabric = true ∧ takeDispatch u.fc 0x0300 u.appts.line = some (d, rest) ∧ v.syncBarred = false ∧
        u.canOpen.nmt ≠ 4 ∧ u.canOpen.nmt ≠ 0 ∧ x.state ≠ 3 ∧ x.state ≠ 4 ∧ u.up domCan = true ∧ u.canOn 2 = true ∧ u.flows 0x54
        = true)))
    = true := by decide +kernel

/-- States that meet the hypotheses of SerialReception, clause by clause. -/
theorem witness_SerialReception :
    ((let s : State := { R0 with serial := [(1, { line := 1, autoDiv := none })] }
      let dt : Nat := 0
      let p : Fin 24 := 1
      let line : List WireRun := []
      let u := s.elapse dt
      let x := u.sp p.val
      let span := serialCycles (lineCycles line)
      let from_ := u.fc - span
      let c := u.cfgAt (u.wheels.time.ago span)
      let f := x.formFor from_
      let mode := u.modeOf p.val c
      decide (u.works domSerial = true ∧ (mode = 0 ∨ x.line ≠ 1 ∨ x.wakeHunt = true ∨ from_ < x.huntFrom ∨ u.charBits p.val c f
        line = none))) &&
     (let s : State := { R0 with serial := [(1, { line := 1, autoDiv := none })] }
      let dt : Nat := 0
      let p : Fin 24 := 1
      let line : List WireRun := [⟨true,true,100⟩,⟨false,true,500⟩,⟨true,true,160000⟩]
      let ds : List (Bool × Bool) := List.replicate 10 (true,false)
      let u := s.elapse dt
      let x := u.sp p.val
      let span := serialCycles (lineCycles line)
      let from_ := u.fc - span
      let c := u.cfgAt (u.wheels.time.ago span)
      let f := x.formFor from_
      let mode := u.modeOf p.val c
      decide (u.works domSerial = true ∧ mode = 1 ∧ x.line = 1 ∧ x.wakeHunt = false ∧ x.huntFrom ≤ from_ ∧ u.charBits p.val c f
        line = some ds ∧ ((ds.head?).map (fun d => d.1)).getD false = true)) &&
     (let s : State := { R0 with fc := 1000000000000, serial := [(1, { line := 1, autoDiv := none })] }
      let dt : Nat := 0
      let p : Fin 24 := 1
      let line : List WireRun :=
        [⟨true,true,100⟩,⟨false,true,15360⟩,⟨true,true,15360⟩,⟨false,true,76800⟩,⟨true,true,15360⟩,⟨false,true,15360⟩,⟨true,true,15360⟩]
      let ds : List (Bool × Bool) :=
        [(false,false),(true,false),(false,false),(false,false),(false,false),(false,false),(false,false),(true,false),(false,false),(true,false)]
      let u := s.elapse dt
      let x := u.sp p.val
      let span := serialCycles (lineCycles line)
      let from_ := u.fc - span
      let c := u.cfgAt (u.wheels.time.ago span)
      let f := x.formFor from_
      let mode := u.modeOf p.val c
      let g := u.formatIn p.val c f.eightN1
      decide (u.works domSerial = true ∧ mode = 1 ∧ x.line = 1 ∧ x.wakeHunt = false ∧ x.huntFrom ≤ from_ ∧ u.charBits p.val c f
        line = some ds ∧ ((ds.head?).map (fun d => d.1)).getD false = false ∧ g.2 ≠ 5 ∧ u.up (engineDom (engineOf p.val false))
        = true ∧ u.hasRoom p.val = true)) &&
     (let s : State := { R0 with serial := [(1, { line := 1, autoDiv := none })] }
      let dt : Nat := 0
      let p : Fin 24 := 1
      let line : List WireRun := [⟨true,true,100⟩,⟨false,true,500⟩,⟨true,true,160000⟩]
      let u := s.elapse dt
      let x := u.sp p.val
      decide (u.works domSerial = true ∧ (u.portMode p.val = 1 ∨ u.portMode p.val = 3) ∧ x.line = 1 ∧ x.wakeHunt = false ∧
        falseBit x.rxDiv (lineRuns x.inverted line) = true)) &&
     (let s : State := { R0 with serial := [(1, { line := 1, autoDiv := none })] }
      let dt : Nat := 0
      let p : Fin 24 := 1
      let line : List WireRun := []
      let u := s.elapse dt
      let x := u.sp p.val
      decide (u.works domSerial = true ∧ (u.portMode p.val = 0 ∨ u.portMode p.val = 2 ∨ x.line ≠ 1 ∨ x.wakeHunt = true ∨
        falseBit x.rxDiv (lineRuns x.inverted line) = false))) &&
     (let data : Nat := 7
      let parity : Nat := 5
      decide ((data = 7 ∨ data = 8) ∧ parity ≤ 5)))
    = true := by decide +kernel

/-- States that meet the hypotheses of SerialLinesAndDividers, clause by clause. -/
theorem witness_SerialLinesAndDividers :
    ((let s : State := { R0 with fc := 1000000000000, serial := [(1, { line := 3, breakAt := some 5, pendRx := some 20 })] }
      let dt : Nat := 0
      let p : Fin 24 := 1
      let u := s.elapse dt
      let x := u.sp p.val
      decide (u.works domSerial = true ∧ x.line = 3)) &&
     (let s : State := { R0 with fc := 1000000000000, serial := [(1, { line := 1 })] }
      let dt : Nat := 0
      let p : Fin 24 := 1
      let u := s.elapse dt
      let x := u.sp p.val
      decide (u.works domSerial = true ∧ x.line ≠ 3)) &&
     (let s : State := { R0 with fc := 1000000000000, serial := [(1, { line := 1 })] }
      let dt : Nat := 0
      let p : Fin 24 := 1
      let u := s.elapse dt
      let x := u.sp p.val
      decide (u.works domSerial = true ∧ (x.line ≠ 3 ∨ u.portMode p.val = 3))) &&
     (let s : State := { R0 with fc := 1000000000000, serial := [(1, { line := 3, breakAt := some 5 })] }
      let dt : Nat := 0
      let p : Fin 24 := 1
      let u := s.elapse dt
      let x := u.sp p.val
      let b := 5
      decide (u.works domSerial = true ∧ x.line = 3 ∧ x.breakAt = some b ∧ u.portMode p.val ≠ 3 ∧ b + u.stuckTime p.val ≤ u.fc)) &&
     (let s : State := { R0 with fc := 1000000000000, serial := [(1, { line := 3, breakAt := some 1000000000000 })] }
      let dt : Nat := 0
      let p : Fin 24 := 1
      let u := s.elapse dt
      let x := u.sp p.val
      let b := 1000000000000
      decide (u.works domSerial = true ∧ x.breakAt = some b ∧ u.fc < b + u.stuckTime p.val)) &&
     (let s : State := { R0 with fc := 1000000000000, serial := [(1, { line := 4, probeAt := 5, stuckClass := 2 })] }
      let dt : Nat := 0
      let p : Fin 24 := 1
      let u := s.elapse dt
      let x := u.sp p.val
      decide (u.works domSerial = true ∧ (x.line = 4 ∨ x.line = 6) ∧ x.probeAt ≤ u.fc)) &&
     (let s : State := { R0 with fc := 1000000000000, serial := [(1, { line := 1 })] }
      let dt : Nat := 0
      let p : Fin 24 := 1
      let u := s.elapse dt
      let x := u.sp p.val
      decide (u.works domSerial = true ∧ x.line ≠ 4 ∧ x.line ≠ 6)) &&
     (let s : State := { R0.put [(0x2101,0x0E,0,0)] with fc := 1000000000000, serial := [(1, { line := 4 })] }
      let dt : Nat := 0
      let p : Fin 24 := 1
      let u := s.elapse dt
      let x := u.sp p.val
      decide (u.works domSerial = true ∧ (x.line = 4 ∨ x.line = 6) ∧ u.autobaudSet p.val = false)) &&
     (let s : State := { R0 with fc := 1000000000000, serial := [(1, { line := 3 })] }
      let dt : Nat := 0
      let p : Fin 24 := 1
      let u := s.elapse dt
      let x := u.sp p.val
      decide (u.works domSerial = true ∧ (u.portMode p.val = 0 ∨ x.line = 3 ∨ x.line = 4 ∨ x.line = 6))) &&
     (let s : State := { R0 with fc := 1000000000000, serial := [(1, { line := 1, pendRx := some 7, wakeHunt := true })] }
      let dt : Nat := 0
      let p : Fin 24 := 1
      let u := s.elapse dt
      let x := u.sp p.val
      decide (u.works domSerial = true ∧ u.portMode p.val = 1 ∧ x.line ≠ 3 ∧ x.line ≠ 4 ∧ x.line ≠ 6)) &&
     (let s : State := { R0 with
          twin.role := 0, fc := 1000000000000, serial := [(1, { line := 1, autoDiv := some 8 })] , dict.clients := [(0,
          { id := .spi, last := 0 })] }
      let dt : Nat := 0
      let n : Nat := 0
      let p : Fin 24 := 1
      let who : ClientId := .spi
      let d : BitVec 16 := 40
      let u := s.elapse dt
      decide (admitted who n (0x2100 + p.val) u ∧ u.twin.role ≠ 1 ∧ u.twin.role ≠ 2 ∧ u.twin.role ≠ 3 ∧ u.portMode p.val ≠ 3 ∧ 5
        ≤ d.toNat ∧ d.toNat ≤ 15360)) &&
     (let s : State := { R0 with fc := 1000000000000, serial := [(1, { line := 1 })] }
      let dt : Nat := 0
      let l1 : Nat := 0
      let h1 : Nat := 0
      let l2 : Nat := 0
      let h2 : Nat := 0
      let p : Fin 24 := 1
      let u := s.elapse dt
      let x := u.sp p.val
      decide (u.works domSerial = true ∧ (x.line ≠ 5 ∨ judgeDollar l1 h1 l2 h2 = .noDollar))) &&
     (let s : State := { R0 with fc := 1000000000000, serial := [(1, { line := 5 })] }
      let dt : Nat := 0
      let l1 : Nat := 3000
      let h1 : Nat := 1000
      let l2 : Nat := 2000
      let h2 : Nat := 1000
      let p : Fin 24 := 1
      let u := s.elapse dt
      let x := u.sp p.val
      decide (u.works domSerial = true ∧ x.line = 5 ∧ judgeDollar l1 h1 l2 h2 = .uncounted)) &&
     (let s : State := { R0 with fc := 1000000000000, serial := [(1, { line := 5 })] }
      let dt : Nat := 0
      let l1 : Nat := 46080
      let h1 : Nat := 15360
      let l2 : Nat := 30720
      let h2 : Nat := 15360
      let r : Nat := 4800
      let p : Fin 24 := 1
      let u := s.elapse dt
      let x := u.sp p.val
      decide (u.works domSerial = true ∧ x.line = 5 ∧ judgeDollar l1 h1 l2 h2 = .counted r ∧ x.autoPair ≠ some r)) &&
     (let s : State := { R0 with fc := 1000000000000, serial := [(1, { line := 5, autoPair := some 4800 })] }
      let dt : Nat := 0
      let l1 : Nat := 46080
      let h1 : Nat := 15360
      let l2 : Nat := 30720
      let h2 : Nat := 15360
      let r : Nat := 4800
      let p : Fin 24 := 1
      let u := s.elapse dt
      let x := u.sp p.val
      decide (u.works domSerial = true ∧ x.line = 5 ∧ judgeDollar l1 h1 l2 h2 = .counted r ∧ x.autoPair = some r)) &&
     (let s : State := { R0.put [(0x5838,1,0,2),(0x2101,0x0D,0,1)] with
          fc := 1000000000000, serial := [(1, { line := 1 })] , power.state := 2 }
      let dt : Nat := 0
      let p : Fin 24 := 1
      let u := s.elapse dt
      decide ((u.power.state = 2 ∨ u.power.state = 3) ∧ (u.cn 0x5838 1 0).testBit 1 = true ∧ u.wakePort p.val = true)) &&
     (let s : State := R0
      let dt : Nat := 0
      let p : Fin 24 := 1
      let u := s.elapse dt
      decide ((u.power.state < 2 ∨ u.wakePort p.val = false))))
    = true := by decide +kernel

/-- States that meet the hypotheses of SerialTransmitter, clause by clause. -/
theorem witness_SerialTransmitter :
    ((let s : State := { R0.put [(0x2520,3,2,4)] with
          fc := 100000, twin.role := 0, bramble.listeners := [(2, {
              inFlight := some {
                  entry := { rcd := { source := 3 }, seq := 4, cls := 1, order := 3 }, chars := [0x24,0x47], sent := 0, line :=
                    0 }, slot := none })], serial := [(4, { line := 1, autoDiv := none, busy := some 3 })] }
      let dt : Nat := 0
      let l : Nat := 2
      let p : Fin 24 := 4
      let u := s.elapse dt
      let x := u.sp p.val
      decide (u.works domSerial = true ∧ u.portListener p.val = some l ∧ u.admits (0x18 + p.val) = true ∧ (u.charReady p.val =
        false ∨ x.busy.isSome = true))) &&
     (let s : State := { R0.put [(0x2520,3,2,4),(0x2104,8,0,2),(0x2104,9,0,7)] with
          fc := 100000, twin.role := 0, bramble.listeners := [(2, {
              inFlight := some {
                  entry := { rcd := { source := 3 }, seq := 4, cls := 1, order := 3 }, chars := [0x24,0x47], sent := 0, line :=
                    0 }, slot := none })], serial := [(4, { line := 1, autoDiv := none })] }
      let dt : Nat := 0
      let l : Nat := 2
      let p : Fin 24 := 4
      let u := s.elapse dt
      let x := u.sp p.val
      let idle : Bool := decide (x.busy = none ∧ x.leadEnd = none ∧ x.startAfter = none)
      decide (u.works domSerial = true ∧ u.portListener p.val = some l ∧ u.admits (0x18 + p.val) = true ∧ u.sends p.val = true ∧
        idle ∧ u.charReady p.val = true ∧ u.needsLead p.val = true ∧ u.portN p.val 9 ≠ 0)) &&
     (let s : State := { R0.put [(0x2520,3,2,4)] with
          fc := 100000, twin.role := 0, bramble.listeners := [(2, {
              inFlight := none, slot := some {
                  entry := { rcd := { source := 3 }, seq := 4, cls := 1, order := 3 }, chars := [0x24,0x47], sent := 0, line :=
                    0 } })], serial := [(4, { line := 1, autoDiv := none })] }
      let dt : Nat := 0
      let l : Nat := 2
      let p : Fin 24 := 4
      let i : Item :=
        { entry := { rcd := { source := 3 }, seq := 4, cls := 1, order := 3 }, chars := [0x24,0x47], sent := 0, line := 0 }
      let c : BitVec 9 := 0x24
      let rest : List (BitVec 9) := [0x47]
      let u := s.elapse dt
      let x := u.sp p.val
      let idle : Bool := decide (x.busy = none ∧ x.leadEnd = none ∧ x.startAfter = none)
      let item : Bool := decide ((u.lst l).inFlight = some i ∨ ((u.lst l).inFlight = none ∧ (u.lst l).slot = some i ∧ x.tx =
        []))
      decide (u.works domSerial = true ∧ u.portListener p.val = some l ∧ u.admits (0x18 + p.val) = true ∧ item ∧ x.tx ++
        i.chars.drop i.sent = c :: rest ∧ u.sends p.val = true ∧ idle ∧ u.charReady p.val = true ∧ (u.needsLead p.val = false ∨
        u.portN p.val 9 = 0))) &&
     (let s : State := { R0.put [(0x2520,3,2,4),(0x2104,8,0,2),(0x2104,9,0,7)] with
          fc := 100000, twin.role := 0, bramble.listeners := [(2, {
              inFlight := some {
                  entry := { rcd := { source := 3 }, seq := 4, cls := 1, order := 3 }, chars := [0x24,0x47], sent := 0, line :=
                    0 }, slot := none })], serial := [(4, { line := 1, autoDiv := none, leadEnd := some 50, aux := true })] }
      let dt : Nat := 0
      let l : Nat := 2
      let p : Fin 24 := 4
      let i : Item :=
        { entry := { rcd := { source := 3 }, seq := 4, cls := 1, order := 3 }, chars := [0x24,0x47], sent := 0, line := 0 }
      let c : BitVec 9 := 0x24
      let rest : List (BitVec 9) := [0x47]
      let u := s.elapse dt
      let x := u.sp p.val
      let item : Bool := decide ((u.lst l).inFlight = some i ∨ ((u.lst l).inFlight = none ∧ (u.lst l).slot = some i ∧ x.tx =
        []))
      let k := 50
      decide (u.works domSerial = true ∧ u.portListener p.val = some l ∧ u.admits (0x18 + p.val) = true ∧ item ∧ x.tx ++
        i.chars.drop i.sent = c :: rest ∧ x.leadEnd = some k ∧ u.charReady p.val = true ∧ k ≤ u.fc)) &&
     (let s : State := { R0.put [(0x2520,3,2,4)] with
          fc := 100000, twin.role := 0, bramble.listeners := [(2, {
              inFlight := some {
                  entry := { rcd := { source := 3 }, seq := 4, cls := 1, order := 3 }, chars := [0x24,0x47], sent := 0, line :=
                    0 }, slot := none })], serial := [(4, { line := 1, autoDiv := none, leadEnd := some 500000, aux := true })]
            }
      let dt : Nat := 0
      let l : Nat := 2
      let p : Fin 24 := 4
      let u := s.elapse dt
      let x := u.sp p.val
      let k := 500000
      decide (u.works domSerial = true ∧ u.portListener p.val = some l ∧ u.admits (0x18 + p.val) = true ∧ x.leadEnd = some k ∧
        u.fc < k)) &&
     (let s : State := { R0.put [(0x2520,3,2,4)] with
          fc := 100000, twin.role := 0, bramble.listeners := [(2, {
              inFlight := some {
                  entry := { rcd := { source := 3 }, seq := 4, cls := 1, order := 3 }, chars := [0x24,0x47], sent := 0, line :=
                    0 }, slot := none })], serial := [(4, { line := 1, autoDiv := none })] }
      let dt : Nat := 0
      let l : Nat := 2
      let p : Fin 24 := 4
      let u := s.elapse dt
      let x := u.sp p.val
      decide (u.works domSerial = true ∧ u.portListener p.val = some l ∧ u.admits (0x18 + p.val) = true ∧ x.busy = none)) &&
     (let s : State := { R0.put [(0x2520,3,2,4)] with
          fc := 100000, twin.role := 0, bramble.listeners := [(2, {
              inFlight := some {
                  entry := { rcd := { source := 3 }, seq := 4, cls := 1, order := 3 }, chars := [0x24,0x47], sent := 1, line :=
                    0 }, slot := none })], serial := [(4, { line := 1, autoDiv := none, busy := some 0x24, pendTx := some 30 })]
            }
      let dt : Nat := 0
      let l : Nat := 2
      let p : Fin 24 := 4
      let i : Item :=
        { entry := { rcd := { source := 3 }, seq := 4, cls := 1, order := 3 }, chars := [0x24,0x47], sent := 1, line := 0 }
      let c : BitVec 9 := 0x47
      let rest : List (BitVec 9) := []
      let u := s.elapse dt
      let x := u.sp p.val
      let b := 0x24
      decide (u.works domSerial = true ∧ u.portListener p.val = some l ∧ u.admits (0x18 + p.val) = true ∧ x.busy = some b ∧
        (u.lst l).inFlight = some i ∧ x.tx ++ i.chars.drop i.sent = c :: rest ∧ u.sends p.val = true ∧ u.entitledPort p.val =
        true ∧ u.yields (0x18 + p.val) = true ∧ u.twin.role ≠ 5)) &&
     (let s : State := { R0.put [(0x2520,3,2,4)] with
          fc := 100000, twin.role := 0, bramble.listeners := [(2, {
              inFlight := some {
                  entry := { rcd := { source := 3 }, seq := 4, cls := 1, order := 3 }, chars := [0x24,0x47], sent := 2, line :=
                    0 }, slot := none })], serial := [(4, { line := 1, autoDiv := none, busy := some 0x24 })] }
      let dt : Nat := 0
      let l : Nat := 2
      let p : Fin 24 := 4
      let i : Item :=
        { entry := { rcd := { source := 3 }, seq := 4, cls := 1, order := 3 }, chars := [0x24,0x47], sent := 2, line := 0 }
      let u := s.elapse dt
      let x := u.sp p.val
      let b := 0x24
      decide (u.works domSerial = true ∧ u.portListener p.val = some l ∧ u.admits (0x18 + p.val) = true ∧ x.busy = some b ∧
        (u.lst l).inFlight = some i ∧ i.chars.length ≤ i.sent ∧ x.tx = [] ∧ (u.lst l).slot = none)) &&
     (let s : State := { R0.put [(0x2520,3,2,4)] with
          fc := 100000, twin.role := 0, bramble.listeners := [(2, {
              inFlight := some {
                  entry := { rcd := { source := 3 }, seq := 4, cls := 1, order := 3 }, chars := [0x24,0x47], sent := 2, line :=
                    0 }, slot := none })], serial := [(4, { line := 1, autoDiv := none, lagEnd := some 7, aux := true })] }
      let dt : Nat := 0
      let l : Nat := 2
      let p : Fin 24 := 4
      let u := s.elapse dt
      let x := u.sp p.val
      let k := 7
      decide (u.works domSerial = true ∧ u.portListener p.val = some l ∧ u.admits (0x18 + p.val) = true ∧ x.lagEnd = some k ∧ k
        ≤ u.fc)) &&
     (let s : State := { R0.put [(0x2520,3,2,4)] with
          fc := 100000, twin.role := 0, bramble.listeners := [(2, {
              inFlight := some {
                  entry := { rcd := { source := 3 }, seq := 4, cls := 1, order := 3 }, chars := [0x24,0x47], sent := 2, line :=
                    0 }, slot := none })], serial := [(4, { line := 1, autoDiv := none, lagEnd := some 700000, aux := true })] }
      let dt : Nat := 0
      let l : Nat := 2
      let p : Fin 24 := 4
      let u := s.elapse dt
      let x := u.sp p.val
      let k := 700000
      decide (u.works domSerial = true ∧ u.portListener p.val = some l ∧ u.admits (0x18 + p.val) = true ∧ x.lagEnd = some k ∧
        u.fc < k)))
    = true := by decide +kernel

/-- States that meet the hypotheses of FrameMode, clause by clause. -/
theorem witness_FrameMode :
    ((let s : State := { R0.put
            [(0x2114,1,0,1),(0x2114,0x16,0,5),(0x2114,0x0C,0,10),(0x2140,2,1,1),(0x2140,3,1,0x10),(0x2140,4,1,2),(0x2140,5,1,1),(0x2140,6,1,3),(0x2140,7,1,0x1234),(0x2140,2,0,1)]
            with
          fc := 1000000000, wheels.time.pos := accOf 0x100000000, twin.role := 0, serial := [(20, { line := 1 })] }
      let dt : Nat := 0
      let p : Fin 4 := 0
      let u := s.elapse dt
      let q := 20 + p.val
      let x := u.sp q
      decide (u.works domSerial = true ∧ (u.portMode q ≠ 3 ∨ x.line = 6 ∨ u.slotOpen q = true))) &&
     (let s : State := { R0.put
            [(0x2114,1,0,3),(0x2114,0x16,0,5),(0x2114,0x0C,0,10),(0x2140,2,1,1),(0x2140,3,1,0x10),(0x2140,4,1,2),(0x2140,5,1,1),(0x2140,6,1,3),(0x2140,7,1,0x1234),(0x2140,2,0,1)]
            with
          fc := 1000000000, wheels.time.pos := accOf 0x100000000, twin.role := 0, serial := [(20,
          { line := 1, sched := 1, nextSlot := 200 })] }
      let dt : Nat := 0
      let p : Fin 4 := 0
      let u := s.elapse dt
      let q := 20 + p.val
      let x := u.sp q
      let k := intervalOf (u.portN q 0x16) u.time
      decide (u.works domSerial = true ∧ u.portMode q = 3 ∧ u.mayBegin q = true ∧ x.line ≠ 6 ∧ u.scheduleLen q ≠ 0 ∧ x.nextSlot
        ≤ k ∧ x.slot = none ∧ x.held = false)) &&
     (let s : State := { R0.put
            [(0x2114,1,0,1),(0x2114,0x16,0,5),(0x2114,0x0C,0,10),(0x2140,2,1,1),(0x2140,3,1,0x10),(0x2140,4,1,2),(0x2140,5,1,1),(0x2140,6,1,3),(0x2140,7,1,0x1234),(0x2140,2,0,1)]
            with
          fc := 1000000000, wheels.time.pos := accOf 0x100000000, twin.role := 0, serial := [(20, { line := 1 })] }
      let dt : Nat := 0
      let p : Fin 4 := 0
      let u := s.elapse dt
      let q := 20 + p.val
      let x := u.sp q
      decide (u.works domSerial = true ∧ (u.portMode q ≠ 3 ∨ x.slot = none) ∧ u.twin.role ≠ 5)) &&
     (let s : State := { R0.put
            [(0x2114,1,0,3),(0x2114,0x16,0,5),(0x2114,0x0C,0,10),(0x2140,2,1,2),(0x2140,3,1,0x10),(0x2140,4,1,2),(0x2140,5,1,1),(0x2140,6,1,3),(0x2140,7,1,0x1234),(0x2140,2,0,1)]
            with
          fc := 1000000000, wheels.time.pos := accOf 0x100000000, twin.role := 0, serial := [(20,
          { line := 1, slot := some { entry := 1, id := 0x10, length := 2, deadline := 2000000000, got := [] } })] }
      let dt : Nat := 0
      let p : Fin 4 := 0
      let f : Slot := { entry := 1, id := 0x10, length := 2, deadline := 2000000000, got := [] }
      let u := s.elapse dt
      let q := 20 + p.val
      let x := u.sp q
      decide (u.works domSerial = true ∧ u.portMode q = 3 ∧ x.slot = some f ∧ u.fc < f.deadline ∧ u.twin.role ≠ 5)) &&
     (let s : State := { R0.put
            [(0x2114,1,0,3),(0x2114,0x16,0,5),(0x2114,0x0C,0,10),(0x2140,2,1,2),(0x2140,3,1,0x10),(0x2140,4,1,2),(0x2140,5,1,1),(0x2140,6,1,3),(0x2140,7,1,0x1234),(0x2140,2,0,1)]
            with
          fc := 1000000000, wheels.time.pos := accOf 0x100000000, twin.role := 0, serial := [(20,
          { line := 1, slot := some { entry := 1, id := 0x10, length := 2, deadline := 1000, got := [] } })] }
      let dt : Nat := 0
      let p : Fin 4 := 0
      let started : Bool := false
      let f : Slot := { entry := 1, id := 0x10, length := 2, deadline := 1000, got := [] }
      let u := s.elapse dt
      let q := 20 + p.val
      let x := u.sp q
      decide (u.works domSerial = true ∧ u.portMode q = 3 ∧ x.slot = some f ∧ f.deadline ≤ u.fc ∧ x.rx = [] ∧ f.got = [] ∧
        started = false ∧ f.begun = false)) &&
     (let s : State := { (R0.doms [(4,0)]).put
            [(0x2114,1,0,3),(0x2114,0x16,0,5),(0x2114,0x0C,0,10),(0x2140,2,1,2),(0x2140,3,1,0x10),(0x2140,4,1,2),(0x2140,5,1,1),(0x2140,6,1,3),(0x2140,7,1,0x1234),(0x2140,2,0,1)]
            with
          fc := 1000000000, wheels.time.pos := accOf 0x100000000, twin.role := 0, serial := [(20,
          { line := 1, slot := some { entry := 1, id := 0x10, length := 2, deadline := 1000, got := [] } })] }
      let dt : Nat := 0
      let p : Fin 4 := 0
      let started : Bool := true
      let f : Slot := { entry := 1, id := 0x10, length := 2, deadline := 1000, got := [] }
      let u := s.elapse dt
      let q := 20 + p.val
      let x := u.sp q
      decide (u.works domSerial = true ∧ u.portMode q = 3 ∧ x.slot = some f ∧ f.deadline ≤ u.fc ∧ x.rx = [] ∧ f.got = [] ∧
        (started = true ∨ f.begun = true) ∧ u.up (engineDom (engineOf q false)) = false)) &&
     (let s : State := { R0.put
            [(0x2114,1,0,3),(0x2114,0x16,0,5),(0x2114,0x0C,0,10),(0x2140,2,1,2),(0x2140,3,1,0x10),(0x2140,4,1,2),(0x2140,5,1,1),(0x2140,6,1,3),(0x2140,7,1,0x1234),(0x2140,2,0,1)]
            with
          fc := 1000000000, wheels.time.pos := accOf 0x100000000, twin.role := 2, serial := [(20, { line := 1 })] }
      let dt : Nat := 0
      let dom : Nat := 13
      let p : Fin 4 := 0
      let sync : Byte := 0
      let u := s.elapse dt
      let q := 20 + p.val
      let x := u.sp q
      decide (u.works domSerial = true ∧ (u.portMode q ≠ 3 ∨ u.entitledPort q = true ∨ x.line = 6 ∨ dom < 11 ∨ sync ≠ 0x55))) &&
     (let s : State := { R0.put
            [(0x2114,1,0,3),(0x2114,0x16,0,5),(0x2114,0x0C,0,10),(0x2140,2,1,2),(0x2140,3,1,0x10),(0x2140,4,1,2),(0x2140,5,1,1),(0x2140,6,1,3),(0x2140,7,1,0x1234),(0x2140,2,0,1)]
            with
          fc := 1000000000, wheels.time.pos := accOf 0x100000000, twin.role := 2, serial := [(20, { line := 1 })] }
      let dt : Nat := 0
      let dom : Nat := 13
      let p : Fin 4 := 0
      let pid : Byte := 0x51
      let u := s.elapse dt
      let q := 20 + p.val
      let x := u.sp q
      decide (u.works domSerial = true ∧ u.portMode q = 3 ∧ u.entitledPort q = false ∧ x.line ≠ 6 ∧ 11 ≤ dom ∧ protectedId
        pid.toNat ≠ pid.toNat)) &&
     (let s : State := { R0.put
            [(0x2114,1,0,3),(0x2114,0x16,0,5),(0x2114,0x0C,0,10),(0x2140,2,1,2),(0x2140,3,1,0x10),(0x2140,4,1,2),(0x2140,5,1,1),(0x2140,6,1,3),(0x2140,7,1,0x1234),(0x2140,2,0,1)]
            with
          fc := 1000000000, wheels.time.pos := accOf 0x100000000, twin.role := 2, serial := [(20, { line := 1 })] }
      let dt : Nat := 0
      let dom : Nat := 13
      let p : Fin 4 := 0
      let pid : Byte := 0x50
      let u := s.elapse dt
      let q := 20 + p.val
      let x := u.sp q
      let j := 1
      decide (u.works domSerial = true ∧ u.portMode q = 3 ∧ u.entitledPort q = false ∧ x.line ≠ 6 ∧ 11 ≤ dom ∧ protectedId
        pid.toNat = pid.toNat ∧ x.slot = none ∧ (List.range (u.scheduleLen q)).find? (fun e => u.entryN q 3 e == pid.toNat % 64)
        = some j ∧ u.entryN q 2 j = 2)) &&
     (let s : State := { R0.put
            [(0x2114,1,0,3),(0x2114,0x16,0,5),(0x2114,0x0C,0,10),(0x2140,2,1,1),(0x2140,3,1,0x10),(0x2140,4,1,2),(0x2140,5,1,1),(0x2140,6,1,3),(0x2140,7,1,0x1234),(0x2140,2,0,1)]
            with
          fc := 1000000000, wheels.time.pos := accOf 0x100000000, twin.role := 5, serial := [(20, { line := 1 })] }
      let dt : Nat := 0
      let p : Fin 4 := 0
      let u := s.elapse dt
      let q := 20 + p.val
      let x := u.sp q
      decide (u.works domSerial = true ∧ (u.portMode q ≠ 3 ∨ x.breakAt = none ∨ x.line = 6))) &&
     (let s : State := { R0.put
            [(0x2114,1,0,3),(0x2114,0x16,0,5),(0x2114,0x0C,0,10),(0x2140,2,1,1),(0x2140,3,1,0x10),(0x2140,4,1,2),(0x2140,5,1,1),(0x2140,6,1,3),(0x2140,7,1,0x1234),(0x2140,2,0,1)]
            with
          fc := 1000000000, wheels.time.pos := accOf 0x100000000, twin.role := 5, serial := [(20,
          { line := 1, breakAt := some 1000000000 })] }
      let dt : Nat := 0
      let p : Fin 4 := 0
      let u := s.elapse dt
      let q := 20 + p.val
      let x := u.sp q
      let b := 1000000000
      decide (u.works domSerial = true ∧ u.portMode q = 3 ∧ x.breakAt = some b ∧ x.line ≠ 6 ∧ u.fc < b + u.stuckTime q)) &&
     (let s : State := { R0.put
            [(0x2114,1,0,3),(0x2114,0x16,0,5),(0x2114,0x0C,0,10),(0x2140,2,1,2),(0x2140,3,1,0x10),(0x2140,4,1,2),(0x2140,5,1,1),(0x2140,6,1,3),(0x2140,7,1,0x1234),(0x2140,2,0,1)]
            with
          fc := 1000000000, wheels.time.pos := accOf 0x100000000, twin.role := 0, serial := [(20, {
              line := 3, breakAt := some 4, slot := some
                { entry := 1, id := 0x10, length := 2, deadline := 2000000000, got := [] } })] }
      let dt : Nat := 0
      let p : Fin 4 := 0
      let u := s.elapse dt
      let q := 20 + p.val
      let x := u.sp q
      let b := 4
      decide (u.works domSerial = true ∧ u.portMode q = 3 ∧ x.breakAt = some b ∧ x.line ≠ 6 ∧ b + u.stuckTime q ≤ u.fc)))
    = true := by decide +kernel

/-- States that meet the hypotheses of PhyPollResolvesTheLink, clause by clause. -/
theorem witness_PhyPollResolvesTheLink :
    ((let s : State := { R0.put [(0x2201,1,0,0)] with fc := 1000000000000, twin.role := 0, eth := [(1, { link := 0 })] }
      let dt : Nat := 0
      let p : Fin 2 := 1
      let u := s.elapse dt
      decide (u.works (domEth p.val) = true ∧ u.ethN p.val 1 = 0)) &&
     (let s : State := { R0.put [(0x2201,1,0,1)] with fc := 1000000000000, twin.role := 0, eth := [(1, { link := 2 })] }
      let dt : Nat := 0
      let p : Fin 2 := 1
      let r : PhyRegs := { r1a := 0x0004, r1b := 0x0004, r4 := 0x100, r5 := 0x100, r9 := 0, r10 := 0, sgmii := 0 }
      let u := s.elapse dt
      let e := u.ep p.val
      decide (u.works (domEth p.val) = true ∧ u.ethN p.val 1 = 1 ∧ phyAbsent r.r1a = false ∧ phyAbsent r.r1b = false ∧
        r.r1a.getLsbD 2 = true ∧ r.r1b.getLsbD 2 = true ∧ resolveLink r = e.link)) &&
     (let s : State := { R0.put [(0x2201,1,0,1)] with fc := 1000000000000, twin.role := 0, eth := [(1, { link := 0 })] }
      let dt : Nat := 0
      let p : Fin 2 := 1
      let r : PhyRegs := { r1a := 0x0004, r1b := 0x0004, r4 := 0, r5 := 0, r9 := 0x200, r10 := 0x800, sgmii := 0 }
      let u := s.elapse dt
      let e := u.ep p.val
      decide (u.works (domEth p.val) = true ∧ u.ethN p.val 1 = 1 ∧ phyAbsent r.r1a = false ∧ phyAbsent r.r1b = false ∧
        r.r1a.getLsbD 2 = true ∧ r.r1b.getLsbD 2 = true ∧ e.linkUp = false ∧ (resolveLink r = 1 ∨ resolveLink r = 2 ∨
        resolveLink r = 3))) &&
     (let s : State := { R0.put [(0x2201,1,0,1)] with
          fc := 1000000000000, twin.role := 0, eth := [(1,
          { link := 2, tx1 := [⟨[1,2],.other⟩], inFlight := some ⟨[1,2],.other⟩ })] }
      let dt : Nat := 0
      let p : Fin 2 := 1
      let r : PhyRegs := { r1a := 0x0004, r1b := 0x8000, r4 := 0, r5 := 0, r9 := 0, r10 := 0, sgmii := 0 }
      let u := s.elapse dt
      let e := u.ep p.val
      decide (u.works (domEth p.val) = true ∧ u.ethN p.val 1 ≠ 0 ∧ phyAbsent r.r1a = false ∧ phyAbsent r.r1b = false ∧
        r.r1b.getLsbD 2 = false ∧ e.linkUp = true)) &&
     (let s : State :=
        { R0.put [(0x2201,1,0,1)] with fc := 1000000000000, twin.role := 0, eth := [(1, { link := 0, badReads := 2 })] }
      let dt : Nat := 0
      let p : Fin 2 := 1
      let r : PhyRegs := { r1a := 0xFFFF, r1b := 0x0004, r4 := 0, r5 := 0, r9 := 0, r10 := 0, sgmii := 0 }
      let u := s.elapse dt
      let e := u.ep p.val
      decide (u.works (domEth p.val) = true ∧ u.ethN p.val 1 ≠ 0 ∧ phyAbsent r.r1a = true ∧ 2 ≤ e.badReads ∧ e.badReads ≤ 3 ∧
        e.linkUp = false)))
    = true := by decide +kernel

/-- States that meet the hypotheses of EthernetReception, clause by clause. -/
theorem witness_EthernetReception :
    ((let s : State := R0
      let dt : Nat := 0
      let p : Fin 2 := 1
      let u := s.elapse dt
      let clocked : Bool := decide (u.fabric.stopped.contains (if p.val = 0 then .rx0 else .rx1) = false)
      decide (u.power.state < 2 ∧ u.works (domEth p.val) = true ∧ ((u.ep p.val).linkUp = false ∨ ¬ clocked))) &&
     (let s : State := { R0.put [(0x2201,6,0,0x0A000001),(0x2201,5,0,0x020000000005)] with
          fc := 1000000000000, twin.role := 0, eth := [(1, { link := 2 })] }
      let dt : Nat := 0
      let p : Fin 2 := 1
      let bytes : List Byte := onWire (ethHeader 0x020000000077 0x020000000001 0x0806)
      let er : Bool := false
      let u := s.elapse dt
      let st := rxStatus (u.ethN p.val 0x0A) bytes er
      let b := (untag bytes).1
      let clocked : Bool := decide (u.fabric.stopped.contains (if p.val = 0 then .rx0 else .rx1) = false)
      decide (u.power.state < 2 ∧ u.works (domEth p.val) = true ∧ (u.ep p.val).linkUp = true ∧ clocked ∧ st = 0 ∧ u.addressed
        p.val b = false)) &&
     (let s : State := { R0.put [(0x2201,6,0,0x0A000001),(0x2201,5,0,0x020000000005)] with
          fc := 1000000000000, twin.role := 0, eth := [(1, { link := 2 })] }
      let dt : Nat := 0
      let p : Fin 2 := 1
      let bytes : List Byte := onWire (arpFor 0x0A000009 0x0A000001)
      let er : Bool := false
      let u := s.elapse dt
      let st := rxStatus (u.ethN p.val 0x0A) bytes er
      let b := (untag bytes).1
      let clocked : Bool := decide (u.fabric.stopped.contains (if p.val = 0 then .rx0 else .rx1) = false)
      decide (u.power.state < 2 ∧ u.works (domEth p.val) = true ∧ (u.ep p.val).linkUp = true ∧ clocked ∧ st = 0 ∧ (untag
        bytes).2 = none ∧ u.addressed p.val b = true ∧ u.wayOf p.val b = .sup ∧ u.supTakes p.val b = true ∧ u.up domSup = true ∧
        u.hasRoom (0x34 + p.val) = true)) &&
     (let s : State := { R0.put
            [(0x2201,6,0,0x0A000001),(0x2201,5,0,0x020000000005),(0x2211,2,0,1),(0x2211,3,0,0xE0010203),(0x2211,4,0,6000)] with
          fc := 1000000000000, twin.role := 0, eth := [(1, { link := 2 })] }
      let dt : Nat := 0
      let p : Fin 2 := 1
      let bytes : List Byte := onWire (ethHeader 0x01005E010203 0x020000000001 0x0800 ++ ipHeader 0x0A000009 0xE0010203 17 1 5 0
        false 11 ++ beBytes 2 5000 ++ beBytes 2 6000 ++ beBytes 2 11 ++ [0, 0] ++ [1, 2, 3])
      let er : Bool := false
      let u := s.elapse dt
      let st := rxStatus (u.ethN p.val 0x0A) bytes er
      let b := (untag bytes).1
      let f : RxFrame := {
          bytes := b, pip := u.pipBefore (u.ci (0x2200 + p.val) 0x13 0), states := u.wheelByte, stamp := u.rxStamp p.val
            bytes.length, errored := decide (st ≠ 0), status := BitVec.ofNat 16 st, length := Nat.min bytes.length 65535 }
      let clocked : Bool := decide (u.fabric.stopped.contains (if p.val = 0 then .rx0 else .rx1) = false)
      let r := 0
      let side := false
      decide (u.power.state < 2 ∧ u.works (domEth p.val) = true ∧ (u.ep p.val).linkUp = true ∧ clocked ∧ st = 0 ∧ (untag
        bytes).2 = none ∧ u.addressed p.val b = true ∧ u.wayOf p.val b = .card r ∧ (u.ep p.val).rxFilled f = false ∧ u.cardSide
        p.val b = some side)) &&
     (let s : State := { R0.put [(0x2201,6,0,0x0A000001),(0x2201,5,0,0x020000000005)] with
          fc := 1000000000000, twin.role := 0, eth := [(1, { link := 2 })], boot.mode := 1 }
      let dt : Nat := 0
      let p : Fin 2 := 1
      let bytes : List Byte := arpFor 0x0A000009 0x0A000001
      let er : Bool := false
      let u := s.elapse dt
      let st := rxStatus (u.ethN p.val 0x0A) bytes er
      let clocked : Bool := decide (u.fabric.stopped.contains (if p.val = 0 then .rx0 else .rx1) = false)
      decide (u.power.state < 2 ∧ u.works (domEth p.val) = true ∧ (u.ep p.val).linkUp = true ∧ clocked ∧ st ≠ 0)) &&
     (let s : State := { R0.put [(0x2201,6,0,0x0A000001),(0x2201,5,0,0x020000000005),(0x2230,1,0,1)] with
          fc := 1000000000000, twin.role := 0, eth := [(1, { link := 0 })], power.state := 2 }
      let dt : Nat := 0
      let p : Fin 2 := 1
      let bytes : List Byte := onWire (arpFor 0x0A000009 0x0A000001)
      let u := s.elapse dt
      decide ((u.power.state = 2 ∨ u.power.state = 3) ∧ u.cn 0x2230 1 0 = p.val ∧ u.patternsHit p.val bytes = [])) &&
     (let s : State := {
          (R0.putBytes 0x2219 4 0 (List.replicate 8 0)).put
            [(0x2201,6,0,0x0A000001),(0x2201,5,0,0x020000000005),(0x2230,1,0,1),(0x5838,1,0,4),(0x2219,2,0,1),(0x2219,5,0,65535)]
            with fc := 1000000000000, twin.role := 0, eth := [(1, { link := 0 })], power.state := 3 }
      let dt : Nat := 0
      let p : Fin 2 := 1
      let bytes : List Byte := onWire (arpFor 0x0A000009 0x0A000001)
      let u := s.elapse dt
      decide ((u.power.state = 2 ∨ u.power.state = 3) ∧ u.cn 0x2230 1 0 = p.val ∧ u.patternsHit p.val bytes ≠ [] ∧ (u.cn 0x5838
        1 0).testBit 2 = true)))
    = true := by decide +kernel

/-- States that meet the hypotheses of ArpIcmpAndIgmp, clause by clause. -/
theorem witness_ArpIcmpAndIgmp :
    ((let s : State :=
        { R0 with fabric.queues := [(0x35, { wasReset := some .consumer })], twin.role := 0, eth := [(1, { link := 2 })] }
      let dt : Nat := 0
      let p : Fin 2 := 1
      let u := s.elapse dt
      decide (u.works domSup = true ∧ u.yields (0x34 + p.val) = false)) &&
     (let s : State := { R0.put [(0x2201,6,0,0x0A000001),(0x2201,5,0,0x020000000005)] with
          fc := 1000000000000, twin.role := 0, eth := [(1, { link := 2 })] }
      let dt : Nat := 0
      let p : Fin 2 := 1
      let u := s.elapse dt
      let e := u.ep p.val
      decide (u.works domSup = true ∧ u.yields (0x34 + p.val) = true ∧ e.supIn = [])) &&
     (let s : State := { R0 with twin.role := 0, eth := [(1, { link := 2, supIn := [rxf [], rxf []] })] }
      let dt : Nat := 0
      let p : Fin 2 := 1
      let f : RxFrame := rxf []
      let rest : List RxFrame := [rxf []]
      let u := s.elapse dt
      let e := u.ep p.val
      let isArp : Bool := decide (f.witness = false ∧ frameType f.bytes = 0x0806)
      decide (u.works domSup = true ∧ u.yields (0x34 + p.val) = true ∧ e.supIn = f :: rest ∧ ¬ isArp)) &&
     (let s : State := { R0.put [(0x2201,6,0,0x0A000001),(0x2201,5,0,0x020000000005)] with
          fc := 1000000000000, twin.role := 0, eth := [(1, { link := 2, supIn := [rxf (arpFor 9 0x0A000002), rxf []] })] }
      let dt : Nat := 0
      let p : Fin 2 := 1
      let f : RxFrame := rxf (arpFor 9 0x0A000002)
      let rest : List RxFrame := [rxf []]
      let u := s.elapse dt
      let e := u.ep p.val
      let spa := netNat 28 4 f.bytes
      let mine : Bool := decide (u.ipOf p.val ≠ 0 ∧ netNat 38 4 f.bytes = u.ipOf p.val)
      let isArp : Bool := decide (f.witness = false ∧ frameType f.bytes = 0x0806)
      decide (u.works domSup = true ∧ u.yields (0x34 + p.val) = true ∧ e.supIn = f :: rest ∧ isArp ∧ ¬ mine ∧ e.resolve spa =
        none)) &&
     (let s : State := { R0.put [(0x2201,6,0,0x0A000001),(0x2201,5,0,0x020000000005)] with
          fc := 1000000000000, twin.role := 0, eth := [(1,
          { link := 2, supIn := [rxf (arpFor 9 0x0A000001), rxf []], waits := [⟨9,[1],5,5⟩,⟨8,[1],5,5⟩] })] }
      let dt : Nat := 0
      let p : Fin 2 := 1
      let f : RxFrame := rxf (arpFor 9 0x0A000001)
      let rest : List RxFrame := [rxf []]
      let u := s.elapse dt
      let e := u.ep p.val
      let spa := netNat 28 4 f.bytes
      let mine : Bool := decide (u.ipOf p.val ≠ 0 ∧ netNat 38 4 f.bytes = u.ipOf p.val)
      let isArp : Bool := decide (f.witness = false ∧ frameType f.bytes = 0x0806)
      decide (u.works domSup = true ∧ u.yields (0x34 + p.val) = true ∧ e.supIn = f :: rest ∧ isArp ∧ spa ≠ 0 ∧ (mine ∨
        (e.resolve spa).isSome = true))) &&
     (let s : State := { R0.put [(0x2201,6,0,0x0A000001),(0x2201,5,0,0x020000000005)] with
          fc := 1000000000000, twin.role := 0, eth := [(1, { link := 2 })] }
      let dt : Nat := 0
      let p : Fin 2 := 1
      let u := s.elapse dt
      let e := u.ep p.val
      decide (u.works domSup = true ∧ (∀ w ∈ e.waits, u.fc < w.lastReq + msCycles 250))) &&
     (let s : State := { R0.put [(0x2201,6,0,0x0A000001),(0x2201,5,0,0x020000000005)] with
          fc := 1000000000000, twin.role := 0, eth := [(1, { link := 2, waits := [⟨9,[1],999999999999,9999999999⟩] })] }
      let dt : Nat := 0
      let p : Fin 2 := 1
      let u := s.elapse dt
      let e := u.ep p.val
      let w := ⟨9,[1],999999999999,9999999999⟩
      decide (u.works domSup = true ∧ e.waits = [w] ∧ w.lastReq + msCycles 250 ≤ u.fc ∧ e.linkUp = true ∧ u.ethN p.val 1 ≠ 0)) &&
     (let s : State := { R0.put [(0x2201,6,0,0x0A000001),(0x2201,5,0,0x020000000005)] with
          fc := 1000000000000, twin.role := 0, eth := [(1, {
              link := 2, icmpTimes := List.replicate 100 999999999999, supIn := [rxf [], rxf (ethHeader 0x020000000005
                0x020000000001 0x0800 ++ ipHeader 0x0A000009 0x0A000001 1 1 5 0 false 8 ++ [8, 0, 0xF7, 0xFF, 0, 0, 0, 0])] })]
            }
      let dt : Nat := 0
      let u := s.elapse dt
      decide (u.works domSup = true)) &&
     (let s : State := { R0.put [(0x2201,6,0,0x0A000001),(0x2201,5,0,0x020000000005)] with
          fc := 1000000000000, twin.role := 0, eth := [(1, {
              link := 2, icmpTimes := List.replicate 99 999999999999, supIn := [rxf [], rxf (ethHeader 0x020000000005
                0x020000000001 0x0800 ++ ipHeader 0x0A000009 0x0A000001 1 1 5 0 false 8 ++ [8, 0, 0xF7, 0xFF, 0, 0, 0, 0])] })]
            }
      let dt : Nat := 0
      let u := s.elapse dt
      decide (u.works domSup = true)) &&
     (let s : State := { R0 with twin.role := 0, eth := [(1, { link := 2, supIn := [rxf [], rxf []] })] }
      let dt : Nat := 0
      let p : Fin 2 := 1
      let f : RxFrame := rxf []
      let rest : List RxFrame := [rxf []]
      let u := s.elapse dt
      let e := u.ep p.val
      decide (u.works domSup = true ∧ u.yields (0x34 + p.val) = true ∧ e.supIn = f :: rest ∧ isProto 1 f = false)) &&
     (let s : State := { R0.put [(0x2201,6,0,0x0A000001),(0x2201,5,0,0x020000000005)] with
          fc := 1000000000000, twin.role := 0, eth := [(1, {
              link := 2, icmpTimes := List.replicate 100 999999999999, supIn := [rxf (ethHeader 0x020000000005 0x020000000001
                0x0800 ++ ipHeader 0x0A000009 0x0A000001 1 1 5 0 false 8 ++ [8, 0, 0xF7, 0xFF, 0, 0, 0, 0]), rxf []] })] }
      let dt : Nat := 0
      let p : Fin 2 := 1
      let f : RxFrame := rxf (ethHeader 0x020000000005 0x020000000001 0x0800 ++ ipHeader 0x0A000009 0x0A000001 1 1 5 0 false 8
        ++ [8, 0, 0xF7, 0xFF, 0, 0, 0, 0])
      let rest : List RxFrame := [rxf []]
      let u := s.elapse dt
      let e := u.ep p.val
      let recent := e.icmpTimes.filter (fun t => decide (u.fc < t + cyclesPerSec))
      decide (u.works domSup = true ∧ u.yields (0x34 + p.val) = true ∧ e.supIn = f :: rest ∧ isProto 1 f = true ∧ 100 ≤
        recent.length)) &&
     (let s : State := { R0.put [(0x2201,6,0,0x0A000001),(0x2201,5,0,0x020000000005)] with
          fc := 1000000000000, twin.role := 0, eth := [(1, {
              link := 2, icmpTimes := List.replicate 99 999999999999, supIn := [rxf (ethHeader 0x020000000005 0x020000000001
                0x0800 ++ ipHeader 0x0A000009 0x0A000001 1 1 5 0 false 8 ++ [8, 0, 0xF7, 0xFF, 0, 0, 0, 0]), rxf []] })] }
      let dt : Nat := 0
      let p : Fin 2 := 1
      let f : RxFrame := rxf (ethHeader 0x020000000005 0x020000000001 0x0800 ++ ipHeader 0x0A000009 0x0A000001 1 1 5 0 false 8
        ++ [8, 0, 0xF7, 0xFF, 0, 0, 0, 0])
      let rest : List RxFrame := [rxf []]
      let u := s.elapse dt
      let e := u.ep p.val
      let m := ipPayload f.bytes
      let recent := e.icmpTimes.filter (fun t => decide (u.fc < t + cyclesPerSec))
      decide (u.works domSup = true ∧ u.yields (0x34 + p.val) = true ∧ e.supIn = f :: rest ∧ isProto 1 f = true ∧ recent.length
        < 100 ∧ m.head? = some 8 ∧ m.length ≤ 1480 ∧ foldSum (wordSum m) = 0xFFFF)) &&
     (let s : State := { R0 with twin.role := 0, eth := [(1, { link := 2, supIn := [rxf [], rxf []] })] }
      let dt : Nat := 0
      let p : Fin 2 := 1
      let f : RxFrame := rxf []
      let rest : List RxFrame := [rxf []]
      let u := s.elapse dt
      let e := u.ep p.val
      decide (u.works domSup = true ∧ u.yields (0x34 + p.val) = true ∧ e.supIn = f :: rest ∧ isProto 2 f = false)) &&
     (let s : State := { R0.put
            [(0x2201,6,0,0x0A000001),(0x2201,5,0,0x020000000005),(0x2211,2,0,1),(0x2211,3,0,0xE0010203),(0x2211,4,0,6000)] with
          fc := 1000000000000, twin.role := 0, eth := [(1, {
              link := 2, supIn := [rxf (ethHeader 0x020000000005 0x020000000001 0x0800 ++ ipHeader 0x0A000009 0xE0000001 2 1 5 0
                false 8 ++ [0x11, 100, 0xEE, 0x9B, 0, 0, 0, 0]), rxf []] })] }
      let dt : Nat := 0
      let g : Nat := 0xE0010203
      let p : Fin 2 := 1
      let f : RxFrame := rxf (ethHeader 0x020000000005 0x020000000001 0x0800 ++ ipHeader 0x0A000009 0xE0000001 2 1 5 0 false 8
        ++ [0x11, 100, 0xEE, 0x9B, 0, 0, 0, 0])
      let rest : List RxFrame := [rxf []]
      let u := s.elapse dt
      let e := u.ep p.val
      let m := ipPayload f.bytes
      decide (u.works domSup = true ∧ u.yields (0x34 + p.val) = true ∧ e.supIn = f :: rest ∧ isProto 2 f = true ∧ u.joined p.val
        = [g] ∧ e.igmpDue = [] ∧ (beNat (slice 4 4 m) = 0 ∨ beNat (slice 4 4 m) = g))) &&
     (let s : State := State.reset
      let dt : Nat := 0
      let p : Fin 2 := 1
      let group : BitVec 32 := 0
      let u := s.elapse dt
      let e := u.ep p.val
      decide (u.works domSup = true ∧ (∀ x ∈ e.igmpDue, x.1 = group.toNat → u.fc < x.2))) &&
     (let s : State := { R0.put [(0x2201,6,0,0x0A000001),(0x2201,5,0,0x020000000005)] with
          fc := 1000000000000, twin.role := 0, eth := [(1, { link := 2, igmpDue := [(6,999999999999999),(7,5)] })] }
      let dt : Nat := 0
      let p : Fin 2 := 1
      let group : BitVec 32 := 7
      let u := s.elapse dt
      let e := u.ep p.val
      let d := 5
      decide (u.works domSup = true ∧ (group.toNat, d) ∈ e.igmpDue ∧ d ≤ u.fc ∧ group.toNat ∉ u.joined p.val)) &&
     (let s : State := { R0.put [(0x2201,6,0,0x0A000001),(0x2211,2,0,1),(0x2211,3,0,0xE0010203),(0x2211,4,0,6000)] with
          fc := 1000000000000, twin.role := 0, eth := [(1, { link := 2, igmpDue := [(6,999999999999999),(0xE0010203,5)] })] }
      let dt : Nat := 0
      let p : Fin 2 := 1
      let group : BitVec 32 := 0xE0010203
      let u := s.elapse dt
      let e := u.ep p.val
      let d := 5
      decide (u.works domSup = true ∧ (group.toNat, d) ∈ e.igmpDue ∧ d ≤ u.fc ∧ group.toNat ∈ u.joined p.val)))
    = true := by decide +kernel

/-- States that meet the hypotheses of MacSendsFrames, clause by clause. -/
theorem witness_MacSendsFrames :
    ((let s : State := { R0.put [] with
          fc := 1000000000000, twin.role := 0, eth := [(1,
          { link := 2, pauseState := 1, tx1 := [⟨List.replicate 300 1,.other⟩] })] }
      let dt : Nat := 0
      let p : Fin 2 := 1
      let u := s.elapse dt
      let e := u.ep p.val
      decide (u.works (domEth p.val) = true ∧ (e.headQueue = none ∨ e.inFlight.isSome = true ∨ e.linkUp = false ∨ e.pauseState =
        1))) &&
     (let s : State := { R0.put [] with
          fc := 1000000000000, twin.role := 0, eth := [(1, { link := 2, tx1 := [⟨List.replicate 300 1,.other⟩] })] }
      let dt : Nat := 0
      let inMac : Nat := 127
      let p : Fin 2 := 1
      let f : TxFrame := ⟨List.replicate 300 1,.other⟩
      let u := s.elapse dt
      let e := u.ep p.val
      let q := 1
      let rest := []
      decide (u.works (domEth p.val) = true ∧ e.headQueue = some q ∧ e.txq q = f :: rest ∧ e.inFlight = none ∧ e.linkUp = true ∧
        e.pauseState ≠ 1 ∧ u.yields (macQueue p.val q f) = true ∧ e.supWait = [] ∧ inMac < 64 * e.step ∧ inMac < f.bytes.length)) &&
     (let s : State := { R0.put [] with
          fc := 1000000000000, twin.role := 0, eth := [(1, { link := 2, tx1 := [⟨List.replicate 300 1,.other⟩] })] }
      let dt : Nat := 0
      let inMac : Nat := 128
      let p : Fin 2 := 1
      let f : TxFrame := ⟨List.replicate 300 1,.other⟩
      let u := s.elapse dt
      let e := u.ep p.val
      let q := 1
      let rest := []
      decide (u.works (domEth p.val) = true ∧ e.headQueue = some q ∧ e.txq q = f :: rest ∧ e.inFlight = none ∧ e.linkUp = true ∧
        e.pauseState ≠ 1 ∧ u.yields (macQueue p.val q f) = true ∧ e.supWait = [] ∧ (64 * e.step ≤ inMac ∨ f.bytes.length ≤
        inMac))) &&
     (let s : State := { R0.put [(0x2201,0x15,0,2)] with
          fc := 1000000000000, twin.role := 0, eth := [(1, {
              link := 2, stamps := [(1,2,3)], tx2 := [⟨List.replicate 300 1,.datagram 2
                { rcd := { source := 3 }, seq := 4, cls := 1, order := 3 }⟩,⟨[],.other⟩] })] }
      let dt : Nat := 0
      let p : Fin 2 := 1
      let u := s.elapse dt
      let e := u.ep p.val
      decide (u.works (domEth p.val) = true ∧ e.inFlight = none)) &&
     (let s : State := { R0.put [] with fc := 1000000000000, twin.role := 0, eth := [(1, { link := 2 })] }
      let dt : Nat := 0
      let p : Fin 2 := 1
      let u := s.elapse dt
      let e := u.ep p.val
      decide (u.works (domEth p.val) = true ∧ e.inFlight = none)) &&
     (let s : State := { R0.put [] with
          fc := 1000000000000, twin.role := 0, eth := [(1, {
              link := 2, inFlight := some ⟨List.replicate 300 1,.datagram 2
                { rcd := { source := 3 }, seq := 4, cls := 1, order := 3 }⟩ })] }
      let dt : Nat := 0
      let p : Fin 2 := 1
      let f : TxFrame := ⟨List.replicate 300 1,.datagram 2 { rcd := { source := 3 }, seq := 4, cls := 1, order := 3 }⟩
      let u := s.elapse dt
      let e := u.ep p.val
      decide (u.works (domEth p.val) = true ∧ e.inFlight = some f ∧ e.restart = false)) &&
     (let s : State := { R0.put [] with
          fc := 1000000000000, twin.role := 0, eth := [(1, {
              link := 2, inFlight := some ⟨List.replicate 300 1,.datagram 2
                { rcd := { source := 3 }, seq := 4, cls := 1, order := 3 }⟩ })] }
      let dt : Nat := 0
      let p : Fin 2 := 1
      let u := s.elapse dt
      decide (u.works (domEth p.val) = true ∧ u.works domSup = true)))
    = true := by decide +kernel

/-- States that meet the hypotheses of PauseCountersAndPhyRegisters, clause by clause. -/
theorem witness_PauseCountersAndPhyRegisters :
    ((let s : State :=
        { R0.put [] with fc := 1000000000000, twin.role := 0, eth := [(1, { pauseState := 1, pauseEnd := 2000000000000 })] }
      let dt : Nat := 0
      let p : Fin 2 := 1
      let u := s.elapse dt
      let e := u.ep p.val
      decide (u.works (domEth p.val) = true ∧ (e.pauseState ≠ 1 ∨ u.fc < e.pauseEnd))) &&
     (let s : State := { R0.put [] with
          fc := 1000000000000, twin.role := 0, eth := [(1, { pauseState := 1, pauseEnd := 1000, watchdog := some 5 })] }
      let dt : Nat := 0
      let p : Fin 2 := 1
      let u := s.elapse dt
      let e := u.ep p.val
      decide (u.works (domEth p.val) = true ∧ e.pauseState = 1 ∧ e.pauseEnd ≤ u.fc)) &&
     (let s : State :=
        { R0.put [(0x2201,0x0E,0,0)] with fc := 1000000000000, twin.role := 0, eth := [(1, { watchdog := some 5 })] }
      let dt : Nat := 0
      let p : Fin 2 := 1
      let u := s.elapse dt
      let e := u.ep p.val
      let limit := u.ethN p.val 0x0E
      decide (u.works (domEth p.val) = true ∧ (e.watchdog = none ∨ limit = 0 ∨ e.waiting = false))) &&
     (let s : State := { R0.put [(0x2201,0x0E,0,9)] with
          fc := 1000000000000, twin.role := 0, eth := [(1,
          { watchdog := some 5, pauseState := 1, tx1 := [⟨List.replicate 300 1,.other⟩] })] }
      let dt : Nat := 0
      let p : Fin 2 := 1
      let u := s.elapse dt
      let e := u.ep p.val
      let limit := u.ethN p.val 0x0E
      let w := 5
      decide (u.works (domEth p.val) = true ∧ e.watchdog = some w ∧ limit ≠ 0 ∧ e.waiting = true ∧ w + msCycles limit ≤ u.fc)) &&
     (let s : State :=
        { R0.put [] with fc := 1000000000000, twin.role := 0, eth := [(1, { pauseState := 2, holdoffEnd := 2000000000000 })] }
      let dt : Nat := 0
      let p : Fin 2 := 1
      let u := s.elapse dt
      let e := u.ep p.val
      decide (u.works (domEth p.val) = true ∧ (e.pauseState ≠ 2 ∨ u.fc < e.holdoffEnd))) &&
     (let s : State :=
        { R0.put [] with fc := 1000000000000, twin.role := 0, eth := [(1, { pauseState := 2, holdoffEnd := 2000 })] }
      let dt : Nat := 0
      let p : Fin 2 := 1
      let u := s.elapse dt
      let e := u.ep p.val
      decide (u.works (domEth p.val) = true ∧ e.pauseState = 2 ∧ e.holdoffEnd ≤ u.fc)) &&
     (let s : State := { R0.put [] with
          fc := 1000000000000, twin.role := 0, eth := [(1, { mac := [(1,5),(3,9)], sampled := [(1,0xFFFFFFFF)] })] }
      let dt : Nat := 0
      let p : Fin 2 := 1
      let u := s.elapse dt
      decide (u.works (domEth p.val) = true)) &&
     (let s : State := { R0.put [] with fc := 1000000000000, twin.role := 0, eth := [(1, { ring := [rxf []] })] }
      let dt : Nat := 0
      let p : Fin 2 := 1
      let u := s.elapse dt
      decide (u.works (domEth p.val) = true ∧ u.works domSup = true)) &&
     (let s : State := { R0.put [] with
          fc := 1000000000000, twin.role := 0, eth := [(1, { link := 2 })], dict.clients := [(0, { id := .spi, last := 0 })],
          boot.mode := 2 }
      let dt : Nat := 0
      let n : Nat := 0
      let who : ClientId := .spi
      let u := s.elapse dt
      decide (admitted who n 0x2230 u ∧ u.serviceMode = true)) &&
     (let s : State := { R0.put [] with
          fc := 1000000000000, twin.role := 0, eth := [(1, { link := 2 })], dict.clients := [(0, { id := .spi, last := 0 })],
          boot.mode := 1 }
      let dt : Nat := 0
      let n : Nat := 0
      let who : ClientId := .spi
      let u := s.elapse dt
      decide (admitted who n 0x2230 u ∧ u.serviceMode = false)))
    = true := by decide +kernel

/-- States that meet the hypotheses of PtpExchange, clause by clause. -/
theorem witness_PtpExchange :
    ((let s : State := { R0.put [(0x2201,6,0,0x0A000001),(0x2201,5,0,0x020000000005),(0x2201,0x12,0,1),(0x2008,1,0,3)] with
          fc := 1000000000000, twin.role := 0, eth := [(1,
          { link := 2, supIn := [rxf (ptpMsg 11 5 946684835 500 (List.replicate 20 0)), rxf []], ptp := { } })] }
      let dt : Nat := 0
      let p : Fin 2 := 1
      let f : RxFrame := rxf (ptpMsg 11 5 946684835 500 (List.replicate 20 0))
      let rest : List RxFrame := [rxf []]
      let m : List Byte := (ptpMsg 11 5 946684835 500 (List.replicate 20 0)).drop 14
      let u := s.elapse dt
      let x := (u.ep p.val).ptp
      let took (type : Nat) : Bool := decide (u.yields (0x34 + p.val) = true ∧ (u.ep p.val).supIn = f :: rest ∧ ptpIs type f =
        true)
      decide (u.works domSup = true ∧ u.ptpMessage p.val f.bytes = some m ∧ took 11 ∧ byteAt 48 m ≠ 255 ∧ x.masters = [])) &&
     (let s : State := { R0.put [(0x2201,6,0,0x0A000001),(0x2201,5,0,0x020000000005),(0x2201,0x12,0,1),(0x2008,1,0,3)] with
          fc := 1000000000000, twin.role := 0, eth := [(1, {
              link := 2, supIn := [rxf (ptpMsg 11 5 946684835 500 (List.replicate 20 0)), rxf []], ptp := {
                  selected := some (77, 1), masters := [{
                      dataset := [], clockId := 77, portId := 1, announces := [999999999999], interval := 1, qualified := true,
                      utc := none }] } })] }
      let dt : Nat := 0
      let p : Fin 2 := 1
      let f : RxFrame := rxf (ptpMsg 11 5 946684835 500 (List.replicate 20 0))
      let m : List Byte := (ptpMsg 11 5 946684835 500 (List.replicate 20 0)).drop 14
      let u := s.elapse dt
      decide (u.works domSup = true ∧ u.ptpMessage p.val f.bytes = some m)) &&
     (let s : State := { R0.put [(0x2201,6,0,0x0A000001),(0x2201,5,0,0x020000000005),(0x2201,0x12,0,1),(0x2008,1,0,3)] with
          fc := 1000000000000, twin.role := 0, eth := [(1,
          { link := 2, supIn := [rxf (ptpMsg 0 5 946684835 500 (List.replicate 20 0)), rxf []], ptp := { } })] }
      let dt : Nat := 0
      let p : Fin 2 := 1
      let f : RxFrame := rxf (ptpMsg 0 5 946684835 500 (List.replicate 20 0))
      let rest : List RxFrame := [rxf []]
      let m : List Byte := (ptpMsg 0 5 946684835 500 (List.replicate 20 0)).drop 14
      let u := s.elapse dt
      let took (type : Nat) : Bool := decide (u.yields (0x34 + p.val) = true ∧ (u.ep p.val).supIn = f :: rest ∧ ptpIs type f =
        true)
      decide (u.works domSup = true ∧ u.ptpMessage p.val f.bytes = some m ∧ took 0 ∧ u.fromMaster p.val m = false)) &&
     (let s : State := { R0.put [(0x2201,6,0,0x0A000001),(0x2201,5,0,0x020000000005),(0x2201,0x12,0,1),(0x2008,1,0,3)] with
          fc := 1000000000000, twin.role := 0, eth := [(1, {
              link := 2, supIn := [rxf (ptpMsg 0 5 946684835 500 (List.replicate 20 0)), rxf []], ptp :=
                { selected := some (77, 1) } })] }
      let dt : Nat := 0
      let p : Fin 2 := 1
      let f : RxFrame := rxf (ptpMsg 0 5 946684835 500 (List.replicate 20 0))
      let rest : List RxFrame := [rxf []]
      let m : List Byte := (ptpMsg 0 5 946684835 500 (List.replicate 20 0)).drop 14
      let u := s.elapse dt
      let x := (u.ep p.val).ptp
      let took (type : Nat) : Bool := decide (u.yields (0x34 + p.val) = true ∧ (u.ep p.val).supIn = f :: rest ∧ ptpIs type f =
        true)
      decide (u.works domSup = true ∧ u.ptpMessage p.val f.bytes = some m ∧ took 0 ∧ u.fromMaster p.val m = true ∧ (x.lastReq =
        none ∨ (∃ a, x.lastReq = some a ∧ x.reqInterval ≤ secs (u.fc - a))))) &&
     (let s : State := { R0.put [(0x2201,6,0,0x0A000001),(0x2201,5,0,0x020000000005),(0x2201,0x12,0,1),(0x2008,1,0,3)] with
          fc := 1000000000000, twin.role := 0, eth := [(1, {
              link := 2, supIn := [rxf (ptpMsg 9 5 946684835 500 (beBytes 8 0x020000FFFE000006 ++ beBytes 2 1)), rxf []], ptp :=
                {
                    selected := some (77, 1), exchs := [{
                        syncSeq := 5, syncAt := 999999999999, t1 := none, corr := 0, t2 := 0x300002000, reqSeq := 5, t3 := some
                          6, t4 := none }] } })] }
      let dt : Nat := 0
      let p : Fin 2 := 1
      let f : RxFrame := rxf (ptpMsg 9 5 946684835 500 (beBytes 8 0x020000FFFE000006 ++ beBytes 2 1))
      let rest : List RxFrame := [rxf []]
      let m : List Byte := (ptpMsg 9 5 946684835 500 (beBytes 8 0x020000FFFE000006 ++ beBytes 2 1)).drop 14
      let u := s.elapse dt
      let took (type : Nat) : Bool := decide (u.yields (0x34 + p.val) = true ∧ (u.ep p.val).supIn = f :: rest ∧ ptpIs type f =
        true)
      decide (u.works domSup = true ∧ u.ptpMessage p.val f.bytes = some m ∧ took 9 ∧ u.fromMaster p.val m = true ∧ (netNat 44 8
        m ≠ u.ownClock p.val ∨ netNat 52 2 m ≠ 1))) &&
     (let s : State := { R0.put [(0x2201,6,0,0x0A000001),(0x2201,5,0,0x020000000005),(0x2201,0x12,0,1),(0x2008,1,0,3)] with
          fc := 1000000000000, twin.role := 0, eth := [(1, {
              link := 2, supIn := [rxf (ptpMsg 8 5 946684835 500 (List.replicate 20 0)), rxf []], ptp := {
                  selected := some (77, 1), exchs := [{
                      syncSeq := 5, syncAt := 999999999999, t1 := none, corr := 0, t2 := 0x300002000, reqSeq := 5, t3 := none,
                      t4 := none }] } })] }
      let dt : Nat := 0
      let p : Fin 2 := 1
      let f : RxFrame := rxf (ptpMsg 8 5 946684835 500 (List.replicate 20 0))
      let rest : List RxFrame := [rxf []]
      let m : List Byte := (ptpMsg 8 5 946684835 500 (List.replicate 20 0)).drop 14
      let ex : Exchange :=
        { syncSeq := 5, syncAt := 999999999999, t1 := none, corr := 0, t2 := 0x300002000, reqSeq := 5, t3 := none, t4 := none }
      let u := s.elapse dt
      let x := (u.ep p.val).ptp
      let took (type : Nat) : Bool := decide (u.yields (0x34 + p.val) = true ∧ (u.ep p.val).supIn = f :: rest ∧ ptpIs type f =
        true)
      decide (u.works domSup = true ∧ u.ptpMessage p.val f.bytes = some m ∧ x.exchs = [ex] ∧ u.fromMaster p.val m = true ∧ took
        8 ∧ ex.syncSeq = ptpSeq m ∧ ex.t1 = none ∧ ex.t3 = none)) &&
     (let s : State := { R0.put [(0x2201,6,0,0x0A000001),(0x2201,5,0,0x020000000005),(0x2201,0x12,0,1),(0x2008,1,0,3)] with
          fc := 1000000000000, twin.role := 0, eth := [(1, {
              link := 2, supIn := [rxf (ptpMsg 9 5 946684835 500 (beBytes 8 0x020000FFFE000005 ++ beBytes 2 1)), rxf []], ptp :=
                {
                    selected := some (77, 1), exchs := [{
                        syncSeq := 5, syncAt := 999999999999, t1 := none, corr := 0, t2 := 0x300002000, reqSeq := 5, t3 := some
                          6, t4 := none }] } })] }
      let dt : Nat := 0
      let p : Fin 2 := 1
      let f : RxFrame := rxf (ptpMsg 9 5 946684835 500 (beBytes 8 0x020000FFFE000005 ++ beBytes 2 1))
      let rest : List RxFrame := [rxf []]
      let m : List Byte := (ptpMsg 9 5 946684835 500 (beBytes 8 0x020000FFFE000005 ++ beBytes 2 1)).drop 14
      let ex : Exchange := {
          syncSeq := 5, syncAt := 999999999999, t1 := none, corr := 0, t2 := 0x300002000, reqSeq := 5, t3 := some 6, t4 := none
            }
      let u := s.elapse dt
      let x := (u.ep p.val).ptp
      let took (type : Nat) : Bool := decide (u.yields (0x34 + p.val) = true ∧ (u.ep p.val).supIn = f :: rest ∧ ptpIs type f =
        true)
      decide (u.works domSup = true ∧ u.ptpMessage p.val f.bytes = some m ∧ x.exchs = [ex] ∧ u.fromMaster p.val m = true ∧ took
        9 ∧ ex.reqSeq = ptpSeq m ∧ ex.t4 = none ∧ netNat 44 8 m = u.ownClock p.val ∧ netNat 52 2 m = 1 ∧ ex.t1 = none)) &&
     (let s : State := { R0.put [(0x2201,6,0,0x0A000001),(0x2201,5,0,0x020000000005),(0x2201,0x12,0,1),(0x2008,1,0,3)] with
          fc := 1000000000000, twin.role := 0, eth := [(1, {
              link := 2, supIn := [rxf (ptpMsg 9 5 946684835 500 (beBytes 8 0x020000FFFE000005 ++ beBytes 2 1)), rxf []], ptp :=
                {
                    selected := some (77, 1), exchs := [{
                        syncSeq := 5, syncAt := 999999999999, t1 := some 0x400000000, corr := 0, t2 := 0x300002000, reqSeq := 5,
                        t3 := some 0x300003000, t4 := none }] } })] }
      let dt : Nat := 0
      let p : Fin 2 := 1
      let f : RxFrame := rxf (ptpMsg 9 5 946684835 500 (beBytes 8 0x020000FFFE000005 ++ beBytes 2 1))
      let rest : List RxFrame := [rxf []]
      let m : List Byte := (ptpMsg 9 5 946684835 500 (beBytes 8 0x020000FFFE000005 ++ beBytes 2 1)).drop 14
      let ex : Exchange := {
          syncSeq := 5, syncAt := 999999999999, t1 := some 0x400000000, corr := 0, t2 := 0x300002000, reqSeq := 5, t3 := some
            0x300003000, t4 := none }
      let u := s.elapse dt
      let x := (u.ep p.val).ptp
      let took (type : Nat) : Bool := decide (u.yields (0x34 + p.val) = true ∧ (u.ep p.val).supIn = f :: rest ∧ ptpIs type f =
        true)
      let t1 := 0x400000000
      let t3 := 0x300003000
      let ms := posNs ex.t2 t1 - ex.corr
      let sm := posNs (ptpTime 34 m) t3 - ptpCorrection m
      decide (u.works domSup = true ∧ u.ptpMessage p.val f.bytes = some m ∧ x.exchs = [ex] ∧ u.fromMaster p.val m = true ∧ took
        9 ∧ ex.reqSeq = ptpSeq m ∧ ex.t4 = none ∧ netNat 44 8 m = u.ownClock p.val ∧ netNat 52 2 m = 1 ∧ ex.t1 = some t1 ∧ ex.t3
        = some t3 ∧ ms + sm < 0)) &&
     (let s : State := { R0.put [(0x2201,6,0,0x0A000001),(0x2201,5,0,0x020000000005),(0x2201,0x12,0,1),(0x2008,1,0,3)] with
          fc := 1000000000000, twin.role := 0, eth := [(1, {
              link := 2, supIn := [rxf (ptpMsg 9 5 946684835 500 (beBytes 8 0x020000FFFE000005 ++ beBytes 2 1)), rxf []], ptp :=
                {
                    selected := some (77, 1), exchs := [{
                        syncSeq := 5, syncAt := 999999999999, t1 := some 0x300001000, corr := 0, t2 := 0x300002000, reqSeq := 5,
                        t3 := some 0x300000003, t4 := none }] } })] }
      let dt : Nat := 0
      let p : Fin 2 := 1
      let f : RxFrame := rxf (ptpMsg 9 5 946684835 500 (beBytes 8 0x020000FFFE000005 ++ beBytes 2 1))
      let rest : List RxFrame := [rxf []]
      let m : List Byte := (ptpMsg 9 5 946684835 500 (beBytes 8 0x020000FFFE000005 ++ beBytes 2 1)).drop 14
      let ex : Exchange := {
          syncSeq := 5, syncAt := 999999999999, t1 := some 0x300001000, corr := 0, t2 := 0x300002000, reqSeq := 5, t3 := some
            0x300000003, t4 := none }
      let u := s.elapse dt
      let x := (u.ep p.val).ptp
      let took (type : Nat) : Bool := decide (u.yields (0x34 + p.val) = true ∧ (u.ep p.val).supIn = f :: rest ∧ ptpIs type f =
        true)
      let t1 := 0x300001000
      let t3 := 0x300000003
      let ms := posNs ex.t2 t1 - ex.corr
      let sm := posNs (ptpTime 34 m) t3 - ptpCorrection m
      decide (u.works domSup = true ∧ u.ptpMessage p.val f.bytes = some m ∧ x.exchs = [ex] ∧ u.fromMaster p.val m = true ∧ took
        9 ∧ ex.reqSeq = ptpSeq m ∧ ex.t4 = none ∧ netNat 44 8 m = u.ownClock p.val ∧ netNat 52 2 m = 1 ∧ ex.t1 = some t1 ∧ ex.t3
        = some t3 ∧ 0 ≤ ms + sm ∧ u.wheels.time.source ≠ 2 + p.val)))
    = true := by decide +kernel

/-- States that meet the hypotheses of CanReception, clause by clause. -/
theorem witness_CanReception :
    ((let f : CanFrame := { ext := true, remote := false, id := 418316037, data := [1,2,3,4,5,6,7,8] }
      decide (f.wellFormed = true)) &&
     (let s : State := { R0.put [(0x2240,1,0,1),(0x2241,1,0,1),(0x2242,1,0,1)] with
          fc := 1000000000000, now := 1000000000000, twin.role := 0, can := [(1, { state := 3 })] }
      let dt : Nat := 0
      let p : Fin 3 := 1
      let f : CanFrame := { ext := true, remote := false, id := 418316037, data := [1,2,3,4,5,6,7,8] }
      let u := (s.elapse dt).spend (!f.wellFormed)
      let c := u.cp p.val
      decide (u.works domCan = true ∧ (u.canOn p.val = false ∨ c.state = 3 ∨ c.state = 4))) &&
     (let s : State := { R0.put [(0x2240,1,0,1),(0x2241,1,0,1),(0x2242,1,0,1)] with
          fc := 1000000000000, now := 1000000000000, twin.role := 0, can := [(1, { rxErr := 4 })] }
      let dt : Nat := 0
      let p : Fin 3 := 1
      let f : CanFrame := { ext := true, remote := true, id := 418316037, data := [] }
      let u := (s.elapse dt).spend (!f.wellFormed)
      let c := u.cp p.val
      decide (u.works domCan = true ∧ u.canOn p.val = true ∧ c.state = 1 ∧ c.txErr ≤ 127 ∧ c.rxErr ≤ 127 ∧ f.remote = true)) &&
     (let s : State := { R0.put [(0x2240,1,0,1),(0x2241,1,0,1),(0x2242,1,0,1)] with
          fc := 1000000000000, now := 1000000000000, twin.role := 0, can := [(1, { rxErr := 4 })] }
      let dt : Nat := 0
      let p : Fin 3 := 1
      let f : CanFrame := { ext := false, remote := false, id := 2030, data := [1,2,3,4,5,6,7,8] }
      let u := (s.elapse dt).spend (!f.wellFormed)
      let c := u.cp p.val
      decide (u.works domCan = true ∧ u.canOn p.val = true ∧ c.state = 1 ∧ c.txErr ≤ 127 ∧ c.rxErr ≤ 127 ∧ f.remote = false ∧
        f.ext ≠ decide (p.val < 2))) &&
     (let s : State := { R0.put [(0x2240,1,0,1),(0x2241,1,0,1),(0x2242,1,0,1)] with
          fc := 1000000000000, now := 1000000000000, twin.role := 0, can := [(1, { rxErr := 4 })] }
      let dt : Nat := 0
      let p : Fin 3 := 1
      let f : CanFrame := { ext := true, remote := false, id := 417922821, data := [1,2,3,4,5,6,7,8] }
      let u := (s.elapse dt).spend (!f.wellFormed)
      let g := legalFrame s.freeNat f
      let c := u.cp p.val
      let pgn := pgnOfId g.id
      decide (u.works domCan = true ∧ u.canOn p.val = true ∧ c.state = 1 ∧ c.txErr ≤ 127 ∧ c.rxErr ≤ 127 ∧ f.remote = false ∧
        f.ext = true ∧ p.val < 2 ∧ pgn = 59392)) &&
     (let s : State := { R0.put [(0x2240,1,0,1),(0x2241,1,0,1),(0x2242,1,0,1)] with
          fc := 1000000000000, now := 1000000000000, twin.role := 0, can := [(1, { rxErr := 4 })] }
      let dt : Nat := 0
      let p : Fin 3 := 1
      let f : CanFrame := { ext := true, remote := false, id := 418316037, data := [1,2,3,4,5,6,7,8] }
      let u := (s.elapse dt).spend (!f.wellFormed)
      let g := legalFrame s.freeNat f
      let c := u.cp p.val
      let pgn := pgnOfId g.id
      decide (u.works domCan = true ∧ u.canOn p.val = true ∧ c.state = 1 ∧ c.txErr ≤ 127 ∧ c.rxErr ≤ 127 ∧ f.remote = false ∧
        f.ext = true ∧ p.val < 2 ∧ (pgn = 60928 ∨ pgn = 59904) ∧ u.up domSup = true ∧ u.hasRoom (0x4B + p.val) = true)) &&
     (let s : State := { R0.put [(0x2240,1,0,1),(0x2241,1,0,1),(0x2242,1,0,1)] with
          fc := 1000000000000, now := 1000000000000, twin.role := 0, can := [(1,
          { rxErr := 4, supIn := List.replicate 64 { ext := true, remote := false, id := 418316037, data := [1] } })] }
      let dt : Nat := 0
      let p : Fin 3 := 1
      let f : CanFrame := { ext := true, remote := false, id := 418316037, data := [1,2,3,4,5,6,7,8] }
      let u := (s.elapse dt).spend (!f.wellFormed)
      let g := legalFrame s.freeNat f
      let c := u.cp p.val
      let pgn := pgnOfId g.id
      decide (u.works domCan = true ∧ u.canOn p.val = true ∧ c.state = 1 ∧ c.txErr ≤ 127 ∧ c.rxErr ≤ 127 ∧ f.remote = false ∧
        f.ext = true ∧ p.val < 2 ∧ (pgn = 60928 ∨ pgn = 59904) ∧ u.up domSup = true ∧ u.hasRoom (0x4B + p.val) = false)) &&
     (let s : State := { R0.put [(0x2240,1,0,1),(0x2241,1,0,1),(0x2242,1,0,1)] with
          fc := 1000000000000, now := 1000000000000, twin.role := 0, can := [(1, { rxErr := 4 })] }
      let dt : Nat := 0
      let p : Fin 3 := 1
      let f : CanFrame := { ext := true, remote := false, id := 0x18DA0505, data := [1,2,3,4,5,6,7,8] }
      let u := (s.elapse dt).spend (!f.wellFormed)
      let g := legalFrame s.freeNat f
      let c := u.cp p.val
      let pgn := pgnOfId g.id
      decide (u.works domCan = true ∧ u.canOn p.val = true ∧ c.state = 1 ∧ c.txErr ≤ 127 ∧ c.rxErr ≤ 127 ∧ f.remote = false ∧
        f.ext = true ∧ p.val < 2 ∧ pgn ≠ 60928 ∧ pgn ≠ 59904 ∧ pgn ≠ 59392 ∧ u.up domCardA = true ∧ u.admits (0x48 + p.val) =
        true ∧ g.id / 2 ^ 16 % 256 < 240 ∧ g.id / 256 % 256 ≠ 255 ∧ ¬(c.addrState = 2 ∧ g.id / 256 % 256 = c.addr))) &&
     (let s : State := { R0.put [(0x2240,1,0,1),(0x2241,1,0,1),(0x2242,1,0,1)] with
          fc := 1000000000000, now := 1000000000000, twin.role := 0, can := [(1, { rxErr := 4, names := [(5, 77)] })] }
      let dt : Nat := 0
      let p : Fin 3 := 1
      let f : CanFrame := { ext := true, remote := false, id := 0x19F80105, data := [1,2,3,4,5,6,7,8] }
      let u := (s.elapse dt).spend (!f.wellFormed)
      let g := legalFrame s.freeNat f
      let c := u.cp p.val
      let pgn := pgnOfId g.id
      decide (u.works domCan = true ∧ u.canOn p.val = true ∧ c.state = 1 ∧ c.txErr ≤ 127 ∧ c.rxErr ≤ 127 ∧ f.remote = false ∧
        f.ext = true ∧ p.val < 2 ∧ pgn ≠ 60928 ∧ pgn ≠ 59904 ∧ pgn ≠ 59392 ∧ u.up domCardA = true ∧ u.admits (0x48 + p.val) =
        true ∧ pgn ≠ 60416 ∧ pgn ≠ 60160 ∧ u.isFast pgn = false ∧ (240 ≤ g.id / 2 ^ 16 % 256 ∨ g.id / 256 % 256 = 255 ∨
        (c.addrState = 2 ∧ g.id / 256 % 256 = c.addr)) ∧ u.hasRoom (0x48 + p.val) = true)) &&
     (let s : State := { R0.put [(0x2240,1,0,1),(0x2241,1,0,1),(0x2242,1,0,1)] with
          fc := 1000000000000, now := 1000000000000, twin.role := 0, can := [(1, {
              rxErr := 4, rxMsgs := List.replicate 256
                { ok := true, src := 1, name := none, pgn := 129029, priority := 3, data := [1], pip := {}, states := 0 } })] }
      let dt : Nat := 0
      let p : Fin 3 := 1
      let f : CanFrame := { ext := true, remote := false, id := 0x19F80105, data := [1,2,3,4,5,6,7,8] }
      let u := (s.elapse dt).spend (!f.wellFormed)
      let g := legalFrame s.freeNat f
      let c := u.cp p.val
      let pgn := pgnOfId g.id
      decide (u.works domCan = true ∧ u.canOn p.val = true ∧ c.state = 1 ∧ c.txErr ≤ 127 ∧ c.rxErr ≤ 127 ∧ f.remote = false ∧
        f.ext = true ∧ p.val < 2 ∧ pgn ≠ 60928 ∧ pgn ≠ 59904 ∧ pgn ≠ 59392 ∧ u.up domCardA = true ∧ u.admits (0x48 + p.val) =
        true ∧ pgn ≠ 60416 ∧ pgn ≠ 60160 ∧ u.isFast pgn = false ∧ (240 ≤ g.id / 2 ^ 16 % 256 ∨ g.id / 256 % 256 = 255 ∨
        (c.addrState = 2 ∧ g.id / 256 % 256 = c.addr)) ∧ u.hasRoom (0x48 + p.val) = false)) &&
     (let s : State := { R0.put [(0x2260,1,0,5),(0x2240,1,0,1),(0x2241,1,0,1),(0x2242,1,0,1)] with
          fc := 1000000000000, now := 1000000000000, twin.role := 0, can := [(2,
          { rxErr := 4, supIn := [{ ext := false, remote := false, id := 0, data := [1] }] })] }
      let dt : Nat := 0
      let p : Fin 3 := 2
      let f : CanFrame := { ext := false, remote := false, id := 0x605, data := [1,2,3,4,5,6,7,8] }
      let u := (s.elapse dt).spend (!f.wellFormed)
      let g := legalFrame s.freeNat f
      let c := u.cp p.val
      decide (u.works domCan = true ∧ u.canOn p.val = true ∧ c.state = 1 ∧ c.txErr ≤ 127 ∧ c.rxErr ≤ 127 ∧ f.remote = false ∧
        f.ext = false ∧ p.val = 2 ∧ (g.id = 0 ∨ g.id = 0x600 + u.nodeId) ∧ c.supIn.any (fun x => x.id == g.id) = false)) &&
     (let s : State := { R0.put [(0x2260,1,0,5),(0x2240,1,0,1),(0x2241,1,0,1),(0x2242,1,0,1)] with
          fc := 1000000000000, now := 1000000000000, twin.role := 0, can := [(2,
          { rxErr := 4, supIn := [{ ext := false, remote := false, id := 0, data := [1] }] })] }
      let dt : Nat := 0
      let p : Fin 3 := 2
      let f : CanFrame := { ext := false, remote := false, id := 0, data := [1,2,3] }
      let u := (s.elapse dt).spend (!f.wellFormed)
      let g := legalFrame s.freeNat f
      let c := u.cp p.val
      decide (u.works domCan = true ∧ u.canOn p.val = true ∧ c.state = 1 ∧ c.txErr ≤ 127 ∧ c.rxErr ≤ 127 ∧ f.remote = false ∧
        f.ext = false ∧ p.val = 2 ∧ (g.id = 0 ∨ g.id = 0x600 + u.nodeId) ∧ c.supIn.any (fun x => x.id == g.id) = true)) &&
     (let s : State := { R0.put [(0x2260,1,0,5),(0x2240,1,0,1),(0x2241,1,0,1),(0x2242,1,0,1)] with
          fc := 1000000000000, now := 1000000000000, twin.role := 0, can := [(2,
          { rxErr := 4, supIn := [{ ext := false, remote := false, id := 0, data := [1] }] })] }
      let dt : Nat := 0
      let p : Fin 3 := 2
      let f : CanFrame := { ext := false, remote := false, id := 0x190, data := [1,2,3] }
      let u := (s.elapse dt).spend (!f.wellFormed)
      let g := legalFrame s.freeNat f
      let c := u.cp p.val
      decide (u.works domCan = true ∧ u.canOn p.val = true ∧ c.state = 1 ∧ c.txErr ≤ 127 ∧ c.rxErr ≤ 127 ∧ f.remote = false ∧
        f.ext = false ∧ p.val = 2 ∧ g.id ≠ 0 ∧ g.id ≠ 0x600 + u.nodeId ∧ u.pdoRow g.id = false)) &&
     (let s : State := { R0.put
            [(0x2310,2,3,1),(0x2310,3,3,0x2A),(0x2310,4,3,6),(0x2310,6,3,0x190),(0x2260,1,0,5),(0x2240,1,0,1),(0x2241,1,0,1),(0x2242,1,0,1)]
            with
          fc := 1000000000000, now := 1000000000000, twin.role := 0, can := [(2, { rxErr := 4, pdos := [(0x191, [1], {}, 0)] })]
            }
      let dt : Nat := 0
      let p : Fin 3 := 2
      let f : CanFrame := { ext := false, remote := false, id := 0x190, data := [1,2,3] }
      let u := (s.elapse dt).spend (!f.wellFormed)
      let g := legalFrame s.freeNat f
      let c := u.cp p.val
      decide (u.works domCan = true ∧ u.canOn p.val = true ∧ c.state = 1 ∧ c.txErr ≤ 127 ∧ c.rxErr ≤ 127 ∧ f.remote = false ∧
        f.ext = false ∧ p.val = 2 ∧ g.id ≠ 0 ∧ g.id ≠ 0x600 + u.nodeId ∧ u.pdoRow g.id = true)))
    = true := by decide +kernel

/-- States that meet the hypotheses of CanTransmissionAndErrors, clause by clause. -/
theorem witness_CanTransmissionAndErrors :
    ((let s : State := { R0.put [(0x2240,1,0,1),(0x2241,1,0,1),(0x2242,1,0,1)] with
          fc := 1000000000000, now := 1000000000000, twin.role := 0, can := [(1, { state := 4 })] }
      let dt : Nat := 0
      let p : Fin 3 := 1
      let u := s.elapse dt
      let c := u.cp p.val
      decide (u.works domCan = true ∧ (u.canOn p.val = false ∨ c.state = 3 ∨ c.state = 4))) &&
     (let s : State := { R0.put [(0x2240,1,0,1),(0x2241,1,0,1),(0x2242,1,0,1)] with
          fc := 1000000000000, now := 1000000000000, twin.role := 0, can := [(1, { state := 3 })] }
      let dt : Nat := 0
      let p : Fin 3 := 1
      let u := s.elapse dt
      let c := u.cp p.val
      decide (u.works domCan = true ∧ (u.canOn p.val = false ∨ c.state = 3 ∨ c.state = 4))) &&
     (let s : State := { R0.put [(0x2240,1,0,1),(0x2241,1,0,1),(0x2242,1,0,1)] with
          fc := 1000000000000, now := 1000000000000, twin.role := 0, can := [(1, { tx := [] })] }
      let dt : Nat := 0
      let p : Fin 3 := 1
      let u := s.elapse dt
      let c := u.cp p.val
      decide (u.works domCan = true ∧ u.canOn p.val = true ∧ c.state = 1 ∧ c.txErr ≤ 127 ∧ c.rxErr ≤ 127 ∧ c.tx = [])) &&
     (let s : State := { R0.put [(0x2240,1,0,1),(0x2241,1,0,1),(0x2242,1,0,1)] with
          fc := 1000000000000, now := 1000000000000, twin.role := 0, can := [(1, {
              tx := [{
                  frame := { ext := true, remote := false, id := 166793733, data := [1,2,3,4,5,6,7,8] }, kind := .fe 4 (some
                    { rcd := { source := 3 }, seq := 4, cls := 1, order := 3 }) true
                    },{ frame := { ext := true, remote := false, id := 166793734, data := [1,2,3,4,5,6,7,8] }, kind := .sup }],
              txErr := 7 })] }
      let dt : Nat := 0
      let p : Fin 3 := 1
      let f : CanTx := {
          frame := { ext := true, remote := false, id := 166793733, data := [1,2,3,4,5,6,7,8] }, kind := .fe 4 (some
            { rcd := { source := 3 }, seq := 4, cls := 1, order := 3 }) true }
      let rest : List CanTx :=
        [{ frame := { ext := true, remote := false, id := 166793734, data := [1,2,3,4,5,6,7,8] }, kind := .sup }]
      let u := s.elapse dt
      let c := u.cp p.val
      decide (u.works domCan = true ∧ u.canOn p.val = true ∧ c.state = 1 ∧ c.txErr ≤ 127 ∧ c.rxErr ≤ 127 ∧ c.tx = f :: rest)) &&
     (let s : State := { R0.put [(0x2240,1,0,1),(0x2241,1,0,1),(0x2242,1,0,1)] with
          fc := 1000000000000, now := 1000000000000, twin.role := 0, can := [(1, { txErr := 119, rxErr := 6 })] }
      let dt : Nat := 0
      let p : Fin 3 := 1
      let x : CanErr := { txUp := 8, rxUp := 1 }
      let u := s.elapse dt
      let c := u.cp p.val
      decide (u.works domCan = true ∧ u.canOn p.val = true ∧ c.state = 1 ∧ c.txErr ≤ 127 ∧ c.rxErr ≤ 127 ∧ c.txErr + x.txUp ≤
        127 ∧ c.rxErr + x.rxUp ≤ 127)) &&
     (let s : State := { R0.put [(0x2240,1,0,1),(0x2241,1,0,1),(0x2242,1,0,1)] with
          fc := 1000000000000, now := 1000000000000, twin.role := 0, can := [(1, {
              txErr := 119, tx := [{
                  frame := { ext := true, remote := false, id := 166793733, data := [1,2,3,4,5,6,7,8] }, kind := .fe 4 (some
                    { rcd := { source := 3 }, seq := 4, cls := 1, order := 3 }) true
                    },{ frame := { ext := true, remote := false, id := 166793734, data := [1,2,3,4,5,6,7,8] }, kind := .sup }]
                })] }
      let dt : Nat := 0
      let p : Fin 3 := 1
      let x : CanErr := { txUp := 200, rxUp := 1 }
      let u := s.elapse dt
      let c := u.cp p.val
      decide (u.works domCan = true ∧ u.canOn p.val = true ∧ c.state = 1 ∧ c.txErr ≤ 127 ∧ c.rxErr ≤ 127 ∧ 255 < c.txErr +
        x.txUp)) &&
     (let s : State := { R0.put [(0x2240,1,0,1),(0x2241,1,0,1),(0x2242,1,0,1)] with
          fc := 1000000000000, now := 1000000000000, twin.role := 0, can := [(1, { state := 1 })] }
      let dt : Nat := 0
      let p : Fin 3 := 1
      let u := s.elapse dt
      let c := u.cp p.val
      let delay := msCycles (u.cn (0x2240 + p.val) 3 0)
      decide (u.works domCan = true ∧ (c.state ≠ 3 ∨ u.fc - c.busOffAt < delay))) &&
     (let s : State := { R0.put [(0x2240,1,0,1),(0x2241,1,0,1),(0x2242,1,0,1)] with
          fc := 1000000000000, now := 1000000000000, twin.role := 0, can := [(1, { state := 3, busOffAt := 5 })] }
      let dt : Nat := 0
      let p : Fin 3 := 1
      let u := s.elapse dt
      let c := u.cp p.val
      let delay := msCycles (u.cn (0x2240 + p.val) 3 0)
      decide (u.works domCan = true ∧ c.state = 3 ∧ delay ≤ u.fc - c.busOffAt)) &&
     (let s : State := { R0.put [(0x2240,1,0,1),(0x2241,1,0,1),(0x2242,1,0,1)] with
          fc := 1000000000000, now := 1000000000000, twin.role := 0, can := [(1, { state := 1 })] }
      let dt : Nat := 0
      let p : Fin 3 := 1
      let u := s.elapse dt
      let c := u.cp p.val
      decide (u.works domCan = true ∧ c.state ≠ 4)) &&
     (let s : State := { R0.put [(0x2240,1,0,1),(0x2241,1,0,1),(0x2242,1,0,1)] with
          fc := 1000000000000, now := 1000000000000, twin.role := 0, can := [(1,
          { state := 4, addr := 60, addrState := 2, txErr := 200 })] }
      let dt : Nat := 0
      let p : Fin 3 := 1
      let u := s.elapse dt
      let c := u.cp p.val
      decide (u.works domCan = true ∧ c.state = 4)))
    = true := by decide +kernel

/-- States that meet the hypotheses of AddressClaimAndAssemblies, clause by clause. -/
theorem witness_AddressClaimAndAssemblies :
    ((let s : State := { R0.put [(0x2240,1,0,1),(0x2241,1,0,1),(0x2242,1,0,1),(0x2245,1,0,0x5000)] with
          fc := 1000000000000, now := 1000000000000, twin.role := 0, fabric.queues := [(0x4C, { wasReset := some .consumer })],
          can := [(1, { supIn := [{ ext := true, remote := false, id := 0x18EEFF3C, data := leBytes 8 0x5001 }] })] }
      let dt : Nat := 0
      let p : Fin 2 := 1
      let u := s.elapse dt
      decide (u.works domSup = true ∧ u.works domCan = true ∧ u.yields (0x4B + p.val) = false)) &&
     (let s : State := { R0.put [(0x2240,1,0,1),(0x2241,1,0,1),(0x2242,1,0,1)] with
          fc := 1000000000000, now := 1000000000000, twin.role := 0, can := [(1, { supIn := [] })] }
      let dt : Nat := 0
      let p : Fin 2 := 1
      let u := s.elapse dt
      let c := u.cp p.val
      decide (u.works domSup = true ∧ u.works domCan = true ∧ u.yields (0x4B + p.val) = true ∧ c.supIn = [])) &&
     (let s : State := { R0.put [(0x2240,1,0,1),(0x2241,1,0,1),(0x2242,1,0,1),(0x2245,1,0,0x5000)] with
          fc := 1000000000000, now := 1000000000000, twin.role := 0, can := [(1, {
              supIn := [{ ext := true, remote := false, id := 0x18EEFFFE, data := leBytes 8 0x77 },
              { ext := true, remote := false, id := 0x18EEFF3C, data := leBytes 8 0x4FFF }], addr := 0x3C, addrState := 2, names
                := [(9, 0x77), (10, 0x78)] })] }
      let dt : Nat := 0
      let p : Fin 2 := 1
      let x : CanFrame := { ext := true, remote := false, id := 0x18EEFFFE, data := leBytes 8 0x77 }
      let rest : List CanFrame := [{ ext := true, remote := false, id := 0x18EEFF3C, data := leBytes 8 0x4FFF }]
      let u := s.elapse dt
      let c := u.cp p.val
      let src := x.id % 256
      let took (pgn : Nat) : Bool := decide (u.yields (0x4B + p.val) = true ∧ c.supIn = x :: rest ∧ pgnOfId x.id = pgn)
      decide (u.works domSup = true ∧ u.works domCan = true ∧ took 60928 ∧ 254 ≤ src)) &&
     (let s : State := { R0.put [(0x2240,1,0,1),(0x2241,1,0,1),(0x2242,1,0,1),(0x2245,1,0,0x5000)] with
          fc := 1000000000000, now := 1000000000000, twin.role := 0, can := [(1, {
              supIn := [{ ext := true, remote := false, id := 0x18EEFF09, data := leBytes 8 0x77 },
              { ext := true, remote := false, id := 0x18EEFF3C, data := leBytes 8 0x4FFF }], addr := 0x3C, addrState := 2, names
                := [(9, 0x78)], fast := [{
                    src := 9, pgn := 129029, seqCtr := 1, next := 2, total := 43, data := [1,2], last := 999999999999, priority
                      := 3, name := none }] })] }
      let dt : Nat := 0
      let p : Fin 2 := 1
      let x : CanFrame := { ext := true, remote := false, id := 0x18EEFF09, data := leBytes 8 0x77 }
      let rest : List CanFrame := [{ ext := true, remote := false, id := 0x18EEFF3C, data := leBytes 8 0x4FFF }]
      let u := s.elapse dt
      let c := u.cp p.val
      let src := x.id % 256
      let took (pgn : Nat) : Bool := decide (u.yields (0x4B + p.val) = true ∧ c.supIn = x :: rest ∧ pgnOfId x.id = pgn)
      decide (u.works domSup = true ∧ u.works domCan = true ∧ took 60928 ∧ src < 254 ∧ src ≠ c.addr)) &&
     (let s : State := { R0.put [(0x2240,1,0,1),(0x2241,1,0,1),(0x2242,1,0,1),(0x2245,1,0,0x5000)] with
          fc := 1000000000000, now := 1000000000000, twin.role := 0, can := [(1, {
              supIn := [{ ext := true, remote := false, id := 0x18EEFF3C, data := leBytes 8 0x5001 },
              { ext := true, remote := false, id := 0x18EEFF3C, data := leBytes 8 0x4FFF }], addr := 0x3C, addrState := 2 })] }
      let dt : Nat := 0
      let p : Fin 2 := 1
      let x : CanFrame := { ext := true, remote := false, id := 0x18EEFF3C, data := leBytes 8 0x5001 }
      let rest : List CanFrame := [{ ext := true, remote := false, id := 0x18EEFF3C, data := leBytes 8 0x4FFF }]
      let u := s.elapse dt
      let c := u.cp p.val
      let name := leNat x.data
      let src := x.id % 256
      let took (pgn : Nat) : Bool := decide (u.yields (0x4B + p.val) = true ∧ c.supIn = x :: rest ∧ pgnOfId x.id = pgn)
      let room : Bool := decide (u.canOn p.val = true ∧ c.txq = [] ∧ u.hasRoom (0x52 + p.val) = true)
      decide (u.works domSup = true ∧ u.works domCan = true ∧ took 60928 ∧ src < 254 ∧ src = c.addr ∧ (c.addrState = 1 ∨
        c.addrState = 2) ∧ u.ownName p.val ≤ name ∧ room)) &&
     (let s : State := { R0.put [(0x2240,1,0,1),(0x2241,1,0,1),(0x2242,1,0,1),(0x2245,1,0,0x5000)] with
          fc := 1000000000000, now := 1000000000000, twin.role := 0, can := [(1, {
              supIn := [{ ext := true, remote := false, id := 0x18EEFF3C, data := leBytes 8 0x4FFF },
              { ext := true, remote := false, id := 0x18EEFF3C, data := leBytes 8 0x4FFF }], addr := 0x3C, addrState := 2 })] }
      let dt : Nat := 0
      let p : Fin 2 := 1
      let x : CanFrame := { ext := true, remote := false, id := 0x18EEFF3C, data := leBytes 8 0x4FFF }
      let rest : List CanFrame := [{ ext := true, remote := false, id := 0x18EEFF3C, data := leBytes 8 0x4FFF }]
      let u := s.elapse dt
      let c := u.cp p.val
      let name := leNat x.data
      let src := x.id % 256
      let took (pgn : Nat) : Bool := decide (u.yields (0x4B + p.val) = true ∧ c.supIn = x :: rest ∧ pgnOfId x.id = pgn)
      decide (u.works domSup = true ∧ u.works domCan = true ∧ took 60928 ∧ src < 254 ∧ src = c.addr ∧ (c.addrState = 1 ∨
        c.addrState = 2) ∧ name < u.ownName p.val)) &&
     (let s : State := { R0.put [(0x2240,1,0,1),(0x2241,1,0,1),(0x2242,1,0,1),(0x2245,1,0,0x5000)] with
          fc := 1000000000000, now := 1000000000000, twin.role := 0, can := [(1, {
              supIn := [{ ext := true, remote := false, id := 0x18EA3C08, data := leBytes 3 60928 },
              { ext := true, remote := false, id := 0x18EEFF3C, data := leBytes 8 0x4FFF }], addr := 0x3C, addrState := 2 })] }
      let dt : Nat := 0
      let p : Fin 2 := 1
      let x : CanFrame := { ext := true, remote := false, id := 0x18EA3C08, data := leBytes 3 60928 }
      let rest : List CanFrame := [{ ext := true, remote := false, id := 0x18EEFF3C, data := leBytes 8 0x4FFF }]
      let u := s.elapse dt
      let c := u.cp p.val
      let dest := x.id / 256 % 256
      let took (pgn : Nat) : Bool := decide (u.yields (0x4B + p.val) = true ∧ c.supIn = x :: rest ∧ pgnOfId x.id = pgn)
      let room : Bool := decide (u.canOn p.val = true ∧ c.txq = [] ∧ u.hasRoom (0x52 + p.val) = true)
      decide (u.works domSup = true ∧ u.works domCan = true ∧ took 59904 ∧ leNat (x.data.take 3) = 60928 ∧ (dest = 255 ∨ dest =
        c.addr) ∧ (c.addrState = 1 ∨ c.addrState = 2) ∧ room)) &&
     (let s : State := { R0.put [(0x2240,1,0,1),(0x2241,1,0,1),(0x2242,1,0,1),(0x2245,1,0,0x5000)] with
          fc := 1000000000000, now := 1000000000000, twin.role := 0, can := [(1, {
              supIn := [{ ext := true, remote := false, id := 0x18EAFF08, data := leBytes 3 60928 },
              { ext := true, remote := false, id := 0x18EEFF3C, data := leBytes 8 0x4FFF }], addr := 0xFE, addrState := 3 })] }
      let dt : Nat := 0
      let p : Fin 2 := 1
      let x : CanFrame := { ext := true, remote := false, id := 0x18EAFF08, data := leBytes 3 60928 }
      let rest : List CanFrame := [{ ext := true, remote := false, id := 0x18EEFF3C, data := leBytes 8 0x4FFF }]
      let u := s.elapse dt
      let c := u.cp p.val
      let dest := x.id / 256 % 256
      let took (pgn : Nat) : Bool := decide (u.yields (0x4B + p.val) = true ∧ c.supIn = x :: rest ∧ pgnOfId x.id = pgn)
      let room : Bool := decide (u.canOn p.val = true ∧ c.txq = [] ∧ u.hasRoom (0x52 + p.val) = true)
      decide (u.works domSup = true ∧ u.works domCan = true ∧ took 59904 ∧ leNat (x.data.take 3) = 60928 ∧ (dest = 255 ∨ dest =
        c.addr) ∧ c.addrState = 3 ∧ room)) &&
     (let s : State := { R0.put [(0x2240,1,0,1),(0x2241,1,0,1),(0x2242,1,0,1),(0x2245,1,0,0x5000)] with
          fc := 1000000000000, now := 1000000000000, twin.role := 0, can := [(1, {
              supIn := [{ ext := true, remote := false, id := 0x18EAFF08, data := leBytes 3 60928 },
              { ext := true, remote := false, id := 0x18EEFF3C, data := leBytes 8 0x4FFF }], addr := 0x3C, addrState := 0 })] }
      let dt : Nat := 0
      let p : Fin 2 := 1
      let x : CanFrame := { ext := true, remote := false, id := 0x18EAFF08, data := leBytes 3 60928 }
      let rest : List CanFrame := [{ ext := true, remote := false, id := 0x18EEFF3C, data := leBytes 8 0x4FFF }]
      let u := s.elapse dt
      let c := u.cp p.val
      let dest := x.id / 256 % 256
      let took (pgn : Nat) : Bool := decide (u.yields (0x4B + p.val) = true ∧ c.supIn = x :: rest ∧ pgnOfId x.id = pgn)
      decide (u.works domSup = true ∧ u.works domCan = true ∧ took 59904 ∧ leNat (x.data.take 3) = 60928 ∧ (dest = 255 ∨ dest =
        c.addr) ∧ c.addrState = 0)) &&
     (let s : State := { R0.put [(0x2240,1,0,1),(0x2241,1,0,1),(0x2242,1,0,1),(0x2245,1,0,0x5000)] with
          fc := 1000000000000, now := 1000000000000, twin.role := 0, can := [(1, {
              supIn := [{ ext := true, remote := false, id := 0x18EA3C08, data := leBytes 3 126996 },
              { ext := true, remote := false, id := 0x18EEFF3C, data := leBytes 8 0x4FFF }], addr := 0x3C, addrState := 2 })] }
      let dt : Nat := 0
      let p : Fin 2 := 1
      let x : CanFrame := { ext := true, remote := false, id := 0x18EA3C08, data := leBytes 3 126996 }
      let rest : List CanFrame := [{ ext := true, remote := false, id := 0x18EEFF3C, data := leBytes 8 0x4FFF }]
      let u := s.elapse dt
      let c := u.cp p.val
      let dest := x.id / 256 % 256
      let took (pgn : Nat) : Bool := decide (u.yields (0x4B + p.val) = true ∧ c.supIn = x :: rest ∧ pgnOfId x.id = pgn)
      let room : Bool := decide (u.canOn p.val = true ∧ c.txq = [] ∧ u.hasRoom (0x52 + p.val) = true)
      decide (u.works domSup = true ∧ u.works domCan = true ∧ took 59904 ∧ leNat (x.data.take 3) ≠ 60928 ∧ c.addrState = 2 ∧
        dest = c.addr ∧ room)) &&
     (let s : State := { R0.put [(0x2240,1,0,1),(0x2241,1,0,1),(0x2242,1,0,1),(0x2245,1,0,0x5000)] with
          fc := 1000000000000, now := 1000000000000, twin.role := 0, can := [(1, {
              supIn := [{ ext := true, remote := false, id := 0x18EA3B08, data := leBytes 3 126996 },
              { ext := true, remote := false, id := 0x18EEFF3C, data := leBytes 8 0x4FFF }], addr := 0x3C, addrState := 2 })] }
      let dt : Nat := 0
      let p : Fin 2 := 1
      let x : CanFrame := { ext := true, remote := false, id := 0x18EA3B08, data := leBytes 3 126996 }
      let rest : List CanFrame := [{ ext := true, remote := false, id := 0x18EEFF3C, data := leBytes 8 0x4FFF }]
      let u := s.elapse dt
      let c := u.cp p.val
      let dest := x.id / 256 % 256
      let took (pgn : Nat) : Bool := decide (u.yields (0x4B + p.val) = true ∧ c.supIn = x :: rest ∧ pgnOfId x.id = pgn)
      decide (u.works domSup = true ∧ u.works domCan = true ∧ took 59904 ∧ dest ≠ c.addr ∧ dest ≠ 255)) &&
     (let s : State := { R0.put [(0x2240,1,0,1),(0x2241,1,0,1),(0x2242,1,0,1),(0x2245,1,0,0x5000)] with
          fc := 1000000000000, now := 1000000000000, twin.role := 0, can := [(1,
          { addrState := 1, claimAt := some 999999999999 })] }
      let dt : Nat := 0
      let p : Fin 2 := 1
      let u := s.elapse dt
      let c := u.cp p.val
      decide (u.works domSup = true ∧ u.works domCan = true ∧ (c.addrState ≠ 1 ∨ c.claimAt.all (fun t0 => decide (u.fc - t0 <
        msCycles 250)) = true))) &&
     (let s : State := { R0.put [(0x2240,1,0,1),(0x2241,1,0,1),(0x2242,1,0,1),(0x2245,1,0,0x5000)] with
          fc := 1000000000000, now := 1000000000000, twin.role := 0, can := [(1,
          { addrState := 1, tried := 7, claimAt := some 9999999999 })] }
      let dt : Nat := 0
      let p : Fin 2 := 1
      let u := s.elapse dt
      let c := u.cp p.val
      let t0 := 9999999999
      decide (u.works domSup = true ∧ u.works domCan = true ∧ c.addrState = 1 ∧ c.claimAt = some t0 ∧ msCycles 250 ≤ u.fc - t0)) &&
     (let s : State := { R0.put [(0x2240,1,0,1),(0x2241,1,0,1),(0x2242,1,0,1),(0x2245,1,0,0x5000)] with
          fc := 1000000000000, now := 1000000000000, twin.role := 0, can := [(1, {
              fast := [{
                  src := 5, pgn := 129029, seqCtr := 1, next := 2, total := 43, data := [1,2], last := 999999999999, priority :=
                    3, name := some 4 }] })] }
      let dt : Nat := 0
      let p : Fin 2 := 1
      let u := s.elapse dt
      let c := u.cp p.val
      decide (u.works domCardA = true ∧ c.fast.filter (fun a => decide (msCycles 750 < u.fc - a.last)) = [])) &&
     (let s : State := { R0.put [(0x2240,1,0,1),(0x2241,1,0,1),(0x2242,1,0,1),(0x2245,1,0,0x5000)] with
          fc := 1000000000000, now := 1000000000000, twin.role := 0, can := [(1, {
              bam := [{
                  src := 5, pgn := 129029, seqCtr := 1, next := 2, total := 43, data := [1,2], last := 999999999999, priority :=
                    3, name := some 4 }] })] }
      let dt : Nat := 0
      let p : Fin 2 := 1
      let u := s.elapse dt
      let c := u.cp p.val
      decide (u.works domCardA = true ∧ c.bam.filter (fun a => decide (msCycles 750 < u.fc - a.last)) = [])) &&
     (let s : State := { R0.put [(0x2240,1,0,1),(0x2241,1,0,1),(0x2242,1,0,1),(0x2245,1,0,0x5000)] with
          fc := 1000000000000, now := 1000000000000, twin.role := 0, can := [(1, {
              fast := [{
                  src := 5, pgn := 129029, seqCtr := 1, next := 2, total := 43, data := [1,2], last := 999999999999, priority :=
                    3, name := some 4 }, {
                        src := 5, pgn := 129029, seqCtr := 1, next := 2, total := 43, data := [1,2], last := 9999, priority :=
                          3, name := some 4 }], names := [(5,4)] })] }
      let dt : Nat := 0
      let p : Fin 2 := 1
      let u := s.elapse dt
      let c := u.cp p.val
      let a := {
          src := 5, pgn := 129029, seqCtr := 1, next := 2, total := 43, data := [1,2], last := 9999, priority := 3, name := some
            4 }
      decide (u.works domCardA = true ∧ c.fast.filter (fun a => decide (msCycles 750 < u.fc - a.last)) = [a])) &&
     (let s : State := { R0.put [(0x2240,1,0,1),(0x2241,1,0,1),(0x2242,1,0,1),(0x2245,1,0,0x5000)] with
          fc := 1000000000000, now := 1000000000000, twin.role := 0, can := [(1, {
              bam := [{
                  src := 5, pgn := 129029, seqCtr := 1, next := 2, total := 43, data := [1,2], last := 999999999999, priority :=
                    3, name := some 4 }, {
                        src := 5, pgn := 129029, seqCtr := 1, next := 2, total := 43, data := [1,2], last := 9999, priority :=
                          3, name := some 4 }], names := [(5,4)] })] }
      let dt : Nat := 0
      let p : Fin 2 := 1
      let u := s.elapse dt
      let c := u.cp p.val
      let a := {
          src := 5, pgn := 129029, seqCtr := 1, next := 2, total := 43, data := [1,2], last := 9999, priority := 3, name := some
            4 }
      decide (u.works domCardA = true ∧ c.bam.filter (fun a => decide (msCycles 750 < u.fc - a.last)) = [a])))
    = true := by decide +kernel

/-- States that meet the hypotheses of NmtCommandsAndEmcy, clause by clause. -/
theorem witness_NmtCommandsAndEmcy :
    ((let s : State := { R0.put [(0x2240,1,0,1),(0x2241,1,0,1),(0x2242,1,0,0),(0x2260,1,0,5)] with
          fc := 1000000000000, now := 1000000000000, twin.role := 0, can := [(2, {
              supIn := [{ ext := false, remote := false, id := 0, data := [1,5]
                    },{ ext := true, remote := false, id := 166793734, data := [1,2,3,4,5,6,7,8] }], tx :=
                [{ frame := { ext := false, remote := false, id := 0x185, data := [5] }, kind := .sup
                      },{ frame := { ext := false, remote := false, id := 0x185, data := [5] }, kind := .sup
                            },{ frame := { ext := false, remote := false, id := 0x705, data := [5] }, kind := .heartbeat }],
              offeredAt := 1000000000000 })], canOpen.waiting :=
            [{ frame := { ext := false, remote := false, id := 0x185, data := [5] }, kind := .sup
                  },{ frame := { ext := false, remote := false, id := 0x705, data := [5] }, kind := .heartbeat }] }
      let dt : Nat := 0
      let u := s.elapse dt
      decide (u.works domCan = true ∧ (u.works domSup = false ∨ u.canOn 2 = false))) &&
     (let s : State := { R0.put [(0x2240,1,0,1),(0x2241,1,0,1),(0x2242,1,0,1),(0x2260,1,0,5)] with
          fc := 1000000000000, now := 1000000000000, twin.role := 0, can := [(2, {
              supIn := [{ ext := false, remote := false, id := 0, data := [1,5]
                    },{ ext := true, remote := false, id := 166793734, data := [1,2,3,4,5,6,7,8] }], tx :=
                [{ frame := { ext := false, remote := false, id := 0x185, data := [5] }, kind := .sup
                      },{ frame := { ext := false, remote := false, id := 0x185, data := [5] }, kind := .sup
                            },{ frame := { ext := false, remote := false, id := 0x705, data := [5] }, kind := .heartbeat }],
              offeredAt := 1000000000000 })], canOpen.waiting :=
            [{ frame := { ext := false, remote := false, id := 0x185, data := [5] }, kind := .sup
                  },{ frame := { ext := false, remote := false, id := 0x705, data := [5] }, kind := .heartbeat }] }
      let dt : Nat := 0
      let node : Byte := 6
      let u := s.elapse dt
      decide (u.works domCan = true ∧ u.works domSup = true ∧ u.canOn 2 = true ∧ node ≠ 0 ∧ node.toNat ≠ u.nodeId)) &&
     (let s : State := { R0.put [(0x2240,1,0,1),(0x2241,1,0,1),(0x2242,1,0,1),(0x2260,1,0,5),(0x1015,0,0,100)] with
          fc := 1000000000000, now := 1000000000000, twin.role := 0, can := [(2,
          { tx := [{ frame := { ext := false, remote := false, id := 0x185, data := [5] }, kind := .sup }] })], canOpen.emcy :=
            [(1,2,3),(4,5,6)], canOpen.lastEmcy := some 9999999 }
      let dt : Nat := 0
      let node : Byte := 0
      let u := s.elapse dt
      decide (u.works domCan = true ∧ u.works domSup = true ∧ u.canOn 2 = true ∧ (node = 0 ∨ node.toNat = u.nodeId))) &&
     (let s : State := { R0.put [(0x2240,1,0,1),(0x2241,1,0,1),(0x2242,1,0,1),(0x2260,1,0,5)] with
          fc := 1000000000000, now := 1000000000000, twin.role := 0, can := [(2, {
              supIn := [{ ext := false, remote := false, id := 0, data := [1,5]
                    },{ ext := true, remote := false, id := 166793734, data := [1,2,3,4,5,6,7,8] }], tx :=
                [{ frame := { ext := false, remote := false, id := 0x185, data := [5] }, kind := .sup
                      },{ frame := { ext := false, remote := false, id := 0x185, data := [5] }, kind := .sup
                            },{ frame := { ext := false, remote := false, id := 0x705, data := [5] }, kind := .heartbeat }],
              offeredAt := 1000000000000 })], canOpen.waiting :=
            [{ frame := { ext := false, remote := false, id := 0x185, data := [5] }, kind := .sup
                  },{ frame := { ext := false, remote := false, id := 0x705, data := [5] }, kind := .heartbeat }] }
      let dt : Nat := 0
      let node : Byte := 5
      let u := s.elapse dt
      decide (u.works domCan = true ∧ u.works domSup = true ∧ u.canOn 2 = true ∧ (node = 0 ∨ node.toNat = u.nodeId))) &&
     (let s : State := { R0.put [(0x2240,1,0,1),(0x2241,1,0,1),(0x2242,1,0,1),(0x2260,1,0,5)] with
          fc := 1000000000000, now := 1000000000000, twin.role := 0, can := [(2, {
              supIn := [{ ext := false, remote := false, id := 0, data := [1,5]
                    },{ ext := true, remote := false, id := 166793734, data := [1,2,3,4,5,6,7,8] }], tx :=
                [{ frame := { ext := false, remote := false, id := 0x185, data := [5] }, kind := .sup
                      },{ frame := { ext := false, remote := false, id := 0x185, data := [5] }, kind := .sup
                            },{ frame := { ext := false, remote := false, id := 0x705, data := [5] }, kind := .heartbeat }],
              offeredAt := 1000000000000 })], canOpen.waiting :=
            [{ frame := { ext := false, remote := false, id := 0x185, data := [5] }, kind := .sup
                  },{ frame := { ext := false, remote := false, id := 0x705, data := [5] }, kind := .heartbeat }] }
      let dt : Nat := 0
      let u := s.elapse dt
      let co := u.canOpen
      decide (u.works domCan = true ∧ u.works domSup = true ∧ u.canOn 2 = true ∧ (co.emcy = [] ∨ u.emcyFree = false ∨ (co.nmt ≠
        127 ∧ co.nmt ≠ 5)))) &&
     (let s : State := { R0.put [(0x2240,1,0,1),(0x2241,1,0,1),(0x2242,1,0,1),(0x2260,1,0,5),(0x1015,0,0,100)] with
          fc := 1000000000000, now := 1000000000000, twin.role := 0, can := [(2,
          { tx := [{ frame := { ext := false, remote := false, id := 0x185, data := [5] }, kind := .sup }] })], canOpen.emcy :=
            [(1,2,3),(4,5,6)], canOpen.lastEmcy := some 9999999 }
      let dt : Nat := 0
      let e : Nat × Nat × Nat := (1,2,3)
      let rest : List (Nat × Nat × Nat) := [(4,5,6)]
      let u := s.elapse dt
      let co := u.canOpen
      decide (u.works domCan = true ∧ u.works domSup = true ∧ u.canOn 2 = true ∧ co.emcy = e :: rest ∧ u.emcyFree = true ∧
        (co.nmt = 127 ∨ co.nmt = 5))))
    = true := by decide +kernel

set_option maxRecDepth 100000 in
/-- States that meet the hypotheses of SdoTransfers, clause by clause. -/
theorem witness_SdoTransfers :
    ((let s : State := R0
      let dt : Nat := 0
      let w := s.elapse dt
      decide (w.serves = true)) &&
     (let s : State := R0.doms [(7,0)]
      let dt : Nat := 0
      let w := s.elapse dt
      decide (w.serves = false)) &&
     (let s : State := { R0.put [(0x2240,1,0,1),(0x2241,1,0,1),(0x2242,1,0,1),(0x2260,1,0,5),(0x2242,1,0,1)] with
          fc := 1000000000000, now := 1000000000000, twin.role := 0, can := [(2, { tx := [] })], boot.supRunning := true,
          dict.transfer := none, dict.clients := [], canOpen.nmt := 4 }
      let dt : Nat := 0
      let u := (s.elapse dt).takeSdo
      decide (u.sdoOn = false)) &&
     (let s : State := { R0.put [(0x2240,1,0,1),(0x2241,1,0,1),(0x2242,1,0,1),(0x2260,1,0,5),(0x2242,1,0,1)] with
          fc := 1000000000000, now := 1000000000000, twin.role := 0, can := [(2, { tx := [] })], boot.supRunning := true,
          dict.transfer := some
            { index := 0x2101, sub := 3, upload := false, data := [1], toggle := true, last := 999999999999 }, dict.clients :=
            [(0, { id := .sdo, last := 0 })] }
      let dt : Nat := 0
      let toggle : Bool := false
      let x : Transfer := { index := 0x2101, sub := 3, upload := false, data := [1], toggle := true, last := 999999999999 }
      let u := (s.elapse dt).takeSdo
      decide (u.sdoOn = true ∧ u.dict.transfer = some x ∧ x.upload = false ∧ x.toggle ≠ toggle)) &&
     (let s : State := { R0.put [(0x2240,1,0,1),(0x2241,1,0,1),(0x2242,1,0,1),(0x2260,1,0,5),(0x2242,1,0,1)] with
          fc := 1000000000000, now := 1000000000000, twin.role := 0, can := [(2, { tx := [] })], boot.supRunning := true,
          dict.transfer := some
            { index := 0x2101, sub := 3, upload := false, data := [1], toggle := true, last := 999999999999 }, dict.clients :=
            [(0, { id := .sdo, last := 0 })] }
      let dt : Nat := 0
      let toggle : Bool := true
      let last : Bool := false
      let data : List Byte := [1,2]
      let x : Transfer := { index := 0x2101, sub := 3, upload := false, data := [1], toggle := true, last := 999999999999 }
      let u := (s.elapse dt).takeSdo
      let fine := segmentWellFormed data
      let b7 : List Byte := if fine then data else leBytes 7 s.freeNat
      decide (u.sdoOn = true ∧ u.dict.transfer = some x ∧ x.upload = false ∧ x.toggle = toggle ∧ (x.data ++ b7).length ≤ 4096 ∧
        last = false)) &&
     (let s : State := { R0.put [(0x2240,1,0,1),(0x2241,1,0,1),(0x2242,1,0,1),(0x2260,1,0,5),(0x2242,1,0,1)] with
          fc := 1000000000000, now := 1000000000000, twin.role := 0, can := [(2, { tx := [] })], boot.supRunning := true,
          dict.transfer := some
            { index := 0x2101, sub := 3, upload := false, data := [], toggle := true, last := 999999999999 }, dict.clients :=
            [(0, { id := .sdo, last := 0 })] }
      let dt : Nat := 0
      let toggle : Bool := true
      let last : Bool := true
      let data : List Byte := [7]
      let x : Transfer := { index := 0x2101, sub := 3, upload := false, data := [], toggle := true, last := 999999999999 }
      let u := (s.elapse dt).takeSdo
      let fine := segmentWellFormed data
      let b7 : List Byte := if fine then data else leBytes 7 s.freeNat
      decide (u.sdoOn = true ∧ u.dict.transfer = some x ∧ x.upload = false ∧ x.toggle = toggle ∧ (x.data ++ b7).length ≤ 4096 ∧
        last = true)) &&
     (let s : State := { R0.put [(0x2240,1,0,1),(0x2241,1,0,1),(0x2242,1,0,1),(0x2260,1,0,5),(0x2242,1,0,1)] with
          fc := 1000000000000, now := 1000000000000, twin.role := 0, can := [(2, { tx := [] })], boot.supRunning := true,
          dict.transfer := some
            { index := 0x2101, sub := 3, upload := false, data := List.replicate 4094 3, toggle := true, last := 999999999999 },
          dict.clients := [(0, { id := .sdo, last := 0 })] }
      let dt : Nat := 0
      let toggle : Bool := true
      let data : List Byte := [1,2,3]
      let x : Transfer :=
        { index := 0x2101, sub := 3, upload := false, data := List.replicate 4094 3, toggle := true, last := 999999999999 }
      let u := (s.elapse dt).takeSdo
      let fine := segmentWellFormed data
      let b7 : List Byte := if fine then data else leBytes 7 s.freeNat
      decide (u.sdoOn = true ∧ u.dict.transfer = some x ∧ x.upload = false ∧ x.toggle = toggle ∧ 4096 < (x.data ++ b7).length)) &&
     (let s : State := { R0.put [(0x2240,1,0,1),(0x2241,1,0,1),(0x2242,1,0,1),(0x2260,1,0,5),(0x2242,1,0,1)] with
          fc := 1000000000000, now := 1000000000000, twin.role := 0, can := [(2, { tx := [] })], boot.supRunning := true,
          dict.transfer := none, dict.clients := [(0, { id := .sdo, last := 0 })] }
      let dt : Nat := 0
      let n : Nat := 0
      let index : BitVec 16 := 0x2101
      let sub : Byte := 2
      let d : List Byte := leBytes 2 960
      let u := (s.elapse dt).takeSdo
      let v : State := { u with dict := { u.dict with transfer := none } }
      decide (u.sdoOn = true ∧ admitted .sdo n index.toNat v ∧ ((v.accessed .sdo n).readObj n index.toNat sub.toNat 4096 []).1 =
        .done d)) &&
     (let s : State := R0
      let dt : Nat := 0
      let u := (s.elapse dt).takeSdo
      decide (u.sdoOn = true ∧ u.dict.transfer = none)) &&
     (let s : State := { R0.put [(0x2240,1,0,1),(0x2241,1,0,1),(0x2242,1,0,1),(0x2260,1,0,5),(0x2242,1,0,1)] with
          fc := 1000000000000, now := 1000000000000, twin.role := 0, can := [(2, { tx := [] })], boot.supRunning := true,
          dict.transfer := some
            { index := 0x2101, sub := 3, upload := true, data := [1,2,3,4,5,6,7,8], toggle := true, last := 999999999999 },
          dict.clients := [(0, { id := .sdo, last := 0 })] }
      let dt : Nat := 0
      let toggle : Bool := true
      let x : Transfer :=
        { index := 0x2101, sub := 3, upload := true, data := [1,2,3,4,5,6,7,8], toggle := true, last := 999999999999 }
      let u := (s.elapse dt).takeSdo
      decide (u.sdoOn = true ∧ u.dict.transfer = some x ∧ x.upload = true ∧ x.toggle = toggle)) &&
     (let s : State := R0
      let dt : Nat := 0
      let w := s.elapse dt
      decide ((w.dict.transfer = none ∨ w.sdoOn = false))) &&
     (let s : State := { R0.put [(0x2240,1,0,1),(0x2241,1,0,1),(0x2242,1,0,1),(0x2260,1,0,5),(0x2242,1,0,1)] with
          fc := 1000000000000, now := 1000000000000, twin.role := 0, can := [(2, { tx := [] })], boot.supRunning := true,
          dict.transfer := some
            { index := 0x2101, sub := 3, upload := false, data := [1], toggle := true, last := 999999999999 }, dict.clients :=
            [(0, { id := .sdo, last := 0 })] }
      let dt : Nat := 0
      let x : Transfer := { index := 0x2101, sub := 3, upload := false, data := [1], toggle := true, last := 999999999999 }
      let w := s.elapse dt
      decide (w.dict.transfer = some x ∧ w.sdoOn = true ∧ w.now < x.last + cyclesPerSec)) &&
     (let s : State := { R0.put [(0x2240,1,0,1),(0x2241,1,0,1),(0x2242,1,0,1),(0x2260,1,0,5),(0x2242,1,0,1)] with
          fc := 1000000000000, now := 1000000000000, twin.role := 0, can := [(2, { tx := [] })], boot.supRunning := true,
          dict.transfer := some
            { index := 0x2101, sub := 3, upload := true, data := [1,2,3,4,5,6,7,8], toggle := true, last := 5 }, dict.clients :=
            [(0, { id := .sdo, last := 0 })] }
      let dt : Nat := 0
      let x : Transfer := { index := 0x2101, sub := 3, upload := true, data := [1,2,3,4,5,6,7,8], toggle := true, last := 5 }
      let w := s.elapse dt
      decide (w.dict.transfer = some x ∧ w.sdoOn = true ∧ x.last + cyclesPerSec ≤ w.now)))
    = true := by decide +kernel

/-- States that meet the hypotheses of FabricFaults, clause by clause. -/
theorem witness_FabricFaults :
    ((let s : State := { R0.put [] with fc := 1000000000000, now := 1000000000000, twin.role := 0, boot.supRunning := true }
      let dt : Nat := 0
      let q : Fin 512 := 3
      let u := s.elapse dt
      decide (u.works domFabric = true ∧ ((u.que q.val).since = none ∨ u.visible q.val = 0 ∨ watchedQueue q.val = false))) &&
     (let s : State := { R0.put [] with
          fc := 1000000000000, now := 1000000000000, twin.role := 0, boot.supRunning := true, fabric.queues := [(3,
          { since := some 999999999999 })] }
      let dt : Nat := 0
      let t0 : Nat := 999999999999
      let q : Fin 512 := 3
      let u := s.elapse dt
      let limit := msCycles (u.cn 0x5818 8 q.val)
      decide (u.works domFabric = true ∧ (u.que q.val).since = some t0 ∧ u.fc - t0 < limit)) &&
     (let s : State := { R0.put [] with
          fc := 1000000000000, now := 1000000000000, twin.role := 0, boot.supRunning := true, fabric.queues := [(3,
          { since := some 5 })], serial := [(3, { rx := [{ data := 0x41, pip := {}, states := 0 }] })] }
      let dt : Nat := 0
      let p : Nat := 10
      let c : Nat := 3
      let t0 : Nat := 5
      let q : Fin 512 := 3
      let u := s.elapse dt
      let limit := msCycles (u.cn 0x5818 8 q.val)
      decide (u.works domFabric = true ∧ (u.que q.val).since = some t0 ∧ limit ≤ u.fc - t0 ∧ queueEnds q.val = some (p, c) ∧ 3 ≤
        c ∧ c ≤ 6 ∧ u.up c = true ∧ u.visible q.val ≠ 0 ∧ u.creditFor q.val = true)) &&
     (let s : State := { R0.put [] with fc := 1000000000000, now := 1000000000000, twin.role := 0, boot.supRunning := true }
      let dt : Nat := 0
      let a : BitVec 24 := 0x30001
      let u := s.elapse dt
      let due : Bool := decide (a.toNat / 16 = u.fabric.scrubAt ∧ (u.fabric.scrubAt = 0 → ∀ b, u.fabric.scrubFrom = some b →
        u.cn 0x5810 6 0 * cyclesPerSec ≤ u.fc - b))
      decide (u.works domFabric = true ∧ ¬ due)) &&
     (let s : State := { R0.put [] with
          fc := 1000000000000, now := 1000000000000, twin.role := 0, boot.supRunning := true, fabric.scrubAt := 1048575 }
      let dt : Nat := 0
      let a : BitVec 24 := 0xFFFFF0
      let u := s.elapse dt
      let due : Bool := decide (a.toNat / 16 = u.fabric.scrubAt ∧ (u.fabric.scrubAt = 0 → ∀ b, u.fabric.scrubFrom = some b →
        u.cn 0x5810 6 0 * cyclesPerSec ≤ u.fc - b))
      decide (u.works domFabric = true ∧ due)) &&
     (let s : State := { R0.put [] with fc := 1000000000000, now := 1000000000000, twin.role := 0, boot.supRunning := true }
      let dt : Nat := 0
      let a : BitVec 24 := 0
      let u := s.elapse dt
      let due : Bool := decide (a.toNat / 16 = u.fabric.scrubAt ∧ (u.fabric.scrubAt = 0 → ∀ b, u.fabric.scrubFrom = some b →
        u.cn 0x5810 6 0 * cyclesPerSec ≤ u.fc - b))
      decide (u.works domFabric = true ∧ due)) &&
     (let s : State := { R0.put [] with
          fc := 1000000000000, now := 1000000000000, twin.role := 0, boot.supRunning := true, fabric.scrubAt := 3 }
      let dt : Nat := 0
      let a : BitVec 24 := 0x35
      let u := s.elapse dt
      let due : Bool := decide (a.toNat / 16 = u.fabric.scrubAt ∧ (u.fabric.scrubAt = 0 → ∀ b, u.fabric.scrubFrom = some b →
        u.cn 0x5810 6 0 * cyclesPerSec ≤ u.fc - b))
      decide (u.works domFabric = true ∧ due)))
    = true := by decide +kernel

/-- States that meet the hypotheses of RealignmentInFourPhases, clause by clause. -/
theorem witness_RealignmentInFourPhases :
    ((let s : State := { R0.put [] with
          fc := 1000000000000, now := 1000000000000, twin.role := 0, boot.supRunning := true, fabric.queues := [(3,
          { wasReset := some .consumer })], serial := [(3,
          { rx := [{ data := 0x41, pip := {}, states := 0 },{ data := 0x42, pip := {}, states := 0 }] })] }
      let dt : Nat := 0
      let q : Fin 512 := 3
      let side : Side := .consumer
      let u := s.elapse dt
      let x := u.que q.val
      decide (u.works domFabric = true ∧ x.wasReset = some side ∧ x.phase = 0 ∧ u.sideRuns q.val side = true)) &&
     (let s : State := { R0.put [] with
          fc := 1000000000000, now := 1000000000000, twin.role := 0, boot.supRunning := true, fabric.queues := [(3,
          { wasReset := some .consumer, both := true })], serial := [(3,
          { rx := [{ data := 0x41, pip := {}, states := 0 },{ data := 0x42, pip := {}, states := 0 }] })] }
      let dt : Nat := 0
      let q : Fin 512 := 3
      let side : Side := .producer
      let u := s.elapse dt
      let x := u.que q.val
      decide (u.works domFabric = true ∧ x.wasReset = some (otherSide side) ∧ x.both = true ∧ x.phase = 0 ∧ u.sideRuns q.val
        side = true)) &&
     (let s : State := { R0.put [] with
          fc := 1000000000000, now := 1000000000000, twin.role := 0, boot.supRunning := true, fabric.queues := [(3, { })],
          serial := [(3, { rx := [{ data := 0x41, pip := {}, states := 0 },{ data := 0x42, pip := {}, states := 0 }] })] }
      let dt : Nat := 0
      let q : Fin 512 := 3
      let side : Side := .consumer
      let u := s.elapse dt
      let x := u.que q.val
      decide (u.works domFabric = true ∧ (x.wasReset = none ∨ (x.wasReset = some (otherSide side) ∧ x.both = false) ∨ x.phase ≠
        0 ∨ u.sideRuns q.val side = false))) &&
     (let s : State := { R0.put [] with
          fc := 1000000000000, now := 1000000000000, twin.role := 0, boot.supRunning := true, fabric.queues := [(3, { })],
          serial := [(3, { rx := [{ data := 0x41, pip := {}, states := 0 },{ data := 0x42, pip := {}, states := 0 }] })] }
      let dt : Nat := 0
      let q : Fin 512 := 3
      let u := s.elapse dt
      let x := u.que q.val
      decide (u.works domFabric = true ∧ x.wasReset = none)) &&
     (let s : State := { R0.put [] with
          fc := 1000000000000, now := 1000000000000, twin.role := 0, boot.supRunning := true, fabric.queues := [(3,
          { wasReset := some .consumer, phase := 1 })], serial := [(3,
          { rx := [{ data := 0x41, pip := {}, states := 0 },{ data := 0x42, pip := {}, states := 0 }] })] }
      let dt : Nat := 0
      let q : Fin 512 := 3
      let side : Side := .consumer
      let u := s.elapse dt
      let x := u.que q.val
      decide (u.works domFabric = true ∧ x.wasReset = some side ∧ x.phase = 1 ∧ u.sideRuns q.val (otherSide side) = true)) &&
     (let s : State := { R0.put [] with
          fc := 1000000000000, now := 1000000000000, twin.role := 0, boot.supRunning := true, fabric.queues := [(3,
          { wasReset := some .producer, phase := 2 })], serial := [(3,
          { rx := [{ data := 0x41, pip := {}, states := 0 },{ data := 0x42, pip := {}, states := 0 }] })] }
      let dt : Nat := 0
      let q : Fin 512 := 3
      let side : Side := .producer
      let u := s.elapse dt
      let x := u.que q.val
      decide (u.works domFabric = true ∧ x.wasReset = some side ∧ x.phase ≠ 1)) &&
     (let s : State := { R0.put [] with
          fc := 1000000000000, now := 1000000000000, twin.role := 0, boot.supRunning := true, fabric.queues := [(3,
          { wasReset := some .producer, phase := 2 })], serial := [(3,
          { rx := [{ data := 0x41, pip := {}, states := 0 },{ data := 0x42, pip := {}, states := 0 }] })] }
      let dt : Nat := 0
      let q : Fin 512 := 3
      let side : Side := .producer
      let u := s.elapse dt
      let x := u.que q.val
      decide (u.works domFabric = true ∧ x.wasReset = some side ∧ x.phase = 2 ∧ u.sideRuns q.val side = true ∧ side = .producer)) &&
     (let s : State := { R0.put [] with
          fc := 1000000000000, now := 1000000000000, twin.role := 0, boot.supRunning := true, fabric.queues := [(3,
          { wasReset := some .consumer, phase := 2, presented := 1 })], serial := [(3,
          { rx := [{ data := 0x41, pip := {}, states := 0 },{ data := 0x42, pip := {}, states := 0 }] })] }
      let dt : Nat := 0
      let q : Fin 512 := 3
      let side : Side := .consumer
      let u := s.elapse dt
      let x := u.que q.val
      decide (u.works domFabric = true ∧ x.wasReset = some side ∧ x.phase = 2 ∧ u.sideRuns q.val side = true ∧ side = .consumer
        ∧ q.val ≤ 0x17 ∧ x.presented ≠ 0)) &&
     (let s : State := { R0.put [] with
          fc := 1000000000000, now := 1000000000000, twin.role := 0, boot.supRunning := true, fabric.queues := [(3,
          { wasReset := some .consumer, phase := 3 })], serial := [(3,
          { rx := [{ data := 0x41, pip := {}, states := 0 },{ data := 0x42, pip := {}, states := 0 }] })] }
      let dt : Nat := 0
      let q : Fin 512 := 3
      let side : Side := .consumer
      let u := s.elapse dt
      let x := u.que q.val
      decide (u.works domFabric = true ∧ x.wasReset = some side ∧ x.phase ≠ 2)) &&
     (let s : State := { R0.put [] with
          fc := 1000000000000, now := 1000000000000, twin.role := 0, boot.supRunning := true, fabric.queues := [(3,
          { wasReset := some .consumer, phase := 3 })], serial := [(3,
          { rx := [{ data := 0x41, pip := {}, states := 0 },{ data := 0x42, pip := {}, states := 0 }] })] }
      let dt : Nat := 0
      let q : Fin 512 := 3
      let side : Side := .consumer
      let u := s.elapse dt
      let x := u.que q.val
      decide (u.works domFabric = true ∧ x.wasReset = some side ∧ x.phase = 3 ∧ u.sideRuns q.val side = true ∧ u.sideRuns q.val
        (otherSide side) = true)) &&
     (let s : State := { R0.put [] with
          fc := 1000000000000, now := 1000000000000, twin.role := 0, boot.supRunning := true, fabric.queues := [(3,
          { wasReset := some .consumer })], serial := [(3,
          { rx := [{ data := 0x41, pip := {}, states := 0 },{ data := 0x42, pip := {}, states := 0 }] })] }
      let dt : Nat := 0
      let q : Fin 512 := 3
      let side : Side := .consumer
      let u := s.elapse dt
      let x := u.que q.val
      decide (u.works domFabric = true ∧ x.wasReset = some side ∧ x.phase ≠ 3)))
    = true := by decide +kernel

/-- States that meet the hypotheses of JournalRecordsAndFlushes, clause by clause. -/
theorem witness_JournalRecordsAndFlushes :
    ((let s : State := { R0.put [] with
          fabric.queues := [(0x81, { wasReset := some .consumer })], fc := 1000000000000, now := 1000000000000, twin.role := 0,
          boot.supRunning := true, journal.inbox := [({ source := 3 },1,7),({ source := 4 },2,8)], journal.state := 4 }
      let dt : Nat := 0
      let u := s.elapse dt
      decide (u.works domDram = true ∧ u.yields 0x81 = false)) &&
     (let s : State := { R0.put [] with
          fc := 1000000000000, now := 1000000000000, twin.role := 0, boot.supRunning := true, journal.state := 1, appts.line :=
            [{ row := 6, consumer := 0x0203, due := 1, dueCycle := 0, dueTime := 0, late := false, slot := 0
                  },{ row := 5, consumer := 0x0700, due := 1, dueCycle := 0, dueTime := 0, late := false, slot := 0 }] }
      let dt : Nat := 0
      let u := s.elapse dt
      decide (u.works domDram = true ∧ u.yields 0x81 = true ∧ u.journal.inbox = [])) &&
     (let s : State := { R0.put [] with
          fc := 1000000000000, now := 1000000000000, twin.role := 0, boot.supRunning := true, journal.inbox :=
            [({ source := 3 },1,7),({ source := 4 },2,8)], journal.state := 4 }
      let dt : Nat := 0
      let cls : Nat := 1
      let dseq : Nat := 7
      let r : FibreRecord := { source := 3 }
      let rest : List (FibreRecord × Nat × Nat) := [({ source := 4 },2,8)]
      let u := s.elapse dt
      decide (u.works domDram = true ∧ u.yields 0x81 = true ∧ u.journal.inbox = (r, cls, dseq) :: rest ∧ (u.journal.state = 0 ∨
        u.journal.state = 4))) &&
     (let s : State := { R0.put [(0x3800,2,0,0)] with
          fc := 1000000000000, now := 1000000000000, twin.role := 0, boot.supRunning := true, journal.inbox :=
            [({ source := 3 },1,7),({ source := 4 },2,8)], journal.state := 3, journal.ring :=
            [{ rcd := { type := 1, cls := 1, seq := 4, dseq := 7, taken := 9, body := [1,2] }, page := none }] }
      let dt : Nat := 0
      let cls : Nat := 1
      let dseq : Nat := 7
      let r : FibreRecord := { source := 3 }
      let rest : List (FibreRecord × Nat × Nat) := [({ source := 4 },2,8)]
      let u := s.elapse dt
      let need := 32 + (journalBody r).length
      decide (u.works domDram = true ∧ u.yields 0x81 = true ∧ u.journal.inbox = (r, cls, dseq) :: rest ∧ u.journal.state ≠ 0 ∧
        u.journal.state ≠ 4 ∧ u.cn 0x3800 2 0 * 2 ^ 20 < ringBytes (u.roomFor need) + need)) &&
     (let s : State := { R0.put [(0x3800,2,0,16)] with
          fc := 1000000000000, now := 1000000000000, twin.role := 0, boot.supRunning := true, journal.inbox :=
            [({ source := 3 },1,7),({ source := 4 },2,8)], journal.state := 3, journal.ring :=
            [{ rcd := { type := 1, cls := 1, seq := 4, dseq := 7, taken := 9, body := [1,2] }, page := none }] }
      let dt : Nat := 0
      let cls : Nat := 1
      let dseq : Nat := 7
      let r : FibreRecord := { source := 3 }
      let rest : List (FibreRecord × Nat × Nat) := [({ source := 4 },2,8)]
      let u := s.elapse dt
      let need := 32 + (journalBody r).length
      decide (u.works domDram = true ∧ u.yields 0x81 = true ∧ u.journal.inbox = (r, cls, dseq) :: rest ∧ u.journal.state ≠ 0 ∧
        u.journal.state ≠ 4 ∧ ringBytes (u.roomFor need) + need ≤ u.cn 0x3800 2 0 * 2 ^ 20)) &&
     (let s : State := { R0.put [] with
          fc := 1000000000000, now := 1000000000000, twin.role := 0, boot.supRunning := true, journal.state := 1, appts.line :=
            [{ row := 6, consumer := 0x0203, due := 1, dueCycle := 0, dueTime := 0, late := false, slot := 0
                  },{ row := 5, consumer := 0x0700, due := 1, dueCycle := 0, dueTime := 0, late := false, slot := 0 }] }
      let dt : Nat := 0
      let d : Dispatch := { row := 5, consumer := 0x0700, due := 1, dueCycle := 0, dueTime := 0, late := false, slot := 0 }
      let line : List Dispatch :=
        [{ row := 6, consumer := 0x0203, due := 1, dueCycle := 0, dueTime := 0, late := false, slot := 0 }]
      let u := s.elapse dt
      decide (u.works domFabric = true ∧ u.works domDram = true ∧ takeDispatch u.fc 0x0700 u.appts.line = some (d, line) ∧
        u.recording = false)) &&
     (let s : State := { R0.put [] with
          fc := 1000000000000, now := 1000000000000, twin.role := 0, boot.supRunning := true, journal.state := 3,
          journal.nextSeq := 9, journal.ring :=
            [{ rcd := { type := 1, cls := 1, seq := 4, dseq := 7, taken := 9, body := [1,2] }, page := none }], appts.line :=
            [{ row := 6, consumer := 0x0203, due := 1, dueCycle := 0, dueTime := 0, late := false, slot := 0
                  },{ row := 5, consumer := 0x0700, due := 1, dueCycle := 0, dueTime := 0, late := false, slot := 0 }] }
      let dt : Nat := 0
      let d : Dispatch := { row := 5, consumer := 0x0700, due := 1, dueCycle := 0, dueTime := 0, late := false, slot := 0 }
      let line : List Dispatch :=
        [{ row := 6, consumer := 0x0203, due := 1, dueCycle := 0, dueTime := 0, late := false, slot := 0 }]
      let u := s.elapse dt
      decide (u.works domFabric = true ∧ u.works domDram = true ∧ takeDispatch u.fc 0x0700 u.appts.line = some (d, line) ∧
        u.recording = true)) &&
     (let s : State := { R0.put [] with
          fc := 1000000000000, now := 1000000000000, twin.role := 0, boot.supRunning := true, journal.inbox :=
            [({ source := 3 },1,7),({ source := 4 },2,8)], journal.state := 4 }
      let dt : Nat := 0
      let u := s.elapse dt
      decide (u.works domSup = true ∧ u.works domDram = true ∧ u.recording = false)) &&
     (let s : State := { R0.put [] with
          fc := 1000000000000, now := 1000000000000, twin.role := 0, boot.supRunning := true, journal.state := 3,
          journal.pageSize := 4096, journal.blocks := 64, journal.ring :=
            [{ rcd := { type := 1, cls := 1, seq := 4, dseq := 7, taken := 9, body := [1,2] }, page := none }], journal.nand :=
            [{ seq := 1, block := 2, recs := [] }, { seq := 2, block := 3, recs := [] }], journal.programming := some
            [{ type := 1, cls := 1, seq := 4, dseq := 7, taken := 9, body := [1,2] }] }
      let dt : Nat := 0
      let u := s.elapse dt
      decide (u.works domSup = true ∧ u.works domDram = true ∧ u.recording = true)) &&
     (let s : State := { R0.put [] with
          fc := 1000000000000, now := 1000000000000, twin.role := 0, boot.supRunning := true, journal.inbox :=
            [({ source := 3 },1,7),({ source := 4 },2,8)], journal.state := 4 }
      let dt : Nat := 0
      let u := s.elapse dt
      decide (u.works domDram = true ∧ u.journal.programming = none)) &&
     (let s : State := { R0.put [] with
          fc := 1000000000000, now := 1000000000000, twin.role := 0, boot.supRunning := true, journal.state := 3, journal.nand
            := [{ seq := 1, block := 2, recs := [] }, { seq := 2, block := 3, recs := [] }] }
      let dt : Nat := 0
      let u := s.elapse dt
      decide (u.works domDram = true ∧ u.journal.programming = none)) &&
     (let s : State := { R0.put [] with
          fc := 1000000000000, now := 1000000000000, twin.role := 0, boot.supRunning := true, journal.state := 3,
          journal.pageSize := 4096, journal.blocks := 64, journal.ring :=
            [{ rcd := { type := 1, cls := 1, seq := 4, dseq := 7, taken := 9, body := [1,2] }, page := none }], journal.nand :=
            [{ seq := 1, block := 2, recs := [] }, { seq := 2, block := 3, recs := [] }], journal.programming := some
            [{ type := 1, cls := 1, seq := 4, dseq := 7, taken := 9, body := [1,2] }] }
      let dt : Nat := 0
      let recs : List JRecord := [{ type := 1, cls := 1, seq := 4, dseq := 7, taken := 9, body := [1,2] }]
      let u := s.elapse dt
      decide (u.works domDram = true ∧ u.journal.programming = some recs ∧ u.journal.pageInBlock + 1 < 64)) &&
     (let s : State := { R0.put [] with
          fc := 1000000000000, now := 1000000000000, twin.role := 0, boot.supRunning := true, journal.inbox :=
            [({ source := 3 },1,7),({ source := 4 },2,8)], journal.state := 4 }
      let dt : Nat := 0
      let u := s.elapse dt
      decide (u.works domDram = true ∧ u.journal.erasing = none)) &&
     (let s : State := State.reset
      let dt : Nat := 0
      let u := s.elapse dt
      decide (u.works domDram = true ∧ u.journal.erasing = none)) &&
     (let s : State := { R0.put [] with
          fc := 1000000000000, now := 1000000000000, twin.role := 0, boot.supRunning := true, journal.state := 3, journal.blocks
            := 64, journal.nand := [{ seq := 1, block := 2, recs := [] }, { seq := 2, block := 3, recs := [] }], journal.erasing
            := some 2 }
      let dt : Nat := 0
      let b : Nat := 2
      let u := s.elapse dt
      decide (u.works domDram = true ∧ u.journal.erasing = some b)))
    = true := by decide +kernel

/-- States that meet the hypotheses of JournalDevice, clause by clause. -/
theorem witness_JournalDevice :
    ((let s : State := { R0.put [] with
          fc := 1000000000000, now := 1000000000000, twin.role := 0, boot.supRunning := true, journal.state := 1 }
      let dt : Nat := 0
      let op : NandOp := .program
      let u := s.elapse dt
      let j := u.journal
      decide (u.works domDram = true ∧ (j.state = 0 ∨ j.state = 6 ∨ j.state = 7 ∨ u.nandLate op = false))) &&
     (let s : State := { R0.put [] with
          fc := 1000000000000, now := 1000000000000, twin.role := 0, boot.supRunning := true, journal.state := 3,
          journal.timeouts := 2, journal.programming := some [] }
      let dt : Nat := 0
      let op : NandOp := .program
      let u := s.elapse dt
      let j := u.journal
      decide (u.works domDram = true ∧ j.state ≠ 0 ∧ j.state ≠ 6 ∧ j.state ≠ 7 ∧ u.nandLate op = true ∧ 2 ≤ j.timeouts)) &&
     (let s : State := { R0.put [] with
          fc := 1000000000000, now := 1000000000000, twin.role := 0, boot.supRunning := true, journal.state := 3,
          journal.timeouts := 1, journal.programming := some [] }
      let dt : Nat := 0
      let b : Nat := 0
      let u := s.elapse dt
      let j := u.journal
      decide (u.works domDram = true ∧ j.state ≠ 0 ∧ j.state ≠ 6 ∧ j.state ≠ 7 ∧ j.timeouts < 2 ∧ (b < 2 ∨ j.blocks ≤ b ∨ b ∈
        j.bad))) &&
     (let s : State := { R0.put [] with
          fc := 1000000000000, now := 1000000000000, twin.role := 0, boot.supRunning := true, journal.state := 3, journal.blocks
            := 64, journal.timeouts := 1, journal.programming := some [] }
      let dt : Nat := 0
      let b : Nat := 5
      let u := s.elapse dt
      let j := u.journal
      decide (u.works domDram = true ∧ j.state ≠ 0 ∧ j.state ≠ 6 ∧ j.state ≠ 7 ∧ j.timeouts < 2 ∧ 2 ≤ b ∧ b < j.blocks ∧ b ∉
        j.bad)) &&
     (let s : State := { R0.put [] with
          fc := 1000000000000, now := 1000000000000, twin.role := 0, boot.supRunning := true, journal.state := 3 }
      let dt : Nat := 0
      let f : MountFound := {
          answered := true, tableValid := true, capacity := 134217728, pageSize := 4096, blocks := 512, bad := [5], retired :=
            0, tableGen := 3, formatId := 9, pages :=
            [{ seq := 1, block := 2, recs := [{ type := 1, cls := 1, seq := 4, dseq := 7, taken := 9, body := [1,2] }] }] }
      let u := s.elapse dt
      let j := u.journal
      decide (u.works domDram = true ∧ j.state ≠ 1 ∧ (f.answered = true ∨ j.state < 3 ∨ 5 < j.state))) &&
     (let s : State := { R0.put [] with
          fc := 1000000000000, now := 1000000000000, twin.role := 0, boot.supRunning := true, journal.state := 3,
          journal.timeouts := 2, journal.programming := some [] }
      let dt : Nat := 0
      let f : MountFound := ⟨false, false, 0, 0, 0, [], 0, 0, 0, []⟩
      let u := s.elapse dt
      let j := u.journal
      decide (u.works domDram = true ∧ 3 ≤ j.state ∧ j.state ≤ 5 ∧ f.answered = false)) &&
     (let s : State := { R0.put [] with
          fc := 1000000000000, now := 1000000000000, twin.role := 0, boot.supRunning := true, journal.state := 1 }
      let dt : Nat := 0
      let f : MountFound := ⟨false, false, 0, 0, 0, [], 0, 0, 0, []⟩
      let u := s.elapse dt
      let j := u.journal
      decide (u.works domDram = true ∧ j.state = 1 ∧ (f.answered = false ∨ supportedNand f = false))) &&
     (let s : State := { R0.put [] with
          fc := 1000000000000, now := 1000000000000, twin.role := 0, boot.supRunning := true, journal.state := 1, journal.ring
            := [{ rcd := { type := 1, cls := 1, seq := 4, dseq := 7, taken := 9, body := [1,2] }, page := none }] }
      let dt : Nat := 0
      let f : MountFound := {
          answered := true, tableValid := false, capacity := 134217728, pageSize := 4096, blocks := 512, bad := [5], retired :=
            0, tableGen := 3, formatId := 9, pages :=
            [{ seq := 1, block := 2, recs := [{ type := 1, cls := 1, seq := 4, dseq := 7, taken := 9, body := [1,2] }] }] }
      let u := s.elapse dt
      let j := u.journal
      decide (u.works domDram = true ∧ j.state = 1 ∧ f.answered = true ∧ supportedNand f = true ∧ f.tableValid = false)) &&
     (let s : State := { R0.put [] with
          fc := 1000000000000, now := 1000000000000, twin.role := 0, boot.supRunning := true, journal.state := 1, journal.ring
            := [{ rcd := { type := 1, cls := 1, seq := 4, dseq := 7, taken := 9, body := [1,2] }, page := none }] }
      let dt : Nat := 0
      let f : MountFound := {
          answered := true, tableValid := true, capacity := 134217728, pageSize := 4096, blocks := 512, bad := [5], retired :=
            0, tableGen := 3, formatId := 9, pages :=
            [{ seq := 1, block := 2, recs := [{ type := 1, cls := 1, seq := 4, dseq := 7, taken := 9, body := [1,2] }] }] }
      let u := s.elapse dt
      let j := u.journal
      decide (u.works domDram = true ∧ j.state = 1 ∧ f.answered = true ∧ supportedNand f = true ∧ f.tableValid = true ∧ 16 ≤
        f.blocks - f.bad.length ∧ 1000 * f.retired ≤ u.cn 0x3800 8 0 * f.blocks ∧ u.cn 0x3800 5 0 = 0)) &&
     (let s : State := { R0.put [] with
          fc := 1000000000000, now := 1000000000000, twin.role := 0, boot.supRunning := true, dict.clients := [(0,
          { id := .spi, last := 0 })], boot.mode := 1 }
      let dt : Nat := 0
      let u := s.elapse dt
      let j := u.journal
      decide (u.works domDram = true ∧ j.state ≠ 2)) &&
     (let s : State := { R0.put [] with
          fc := 1000000000000, now := 1000000000000, twin.role := 0, boot.supRunning := true, journal.state := 2, journal.blocks
            := 64 }
      let dt : Nat := 0
      let u := s.elapse dt
      let j := u.journal
      decide (u.works domDram = true ∧ j.state = 2 ∧ 16 ≤ j.blocks - j.bad.length ∧ 1000 * j.retired ≤ u.cn 0x3800 8 0 *
        j.blocks)) &&
     (let s : State := { R0.put [] with
          fc := 1000000000000, now := 1000000000000, twin.role := 0, boot.supRunning := true, dict.clients := [(0,
          { id := .spi, last := 0 })], boot.mode := 1 }
      let dt : Nat := 0
      let n : Nat := 0
      let who : ClientId := .spi
      let u := s.elapse dt
      decide (admitted who n 0x3800 u ∧ u.serviceMode = false)) &&
     (let s : State := { R0.put [] with
          fc := 1000000000000, now := 1000000000000, twin.role := 0, boot.supRunning := true, dict.clients := [(0,
          { id := .spi, last := 0 })], boot.mode := 2, journal.state := 3, journal.blocks := 64, journal.nand :=
            [{ seq := 1, block := 2, recs := [] }, { seq := 2, block := 3, recs := [] }] }
      let dt : Nat := 0
      let n : Nat := 0
      let who : ClientId := .spi
      let u := s.elapse dt
      let j := u.journal
      decide (admitted who n 0x3800 u ∧ u.serviceMode = true ∧ u.works domDram = true ∧ j.state ≠ 0 ∧ j.state ≠ 6 ∧ j.state ≠ 7)))
    = true := by decide +kernel

/-- States that meet the hypotheses of RecordRetrieval, clause by clause. -/
theorem witness_RecordRetrieval :
    ((let s : State := { R0.put [] with
          fc := 1000000000000, now := 1000000000000, twin.role := 0, boot.supRunning := true, dict.clients := [(0,
          { id := .spi, last := 0 })], journal.state := 3, journal.ring :=
            [{ rcd := { type := 1, cls := 1, seq := 4, dseq := 7, taken := 9, body := [1,2] }, page := none }], journal.nextSeq
            := 5 }
      let dt : Nat := 0
      let n : Nat := 0
      let who : ClientId := .spi
      let c : Client := { id := .spi, last := 1000000000000 }
      let u := s.elapse dt
      let v := u.accessed who n
      decide (admitted who n 0x3810 u ∧ v.clientAt n = some c)) &&
     (let s : State := { R0.put [] with
          fc := 1000000000000, now := 1000000000000, twin.role := 0, boot.supRunning := true, dict.clients := [(0,
          { id := .spi, last := 0 })] }
      let dt : Nat := 0
      let n : Nat := 0
      let who : ClientId := .spi
      let c : Client := { id := .spi, last := 1000000000000 }
      let u := s.elapse dt
      let v := u.accessed who n
      decide (admitted who n 0x5802 u ∧ v.clientAt n = some c)) &&
     (let s : State := { R0.put [] with
          fc := 1000000000000, now := 1000000000000, twin.role := 0, boot.supRunning := true, dict.clients := [(0,
          { id := .spi, last := 0 })], boot.mode := 2 }
      let dt : Nat := 0
      let n : Nat := 0
      let who : ClientId := .spi
      let c : Client := { id := .spi, last := 1000000000000 }
      let u := s.elapse dt
      let v := u.accessed who n
      decide (admitted who n 0x5802 u ∧ v.clientAt n = some c ∧ u.serviceMode = true)) &&
     (let s : State := { R0.put [] with
          fc := 1000000000000, now := 1000000000000, twin.role := 0, boot.supRunning := true, dict.clients := [(0,
          { id := .spi, last := 0 })], boot.mode := 1 }
      let dt : Nat := 0
      let n : Nat := 0
      let who : ClientId := .spi
      let c : Client := { id := .spi, last := 1000000000000 }
      let u := s.elapse dt
      let v := u.accessed who n
      decide (admitted who n 0x5802 u ∧ v.clientAt n = some c ∧ u.serviceMode = false)))
    = true := by decide +kernel

/-- States that meet the hypotheses of BlockingCycleCommands, clause by clause. -/
theorem witness_BlockingCycleCommands :
    ((let s : State := { R0.put [] with
          fc := 1000000000000, now := 1000000000000, twin.role := 2, boot.supRunning := true, dict.clients := [(0,
          { id := .spi, last := 0 })] }
      let dt : Nat := 0
      let n : Nat := 0
      let who : ClientId := .spi
      let u := s.elapse dt
      decide (admitted who n 0x5000 u ∧ (u.twin.role = 1 ∨ u.twin.role = 2 ∨ u.twin.role = 3))) &&
     (let s : State := { R0.put [] with
          fc := 1000000000000, now := 1000000000000, twin.role := 0, boot.supRunning := true, dict.clients := [(0,
          { id := .spi, last := 0 })], cycle.generation := 5, cycle.result := 1 }
      let dt : Nat := 0
      let n : Nat := 0
      let who : ClientId := .spi
      let u := s.elapse dt
      let c := u.cycle
      decide (admitted who n 0x5000 u ∧ (u.twin.role = 0 ∨ u.twin.role = 4) ∧ u.writesCopy = false ∧ c.state = 0)) &&
     (let s : State := { R0.put [] with
          fc := 1000000000000, now := 1000000000000, twin.role := 0, boot.supRunning := true, dict.clients := [(0,
          { id := .spi, last := 0 })], cycle.state := 3, cycle.owner := some 1 }
      let dt : Nat := 0
      let n : Nat := 0
      let who : ClientId := .spi
      let u := s.elapse dt
      let c := u.cycle
      decide (admitted who n 0x5000 u ∧ c.state ≠ 0 ∧ c.owner ≠ some n)) &&
     (let s : State := { R0.put [] with
          fc := 1000000000000, now := 1000000000000, twin.role := 0, boot.supRunning := true, dict.clients := [(0,
          { id := .spi, last := 0 })], cycle.state := 4, cycle.owner := some 0 }
      let dt : Nat := 0
      let n : Nat := 0
      let who : ClientId := .spi
      let u := s.elapse dt
      let c := u.cycle
      decide (admitted who n 0x5000 u ∧ c.owner = some n ∧ (c.state = 1 ∨ c.state = 4))) &&
     (let s : State := { R0.put [] with
          fc := 1000000000000, now := 1000000000000, twin.role := 0, boot.supRunning := true, dict.clients := [(0,
          { id := .spi, last := 0 })], cycle.state := 3, cycle.owner := some 0 }
      let dt : Nat := 0
      let n : Nat := 0
      let who : ClientId := .spi
      let u := s.elapse dt
      let c := u.cycle
      decide (admitted who n 0x5000 u ∧ c.owner = some n ∧ c.state ≠ 1 ∧ c.state ≠ 4)) &&
     (let s : State := { R0.put [] with
          fc := 1000000000000, now := 1000000000000, twin.role := 0, boot.supRunning := true, dict.clients := [(0,
          { id := .spi, last := 0 })], cycle.state := 4, cycle.owner := some 0 }
      let dt : Nat := 0
      let n : Nat := 0
      let who : ClientId := .spi
      let u := s.elapse dt
      let c := u.cycle
      decide (admitted who n 0x5000 u ∧ c.owner = some n ∧ c.state ≠ 3)) &&
     (let s : State := { R0.put [] with
          fc := 1000000000000, now := 1000000000000, twin.role := 0, boot.supRunning := true, dict.clients := [(0,
          { id := .spi, last := 0 })], cycle.state := 3, cycle.owner := some 0, dict.imm := [(⟨0x5000,5,0⟩,.num 1)] }
      let dt : Nat := 0
      let n : Nat := 0
      let who : ClientId := .spi
      let u := s.elapse dt
      let c := u.cycle
      let sp := u.wantedPoint
      let ahead := posDiff sp u.time
      decide (admitted who n 0x5000 u ∧ c.owner = some n ∧ c.state = 3 ∧ ahead * 1000 < 2 * 2 ^ 32)) &&
     (let s : State := { R0.put [] with
          fc := 1000000000000, now := 1000000000000, twin.role := 0, boot.supRunning := true, dict.clients := [(0,
          { id := .spi, last := 0 })], cycle.state := 3, cycle.owner := some 0, dict.imm := [(⟨0x5000,5,0⟩,.num 5)] }
      let dt : Nat := 0
      let n : Nat := 0
      let who : ClientId := .spi
      let u := s.elapse dt
      let c := u.cycle
      let sp := u.wantedPoint
      let ahead := posDiff sp u.time
      decide (admitted who n 0x5000 u ∧ c.owner = some n ∧ c.state = 3 ∧ 2 * 2 ^ 32 ≤ ahead * 1000 ∧ ahead ≤ 3600 * 2 ^ 32 ∧
        sortEntries ({ u := u.uid, c := Cfg.withBnd c.shadow u.cfg, point := sp } : Check).oneShots = [])) &&
     (let s : State := { R0.put [] with
          fc := 1000000000000, now := 1000000000000, twin.role := 0, boot.supRunning := true, dict.clients := [(0,
          { id := .spi, last := 0 })], cycle.state := 0, cycle.owner := some 0 }
      let dt : Nat := 0
      let n : Nat := 0
      let who : ClientId := .spi
      let u := s.elapse dt
      let c := u.cycle
      decide (admitted who n 0x5000 u ∧ c.owner = some n ∧ c.state = 0)) &&
     (let s : State := { R0.put [] with
          fc := 1000000000000, now := 1000000000000, twin.role := 0, boot.supRunning := true, dict.clients := [(0,
          { id := .spi, last := 0 })], cycle.state := 5, cycle.committed := true, cycle.owner := some 0 }
      let dt : Nat := 0
      let n : Nat := 0
      let who : ClientId := .spi
      let u := s.elapse dt
      let c := u.cycle
      decide (admitted who n 0x5000 u ∧ c.owner = some n ∧ c.state ≠ 0 ∧ c.committed = true)) &&
     (let s : State := { R0.put [] with
          fc := 1000000000000, now := 1000000000000, twin.role := 0, boot.supRunning := true, dict.clients := [(0,
          { id := .spi, last := 0 })], cycle.state := 4, cycle.owner := some 0, cycle.shadow := [(⟨0x2101,3,0⟩,.num 7)] }
      let dt : Nat := 0
      let n : Nat := 0
      let who : ClientId := .spi
      let u := s.elapse dt
      let c := u.cycle
      decide (admitted who n 0x5000 u ∧ c.owner = some n ∧ c.state ≠ 0 ∧ c.state ≠ 5 ∧ c.committed = false)) &&
     (let s : State := { R0.put [] with
          fc := 1000000000000, now := 1000000000000, twin.role := 0, boot.supRunning := true, dict.clients := [(0,
          { id := .spi, last := 0 })], cycle.state := 4, cycle.owner := some 0, cycle.shadow := [(⟨0x2101,3,0⟩,.num 7)] }
      let dt : Nat := 0
      let n : Nat := 0
      let who : ClientId := .spi
      let u := s.elapse dt
      let c := u.cycle
      decide (admitted who n 0x5000 u ∧ c.owner = some n ∧ (c.state = 1 ∨ c.state = 3 ∨ c.state = 4))) &&
     (let s : State := { R0.put [] with
          fc := 1000000000000, now := 1000000000000, twin.role := 0, boot.supRunning := true, dict.clients := [(0,
          { id := .spi, last := 0 })], cycle.state := 2, cycle.owner := some 0 }
      let dt : Nat := 0
      let n : Nat := 0
      let who : ClientId := .spi
      let u := s.elapse dt
      let c := u.cycle
      decide (admitted who n 0x5000 u ∧ c.owner = some n ∧ c.state ≠ 1 ∧ c.state ≠ 3 ∧ c.state ≠ 4)))
    = true := by decide +kernel

/-- States that meet the hypotheses of BlockingCycleProceeds, clause by clause. -/
theorem witness_BlockingCycleProceeds :
    ((let s : State :=
        { R0.put [] with fc := 1000000000000, now := 1000000000000, twin.role := 0, boot.supRunning := true, cycle.state := 3 }
      let dt : Nat := 0
      let u := s.elapse dt
      let c := u.cycle
      decide (u.works domSup = true ∧ c.state ≠ 2)) &&
     (let s : State := { R0.put [] with
          fc := 1000000000000, now := 1000000000000, twin.role := 0, boot.supRunning := true, cycle.state := 2, cycle.asked :=
            true, twin.lanes := [(0,true),(1,true)], twin.peerAccepted := true, twin.peerAccepts := true }
      let dt : Nat := 0
      let u := s.elapse dt
      let c := u.cycle
      decide (u.works domSup = true ∧ c.state = 2 ∧ u.awaitsTwin = true)) &&
     (let s : State :=
        { R0.put [] with fc := 1000000000000, now := 1000000000000, twin.role := 0, boot.supRunning := true, cycle.state := 2 }
      let dt : Nat := 0
      let u := s.elapse dt
      let c := u.cycle
      let p := Cfg.nat u.uid u.dict.imm 0x5000 4 0
      let own := u.checkShadow c.shadow (if p = 0 then u.time else BitVec.ofNat 64 p)
      decide (u.works domSup = true ∧ c.state = 2 ∧ u.awaitsTwin = false ∧ c.twinPass ≠ some false ∧ own = [])) &&
     (let s : State := { R0.put [] with
          fc := 1000000000000, now := 1000000000000, twin.role := 0, boot.supRunning := true, cycle.state := 2, cycle.shadow :=
            [(⟨0x2520,2,5⟩,.num 1),(⟨0x2520,3,5⟩,.num 30)] }
      let dt : Nat := 0
      let u := s.elapse dt
      let c := u.cycle
      let p := Cfg.nat u.uid u.dict.imm 0x5000 4 0
      let own := u.checkShadow c.shadow (if p = 0 then u.time else BitVec.ofNat 64 p)
      decide (u.works domSup = true ∧ c.state = 2 ∧ u.awaitsTwin = false ∧ c.twinPass ≠ some false ∧ own ≠ [])) &&
     (let s : State :=
        { R0.put [] with fc := 1000000000000, now := 1000000000000, twin.role := 0, boot.supRunning := true, cycle.state := 2 }
      let dt : Nat := 0
      let u := s.elapse dt
      let c := u.cycle
      decide (u.works domSup = true ∧ (c.pending = none ∨ c.state ≠ 5))) &&
     (let s : State := { R0.put [] with
          fc := 1000000000000, now := 1000000000000, twin.role := 0, boot.supRunning := true, cycle.state := 5, cycle.pending :=
            some 0x400000 }
      let dt : Nat := 0
      let sp : WheelPos := 0x400000
      let u := s.elapse dt
      let c := u.cycle
      decide (u.works domSup = true ∧ c.pending = some sp ∧ c.state = 5 ∧ posDiff sp u.time * 1000 ≤ 2 ^ 32)) &&
     (let s : State := { R0.put [] with
          fc := 1000000000000, now := 1000000000000, twin.role := 0, boot.supRunning := true, cycle.state := 5, cycle.pending :=
            some 0x40000000 }
      let dt : Nat := 0
      let sp : WheelPos := 0x40000000
      let u := s.elapse dt
      let c := u.cycle
      decide (u.works domSup = true ∧ c.pending = some sp ∧ c.state = 5 ∧ 2 ^ 32 < posDiff sp u.time * 1000)) &&
     (let s : State :=
        { R0.put [] with fc := 1000000000000, now := 1000000000000, twin.role := 0, boot.supRunning := true, cycle.state := 5 }
      let dt : Nat := 0
      let u := s.elapse dt
      let c := u.cycle
      decide (u.works domSup = true ∧ c.writing = none)) &&
     (let s : State := { R0.put [] with
          fc := 1000000000000, now := 1000000000000, twin.role := 0, boot.supRunning := true, cycle.state := 5, cycle.writing :=
            some 1, cycle.owner := some 0, cycle.generation := 9 }
      let dt : Nat := 0
      let n : Nat := 1
      let u := s.elapse dt
      let c := u.cycle
      decide (u.works domSup = true ∧ c.writing = some n)) &&
     (let s : State :=
        { R0.put [] with fc := 1000000000000, now := 1000000000000, twin.role := 0, boot.supRunning := true, cycle.state := 5 }
      let dt : Nat := 0
      let u := s.elapse dt
      let c := u.cycle
      decide (u.works domSup = true ∧ (c.state = 0 ∨ c.state = 5 ∨ u.now - c.openedAt ≤ u.cn 0x5040 1 0 * cyclesPerSec))) &&
     (let s : State := { R0.put [] with
          fc := 1000000000000, now := 1000000000000, twin.role := 0, boot.supRunning := true, cycle.state := 3, cycle.owner :=
            some 0 }
      let dt : Nat := 0
      let u := s.elapse dt
      let c := u.cycle
      decide (u.works domSup = true ∧ c.state ≠ 0 ∧ c.state ≠ 5 ∧ u.cn 0x5040 1 0 * cyclesPerSec < u.now - c.openedAt)) &&
     (let s : State := { R0.put [] with
          fc := 1000000000000, now := 1000000000000, twin.role := 0, boot.supRunning := true, cycle.state := 3, appts.line :=
            [{ row := 6, consumer := 0x0203, due := 1, dueCycle := 0, dueTime := 0, late := false, slot := 0
                  },{ row := 1016, consumer := 0x0800, due := 1, dueCycle := 0, dueTime := 0, late := false, slot := 0 }] }
      let dt : Nat := 0
      let d : Dispatch := { row := 1016, consumer := 0x0800, due := 1, dueCycle := 0, dueTime := 0, late := false, slot := 0 }
      let rest : List Dispatch :=
        [{ row := 6, consumer := 0x0203, due := 1, dueCycle := 0, dueTime := 0, late := false, slot := 0 }]
      let u := s.elapse dt
      let c := u.cycle
      decide (u.works domFabric = true ∧ takeDispatch u.fc 0x0800 u.appts.line = some (d, rest) ∧ (c.state ≠ 5 ∨
        c.writing.isSome = true))) &&
     (let s : State := { R0.put [] with
          fc := 1000000000000, now := 1000000000000, twin.role := 0, boot.supRunning := true, cycle.state := 5, cycle.committed
            := true, cycle.shadow := [(⟨0x2101,3,0⟩,.num 7)], appts.line :=
            [{ row := 6, consumer := 0x0203, due := 1, dueCycle := 0, dueTime := 0, late := false, slot := 0
                  },{ row := 1016, consumer := 0x0800, due := 1, dueCycle := 0, dueTime := 0, late := false, slot := 0 }] }
      let dt : Nat := 0
      let d : Dispatch := { row := 1016, consumer := 0x0800, due := 1, dueCycle := 0, dueTime := 0, late := false, slot := 0 }
      let rest : List Dispatch :=
        [{ row := 6, consumer := 0x0203, due := 1, dueCycle := 0, dueTime := 0, late := false, slot := 0 }]
      let u := s.elapse dt
      let c := u.cycle
      decide (u.works domFabric = true ∧ takeDispatch u.fc 0x0800 u.appts.line = some (d, rest) ∧ c.state = 5 ∧ c.writing =
        none)))
    = true := by decide +kernel

/-- States that meet the hypotheses of ObjectAccessAndClients, clause by clause. -/
theorem witness_ObjectAccessAndClients :
    ((let s : State := {
          { R0.put [] with
              fc := 1000000000000, now := 1000000000000, twin.role := 0, boot.supRunning := true, dict.clients := [(0,
              { id := .spi, last := 0 })] } with boot.supRunning := false }
      let dt : Nat := 0
      let u := s.elapse dt
      decide (u.serves = false)) &&
     (let s : State := { R0.put [] with
          fc := 1000000000000, now := 1000000000000, twin.role := 0, boot.supRunning := true, dict.clients := [(0,
          { id := .sdo, last := 0 }),(1, { id := .lap 0 5 6, last := 0 }),(2, { id := .lap 1 5 6, last := 0 }),(3,
          { id := .lap 1 5 7, last := 0 })] }
      let dt : Nat := 0
      let who : ClientId := .spi
      let u := s.elapse dt
      decide (u.serves = true ∧ u.slotOf who = none ∧ u.freeSlot = none)) &&
     (let s : State := { R0.put [] with
          fc := 1000000000000, now := 1000000000000, twin.role := 0, boot.supRunning := true, dict.clients := [(0,
          { id := .spi, last := 0 })] }
      let dt : Nat := 0
      let n : Nat := 0
      let who : ClientId := .spi
      let index : BitVec 16 := 0x0FFF
      let b : List Byte := []
      let u := s.elapse dt
      let i := index.toNat
      decide (admitted who n i u ∧ b.length ≤ pathLimit who ∧ findGroup i = none)) &&
     (let s : State := { R0.put [] with
          fc := 1000000000000, now := 1000000000000, twin.role := 0, boot.supRunning := true, dict.clients := [(0,
          { id := .spi, last := 0 })] }
      let dt : Nat := 0
      let n : Nat := 0
      let who : ClientId := .spi
      let index : BitVec 16 := 0x2101
      let sub : Byte := 0x7F
      let b : List Byte := []
      let g : Group := (findGroup 0x2101).getD aGroup
      let u := s.elapse dt
      let i := index.toNat
      let j := sub.toNat
      decide (admitted who n i u ∧ b.length ≤ pathLimit who ∧ findGroup i = some g ∧ j ≠ 0 ∧ g.line j = none)) &&
     (let s : State := { R0.put [] with
          fc := 1000000000000, now := 1000000000000, twin.role := 0, boot.supRunning := true, dict.clients := [(0,
          { id := .spi, last := 0 })] }
      let dt : Nat := 0
      let n : Nat := 0
      let who : ClientId := .spi
      let index : BitVec 16 := 0x4800
      let sub : Byte := 2
      let b : List Byte := []
      let g : Group := (findGroup 0x4800).getD aGroup
      let o : Obj := (g.line 2).getD anObj
      let u := s.elapse dt
      let i := index.toNat
      let j := sub.toNat
      decide (admitted who n i u ∧ b.length ≤ pathLimit who ∧ findGroup i = some g ∧ j ≠ 0 ∧ g.line j = some o ∧ (o.acc = .ro ∨
        o.acc = .const))) &&
     (let s : State := { R0.put [] with
          fc := 1000000000000, now := 1000000000000, twin.role := 0, boot.supRunning := true, dict.clients := [(0,
          { id := .spi, last := 0 })] }
      let dt : Nat := 0
      let n : Nat := 0
      let who : ClientId := .spi
      let index : BitVec 16 := 0x2220
      let sub : Byte := 6
      let b : List Byte := []
      let g : Group := (findGroup 0x2220).getD aGroup
      let o : Obj := (g.line 6).getD anObj
      let u := s.elapse dt
      let i := index.toNat
      let j := sub.toNat
      decide (admitted who n i u ∧ b.length ≤ pathLimit who ∧ findGroup i = some g ∧ j ≠ 0 ∧ g.line j = some o ∧ o.acc = .wo)) &&
     (let s : State := { R0.put [] with
          fc := 1000000000000, now := 1000000000000, twin.role := 0, boot.supRunning := true, dict.clients := [(0,
          { id := .spi, last := 0 })] }
      let dt : Nat := 0
      let n : Nat := 0
      let who : ClientId := .spi
      let index : BitVec 16 := 0x2101
      let sub : Byte := 3
      let b : List Byte := [7]
      let g : Group := (findGroup 0x2101).getD aGroup
      let o : Obj := (g.line 3).getD anObj
      let x : Val := .num 7
      let u := s.elapse dt
      let v := u.accessed who n
      let i := index.toNat
      let j := sub.toNat
      let row := v.rowOf n g i
      decide (admitted who n i u ∧ b.length ≤ pathLimit who ∧ findGroup i = some g ∧ j ≠ 0 ∧ g.line j = some o ∧ (o.acc = .rw ∨
        o.acc = .wo) ∧ lockedRow i j row = false ∧ judges o b x ∧ o.eff = .stg ∧ u.cycle.state = 0)) &&
     (let s : State := { R0.put [] with
          fc := 1000000000000, now := 1000000000000, twin.role := 0, boot.supRunning := true, dict.clients := [(0,
          { id := .spi, last := 0 })], cycle.state := 3, cycle.owner := some 2 }
      let dt : Nat := 0
      let n : Nat := 0
      let who : ClientId := .spi
      let index : BitVec 16 := 0x2101
      let sub : Byte := 3
      let b : List Byte := [7]
      let g : Group := (findGroup 0x2101).getD aGroup
      let o : Obj := (g.line 3).getD anObj
      let x : Val := .num 7
      let u := s.elapse dt
      let v := u.accessed who n
      let i := index.toNat
      let j := sub.toNat
      let row := v.rowOf n g i
      decide (admitted who n i u ∧ b.length ≤ pathLimit who ∧ findGroup i = some g ∧ j ≠ 0 ∧ g.line j = some o ∧ (o.acc = .rw ∨
        o.acc = .wo) ∧ lockedRow i j row = false ∧ judges o b x ∧ o.eff = .stg ∧ u.cycle.state ≠ 0 ∧ u.cycle.owner ≠ some n)) &&
     (let s : State := { R0.put [] with
          fc := 1000000000000, now := 1000000000000, twin.role := 0, boot.supRunning := true, dict.clients := [(0,
          { id := .spi, last := 0 })], cycle.state := 3, cycle.owner := some 0 }
      let dt : Nat := 0
      let n : Nat := 0
      let who : ClientId := .spi
      let index : BitVec 16 := 0x2101
      let sub : Byte := 3
      let b : List Byte := [7]
      let g : Group := (findGroup 0x2101).getD aGroup
      let o : Obj := (g.line 3).getD anObj
      let x : Val := .num 7
      let u := s.elapse dt
      let v := u.accessed who n
      let i := index.toNat
      let j := sub.toNat
      let row := v.rowOf n g i
      decide (admitted who n i u ∧ b.length ≤ pathLimit who ∧ findGroup i = some g ∧ j ≠ 0 ∧ g.line j = some o ∧ (o.acc = .rw ∨
        o.acc = .wo) ∧ lockedRow i j row = false ∧ judges o b x ∧ o.eff = .stg ∧ u.cycle.state ≠ 0 ∧ u.cycle.state ≠ 2 ∧
        u.cycle.state ≠ 5 ∧ u.cycle.owner = some n)) &&
     (let s : State := { R0.put [] with
          fc := 1000000000000, now := 1000000000000, twin.role := 0, boot.supRunning := true, dict.clients := [(0,
          { id := .spi, last := 0 })] }
      let dt : Nat := 0
      let n : Nat := 0
      let who : ClientId := .spi
      let index : BitVec 16 := 0x3011
      let sub : Byte := 8
      let b : List Byte := [0,0,0x80,0x3F]
      let g : Group := (findGroup 0x3011).getD aGroup
      let o : Obj := (g.line 8).getD anObj
      let x : Val := .num 0x3F800000
      let u := s.elapse dt
      let v := u.accessed who n
      let i := index.toNat
      let j := sub.toNat
      let row := v.rowOf n g i
      decide (admitted who n i u ∧ b.length ≤ pathLimit who ∧ findGroup i = some g ∧ j ≠ 0 ∧ g.line j = some o ∧ (o.acc = .rw ∨
        o.acc = .wo) ∧ lockedRow i j row = false ∧ judges o b x ∧ o.eff = .bnd ∧ u.twin.role ≠ 1 ∧ u.twin.role ≠ 2 ∧ u.twin.role
        ≠ 3 ∧ (i < 0x2100 ∨ 0x2117 < i))) &&
     (let s : State := { R0.put [] with
          fc := 1000000000000, now := 1000000000000, twin.role := 0, boot.supRunning := true, dict.clients := [(0,
          { id := .spi, last := 0 })] }
      let dt : Nat := 0
      let n : Nat := 0
      let who : ClientId := .spi
      let index : BitVec 16 := 0x3810
      let sub : Byte := 2
      let b : List Byte := [7,0,0,0,0,0,0,0]
      let g : Group := (findGroup 0x3810).getD aGroup
      let o : Obj := (g.line 2).getD anObj
      let x : Val := .num 7
      let u := s.elapse dt
      let v := u.accessed who n
      let i := index.toNat
      let j := sub.toNat
      let row := v.rowOf n g i
      decide (admitted who n i u ∧ b.length ≤ pathLimit who ∧ findGroup i = some g ∧ j ≠ 0 ∧ g.line j = some o ∧ (o.acc = .rw ∨
        o.acc = .wo) ∧ lockedRow i j row = false ∧ judges o b x ∧ o.eff = .imm ∧ perClient g j = true)) &&
     (let s : State := { R0.put [] with
          fc := 1000000000000, now := 1000000000000, twin.role := 0, boot.supRunning := true, dict.clients := [(0,
          { id := .spi, last := 0 })] }
      let dt : Nat := 0
      let n : Nat := 0
      let who : ClientId := .spi
      let index : BitVec 16 := 0x4800
      let sub : Byte := 2
      let b : List Byte := []
      let g : Group := (findGroup 0x4800).getD aGroup
      let o : Obj := (g.line 2).getD anObj
      let u := s.elapse dt
      let v := u.accessed who n
      let i := index.toNat
      let j := sub.toNat
      let row := v.rowOf n g i
      decide (admitted who n i u ∧ b.length ≤ pathLimit who ∧ findGroup i = some g ∧ j ≠ 0 ∧ g.line j = some o ∧ o.acc ≠ .wo ∧
        0x4800 ≤ i ∧ i ≤ 0x48FF ∧ i ≠ 0x4830 ∧ perClient g j = false ∧ (o.ty.encode (.num (v.statOf i row j : Nat))).length ≤
        pathLimit who)) &&
     (let s : State := { R0.put [] with
          fc := 1000000000000, now := 1000000000000, twin.role := 0, boot.supRunning := true, dict.clients := [(0,
          { id := .spi, last := 0 })], serial := [(1, { flags := 0x0F })] }
      let dt : Nat := 0
      let n : Nat := 0
      let who : ClientId := .spi
      let index : BitVec 16 := 0x2101
      let sub : Byte := 0x21
      let b : List Byte := []
      let u := s.elapse dt
      let i := index.toNat
      let j := sub.toNat
      let p : Fin 24 := 1
      decide (admitted who n i u ∧ b.length ≤ pathLimit who ∧ i = 0x2100 + p.val ∧ j = 0x21)) &&
     (let s : State := { R0.put [] with
          fc := 1000000000000, now := 1000000000000, twin.role := 0, boot.supRunning := true, dict.clients := [(0,
          { id := .spi, last := 0 })] }
      let dt : Nat := 0
      let k : Fin 4 := 1
      let u := s.elapse dt
      decide ((u.serves = false ∨ u.clientAt k.val = none))) &&
     (let s : State := { R0.put [] with
          fc := 1000000000000, now := 1000000000000, twin.role := 0, boot.supRunning := true, dict.clients := [(0,
          { id := .spi, last := 0 })], cycle.owner := some 0, cycle.state := 3 }
      let dt : Nat := 0
      let k : Fin 4 := 0
      let c : Client := { id := .spi, last := 0 }
      let u := s.elapse dt
      decide (u.serves = true ∧ u.clientAt k.val = some c)) &&
     (let s : State := { R0.put [] with
          fc := 1000000000000, now := 1000000000000, twin.role := 0, boot.supRunning := true, dict.clients := [(0,
          { id := .spi, last := 999999999999 })] }
      let dt : Nat := 0
      let k : Fin 4 := 0
      let c : Client := { id := .spi, last := 999999999999 }
      let u := s.elapse dt
      decide (u.serves = true ∧ u.clientAt k.val = some c ∧ u.now < c.last + u.cn 0x5040 1 0 * cyclesPerSec)) &&
     (let s : State := { R0.put [] with
          fc := 1000000000000, now := 1000000000000, twin.role := 0, boot.supRunning := true, dict.clients := [(0,
          { id := .spi, last := 0 })] }
      let dt : Nat := 0
      let k : Fin 4 := 0
      let c : Client := { id := .spi, last := 0 }
      let u := s.elapse dt
      decide (u.serves = true ∧ u.clientAt k.val = some c ∧ c.last + u.cn 0x5040 1 0 * cyclesPerSec ≤ u.now)))
    = true := by decide +kernel

/-- States that meet the hypotheses of LapRequests, clause by clause. -/
theorem witness_LapRequests :
    ((let s : State := { R0.put [(0x5042,2,1,1)] with
          fc := 1000000000000, now := 1000000000000, twin.role := 0, boot.supRunning := true, dict.clients := [(2,
          { id := .lap 1 0x0A000009 5000, last := 0 })], dict.startCount := 7, dict.laps := [(1,
          { counter := 3, request := [], reply := [1,2] })], eth := [(1, { link := 2, arp := [⟨0x0A000009,9,0,0⟩] })] }
      let dt : Nat := 0
      let p : Fin 2 := 1
      let w0 := s.elapse dt
      decide (((w0.ep p.val).supIn = [] ∨ w0.yields (0x34 + p.val) = false))) &&
     (let s : State := { R0 with
          fc := 5, eth := [(1, {
              link := 2, supIn := [rxf (ethHeader 0x020000000005 0x020000000001 0x0800 ++ ipHeader 0x0A000009 0x0A000001 17 1 5
                0 false 11 ++ beBytes 2 5000 ++ beBytes 2 47321 ++ beBytes 2 11 ++ [0, 0] ++ [1, 2, 3]), rxf [9]] })] }
      let dt : Nat := 0
      let p : Fin 2 := 1
      let ip : BitVec 32 := 0x0A000009
      let udp : BitVec 16 := 5000
      let b : List Byte := [1,2,3]
      let f : RxFrame := rxf (ethHeader 0x020000000005 0x020000000001 0x0800 ++ ipHeader 0x0A000009 0x0A000001 17 1 5 0 false 11
        ++ beBytes 2 5000 ++ beBytes 2 47321 ++ beBytes 2 11 ++ [0, 0] ++ [1, 2, 3])
      let rest : List RxFrame := [rxf [9]]
      let w0 := s.elapse dt
      decide ((w0.ep p.val).supIn = f :: rest ∧ w0.yields (0x34 + p.val) = true ∧ isLap ip udp b f = true)) &&
     (let s : State := { R0 with
          fc := 5, eth := [(1, {
              link := 2, supIn := [rxf (ethHeader 0x020000000005 0x020000000001 0x0800 ++ ipHeader 0x0A000009 0x0A000001 17 1 5
                0 false 11 ++ beBytes 2 5000 ++ beBytes 2 47321 ++ beBytes 2 11 ++ [0, 0] ++ [1, 2, 3]), rxf [9]] })] }
      let dt : Nat := 0
      let p : Fin 2 := 1
      let ip : BitVec 32 := 0x0A000009
      let udp : BitVec 16 := 5000
      let b : List Byte := [1,2,4]
      let f : RxFrame := rxf (ethHeader 0x020000000005 0x020000000001 0x0800 ++ ipHeader 0x0A000009 0x0A000001 17 1 5 0 false 11
        ++ beBytes 2 5000 ++ beBytes 2 47321 ++ beBytes 2 11 ++ [0, 0] ++ [1, 2, 3])
      let rest : List RxFrame := [rxf [9]]
      let w0 := s.elapse dt
      decide ((w0.ep p.val).supIn = f :: rest ∧ isLap ip udp b f = false)) &&
     (let s : State := { R0 with boot.supRunning := false, twin.role := 0 }
      let dt : Nat := 0
      let p : Fin 2 := 1
      let w0 := s.elapse dt
      decide ((w0.serves = false ∨ w0.up (domEth p.val) = false))) &&
     (let s : State := { R0.put [(0x5042,2,1,1)] with
          fc := 1000000000000, now := 1000000000000, twin.role := 0, boot.supRunning := true, dict.clients := [(2,
          { id := .lap 1 0x0A000009 5000, last := 0 })], dict.startCount := 7, dict.laps := [(1,
          { counter := 3, request := [], reply := [1,2] })], eth := [(1, { link := 2, arp := [⟨0x0A000009,9,0,0⟩] })] }
      let dt : Nat := 0
      let p : Fin 2 := 1
      let ip : BitVec 32 := 0x0A000009
      let udp : BitVec 16 := 5000
      let b : List Byte := [1,2,3]
      let w0 := s.elapse dt
      let u := w0.takeLap p.val ip udp b
      decide (w0.serves = true ∧ w0.up (domEth p.val) = true ∧ u.lapValid b = none)) &&
     (let s : State := { R0.put [(0x5042,2,1,1)] with
          fc := 1000000000000, now := 1000000000000, twin.role := 0, boot.supRunning := true, dict.clients := [(2,
          { id := .lap 1 0x0A000009 5000, last := 0 })], dict.startCount := 7, dict.laps := [(1,
          { counter := 3, request := [], reply := [1,2] })], eth := [(1, { link := 2, arp := [⟨0x0A000009,9,0,0⟩] })] }
      let dt : Nat := 0
      let p : Fin 2 := 1
      let ip : BitVec 32 := 0x0A000009
      let udp : BitVec 16 := 5000
      let b : List Byte := lapSealed s ([0x4C,0x41,0x01,4,1,0] ++ leBytes 2 ([] : List Byte).length ++ leBytes 4 7 ++ leBytes 4
        5 ++ leBytes 2 0 ++ [0,0] ++ [])
      let r : LapReq := (parseLap b).getD aLap
      let w0 := s.elapse dt
      let u := w0.takeLap p.val ip udp b
      decide (w0.serves = true ∧ w0.up (domEth p.val) = true ∧ u.lapValid b = some r ∧ r.op = 4)) &&
     (let s : State := (let s : State := { R0.put [(0x5042,2,1,1)] with
          fc := 1000000000000, now := 1000000000000, twin.role := 0, boot.supRunning := true, dict.clients := [(2,
          { id := .lap 1 0x0A000009 5000, last := 0 })], dict.startCount := 7, dict.laps := [(1,
          { counter := 3, request := [], reply := [1,2] })], eth := [(1, { link := 2, arp := [⟨0x0A000009,9,0,0⟩] })] }; { s
                with
              dict.laps := [(1, {
                  counter := 3, request := lapSealed s ([0x4C,0x41,0x01,1,1,0] ++ leBytes 2 ([] : List Byte).length ++ leBytes 4
                    7 ++ leBytes 4 3 ++ leBytes 2 0x2101 ++ [3,0] ++ []), reply := [1,2] })] })
      let dt : Nat := 0
      let p : Fin 2 := 1
      let ip : BitVec 32 := 0x0A000009
      let udp : BitVec 16 := 5000
      let b : List Byte := lapSealed s ([0x4C,0x41,0x01,1,1,0] ++ leBytes 2 ([] : List Byte).length ++ leBytes 4 7 ++ leBytes 4
        3 ++ leBytes 2 0x2101 ++ [3,0] ++ [])
      let r : LapReq := (parseLap b).getD aLap
      let w0 := s.elapse dt
      let u := w0.takeLap p.val ip udp b
      let k := r.key.val
      decide (w0.serves = true ∧ w0.up (domEth p.val) = true ∧ u.lapValid b = some r ∧ r.op ≠ 4 ∧ (u.lapKey k).request = b)) &&
     (let s : State := { R0.put [(0x5042,2,1,1)] with
          fc := 1000000000000, now := 1000000000000, twin.role := 0, boot.supRunning := true, dict.clients := [(2,
          { id := .lap 1 0x0A000009 5000, last := 0 })], dict.startCount := 7, dict.laps := [(1,
          { counter := 3, request := [], reply := [1,2] })], eth := [(1, { link := 2, arp := [⟨0x0A000009,9,0,0⟩] })] }
      let dt : Nat := 0
      let p : Fin 2 := 1
      let ip : BitVec 32 := 0x0A000009
      let udp : BitVec 16 := 5000
      let b : List Byte := lapSealed s ([0x4C,0x41,0x01,1,1,0] ++ leBytes 2 ([] : List Byte).length ++ leBytes 4 6 ++ leBytes 4
        5 ++ leBytes 2 0x2101 ++ [3,0] ++ [])
      let r : LapReq := (parseLap b).getD aLap
      let w0 := s.elapse dt
      let u := w0.takeLap p.val ip udp b
      let k := r.key.val
      decide (w0.serves = true ∧ w0.up (domEth p.val) = true ∧ u.lapValid b = some r ∧ r.op ≠ 4 ∧ (u.lapKey k).request ≠ b ∧
        r.start ≠ u.dict.startCount)) &&
     (let s : State := { R0.put [(0x5042,2,1,1)] with
          fc := 1000000000000, now := 1000000000000, twin.role := 0, boot.supRunning := true, dict.clients := [(2,
          { id := .lap 1 0x0A000009 5000, last := 0 })], dict.startCount := 7, dict.laps := [(1,
          { counter := 3, request := [], reply := [1,2] })], eth := [(1, { link := 2, arp := [⟨0x0A000009,9,0,0⟩] })] }
      let dt : Nat := 0
      let p : Fin 2 := 1
      let ip : BitVec 32 := 0x0A000009
      let udp : BitVec 16 := 5000
      let b : List Byte := lapSealed s ([0x4C,0x41,0x01,1,1,0] ++ leBytes 2 ([] : List Byte).length ++ leBytes 4 7 ++ leBytes 4
        3 ++ leBytes 2 0x2101 ++ [3,0] ++ [])
      let r : LapReq := (parseLap b).getD aLap
      let w0 := s.elapse dt
      let u := w0.takeLap p.val ip udp b
      let k := r.key.val
      decide (w0.serves = true ∧ w0.up (domEth p.val) = true ∧ u.lapValid b = some r ∧ r.op ≠ 4 ∧ (u.lapKey k).request ≠ b ∧
        r.start = u.dict.startCount ∧ r.counter ≤ (u.lapKey k).counter)) &&
     (let s : State := { R0.put [(0x5042,2,1,1)] with
          fc := 1000000000000, now := 1000000000000, twin.role := 0, boot.supRunning := true, dict.clients := [(2,
          { id := .lap 1 0x0A000009 5000, last := 0 })], dict.startCount := 7, dict.laps := [(1,
          { counter := 3, request := [], reply := [1,2] })], eth := [(1, { link := 2, arp := [⟨0x0A000009,9,0,0⟩] })] }
      let dt : Nat := 0
      let p : Fin 2 := 1
      let ip : BitVec 32 := 0x0A000009
      let udp : BitVec 16 := 5000
      let b : List Byte := lapSealed s ([0x4C,0x41,0x01,1,1,0] ++ leBytes 2 ([] : List Byte).length ++ leBytes 4 7 ++ leBytes 4
        5 ++ leBytes 2 0x2101 ++ [3,0] ++ [])
      let r : LapReq := (parseLap b).getD aLap
      let w0 := s.elapse dt
      let u := w0.takeLap p.val ip udp b
      let k := r.key.val
      decide (w0.serves = true ∧ w0.up (domEth p.val) = true ∧ u.lapValid b = some r ∧ (u.lapKey k).request ≠ b ∧ r.start =
        u.dict.startCount ∧ (u.lapKey k).counter < r.counter ∧ r.op = 1)) &&
     (let s : State := { R0.put [(0x5042,2,1,1)] with
          fc := 1000000000000, now := 1000000000000, twin.role := 0, boot.supRunning := true, dict.clients := [(2,
          { id := .lap 1 0x0A000009 5000, last := 0 })], dict.startCount := 7, dict.laps := [(1,
          { counter := 3, request := [], reply := [1,2] })], eth := [(1, { link := 2, arp := [⟨0x0A000009,9,0,0⟩] })] }
      let dt : Nat := 0
      let p : Fin 2 := 1
      let ip : BitVec 32 := 0x0A000009
      let udp : BitVec 16 := 5000
      let b : List Byte := lapSealed s ([0x4C,0x41,0x01,2,1,0] ++ leBytes 2 ([9,9] : List Byte).length ++ leBytes 4 7 ++ leBytes
        4 5 ++ leBytes 2 0x2101 ++ [2,0] ++ [9,9])
      let r : LapReq := (parseLap b).getD aLap
      let w0 := s.elapse dt
      let u := w0.takeLap p.val ip udp b
      let k := r.key.val
      decide (w0.serves = true ∧ w0.up (domEth p.val) = true ∧ u.lapValid b = some r ∧ (u.lapKey k).request ≠ b ∧ r.start =
        u.dict.startCount ∧ (u.lapKey k).counter < r.counter ∧ r.op = 2)) &&
     (let s : State := { R0.put [(0x5042,2,1,1)] with
          fc := 1000000000000, now := 1000000000000, twin.role := 0, boot.supRunning := true, dict.clients := [(2,
          { id := .lap 1 0x0A000009 5000, last := 0 })], dict.startCount := 7, dict.laps := [(1,
          { counter := 3, request := [], reply := [1,2] })], eth := [(1, { link := 2, arp := [⟨0x0A000009,9,0,0⟩] })] }
      let dt : Nat := 0
      let p : Fin 2 := 1
      let ip : BitVec 32 := 0x0A000009
      let udp : BitVec 16 := 5000
      let b : List Byte := lapSealed s ([0x4C,0x41,0x01,3,1,0] ++ leBytes 2 ([] : List Byte).length ++ leBytes 4 7 ++ leBytes 4
        5 ++ leBytes 2 0 ++ [0,0] ++ [])
      let r : LapReq := (parseLap b).getD aLap
      let w0 := s.elapse dt
      let u := w0.takeLap p.val ip udp b
      let who : ClientId := .lap r.key ip udp
      let k := r.key.val
      let n := 2
      decide (w0.serves = true ∧ w0.up (domEth p.val) = true ∧ u.lapValid b = some r ∧ (u.lapKey k).request ≠ b ∧ r.start =
        u.dict.startCount ∧ (u.lapKey k).counter < r.counter ∧ r.op = 3 ∧ u.slotOf who = some n)))
    = true := by decide +kernel

/-- States that meet the hypotheses of SpiTarget, clause by clause. -/
theorem witness_SpiTarget :
    ((let s : State := { R0.put [] with
          fc := 1000000000000, now := 1000000000000, twin.role := 0, boot.supRunning := true, fabric.stopped := [.spi],
          dict.clients := [(0, { id := .spi, last := 0 })] }
      let dt : Nat := 0
      let u := s.elapse dt
      decide (u.fabric.stopped.contains .spi = true)) &&
     (let s : State := {
          { R0.put [] with
              fc := 1000000000000, now := 1000000000000, twin.role := 0, boot.supRunning := true, dict.clients := [(0,
              { id := .spi, last := 0 })] } with boot.supRunning := false }
      let dt : Nat := 0
      let u := s.elapse dt
      let clock : Bool := decide (u.fabric.stopped.contains .spi = false)
      decide (clock ∧ (u.serves = false ∨ u.flows 0x84 = false))) &&
     (let s : State := {
          { R0.put [] with
              fc := 1000000000000, now := 1000000000000, twin.role := 0, boot.supRunning := true, dict.clients := [(0,
              { id := .spi, last := 0 })] } with boot.supRunning := false }
      let dt : Nat := 0
      let u := s.elapse dt
      let clock : Bool := decide (u.fabric.stopped.contains .spi = false)
      decide (clock ∧ u.serves = false)) &&
     (let s : State := { R0.put [] with
          fc := 1000000000000, now := 1000000000000, twin.role := 0, boot.supRunning := true, dict.clients := [(0,
          { id := .spi, last := 0 })] }
      let dt : Nat := 0
      let b : List Byte := [0xA5,1,2]
      let u := s.elapse dt
      let clock : Bool := decide (u.fabric.stopped.contains .spi = false)
      decide (u.serves = true ∧ clock ∧ u.flows 0x84 = true ∧ (b.length < 12 ∨ byteAt 0 b ≠ 0xA5))) &&
     (let s : State := { R0.put [] with
          fc := 1000000000000, now := 1000000000000, twin.role := 0, boot.supRunning := true, dict.clients := [(0,
          { id := .spi, last := 0 })] }
      let dt : Nat := 0
      let b : List Byte := List.replicate 14 0xA5
      let u := s.elapse dt
      let clock : Bool := decide (u.fabric.stopped.contains .spi = false)
      decide (u.serves = true ∧ clock ∧ u.flows 0x84 = true ∧ 12 ≤ b.length ∧ byteAt 0 b = 0xA5 ∧ spiSound b = false)) &&
     (let s : State := { R0.put [] with
          fc := 1000000000000, now := 1000000000000, twin.role := 0, boot.supRunning := true, dict.clients := [(0,
          { id := .spi, last := 0 })] }
      let dt : Nat := 0
      let b : List Byte := spiSealed ([0xA5,1,77,0] ++ leBytes 2 0x2101 ++ [3,0] ++ leBytes 2 ([] : List Byte).length ++ [])
      let u := s.elapse dt
      let clock : Bool := decide (u.fabric.stopped.contains .spi = false)
      decide (u.serves = true ∧ clock ∧ u.flows 0x84 = true ∧ 12 ≤ b.length ∧ byteAt 0 b = 0xA5 ∧ spiSound b = true ∧ byteAt 1 b
        = 1)) &&
     (let s : State := { R0.put [] with
          fc := 1000000000000, now := 1000000000000, twin.role := 0, boot.supRunning := true, dict.clients := [(0,
          { id := .spi, last := 0 })] }
      let dt : Nat := 0
      let b : List Byte := spiSealed ([0xA5,2,77,0] ++ leBytes 2 0x2101 ++ [2,0] ++ leBytes 2 ([9,9] : List Byte).length ++
        [9,9])
      let u := s.elapse dt
      let clock : Bool := decide (u.fabric.stopped.contains .spi = false)
      decide (u.serves = true ∧ clock ∧ u.flows 0x84 = true ∧ 12 ≤ b.length ∧ byteAt 0 b = 0xA5 ∧ spiSound b = true ∧ byteAt 1 b
        = 2)) &&
     (let s : State := { R0.put [] with
          fc := 1000000000000, now := 1000000000000, twin.role := 0, boot.supRunning := true, dict.clients := [(0,
          { id := .spi, last := 0 })] }
      let dt : Nat := 0
      let u := s.elapse dt
      let clock : Bool := decide (u.fabric.stopped.contains .spi = false)
      decide (u.serves = true ∧ clock ∧ u.dict.spiReply = none)) &&
     (let s : State := { R0.put [] with
          fc := 1000000000000, now := 1000000000000, twin.role := 0, fabric.queues := [(0x85, { wasReset := some .consumer })],
          boot.supRunning := true, dict.clients := [(0, { id := .spi, last := 0 })], dict.spiReply := some (7, .done [1,2,3]) }
      let dt : Nat := 0
      let seq : Nat := 7
      let r : Reply := .done [1,2,3]
      let u := s.elapse dt
      let clock : Bool := decide (u.fabric.stopped.contains .spi = false)
      decide (u.serves = true ∧ clock ∧ u.dict.spiReply = some (seq, r) ∧ u.yields 0x85 = false ∧ u.spiFresh = false)) &&
     (let s : State := { R0.put [] with
          fc := 1000000000000, now := 1000000000000, twin.role := 0, boot.supRunning := true, dict.clients := [(0,
          { id := .spi, last := 0 })], dict.spiAt := 1000000000000, dict.spiReply := some (7, .done [1,2,3]) }
      let dt : Nat := 0
      let seq : Nat := 7
      let r : Reply := .done [1,2,3]
      let u := s.elapse dt
      let clock : Bool := decide (u.fabric.stopped.contains .spi = false)
      decide (u.serves = true ∧ clock ∧ u.dict.spiReply = some (seq, r) ∧ u.yields 0x85 = true ∧ u.spiFresh = true)) &&
     (let s : State := { R0.put [] with
          fc := 1000000000000, now := 1000000000000, twin.role := 0, boot.supRunning := true, dict.clients := [(0,
          { id := .spi, last := 0 })], dict.spiReply := some (7, .done [1,2,3]) }
      let dt : Nat := 0
      let clocked : Nat := 3
      let seq : Nat := 7
      let r : Reply := .done [1,2,3]
      let u := s.elapse dt
      let clock : Bool := decide (u.fabric.stopped.contains .spi = false)
      decide (u.serves = true ∧ clock ∧ u.dict.spiReply = some (seq, r) ∧ u.yields 0x85 = true ∧ u.spiFresh = false ∧ clocked <
        (spiFrame seq r).length)) &&
     (let s : State := { R0.put [] with
          fc := 1000000000000, now := 1000000000000, twin.role := 0, boot.supRunning := true, dict.clients := [(0,
          { id := .spi, last := 0 })], dict.spiReply := some (7, .done [1,2,3]) }
      let dt : Nat := 0
      let clocked : Nat := 40
      let seq : Nat := 7
      let r : Reply := .done [1,2,3]
      let u := s.elapse dt
      let clock : Bool := decide (u.fabric.stopped.contains .spi = false)
      decide (u.serves = true ∧ clock ∧ u.dict.spiReply = some (seq, r) ∧ u.yields 0x85 = true ∧ u.spiFresh = false ∧ (spiFrame
        seq r).length ≤ clocked)))
    = true := by decide +kernel

/-- States that meet the hypotheses of EventLogAndAlerts, clause by clause. -/
theorem witness_EventLogAndAlerts :
    ((let s : State := { R0.put [] with fc := 1000000000000, now := 1000000000000, twin.role := 0, boot.supRunning := true }
      let dt : Nat := 0
      let u := s.elapse dt
      let h := u.health
      decide (u.works domSup = true ∧ h.waiting = [])) &&
     (let s : State := { R0.put [] with
          fc := 1000000000000, now := 1000000000000, twin.role := 0, boot.supRunning := true, health.waiting :=
            [{ code := 0x7001, a := 3, b := 4, kind := 0, astate := 0, at_ := 5, wstate := 6, fc := 999999999, start := 0 }],
          health.rates := [(0x7001, List.replicate 16 999999998)] }
      let dt : Nat := 0
      let e : Event :=
        { code := 0x7001, a := 3, b := 4, kind := 0, astate := 0, at_ := 5, wstate := 6, fc := 999999999, start := 0 }
      let rest : List Event := []
      let u := s.elapse dt
      let h := u.health
      let near := (Tbl.get [] e.code h.rates).filter (fun t => decide (e.fc < t + cyclesPerSec))
      decide (u.works domSup = true ∧ h.waiting = e :: rest ∧ e.kind = 0 ∧ 16 ≤ near.length)) &&
     (let s : State := { R0.put [] with
          fc := 1000000000000, now := 1000000000000, twin.role := 0, boot.supRunning := true, health.waiting :=
            [{ code := 0x7001, a := 3, b := 4, kind := 0, astate := 0, at_ := 5, wstate := 6, fc := 999999999, start := 0 },{
                code := 0x7001, a := 3, b := 4, kind := 0, astate := 0, at_ := 5, wstate := 6, fc := 999999999, start := 0 }],
          health.rates := [(0x7001, List.replicate 15 999999998)] }
      let dt : Nat := 0
      let e : Event :=
        { code := 0x7001, a := 3, b := 4, kind := 0, astate := 0, at_ := 5, wstate := 6, fc := 999999999, start := 0 }
      let rest : List Event :=
        [{ code := 0x7001, a := 3, b := 4, kind := 0, astate := 0, at_ := 5, wstate := 6, fc := 999999999, start := 0 }]
      let u := s.elapse dt
      let h := u.health
      let near := (Tbl.get [] e.code h.rates).filter (fun t => decide (e.fc < t + cyclesPerSec))
      decide (u.works domSup = true ∧ h.waiting = e :: rest ∧ e.kind = 0 ∧ near.length < 16)) &&
     (let s : State := { R0.put [] with
          fc := 1000000000000, now := 1000000000000, twin.role := 0, boot.supRunning := true, health.waiting :=
            [{ code := 0x5001, a := 3, b := 4, kind := 1, astate := 0, at_ := 5, wstate := 6, fc := 999999999, start := 0 }],
          health.alerts := [(0, {
              code := 0x4002, instance_ := 4, state := 2, revision := 99, raised := 1, a := 3, b := 4, sentAt := 5, changed := 6
                })] }
      let dt : Nat := 0
      let r : Nat := 1
      let e : Event :=
        { code := 0x5001, a := 3, b := 4, kind := 1, astate := 0, at_ := 5, wstate := 6, fc := 999999999, start := 0 }
      let rest : List Event := []
      let u := s.elapse dt
      let h := u.health
      let inst := e.a % 0x10000 + 1
      decide (u.works domSup = true ∧ h.waiting = e :: rest ∧ e.kind = 1 ∧ u.alertRow e.code inst = none ∧ u.alertRow 0xE0FF 1 =
        none ∧ (List.range 63).find? (fun r => !h.alerts.any (fun y => y.1 == r)) = some r ∧ evKind e.code ≠ .occurrence)) &&
     (let s : State := { R0.put [] with fc := 1000000000000, now := 1000000000000, twin.role := 0, boot.supRunning := true }
      let dt : Nat := 0
      let row : Fin 64 := 3
      let u := s.elapse dt
      let h := u.health
      decide (u.works domSup = true ∧ h.alerts.find? (fun y => y.1 == row.val) = none)) &&
     (let s : State := { R0.put [] with
          fc := 1000000000000, now := 1000000000000, twin.role := 0, boot.supRunning := true, health.alerts := [(3, {
              code := 0x5001, instance_ := 4, state := 2, revision := 99, raised := 1, a := 3, b := 4, sentAt := 5, changed := 6
                })] }
      let dt : Nat := 0
      let row : Fin 64 := 3
      let x : Alert :=
        { code := 0x5001, instance_ := 4, state := 2, revision := 99, raised := 1, a := 3, b := 4, sentAt := 5, changed := 6 }
      let u := s.elapse dt
      let h := u.health
      decide (u.works domSup = true ∧ h.alerts.find? (fun y => y.1 == row.val) = some (row.val, x) ∧ x.state ≠ 1 ∧ x.state ≠ 3)) &&
     (let s : State := { R0.put [] with
          fc := 1000000000000, now := 1000000000000, twin.role := 0, boot.supRunning := true, health.alerts := [(3, {
              code := 0x5001, instance_ := 4, state := 1, revision := 99, raised := 1, a := 3, b := 4, sentAt := 5, changed := 6
                })] }
      let dt : Nat := 0
      let row : Fin 64 := 3
      let x : Alert :=
        { code := 0x5001, instance_ := 4, state := 1, revision := 99, raised := 1, a := 3, b := 4, sentAt := 5, changed := 6 }
      let u := s.elapse dt
      let h := u.health
      decide (u.works domSup = true ∧ h.alerts.find? (fun y => y.1 == row.val) = some (row.val, x) ∧ x.state = 1)) &&
     (let s : State := { R0.put [] with
          fc := 1000000000000, now := 1000000000000, twin.role := 0, boot.supRunning := true, health.alerts := [(3, {
              code := 0x5001, instance_ := 4, state := 3, revision := 99, raised := 1, a := 3, b := 4, sentAt := 5, changed := 6
                })] }
      let dt : Nat := 0
      let row : Fin 64 := 3
      let x : Alert :=
        { code := 0x5001, instance_ := 4, state := 3, revision := 99, raised := 1, a := 3, b := 4, sentAt := 5, changed := 6 }
      let u := s.elapse dt
      let h := u.health
      decide (u.works domSup = true ∧ h.alerts.find? (fun y => y.1 == row.val) = some (row.val, x) ∧ x.state = 3 ∧
        h.alerts.find? (fun y => y.1 == 63) = none)) &&
     (let s : State := { R0.put [] with fc := 1000000000000, now := 1000000000000, twin.role := 0, boot.supRunning := true }
      let dt : Nat := 0
      let u := s.elapse dt
      let h := u.health
      decide (u.works domSup = true ∧ h.alerts = [])) &&
     (let s : State := { R0.put [] with
          fc := 1000000000000, now := 1000000000000, twin.role := 0, boot.supRunning := true, health.alerts := [(3, {
              code := 0x5001, instance_ := 4, state := 1, revision := 99, raised := 1, a := 3, b := 4, sentAt := 5, changed := 6
                })] }
      let dt : Nat := 0
      let r : Nat := 3
      let x : Alert :=
        { code := 0x5001, instance_ := 4, state := 1, revision := 99, raised := 1, a := 3, b := 4, sentAt := 5, changed := 6 }
      let u := s.elapse dt
      let h := u.health
      decide (u.works domSup = true ∧ h.alerts = [(r, x)] ∧ x.state = 1)) &&
     (let s : State := { R0.put [] with fc := 1000000000000, now := 1000000000000, twin.role := 0, boot.supRunning := true }
      let dt : Nat := 0
      let u := s.elapse dt
      let h := u.health
      decide (u.works domSup = true ∧ h.acnIn = [])) &&
     (let s : State := { R0.put [] with
          fc := 1000000000000, now := 1000000000000, twin.role := 0, boot.supRunning := true, health.alerts := [(3, {
              code := 0x5001, instance_ := 4, state := 1, revision := 99, raised := 1, a := 3, b := 4, sentAt := 5, changed := 6
                })], health.acnIn := [{ raw := ascii "$INACN,120000.00,HLX,20481,4,A,C*00" ++ [13,10] }] }
      let dt : Nat := 0
      let r : Nat := 3
      let x : Alert :=
        { code := 0x5001, instance_ := 4, state := 1, revision := 99, raised := 1, a := 3, b := 4, sentAt := 5, changed := 6 }
      let q : FibreRecord := { raw := ascii "$INACN,120000.00,HLX,20481,4,A,C*00" ++ [13,10] }
      let u := s.elapse dt
      let h := u.health
      decide (u.works domSup = true ∧ h.acnIn = [q] ∧ (acnFields q).1 = ascii "HLX" ∧ (acnFields q).2.2.2 = ascii "A" ∧
        u.alertRow (acnFields q).2.1 (acnFields q).2.2.1 = some r ∧ h.alerts.find? (fun y => y.1 == r) = some (r, x) ∧ x.state =
        1)))
    = true := by decide +kernel

/-- States that meet the hypotheses of DeviceSentences, clause by clause. -/
theorem witness_DeviceSentences :
    ((let s : State :=
        { R0.put [(0x5800,5,0,30)] with fc := 1000000000000, now := 1000000000000, twin.role := 0, boot.supRunning := true }
      let dt : Nat := 0
      let row : Fin 64 := 3
      let u := s.elapse dt
      let h := u.health
      let iv := u.cn 0x5800 5 0
      decide (u.works domSup = true ∧ (h.alerts.find? (fun y => y.1 == row.val) = none ∨ iv = 0))) &&
     (let s : State := { R0.put [(0x5800,5,0,30)] with
          fc := 1000000000000, now := 1000000000000, twin.role := 0, boot.supRunning := true, health.alerts := [(3, {
              code := 0x5001, instance_ := 4, state := 2, revision := 99, raised := 1, a := 3, b := 4, sentAt := 5, changed := 6
                })] }
      let dt : Nat := 0
      let row : Fin 64 := 3
      let x : Alert :=
        { code := 0x5001, instance_ := 4, state := 2, revision := 99, raised := 1, a := 3, b := 4, sentAt := 5, changed := 6 }
      let u := s.elapse dt
      let h := u.health
      let iv := u.cn 0x5800 5 0
      decide (u.works domSup = true ∧ h.alerts.find? (fun y => y.1 == row.val) = some (row.val, x) ∧ (x.state = 2 ∨ u.fc -
        x.sentAt < iv * cyclesPerSec))) &&
     (let s : State := { R0.put [(0x5800,5,0,30)] with
          fc := 1000000000000, now := 1000000000000, twin.role := 0, boot.supRunning := true, health.alerts := [(3, {
              code := 0x5001, instance_ := 4, state := 3, revision := 99, raised := 1, a := 3, b := 4, sentAt := 5, changed := 6
                })] }
      let dt : Nat := 0
      let row : Fin 64 := 3
      let x : Alert :=
        { code := 0x5001, instance_ := 4, state := 3, revision := 99, raised := 1, a := 3, b := 4, sentAt := 5, changed := 6 }
      let u := s.elapse dt
      let h := u.health
      let iv := u.cn 0x5800 5 0
      decide (u.works domSup = true ∧ h.alerts.find? (fun y => y.1 == row.val) = some (row.val, x) ∧ iv ≠ 0 ∧ (x.state = 1 ∨
        x.state = 3) ∧ iv * cyclesPerSec ≤ u.fc - x.sentAt)) &&
     (let s : State := { R0.put [] with fc := 1000000000000, now := 1000000000000, twin.role := 0, boot.supRunning := true }
      let dt : Nat := 0
      let u := s.elapse dt
      let h := u.health
      decide (u.works domSup = true ∧ h.acnIn = [])) &&
     (let s : State := { R0.put [] with
          fc := 1000000000000, now := 1000000000000, twin.role := 0, boot.supRunning := true, health.alerts := [(3, {
              code := 0x5001, instance_ := 4, state := 2, revision := 99, raised := 1, a := 3, b := 4, sentAt := 5, changed := 6
                })], health.acnIn := [{ raw := ascii "$INACN,120000.00,HLX,20481,4,Q,C*00" ++ [13,10] }] }
      let dt : Nat := 0
      let r : Nat := 3
      let x : Alert :=
        { code := 0x5001, instance_ := 4, state := 2, revision := 99, raised := 1, a := 3, b := 4, sentAt := 5, changed := 6 }
      let q : FibreRecord := { raw := ascii "$INACN,120000.00,HLX,20481,4,Q,C*00" ++ [13,10] }
      let u := s.elapse dt
      let h := u.health
      decide (u.works domSup = true ∧ h.acnIn = [q] ∧ (acnFields q).1 = ascii "HLX" ∧ (acnFields q).2.2.2 = ascii "Q" ∧
        u.alertRow (acnFields q).2.1 (acnFields q).2.2.1 = some r ∧ h.alerts.find? (fun y => y.1 == r) = some (r, x))) &&
     (let s : State := { R0.put [(0x5800,6,0,30)] with
          fc := 1000000000000, now := 1000000000000, twin.role := 0, boot.supRunning := true, health.lastAlc := 999999999999 }
      let dt : Nat := 0
      let u := s.elapse dt
      let h := u.health
      let lv := u.cn 0x5800 6 0
      decide (u.works domSup = true ∧ (lv = 0 ∨ u.fc - h.lastAlc < lv * cyclesPerSec))) &&
     (let s : State := { R0.put [(0x5800,6,0,30)] with
          fc := 1000000000000, now := 1000000000000, twin.role := 0, boot.supRunning := true, health.lastAlc := 9 }
      let dt : Nat := 0
      let u := s.elapse dt
      let h := u.health
      let lv := u.cn 0x5800 6 0
      decide (u.works domSup = true ∧ lv ≠ 0 ∧ lv * cyclesPerSec ≤ u.fc - h.lastAlc ∧ h.alerts = [])) &&
     (let s : State := { R0.put [(0x5800,6,0,30)] with
          fc := 1000000000000, now := 1000000000000, twin.role := 0, boot.supRunning := true, health.lastAlc := 9, health.alcId
            := 9, health.alerts := [(3, {
                code := 0x5001, instance_ := 4, state := 2, revision := 99, raised := 1, a := 3, b := 4, sentAt := 5, changed :=
                  6 })] }
      let dt : Nat := 0
      let u := s.elapse dt
      let h := u.health
      let lv := u.cn 0x5800 6 0
      decide (u.works domSup = true ∧ lv ≠ 0 ∧ lv * cyclesPerSec ≤ u.fc - h.lastAlc ∧ h.alerts ≠ [] ∧ h.alerts.length ≤ 4)) &&
     (let s : State :=
        { R0.put [(0x5803,1,0,0)] with fc := 1000000000000, now := 1000000000000, twin.role := 0, boot.supRunning := true }
      let dt : Nat := 0
      let u := s.elapse dt
      let h := u.health
      let sd := h.statusGrid.due (u.cn 0x5803 1 0) u.time
      decide (u.works domSup = true ∧ u.works domFabric = true ∧ sd = false)) &&
     (let s : State := { R0.put [(0x5803,1,0,1000)] with
          fc := 1000000000000, now := 1000000000000, twin.role := 0, boot.supRunning := true, wheels.time.pos := accOf
            0x500000000 }
      let dt : Nat := 0
      let u := s.elapse dt
      let h := u.health
      let sd := h.statusGrid.due (u.cn 0x5803 1 0) u.time
      decide (u.works domSup = true ∧ u.works domFabric = true ∧ sd = true)) &&
     (let s : State :=
        { R0.put [(0x5803,2,0,0)] with fc := 1000000000000, now := 1000000000000, twin.role := 0, boot.supRunning := true }
      let dt : Nat := 0
      let u := s.elapse dt
      let h := u.health
      let wd := h.wheelGrid.due (u.cn 0x5803 2 0) u.time
      decide (u.works domSup = true ∧ u.works domFabric = true ∧ wd = false)) &&
     (let s : State := { R0.put [(0x5803,2,0,1000),(0x5803,3,0,5)] with
          fc := 1000000000000, now := 1000000000000, twin.role := 0, boot.supRunning := true, wheels.time.pos := accOf
            0x500000000 }
      let dt : Nat := 0
      let u := s.elapse dt
      let h := u.health
      let wd := h.wheelGrid.due (u.cn 0x5803 2 0) u.time
      decide (u.works domSup = true ∧ u.works domFabric = true ∧ wd = true)))
    = true := by decide +kernel

/-- States that meet the hypotheses of LinkAndHeartbeat, clause by clause. -/
theorem witness_LinkAndHeartbeat :
    ((let s : State :=
        { R0.put [(0x4000,9,0,3)] with fc := 1000000000000, now := 1000000000000, twin.role := 0, boot.supRunning := true }
      let dt : Nat := 0
      let lane : Fin 2 := 1
      let u := s.elapse dt
      let x := u.twin
      decide (u.works domSup = true ∧ u.works domJoile = true ∧ (x.role = 0 ∨ u.lanesUsed.contains lane.val = false))) &&
     (let s : State := { R0.put [(0x4000,9,0,3)] with
          fc := 1000000000000, now := 1000000000000, twin.role := 1, boot.supRunning := true, twin.lanes := [(0,true)] }
      let dt : Nat := 0
      let lane : Fin 2 := 1
      let u := s.elapse dt
      let x := u.twin
      decide (u.works domSup = true ∧ u.works domJoile = true ∧ x.role ≠ 0 ∧ u.lanesUsed.contains lane.val = true)) &&
     (let s : State := { R0.put [(0x4000,9,0,3)] with
          fc := 1000000000000, now := 1000000000000, twin.role := 4, boot.supRunning := true, twin.lanes := [(0,true)] }
      let dt : Nat := 0
      let lane : Fin 2 := 1
      let u := s.elapse dt
      let x := u.twin
      decide (u.works domSup = true ∧ u.works domJoile = true ∧ Tbl.get false lane.val x.lanes = false)) &&
     (let s : State := { R0.put [(0x4000,9,0,3)] with
          fc := 1000000000000, now := 1000000000000, twin.role := 4, boot.supRunning := true, twin.lanes := [(1,true)],
          twin.peerAccepted := true, twin.peerAccepts := true }
      let dt : Nat := 0
      let lane : Fin 2 := 1
      let u := s.elapse dt
      let x := u.twin
      decide (u.works domSup = true ∧ u.works domJoile = true ∧ Tbl.get false lane.val x.lanes = true)) &&
     (let s : State :=
        { R0.put [(0x4000,9,0,3)] with fc := 1000000000000, now := 1000000000000, twin.role := 4, boot.supRunning := true }
      let dt : Nat := 0
      let u := s.elapse dt
      let x := u.twin
      decide (u.works domSup = true ∧ u.works domJoile = true ∧ (x.role = 0 ∨ u.linkUp = false ∨ u.helloDue = false))) &&
     (let s : State := { R0.put [(0x4000,9,0,3)] with
          fc := 1000000000000, now := 1000000000000, twin.role := 4, boot.supRunning := true, twin.lanes := [(0,true),(1,true)]
            }
      let dt : Nat := 0
      let u := s.elapse dt
      let x := u.twin
      decide (u.works domSup = true ∧ u.works domJoile = true ∧ x.role ≠ 0 ∧ u.linkUp = true ∧ u.helloDue = true)) &&
     (let s : State := { R0.put [(0x4000,9,0,3)] with
          fabric.stopped := [.joile], fc := 1000000000000, now := 1000000000000, twin.role := 0, boot.supRunning := true }
      let dt : Nat := 0
      let u := s.elapse dt
      let link : Bool := decide (u.flows 0x83 = true ∧ u.fabric.stopped.contains .joile = false)
      decide (u.works domSup = true ∧ u.works domJoile = true ∧ ¬ link)) &&
     (let s : State :=
        { R0.put [(0x4000,9,0,3)] with fc := 1000000000000, now := 1000000000000, twin.role := 0, boot.supRunning := true }
      let dt : Nat := 0
      let u := s.elapse dt
      let x := u.twin
      let link : Bool := decide (u.flows 0x83 = true ∧ u.fabric.stopped.contains .joile = false)
      decide (u.works domSup = true ∧ u.works domJoile = true ∧ link ∧ (x.role = 0 ∨ u.linkUp = false))) &&
     (let s : State :=
        { R0.put [(0x4000,9,0,3)] with fc := 1000000000000, now := 1000000000000, twin.role := 0, boot.supRunning := true }
      let dt : Nat := 0
      let u := s.elapse dt
      let x := u.twin
      let link : Bool := decide (u.flows 0x83 = true ∧ u.fabric.stopped.contains .joile = false)
      decide (u.works domSup = true ∧ u.works domJoile = true ∧ link ∧ (x.role = 0 ∨ u.linkUp = false ∨ x.peerAccepted = false))) &&
     (let s : State := { R0.put [(0x4000,9,0,3)] with
          fc := 1000000000000, now := 1000000000000, twin.role := 4, boot.supRunning := true, twin.lanes := [(0,true),(1,true)],
          twin.peerAccepted := true, twin.peerAccepts := true }
      let dt : Nat := 0
      let u := s.elapse dt
      let x := u.twin
      let link : Bool := decide (u.flows 0x83 = true ∧ u.fabric.stopped.contains .joile = false)
      decide (u.works domSup = true ∧ u.works domJoile = true ∧ link ∧ x.role ≠ 0 ∧ u.linkUp = true ∧ x.peerAccepted = true)) &&
     (let s : State :=
        { R0.put [(0x4000,9,0,3)] with fc := 1000000000000, now := 1000000000000, twin.role := 0, boot.supRunning := true }
      let dt : Nat := 0
      let u := s.elapse dt
      let x := u.twin
      decide (u.works domSup = true ∧ u.works domJoile = true ∧ u.works domFabric = true ∧ (u.formed = false ∨ u.fc - x.lastHb <
        10 * cyclesPerUs))) &&
     (let s : State := { R0.put [(0x4000,9,0,3)] with
          fc := 1000000000000, now := 1000000000000, twin.role := 4, boot.supRunning := true, twin.lanes := [(0,true),(1,true)],
          twin.peerAccepted := true, twin.peerAccepts := true }
      let dt : Nat := 0
      let u := s.elapse dt
      let x := u.twin
      decide (u.works domSup = true ∧ u.works domJoile = true ∧ u.works domFabric = true ∧ u.formed = true ∧ 10 * cyclesPerUs ≤
        u.fc - x.lastHb)) &&
     (let s : State := { R0.put [(0x4000,9,0,3)] with
          fc := 1000000000000, now := 1000000000000, twin.role := 4, boot.supRunning := true, twin.lanes := [(0,true),(1,true)],
          twin.peerAccepted := true, twin.peerAccepts := true, twin.lostAt := some 5 }
      let dt : Nat := 0
      let u := s.elapse dt
      let x := u.twin
      decide (u.works domSup = true ∧ u.works domJoile = true ∧ u.works domFabric = true ∧ x.lostAt.isSome = true)) &&
     (let s : State := { R0.put [(0x4000,9,0,3)] with
          fc := 1000000000000, now := 1000000000000, twin.role := 4, boot.supRunning := true, twin.lanes := [(0,true),(1,true)],
          twin.peerAccepted := true, twin.peerAccepts := true, twin.heartbeat := true, twin.lastBeat := some 5, twin.formedAt :=
            some 999999999999 }
      let dt : Nat := 0
      let b : Nat := 5
      let f : Nat := 999999999999
      let u := s.elapse dt
      let x := u.twin
      decide (u.works domSup = true ∧ u.works domJoile = true ∧ u.works domFabric = true ∧ x.lostAt = none ∧ x.heartbeat = true
        ∧ x.lastBeat = some b ∧ x.formedAt = some f ∧ u.fc - Nat.max b f < 40 * cyclesPerUs)) &&
     (let s : State := { R0.put [(0x4000,9,0,3)] with
          fc := 1000000000000, now := 1000000000000, twin.role := 4, boot.supRunning := true, twin.lanes := [(0,true),(1,true)],
          twin.peerAccepted := true, twin.peerAccepts := true, twin.heartbeat := true, twin.lastBeat := some 5, twin.formedAt :=
            some 9, twin.handover := some 8, appts.handRow := some 8 }
      let dt : Nat := 0
      let b : Nat := 5
      let f : Nat := 9
      let u := s.elapse dt
      let x := u.twin
      decide (u.works domSup = true ∧ u.works domJoile = true ∧ u.works domFabric = true ∧ x.lostAt = none ∧ x.heartbeat = true
        ∧ x.lastBeat = some b ∧ x.formedAt = some f ∧ 40 * cyclesPerUs ≤ u.fc - Nat.max b f ∧ x.role ≠ 5 ∧ x.handIn = false)))
    = true := by decide +kernel

/-- States that meet the hypotheses of WiresAndRoles, clause by clause. -/
theorem witness_WiresAndRoles :
    ((let s : State :=
        { R0.put [(0x4000,9,0,3)] with fc := 1000000000000, now := 1000000000000, twin.role := 4, boot.supRunning := true }
      let dt : Nat := 0
      let u := s.elapse dt
      let x := u.twin
      decide (x.role ≠ 1 ∧ x.role ≠ 3)) &&
     (let s : State := { R0.put [(0x4000,9,0,3)] with
          fc := 1000000000000, now := 1000000000000, twin.role := 3, boot.supRunning := true, twin.arbOwn := true, appts.handRow
            := some 7 }
      let dt : Nat := 0
      let u := s.elapse dt
      let x := u.twin
      decide ((x.role = 1 ∨ x.role = 3) ∧ u.up domSup = true)) &&
     (let s : State := { R0.put [(0x4000,9,0,3)] with
          fc := 1000000000000, now := 1000000000000, twin.role := 4, boot.supRunning := true, twin.arbOwn := true, twin.arbPeer
            := true }
      let dt : Nat := 0
      let u := s.elapse dt
      let x := u.twin
      decide ((x.arbOwn = true ∨ x.arbPeer = false) ∧ (u.up domSup = false ∨ x.role ≠ 5 ∨ x.lostAt = none))) &&
     (let s : State := { R0.put [(0x4000,9,0,3)] with
          fc := 1000000000000, now := 1000000000000, twin.role := 5, twin.lostAt := some 9, boot.supRunning := true, twin.arbOwn
            := true, appts.handRow := some 7 }
      let dt : Nat := 0
      let u := s.elapse dt
      let x := u.twin
      decide (x.arbOwn = true ∧ u.up domSup = true ∧ x.role = 5 ∧ x.lostAt.isSome = true)) &&
     (let s : State := { R0.put [(0x4000,9,0,3)] with
          fc := 1000000000000, now := 1000000000000, twin.role := 1, boot.supRunning := true, twin.arbPeer := true }
      let dt : Nat := 0
      let u := s.elapse dt
      let x := u.twin
      decide (x.arbOwn = false ∧ x.arbPeer = true ∧ u.up domSup = true)) &&
     (let s : State := { R0.put [(0x4000,9,0,3)] with
          fc := 1000000000000, now := 1000000000000, twin.role := 4, boot.supRunning := true, twin.beatOutAt := 999999999999 }
      let dt : Nat := 0
      let u := s.elapse dt
      let x := u.twin
      decide (u.works domSup = true ∧ (x.role = 0 ∨ u.boot.supRunning = false ∨ u.now - x.beatOutAt < 500 * cyclesPerUs))) &&
     (let s : State :=
        { R0.put [(0x4000,9,0,3)] with fc := 1000000000000, now := 1000000000000, twin.role := 4, boot.supRunning := true }
      let dt : Nat := 0
      let u := s.elapse dt
      let x := u.twin
      decide (u.works domSup = true ∧ x.role ≠ 0 ∧ u.boot.supRunning = true ∧ 500 * cyclesPerUs ≤ u.now - x.beatOutAt)) &&
     (let s : State :=
        { R0.put [(0x4000,9,0,3)] with fc := 1000000000000, now := 1000000000000, twin.role := 0, boot.supRunning := true }
      let dt : Nat := 0
      let u := s.elapse dt
      let x := u.twin
      decide (u.works domSup = true ∧ x.role = 0)) &&
     (let s : State := { R0.put [(0x4000,9,0,3)] with
          fc := 1000000000000, now := 1000000000000, twin.role := 2, boot.supRunning := true, twin.beatInAt := 999999999999,
          twin.beatIn := true }
      let dt : Nat := 0
      let u := s.elapse dt
      let x := u.twin
      decide (u.works domSup = true ∧ x.role ≠ 0)) &&
     (let s : State :=
        { R0.put [(0x4000,9,0,3)] with fc := 1000000000000, now := 1000000000000, twin.role := 4, boot.supRunning := true }
      let dt : Nat := 0
      let u := s.elapse dt
      let x := u.twin
      decide (u.works domSup = true ∧ (x.beatIn = false ∨ u.now - x.beatInAt < 1500 * cyclesPerUs))) &&
     (let s : State := { R0.put [(0x4000,9,0,3)] with
          fc := 1000000000000, now := 1000000000000, twin.role := 2, boot.supRunning := true, twin.beatInAt := 9, twin.beatIn :=
            true }
      let dt : Nat := 0
      let u := s.elapse dt
      let x := u.twin
      decide (u.works domSup = true ∧ x.beatIn = true ∧ 1500 * cyclesPerUs ≤ u.now - x.beatInAt ∧ x.lostAt = none)) &&
     (let s : State := { R0.put [(0x4000,9,0,3)] with
          fc := 1000000000000, now := 1000000000000, twin.role := 2, boot.supRunning := true, twin.beatInAt := 9, twin.beatIn :=
            true, twin.lostAt := some 8 }
      let dt : Nat := 0
      let u := s.elapse dt
      let x := u.twin
      decide (u.works domSup = true ∧ x.beatIn = true ∧ 1500 * cyclesPerUs ≤ u.now - x.beatInAt ∧ x.lostAt.isSome = true)) &&
     (let s : State :=
        { R0.put [(0x4000,9,0,3)] with fc := 1000000000000, now := 1000000000000, twin.role := 4, boot.supRunning := true }
      let dt : Nat := 0
      let u := s.elapse dt
      decide (u.works domSup = true ∧ u.mayTake = false)) &&
     (let s : State :=
        { R0.put [(0x4000,9,0,3)] with fc := 1000000000000, now := 1000000000000, twin.role := 2, boot.supRunning := true }
      let dt : Nat := 0
      let u := s.elapse dt
      decide (u.works domSup = true ∧ u.mayTake = true)) &&
     (let s : State :=
        { R0.put [(0x4000,9,0,3)] with fc := 1000000000000, now := 1000000000000, twin.role := 4, boot.supRunning := true }
      let dt : Nat := 0
      let u := s.elapse dt
      let x := u.twin
      decide (u.works domSup = true ∧ (x.role ≠ 3 ∨ u.arbHigh = false ∨ u.now - x.arbSince < 2 * cyclesPerMs))) &&
     (let s : State := { R0.put [(0x4000,9,0,3)] with
          fc := 1000000000000, now := 1000000000000, twin.role := 3, boot.supRunning := true, twin.arbSince := 999990000000 }
      let dt : Nat := 0
      let u := s.elapse dt
      let x := u.twin
      decide (u.works domSup = true ∧ x.role = 3 ∧ u.arbHigh = true ∧ 2 * cyclesPerMs ≤ u.now - x.arbSince)) &&
     (let s : State :=
        { R0.put [(0x4000,9,0,3)] with fc := 1000000000000, now := 1000000000000, twin.role := 4, boot.supRunning := true }
      let dt : Nat := 0
      let u := s.elapse dt
      let x := u.twin
      decide (u.works domSup = true ∧ (x.claimAt = none ∨ x.role ≠ 1 ∨ u.arbHigh = false))) &&
     (let s : State := { R0.put [(0x4000,9,0,3)] with
          fc := 1000000000000, now := 1000000000000, twin.role := 1, boot.supRunning := true, twin.claimAt := some 5000000000000
            }
      let dt : Nat := 0
      let c : Nat := 5000000000000
      let u := s.elapse dt
      let x := u.twin
      decide (u.works domSup = true ∧ x.claimAt = some c ∧ u.now < c)) &&
     (let s : State := { R0.put [(0x4000,9,0,3)] with
          fc := 1000000000000, now := 1000000000000, twin.role := 1, boot.supRunning := true, twin.claimAt := some 5 }
      let dt : Nat := 0
      let c : Nat := 5
      let u := s.elapse dt
      let x := u.twin
      decide (u.works domSup = true ∧ x.claimAt = some c ∧ c ≤ u.now ∧ x.role = 1 ∧ u.arbHigh = true ∧ (x.lastBeat = none ∨
        activeRole x.peerRole = false))))
    = true := by decide +kernel

/-- States that meet the hypotheses of WitnessAndHandover, clause by clause. -/
theorem witness_WitnessAndHandover :
    ((let s : State := { R0.put [(0x4000,9,0,3)] with
          fc := 1000000000000, now := 1000000000000, twin.role := 4, boot.supRunning := true, fabric.queues := [(0x35,
          { wasReset := some .consumer })] }
      let dt : Nat := 0
      let port : Fin 2 := 1
      let u := s.elapse dt
      decide (u.works domSup = true ∧ u.yields (0x34 + port.val) = false)) &&
     (let s : State := { R0.put [(0x4000,9,0,3)] with
          fc := 1000000000000, now := 1000000000000, twin.role := 4, boot.supRunning := true, eth := [] }
      let dt : Nat := 0
      let port : Fin 2 := 1
      let u := s.elapse dt
      decide (u.works domSup = true ∧ u.yields (0x34 + port.val) = true ∧ (u.ep port.val).supIn = [])) &&
     (let s : State := { R0.put [(0x4000,9,0,3)] with
          fc := 1000000000000, now := 1000000000000, twin.role := 4, boot.supRunning := true, eth := [(1,
          { supIn := [rxf [1], rxf []] })] }
      let dt : Nat := 0
      let port : Fin 2 := 1
      let f : RxFrame := rxf [1]
      let rest : List RxFrame := [rxf []]
      let u := s.elapse dt
      decide (u.works domSup = true ∧ u.yields (0x34 + port.val) = true ∧ (u.ep port.val).supIn = f :: rest ∧ f.witness = false)) &&
     (let s : State := { R0.put [(0x4000,9,0,3)] with
          fc := 1000000000000, now := 1000000000000, twin.role := 4, boot.supRunning := true, eth := [(1,
          { supIn := [{ rxf [1] with witness := true }, rxf []] })] }
      let dt : Nat := 0
      let port : Fin 2 := 1
      let f : RxFrame := { rxf [1] with witness := true }
      let rest : List RxFrame := [rxf []]
      let u := s.elapse dt
      let shut := (u.modEp port.val (fun e => { e with supIn := rest })).popped (0x34 + port.val) u
      decide (u.works domSup = true ∧ u.yields (0x34 + port.val) = true ∧ (u.ep port.val).supIn = f :: rest ∧ f.witness = true ∧
        shut.isWitness f = false)) &&
     (let s : State := { R0.put [(0x4000,9,0,3)] with
          fc := 1000000000000, now := 1000000000000, twin.role := 2, boot.supRunning := true, eth := [(1, {
              supIn := [{
                  rxf (udpFrame 0x01005E000001 0x020000000099 9 0xEF000001 1 1 5 6 (ascii "UdPbC" ++ [0] ++ ascii "\\s:" ++
                    State.reset.ct 0x2500 1 0 ++ ascii "*00\\$X")) with witness := true }, rxf []] })] }
      let dt : Nat := 0
      let port : Fin 2 := 1
      let f : RxFrame := {
          rxf (udpFrame 0x01005E000001 0x020000000099 9 0xEF000001 1 1 5 6 (ascii "UdPbC" ++ [0] ++ ascii "\\s:" ++
            State.reset.ct 0x2500 1 0 ++ ascii "*00\\$X")) with witness := true }
      let rest : List RxFrame := [rxf []]
      let u := s.elapse dt
      let x := u.twin
      let shut := (u.modEp port.val (fun e => { e with supIn := rest })).popped (0x34 + port.val) u
      decide (u.works domSup = true ∧ u.yields (0x34 + port.val) = true ∧ (u.ep port.val).supIn = f :: rest ∧ f.witness = true ∧
        shut.isWitness f = true ∧ x.handAt = 0 ∧ x.role ≠ 3 ∧ x.role ≠ 4)) &&
     (let s : State := { R0.put [(0x4000,9,0,3)] with
          fc := 1000000000000, now := 1000000000000, twin.role := 4, boot.supRunning := true, eth := [(1, {
              supIn := [{
                  rxf (udpFrame 0x01005E000001 0x020000000099 9 0xEF000001 1 1 5 6 (ascii "UdPbC" ++ [0] ++ ascii "\\s:" ++
                    State.reset.ct 0x2500 1 0 ++ ascii "*00\\$X")) with witness := true }, rxf []] })] }
      let dt : Nat := 0
      let port : Fin 2 := 1
      let f : RxFrame := {
          rxf (udpFrame 0x01005E000001 0x020000000099 9 0xEF000001 1 1 5 6 (ascii "UdPbC" ++ [0] ++ ascii "\\s:" ++
            State.reset.ct 0x2500 1 0 ++ ascii "*00\\$X")) with witness := true }
      let rest : List RxFrame := [rxf []]
      let u := s.elapse dt
      let x := u.twin
      let shut := (u.modEp port.val (fun e => { e with supIn := rest })).popped (0x34 + port.val) u
      decide (u.works domSup = true ∧ u.yields (0x34 + port.val) = true ∧ (u.ep port.val).supIn = f :: rest ∧ f.witness = true ∧
        shut.isWitness f = true ∧ x.handAt = 0 ∧ (x.role = 3 ∨ x.role = 4))) &&
     (let s : State :=
        { R0.put [(0x4000,9,0,3)] with fc := 1000000000000, now := 1000000000000, twin.role := 4, boot.supRunning := true }
      let dt : Nat := 0
      let u := s.elapse dt
      let x := u.twin
      decide (u.works domSup = true ∧ x.witnessAt = none)) &&
     (let s : State := { R0.put [(0x4000,9,0,3)] with
          fc := 1000000000000, now := 1000000000000, twin.role := 4, boot.supRunning := true, twin.witnessAt := some 8,
          twin.steppedDown := true }
      let dt : Nat := 0
      let w : Nat := 8
      let u := s.elapse dt
      let x := u.twin
      decide (u.works domSup = true ∧ x.witnessAt = some w)) &&
     (let s : State := { R0.put [(0x4000,9,0,3)] with
          fc := 1000000000000, now := 1000000000000, twin.role := 4, boot.supRunning := true, dict.clients := [(0,
          { id := .spi, last := 0 })] }
      let dt : Nat := 0
      let u := s.elapse dt
      let x := u.twin
      decide (u.works domSup = true ∧ (x.role ≠ 2 ∨ u.formed = false ∨ x.heartbeat = false ∨ u.askReason = none))) &&
     (let s : State := { R0.put [(0x4000,9,0,3)] with
          fc := 1000000000000, now := 1000000000000, twin.role := 2, boot.supRunning := true, twin.lanes := [(0,true),(1,true)],
          twin.peerAccepted := true, twin.peerAccepts := true, twin.heartbeat := true, twin.peerRole := 4, twin.peerMode := 2,
          boot.mode := 1 }
      let dt : Nat := 0
      let n : Nat := 2
      let u := s.elapse dt
      let x := u.twin
      decide (u.works domSup = true ∧ x.role = 2 ∧ u.formed = true ∧ x.heartbeat = true ∧ x.handoverAsked = none ∧ x.handover =
        none ∧ u.askReason = some n)) &&
     (let s : State := { R0.put [(0x4000,9,0,3)] with
          fc := 1000000000000, now := 1000000000000, twin.role := 4, boot.supRunning := true, dict.clients := [(0,
          { id := .spi, last := 0 })] }
      let dt : Nat := 0
      let n : Nat := 0
      let who : ClientId := .spi
      let u := s.elapse dt
      let x := u.twin
      decide (u.works domSup = true ∧ admitted who n 0x4000 u ∧ (x.role ≠ 4 ∨ 2 ≤ u.boot.mode ∨ x.peerRole ≠ 2 ∨ x.heartbeat =
        false))) &&
     (let s : State := { R0.put [(0x4000,9,0,3)] with
          fc := 1000000000000, now := 1000000000000, twin.role := 4, boot.supRunning := true, dict.clients := [(0,
          { id := .spi, last := 0 })], boot.mode := 1, twin.peerRole := 2, twin.heartbeat := true }
      let dt : Nat := 0
      let n : Nat := 0
      let who : ClientId := .spi
      let u := s.elapse dt
      let x := u.twin
      decide (u.works domSup = true ∧ admitted who n 0x4000 u ∧ x.role = 4 ∧ u.boot.mode ≤ 1 ∧ x.peerRole = 2 ∧ x.heartbeat =
        true)) &&
     (let s : State := { R0.put [(0x4000,9,0,3)] with
          fabric.stopped := [.joile], fc := 1000000000000, now := 1000000000000, twin.role := 4, boot.supRunning := true }
      let dt : Nat := 0
      let u := s.elapse dt
      let link : Bool := decide (u.flows 0x83 = true ∧ u.fabric.stopped.contains .joile = false)
      decide (u.works domSup = true ∧ u.works domJoile = true ∧ ¬ link)) &&
     (let s : State := { R0.put [(0x4000,9,0,3)] with
          fabric.stopped := [.joile], fc := 1000000000000, now := 1000000000000, twin.role := 2, boot.supRunning := true,
          twin.lanes := [(0,true),(1,true)], twin.peerAccepted := true, twin.peerAccepts := true }
      let dt : Nat := 0
      let u := s.elapse dt
      let link : Bool := decide (u.flows 0x83 = true ∧ u.fabric.stopped.contains .joile = false)
      decide (u.works domSup = true ∧ u.works domJoile = true ∧ ¬ link)) &&
     (let s : State := { R0.put [(0x4000,9,0,3)] with
          fc := 1000000000000, now := 1000000000000, twin.role := 2, boot.supRunning := true, twin.lanes := [(0,true),(1,true)],
          twin.peerAccepted := true, twin.peerAccepts := true }
      let dt : Nat := 0
      let u := s.elapse dt
      let x := u.twin
      let link : Bool := decide (u.flows 0x83 = true ∧ u.fabric.stopped.contains .joile = false)
      decide (u.works domSup = true ∧ u.works domJoile = true ∧ link ∧ (x.role ≠ 4 ∨ u.formed = false ∨ x.handover.isSome =
        true))) &&
     (let s : State := { R0.put [(0x4000,9,0,3)] with
          fc := 1000000000000, now := 1000000000000, twin.role := 4, boot.supRunning := true, twin.lanes := [(0,true),(1,true)],
          twin.peerAccepted := true, twin.peerAccepts := true }
      let dt : Nat := 0
      let u := s.elapse dt
      let x := u.twin
      let link : Bool := decide (u.flows 0x83 = true ∧ u.fabric.stopped.contains .joile = false)
      decide (u.works domSup = true ∧ u.works domJoile = true ∧ link ∧ x.role = 4 ∧ u.formed = true ∧ x.handover = none)) &&
     (let s : State := { R0.put [(0x4000,9,0,3)] with
          fc := 1000000000000, now := 1000000000000, twin.role := 4, boot.supRunning := true, appts.line :=
            [{ row := 6, consumer := 0x0203, due := 1, dueCycle := 0, dueTime := 0, late := false, slot := 0
                  },{ row := 1017, consumer := 0x0900, due := 1, dueCycle := 0, dueTime := 0, late := false, slot := 0 }] }
      let dt : Nat := 0
      let u := s.elapse dt
      let x := u.twin
      let link : Bool := decide (u.flows 0x83 = true ∧ u.fabric.stopped.contains .joile = false)
      decide (u.works domSup = true ∧ u.works domJoile = true ∧ link ∧ (x.role ≠ 2 ∨ u.formed = false))) &&
     (let s : State := { R0.put [(0x4000,9,0,3)] with
          fc := 1000000000000, now := 1000000000000, twin.role := 2, boot.supRunning := true, twin.lanes := [(0,true),(1,true)],
          twin.peerAccepted := true, twin.peerAccepts := true, twin.heartbeat := true, twin.peerRole := 4, twin.peerMode := 2,
          boot.mode := 1 }
      let dt : Nat := 0
      let u := s.elapse dt
      let x := u.twin
      let link : Bool := decide (u.flows 0x83 = true ∧ u.fabric.stopped.contains .joile = false)
      decide (u.works domSup = true ∧ u.works domJoile = true ∧ link ∧ x.role = 2 ∧ u.formed = true)) &&
     (let s : State := { R0.put [(0x4000,9,0,3)] with
          fc := 1000000000000, now := 1000000000000, twin.role := 2, boot.supRunning := true, twin.lanes := [(0,true),(1,true)],
          twin.peerAccepted := true, twin.peerAccepts := true }
      let dt : Nat := 0
      let sp : WheelPos := 0x900000000
      let u := s.elapse dt
      let x := u.twin
      let link : Bool := decide (u.flows 0x83 = true ∧ u.fabric.stopped.contains .joile = false)
      decide (u.works domSup = true ∧ u.works domJoile = true ∧ link ∧ x.role = 2 ∧ u.formed = true ∧ sp ≠ 0)) &&
     (let s : State := State.reset
      let dt : Nat := 0
      let u := s.elapse dt
      decide (u.works domSup = true ∧ u.works domFabric = true ∧ takeDispatch u.fc 0x0900 u.appts.line = none)) &&
     (let s : State := { R0.put [(0x4000,9,0,3)] with
          fc := 1000000000000, now := 1000000000000, twin.role := 4, boot.supRunning := true, appts.line :=
            [{ row := 6, consumer := 0x0203, due := 1, dueCycle := 0, dueTime := 0, late := false, slot := 0
                  },{ row := 1017, consumer := 0x0900, due := 1, dueCycle := 0, dueTime := 0, late := false, slot := 0 }] }
      let dt : Nat := 0
      let d : Dispatch := { row := 1017, consumer := 0x0900, due := 1, dueCycle := 0, dueTime := 0, late := false, slot := 0 }
      let line : List Dispatch :=
        [{ row := 6, consumer := 0x0203, due := 1, dueCycle := 0, dueTime := 0, late := false, slot := 0 }]
      let u := s.elapse dt
      let x := u.twin
      decide (u.works domSup = true ∧ u.works domFabric = true ∧ takeDispatch u.fc 0x0900 u.appts.line = some (d, line) ∧
        x.handover = none)) &&
     (let s : State := { R0.put [(0x4000,9,0,3)] with
          fc := 1000000000000, now := 1000000000000, twin.role := 2, boot.supRunning := true, appts.line :=
            [{ row := 6, consumer := 0x0203, due := 1, dueCycle := 0, dueTime := 0, late := false, slot := 0
                  },{ row := 1017, consumer := 0x0900, due := 1, dueCycle := 0, dueTime := 0, late := false, slot := 0 }],
          twin.handover := some 8 }
      let dt : Nat := 0
      let p : WheelPos := 8
      let d : Dispatch := { row := 1017, consumer := 0x0900, due := 1, dueCycle := 0, dueTime := 0, late := false, slot := 0 }
      let line : List Dispatch :=
        [{ row := 6, consumer := 0x0203, due := 1, dueCycle := 0, dueTime := 0, late := false, slot := 0 }]
      let u := s.elapse dt
      let x := u.twin
      decide (u.works domSup = true ∧ u.works domFabric = true ∧ takeDispatch u.fc 0x0900 u.appts.line = some (d, line) ∧
        x.handover = some p ∧ x.role = 2)) &&
     (let s : State := { R0.put [(0x4000,9,0,3)] with
          fc := 1000000000000, now := 1000000000000, twin.role := 4, boot.supRunning := true, appts.line :=
            [{ row := 6, consumer := 0x0203, due := 1, dueCycle := 0, dueTime := 0, late := false, slot := 0
                  },{ row := 1017, consumer := 0x0900, due := 1, dueCycle := 0, dueTime := 0, late := false, slot := 0 }],
          twin.handover := some 8 }
      let dt : Nat := 0
      let p : WheelPos := 8
      let d : Dispatch := { row := 1017, consumer := 0x0900, due := 1, dueCycle := 0, dueTime := 0, late := false, slot := 0 }
      let line : List Dispatch :=
        [{ row := 6, consumer := 0x0203, due := 1, dueCycle := 0, dueTime := 0, late := false, slot := 0 }]
      let u := s.elapse dt
      let x := u.twin
      decide (u.works domSup = true ∧ u.works domFabric = true ∧ takeDispatch u.fc 0x0900 u.appts.line = some (d, line) ∧
        x.handover = some p ∧ x.role = 4)))
    = true := by decide +kernel

/-- States that meet the hypotheses of MirrorAndPorts, clause by clause. -/
theorem witness_MirrorAndPorts :
    ((let s : State := { R0.put [(0x4000,9,0,3)] with
          fabric.stopped := [.joile], fc := 1000000000000, now := 1000000000000, twin.role := 4, boot.supRunning := true }
      let dt : Nat := 0
      let u := s.elapse dt
      let link : Bool := decide (u.flows 0x83 = true ∧ u.fabric.stopped.contains .joile = false)
      decide (u.works domSup = true ∧ u.works domJoile = true ∧ ¬ link)) &&
     (let s : State :=
        { R0.put [(0x4000,9,0,3)] with fc := 1000000000000, now := 1000000000000, twin.role := 4, boot.supRunning := true }
      let dt : Nat := 0
      let u := s.elapse dt
      let link : Bool := decide (u.flows 0x83 = true ∧ u.fabric.stopped.contains .joile = false)
      decide (u.works domSup = true ∧ u.works domJoile = true ∧ link ∧ u.formed = false)) &&
     (let s : State := { R0.put [(0x4000,9,0,3)] with
          fc := 1000000000000, now := 1000000000000, twin.role := 2, boot.supRunning := true, twin.lanes := [(0,true),(1,true)],
          twin.peerAccepted := true, twin.peerAccepts := true }
      let dt : Nat := 0
      let u := s.elapse dt
      let x := u.twin
      let link : Bool := decide (u.flows 0x83 = true ∧ u.fabric.stopped.contains .joile = false)
      decide (u.works domSup = true ∧ u.works domJoile = true ∧ link ∧ u.formed = true ∧ x.role = 2)) &&
     (let s : State := { R0.put [(0x4000,9,0,3)] with
          fc := 1000000000000, now := 1000000000000, twin.role := 4, boot.supRunning := true, twin.lanes := [(0,true),(1,true)],
          twin.peerAccepted := true, twin.peerAccepts := true }
      let dt : Nat := 0
      let u := s.elapse dt
      let x := u.twin
      let link : Bool := decide (u.flows 0x83 = true ∧ u.fabric.stopped.contains .joile = false)
      decide (u.works domSup = true ∧ u.works domJoile = true ∧ link ∧ u.formed = true ∧ x.role = 4 ∧ x.handIn = false)) &&
     (let s : State :=
        { R0.put [(0x4000,9,0,3)] with fc := 1000000000000, now := 1000000000000, twin.role := 4, boot.supRunning := true }
      let dt : Nat := 0
      let q : Byte := 0
      let u := s.elapse dt
      let x := u.twin
      let link : Bool := decide (u.flows 0x83 = true ∧ u.fabric.stopped.contains .joile = false)
      decide (u.works domSup = true ∧ u.works domJoile = true ∧ link ∧ (x.role ≠ 4 ∨ x.handIn = false ∨ listenerPorts.contains
        q.toNat = false ∨ x.released.contains q.toNat = true))) &&
     (let s : State := { R0.put [(0x4000,9,0,3)] with
          fc := 1000000000000, now := 1000000000000, twin.role := 4, boot.supRunning := true, twin.handIn := true, serial :=
            [(4, {})] }
      let dt : Nat := 0
      let p : Nat := 4
      let q : Byte := 4
      let u := s.elapse dt
      let x := u.twin
      let link : Bool := decide (u.flows 0x83 = true ∧ u.fabric.stopped.contains .joile = false)
      decide (u.works domSup = true ∧ u.works domJoile = true ∧ link ∧ x.role = 4 ∧ x.handIn = true ∧ p ≤ 23 ∧ p = q.toNat ∧
        x.released = [])) &&
     (let s : State :=
        { R0.put [(0x4000,9,0,3)] with fc := 1000000000000, now := 1000000000000, twin.role := 4, boot.supRunning := true }
      let dt : Nat := 0
      let port : Fin 24 := 4
      let u := s.elapse dt
      decide (u.works domSerial = true ∧ (u.sp port.val).overlapEnd = none)) &&
     (let s : State := { R0.put [(0x4000,9,0,3)] with
          fc := 1000000000000, now := 1000000000000, twin.role := 4, boot.supRunning := true, serial := [(4,
          { overlapEnd := some 7 })] }
      let dt : Nat := 0
      let e : Nat := 7
      let port : Fin 24 := 4
      let u := s.elapse dt
      decide (u.works domSerial = true ∧ (u.sp port.val).overlapEnd = some e)) &&
     (let s : State := State.reset
      let dt : Nat := 0
      let port : Fin 24 := 4
      let u := s.elapse dt
      decide (u.works domSerial = true ∧ (u.sp port.val).startAfter = none)) &&
     (let s : State := { R0.put [(0x4000,9,0,3)] with
          fc := 1000000000000, now := 1000000000000, twin.role := 4, boot.supRunning := true, serial := [(4,
          { startAfter := some 7 })] }
      let dt : Nat := 0
      let e : Nat := 7
      let port : Fin 24 := 4
      let u := s.elapse dt
      decide (u.works domSerial = true ∧ (u.sp port.val).startAfter = some e)))
    = true := by decide +kernel

/-- States that meet the hypotheses of PairConfiguration, clause by clause; the states hold no offset, so a point is its own translation. -/
theorem witness_PairConfiguration :
    ((let s : State := { R0.put [(0x4000,9,0,3)] with
          fabric.stopped := [.joile], fc := 1000000000000, now := 1000000000000, twin.role := 2, boot.supRunning := true,
          twin.lanes := [(0,true),(1,true)], twin.peerAccepted := true, twin.peerAccepts := true }
      let dt : Nat := 0
      let u := s.elapse dt
      let link : Bool := decide (u.flows 0x83 = true ∧ u.fabric.stopped.contains .joile = false)
      decide (u.works domSup = true ∧ u.works domJoile = true ∧ ¬ link)) &&
     (let s : State := { R0.put [(0x4000,9,0,3)] with
          fc := 1000000000000, now := 1000000000000, twin.role := 4, boot.supRunning := true, twin.lanes := [(0,true),(1,true)],
          twin.peerAccepted := true, twin.peerAccepts := true }
      let dt : Nat := 0
      let u := s.elapse dt
      let x := u.twin
      let link : Bool := decide (u.flows 0x83 = true ∧ u.fabric.stopped.contains .joile = false)
      decide (u.works domSup = true ∧ u.works domJoile = true ∧ link ∧ (u.formed = false ∨ x.role ≠ 2))) &&
     (let s : State := { R0.put [(0x4000,9,0,3)] with
          fc := 1000000000000, now := 1000000000000, twin.role := 2, boot.supRunning := true, twin.lanes := [(0,true),(1,true)],
          twin.peerAccepted := true, twin.peerAccepts := true, twin.inBytes := [1,2,3] }
      let dt : Nat := 0
      let offset : Nat := 2
      let u := s.elapse dt
      let x := u.twin
      let link : Bool := decide (u.flows 0x83 = true ∧ u.fabric.stopped.contains .joile = false)
      decide (u.works domSup = true ∧ u.works domJoile = true ∧ link ∧ u.formed = true ∧ x.role = 2 ∧ offset ≠ 0 ∧ offset ≠
        x.inBytes.length)) &&
     (let s : State := { R0.put [(0x4000,9,0,3)] with
          fc := 1000000000000, now := 1000000000000, twin.role := 2, boot.supRunning := true, twin.lanes := [(0,true),(1,true)],
          twin.peerAccepted := true, twin.peerAccepts := true }
      let dt : Nat := 0
      let offset : Nat := 0
      let u := s.elapse dt
      let x := u.twin
      let link : Bool := decide (u.flows 0x83 = true ∧ u.fabric.stopped.contains .joile = false)
      decide (u.works domSup = true ∧ u.works domJoile = true ∧ link ∧ u.formed = true ∧ x.role = 2 ∧ offset = 0)) &&
     (let s : State := { R0.put [(0x4000,9,0,3)] with
          fc := 1000000000000, now := 1000000000000, twin.role := 2, boot.supRunning := true, twin.lanes := [(0,true),(1,true)],
          twin.peerAccepted := true, twin.peerAccepts := true, twin.inBytes := [1,2,3] }
      let dt : Nat := 0
      let offset : Nat := 3
      let u := s.elapse dt
      let x := u.twin
      let link : Bool := decide (u.flows 0x83 = true ∧ u.fabric.stopped.contains .joile = false)
      decide (u.works domSup = true ∧ u.works domJoile = true ∧ link ∧ u.formed = true ∧ x.role = 2 ∧ offset ≠ 0 ∧ offset =
        x.inBytes.length)) &&
     (let s : State := { R0.put [(0x4000,9,0,3)] with
          fc := 1000000000000, now := 1000000000000, twin.role := 2, boot.supRunning := true, twin.lanes := [(0,true),(1,true)],
          twin.peerAccepted := true, twin.peerAccepts := true, cycle.state := 2 }
      let dt : Nat := 0
      let u := s.elapse dt
      let x := u.twin
      let link : Bool := decide (u.flows 0x83 = true ∧ u.fabric.stopped.contains .joile = false)
      decide (u.works domSup = true ∧ u.works domJoile = true ∧ link ∧ u.formed = true ∧ x.role = 2 ∧ (u.cycle.state ≠ 0 ∨
        u.writesCopy = true))) &&
     (let s : State := { R0.put [(0x4000,9,0,3)] with
          fc := 1000000000000, now := 1000000000000, twin.role := 2, boot.supRunning := true, twin.lanes := [(0,true),(1,true)],
          twin.peerAccepted := true, twin.peerAccepts := true }
      let dt : Nat := 0
      let u := s.elapse dt
      let x := u.twin
      let link : Bool := decide (u.flows 0x83 = true ∧ u.fabric.stopped.contains .joile = false)
      decide (u.works domSup = true ∧ u.works domJoile = true ∧ link ∧ u.formed = true ∧ x.role = 2 ∧ u.cycle.state = 0 ∧
        u.writesCopy = false)) &&
     (let s : State := { R0.put [(0x4000,9,0,3)] with
          fc := 1000000000000, now := 1000000000000, twin.role := 2, boot.supRunning := true, twin.lanes := [(0,true),(1,true)],
          twin.peerAccepted := true, twin.peerAccepts := true, twin.inReady := true, twin.inShadow := [(⟨0x2101,3,0⟩,.num 7)] }
      let dt : Nat := 0
      let u := s.elapse dt
      let x := u.twin
      let link : Bool := decide (u.flows 0x83 = true ∧ u.fabric.stopped.contains .joile = false)
      decide (u.works domSup = true ∧ u.works domJoile = true ∧ link ∧ (x.role ≠ 4 ∨ u.formed = false))) &&
     (let s : State := { R0.put [(0x4000,9,0,3)] with
          fc := 1000000000000, now := 1000000000000, twin.role := 4, boot.supRunning := true, twin.lanes := [(0,true),(1,true)],
          twin.peerAccepted := true, twin.peerAccepts := true, cycle.state := 2, cycle.asked := true }
      let dt : Nat := 0
      let u := s.elapse dt
      let x := u.twin
      let link : Bool := decide (u.flows 0x83 = true ∧ u.fabric.stopped.contains .joile = false)
      decide (u.works domSup = true ∧ u.works domJoile = true ∧ link ∧ x.role = 4 ∧ u.formed = true ∧ u.cycle.state = 2 ∧
        u.cycle.asked = true ∧ u.cycle.twinPass = none ∧ u.cycle.found = none)) &&
     (let s : State := { R0.put [(0x4000,9,0,3)] with
          fc := 1000000000000, now := 1000000000000, twin.role := 4, boot.supRunning := true, twin.lanes := [(0,true),(1,true)],
          twin.peerAccepted := true, twin.peerAccepts := true, cycle.state := 2, cycle.asked := true, cycle.found := some [] }
      let dt : Nat := 0
      let own : List CheckEntry := []
      let u := s.elapse dt
      let x := u.twin
      let link : Bool := decide (u.flows 0x83 = true ∧ u.fabric.stopped.contains .joile = false)
      decide (u.works domSup = true ∧ u.works domJoile = true ∧ link ∧ x.role = 4 ∧ u.formed = true ∧ u.cycle.state = 2 ∧
        u.cycle.asked = true ∧ u.cycle.twinPass = none ∧ u.cycle.found = some own)) &&
     (let s : State := { R0.put [(0x4000,9,0,3)] with
          fc := 1000000000000, now := 1000000000000, twin.role := 4, boot.supRunning := true, twin.lanes := [(0,true),(1,true)],
          twin.peerAccepted := true, twin.peerAccepts := true }
      let dt : Nat := 0
      let u := s.elapse dt
      let x := u.twin
      let link : Bool := decide (u.flows 0x83 = true ∧ u.fabric.stopped.contains .joile = false)
      decide (u.works domSup = true ∧ u.works domJoile = true ∧ link ∧ x.role = 4 ∧ u.formed = true ∧ u.cycle.state ≠ 2)) &&
     (let s : State := { R0.put [(0x4000,9,0,3)] with
          fc := 1000000000000, now := 1000000000000, twin.role := 4, boot.supRunning := true, twin.lanes := [(0,true),(1,true)],
          twin.peerAccepted := true, twin.peerAccepts := true, twin.heartbeat := true, twin.resyncSince := some 9, twin.peerGen
            := 77, boot.copyInForce := some 1 }
      let dt : Nat := 0
      let point : WheelPos := 0
      let u := s.elapse dt
      let x := u.twin
      let sp := point
      let link : Bool := decide (u.flows 0x83 = true ∧ u.fabric.stopped.contains .joile = false)
      decide (u.works domSup = true ∧ u.works domJoile = true ∧ link ∧ (x.role ≠ 2 ∨ u.formed = false ∨ x.inReady = false ∨
        u.cycle.state ≠ 0 ∨ u.writesCopy = true ∨ posDiff sp u.time * 1000 < 4294967296))) &&
     (let s : State := { R0.put [(0x4000,9,0,3)] with
          fc := 1000000000000, now := 1000000000000, twin.role := 2, boot.supRunning := true, twin.lanes := [(0,true),(1,true)],
          twin.peerAccepted := true, twin.peerAccepts := true, twin.inReady := true, twin.inShadow := [(⟨0x2101,3,0⟩,.num 7)] }
      let dt : Nat := 0
      let point : WheelPos := 0x900000000
      let u := s.elapse dt
      let x := u.twin
      let sp := point
      let link : Bool := decide (u.flows 0x83 = true ∧ u.fabric.stopped.contains .joile = false)
      decide (u.works domSup = true ∧ u.works domJoile = true ∧ link ∧ x.role = 2 ∧ u.formed = true ∧ x.inReady = true ∧
        u.cycle.state = 0 ∧ u.writesCopy = false ∧ 4294967296 ≤ posDiff sp u.time * 1000)) &&
     (let s : State := { R0.put [(0x4000,9,0,3)] with
          fc := 1000000000000, now := 1000000000000, twin.role := 4, boot.supRunning := true, twin.lanes := [(0,true),(1,true)],
          twin.peerAccepted := true, twin.peerAccepts := true }
      let dt : Nat := 0
      let u := s.elapse dt
      let x := u.twin
      decide (u.works domSup = true ∧ u.works domJoile = true ∧ (x.resyncSince = none ∨ x.role ≠ 4 ∨ u.formed = false ∨
        x.heartbeat = false ∨ u.unequal = false))) &&
     (let s : State := { R0.put [(0x4000,9,0,3)] with
          fc := 1000000000000, now := 1000000000000, twin.role := 4, boot.supRunning := true, twin.resyncSince := some
            999999999999 }
      let dt : Nat := 0
      let r : Nat := 999999999999
      let u := s.elapse dt
      let x := u.twin
      decide (u.works domSup = true ∧ u.works domJoile = true ∧ x.resyncSince = some r ∧ u.now - r < 10 * cyclesPerMs)) &&
     (let s : State := { R0.put [(0x4000,9,0,3)] with
          fc := 1000000000000, now := 1000000000000, twin.role := 4, boot.supRunning := true, twin.lanes := [(0,true),(1,true)],
          twin.peerAccepted := true, twin.peerAccepts := true, twin.heartbeat := true, twin.resyncSince := some 9, twin.peerGen
            := 77, boot.copyInForce := some 1 }
      let dt : Nat := 0
      let r : Nat := 9
      let u := s.elapse dt
      let x := u.twin
      decide (u.works domSup = true ∧ u.works domJoile = true ∧ x.resyncSince = some r ∧ 10 * cyclesPerMs ≤ u.now - r ∧ x.role =
        4 ∧ u.formed = true ∧ x.heartbeat = true ∧ u.unequal = true ∧ u.boot.copyInForce ≠ none)))
    = true := by decide +kernel

/-- States that meet the hypotheses of ResetAndStart, clause by clause. -/
theorem witness_ResetAndStart :
    ((let s : State := { R0.put [] with fc := 10000000000000, now := 10000000000000, twin.role := 0 }
      let dt : Nat := 0
      let u := s.elapse dt
      decide (u.boot.resetN = true)) &&
     (let s : State := { R0.put [] with
          fc := 10000000000000, now := 10000000000000, twin.role := 0, boot.resetN := false, boot.internal := false }
      let dt : Nat := 0
      let u := s.elapse dt
      decide (u.boot.resetN = false ∧ u.boot.internal = false)) &&
     (let s : State := { R0.put [] with
          fc := 10000000000000, now := 10000000000000, twin.role := 0, boot.copies := [(1,
          { generation := 6, sealed := true, content := [(⟨0x2101,3,0⟩,.num 7)] }), (2, { generation := 5, sealed := true })],
          boot.resetN := false, boot.bootRom := false, boot.slotA := {
              state := 4, facts := some {
                  magicOk := true, product := 0x2430, revision := 0x00020001, version := 3, security := 2, length := 100,
                  bodyHashOk := true, vendorKeyHash := 0, vendorSigOk := true, customerKeyHash := none, customerSigOk := true }
                }, boot.slotB := {} }
      let dt : Nat := 0
      let u := s.elapse dt
      decide (u.boot.resetN = false ∧ u.boot.internal = true ∧ u.boot.bootRom = false)) &&
     (let s : State := { R0.put [] with fc := 10000000000000, now := 10000000000000, twin.role := 0 }
      let dt : Nat := 0
      let u := s.elapse dt
      decide ((u.boot.internal = true ∨ u.now < u.boot.railsAt + cyclesPerMs))) &&
     (let s : State := { R0.put [] with
          fc := 10000000000000, now := 10000000000000, twin.role := 0, boot.internal := false, boot.resetN := false }
      let dt : Nat := 0
      let u := s.elapse dt
      decide (u.boot.internal = false ∧ u.boot.railsAt + cyclesPerMs ≤ u.now ∧ u.boot.resetN = false)) &&
     (let s : State := { R0.put [] with
          fc := 10000000000000, now := 10000000000000, twin.role := 0, boot.internal := false, boot.slotA := {
              state := 4, facts := some {
                  magicOk := true, product := 0x2430, revision := 0x00020001, version := 3, security := 2, length := 100,
                  bodyHashOk := true, vendorKeyHash := 0, vendorSigOk := true, customerKeyHash := none, customerSigOk := true }
                }, boot.slotB := {} }
      let dt : Nat := 0
      let u := s.elapse dt
      decide (u.boot.internal = false ∧ u.boot.railsAt + cyclesPerMs ≤ u.now ∧ u.boot.resetN = true)) &&
     (let s : State :=
        { R0.put [] with fc := 10000000000000, now := 10000000000000, twin.role := 0, boot.startedAt := 9999999999999 }
      let dt : Nat := 0
      let u := s.elapse dt
      decide ((u.notStarted = true ∨ u.up domSup = false ∨ u.now < u.boot.startedAt + 200 * cyclesPerMs))) &&
     (let s : State := { R0.put [] with
          fc := 10000000000000, now := 10000000000000, twin.role := 0, boot.slotA := {
              state := 4, facts := some {
                  magicOk := true, product := 0x2430, revision := 0x00020001, version := 3, security := 2, length := 100,
                  bodyHashOk := true, vendorKeyHash := 0, vendorSigOk := true, customerKeyHash := none, customerSigOk := true }
                }, boot.slotB := {} }
      let dt : Nat := 0
      let u := s.elapse dt
      decide (u.notStarted = false ∧ u.up domSup = true ∧ u.boot.startedAt + 200 * cyclesPerMs ≤ u.now)) &&
     (let s : State := { R0.put [] with
          fc := 10000000000000, now := 10000000000000, twin.role := 0, dict.clients := [(0, { id := .spi, last := 0 })],
          cycle.state := 5 }
      let dt : Nat := 0
      let n : Nat := 0
      let who : ClientId := .spi
      let u := s.elapse dt
      decide (admitted who n 0x5F01 u ∧ u.cycle.state = 5)) &&
     (let s : State := { R0.put [] with
          fc := 10000000000000, now := 10000000000000, twin.role := 0, dict.clients := [(0, { id := .spi, last := 0 })],
          boot.slotA := {
              state := 4, facts := some {
                  magicOk := true, product := 0x2430, revision := 0x00020001, version := 3, security := 2, length := 100,
                  bodyHashOk := true, vendorKeyHash := 0, vendorSigOk := true, customerKeyHash := none, customerSigOk := true }
                }, boot.slotB := {}, boot.copies := [(1,
          { generation := 6, sealed := true, content := [(⟨0x2101,3,0⟩,.num 7)] }), (2, { generation := 5, sealed := true })] }
      let dt : Nat := 0
      let n : Nat := 0
      let who : ClientId := .spi
      let u := s.elapse dt
      decide (admitted who n 0x5F01 u ∧ u.cycle.state ≠ 5)) &&
     (let s : State := { R0.put [] with fc := 10000000000000, now := 10000000000000, twin.role := 0 }
      let dt : Nat := 0
      let u := s.elapse dt
      decide ((u.serves = false ∨ u.boot.activateAt = none))) &&
     (let s : State :=
        { R0.put [] with fc := 10000000000000, now := 10000000000000, twin.role := 0, boot.activateAt := some 99999999999999 }
      let dt : Nat := 0
      let a0 : Nat := 99999999999999
      let u := s.elapse dt
      decide (u.serves = true ∧ u.boot.activateAt = some a0 ∧ u.now < a0)) &&
     (let s : State := { R0.put [] with
          fc := 10000000000000, now := 10000000000000, twin.role := 0, boot.activateAt := some 7, boot.slotA := {
              state := 4, facts := some {
                  magicOk := true, product := 0x2430, revision := 0x00020001, version := 3, security := 2, length := 100,
                  bodyHashOk := true, vendorKeyHash := 0, vendorSigOk := true, customerKeyHash := none, customerSigOk := true }
                }, boot.slotB := {} }
      let dt : Nat := 0
      let a0 : Nat := 7
      let u := s.elapse dt
      decide (u.serves = true ∧ u.boot.activateAt = some a0 ∧ a0 ≤ u.now)))
    = true := by decide +kernel

/-- States that meet the hypotheses of ImageUpdate, clause by clause. -/
theorem witness_ImageUpdate :
    ((let s : State := { R0.put [] with
          fc := 10000000000000, now := 10000000000000, twin.role := 0, dict.clients := [(0, { id := .spi, last := 0 })],
          boot.slotA := {
              state := 3, facts := some {
                  magicOk := true, product := 0x2430, revision := 0x00020001, version := 3, security := 2, length := 100,
                  bodyHashOk := true, vendorKeyHash := 0, vendorSigOk := true, customerKeyHash := none, customerSigOk := true }
                } }
      let dt : Nat := 0
      let n : Nat := 0
      let who : ClientId := .spi
      let u := s.elapse dt
      let b := u.boot
      let run := u.slot15 b.running
      decide (admitted who n 0x5F11 u ∧ (u.updateOpen = true ∨ run.state = 3))) &&
     (let s : State := { R0.put [] with
          fc := 10000000000000, now := 10000000000000, twin.role := 0, dict.clients := [(0, { id := .spi, last := 0 })],
          boot.slotA := {
              state := 4, facts := some {
                  magicOk := true, product := 0x2430, revision := 0x00020001, version := 3, security := 2, length := 100,
                  bodyHashOk := true, vendorKeyHash := 0, vendorSigOk := true, customerKeyHash := none, customerSigOk := true }
                } }
      let dt : Nat := 0
      let n : Nat := 0
      let who : ClientId := .spi
      let u := s.elapse dt
      let b := u.boot
      let run := u.slot15 b.running
      decide (admitted who n 0x5F11 u ∧ u.updateOpen = false ∧ run.state ≠ 3)) &&
     (let s : State := { R0.put [] with
          fc := 10000000000000, now := 10000000000000, twin.role := 0, dict.clients := [(0, { id := .spi, last := 0 })] }
      let dt : Nat := 0
      let n : Nat := 0
      let who : ClientId := .spi
      let data : List Byte := [1,2]
      let u := s.elapse dt
      decide (admitted who n 0x5F11 u ∧ data.length ≤ pathLimit who ∧ u.mayFill n = false)) &&
     (let s : State := { R0.put [] with
          fc := 10000000000000, now := 10000000000000, twin.role := 0, dict.clients := [(0, { id := .spi, last := 0 })],
          boot.target := 1, boot.owner := some 0, boot.slotB := { state := 1}, dict.imm := [(⟨0x5F11,2,0⟩,.num 67108863)] }
      let dt : Nat := 0
      let n : Nat := 0
      let who : ClientId := .spi
      let data : List Byte := [1,2]
      let u := s.elapse dt
      decide (admitted who n 0x5F11 u ∧ data.length ≤ pathLimit who ∧ u.mayFill n = true ∧ slotSize < u.imageOffset +
        data.length)) &&
     (let s : State := { R0.put [] with
          fc := 10000000000000, now := 10000000000000, twin.role := 0, dict.clients := [(0, { id := .spi, last := 0 })],
          boot.target := 1, boot.owner := some 0, boot.slotB := { state := 1}, dict.imm := [(⟨0x5F11,2,0⟩,.num 77)] }
      let dt : Nat := 0
      let n : Nat := 0
      let who : ClientId := .spi
      let data : List Byte := [1,2]
      let u := s.elapse dt
      decide (admitted who n 0x5F11 u ∧ data.length ≤ pathLimit who ∧ u.mayFill n = true ∧ u.imageOffset + data.length ≤
        slotSize)) &&
     (let s : State := { R0.put [] with
          fc := 10000000000000, now := 10000000000000, twin.role := 0, dict.clients := [(0, { id := .spi, last := 0 })] }
      let dt : Nat := 0
      let n : Nat := 0
      let who : ClientId := .spi
      let u := s.elapse dt
      let b := u.boot
      decide (admitted who n 0x5F11 u ∧ (u.updateOpen = false ∨ b.status = 2))) &&
     (let s : State := { R0.put [] with
          fc := 10000000000000, now := 10000000000000, twin.role := 0, dict.clients := [(0, { id := .spi, last := 0 })],
          boot.target := 1, boot.slotB := { state := 1}, boot.status := 1 }
      let dt : Nat := 0
      let n : Nat := 0
      let who : ClientId := .spi
      let u := s.elapse dt
      let b := u.boot
      decide (admitted who n 0x5F11 u ∧ u.updateOpen = true ∧ b.status ≠ 2)) &&
     (let s : State := { R0.put [] with
          fc := 10000000000000, now := 10000000000000, twin.role := 0, dict.clients := [(0, { id := .spi, last := 0 })] }
      let dt : Nat := 0
      let n : Nat := 0
      let who : ClientId := .spi
      let u := s.elapse dt
      let b := u.boot
      decide (admitted who n 0x5F11 u ∧ ((u.slot15 b.target).state ≠ 2 ∨ u.cycle.state = 5 ∨ u.mustHandOver = true))) &&
     (let s : State := { R0.put [] with
          fc := 10000000000000, now := 10000000000000, twin.role := 0, dict.clients := [(0, { id := .spi, last := 0 })],
          boot.target := 1, boot.slotB := {
              state := 2, facts := some {
                  magicOk := true, product := 0x2430, revision := 0x00020001, version := 3, security := 2, length := 100,
                  bodyHashOk := true, vendorKeyHash := 0, vendorSigOk := true, customerKeyHash := none, customerSigOk := true }
                } }
      let dt : Nat := 0
      let n : Nat := 0
      let who : ClientId := .spi
      let u := s.elapse dt
      let b := u.boot
      decide (admitted who n 0x5F11 u ∧ (u.slot15 b.target).state = 2 ∧ u.cycle.state ≠ 5 ∧ u.mustHandOver = false)) &&
     (let s : State := { R0.put [] with
          fc := 10000000000000, now := 10000000000000, twin.role := 0, dict.clients := [(0, { id := .spi, last := 0 })] }
      let dt : Nat := 0
      let n : Nat := 0
      let who : ClientId := .spi
      let u := s.elapse dt
      let b := u.boot
      let run := u.slot15 b.running
      decide (admitted who n 0x5F11 u ∧ run.state ≠ 3)) &&
     (let s : State := { R0.put [] with
          fc := 10000000000000, now := 10000000000000, twin.role := 0, dict.clients := [(0, { id := .spi, last := 0 })],
          boot.slotA := {
              state := 3, facts := some {
                  magicOk := true, product := 0x2430, revision := 0x00020001, version := 3, security := 2, length := 100,
                  bodyHashOk := true, vendorKeyHash := 0, vendorSigOk := true, customerKeyHash := none, customerSigOk := true }
                } }
      let dt : Nat := 0
      let n : Nat := 0
      let who : ClientId := .spi
      let u := s.elapse dt
      let b := u.boot
      let run := u.slot15 b.running
      decide (admitted who n 0x5F11 u ∧ run.state = 3)) &&
     (let s : State := { R0.put [] with
          fc := 10000000000000, now := 10000000000000, twin.role := 0, dict.clients := [(0, { id := .spi, last := 0 })],
          boot.slotA := {
              state := 3, facts := some {
                  magicOk := true, product := 0x2430, revision := 0x00020001, version := 3, security := 2, length := 100,
                  bodyHashOk := true, vendorKeyHash := 0, vendorSigOk := true, customerKeyHash := none, customerSigOk := true }
                } }
      let dt : Nat := 0
      let n : Nat := 0
      let who : ClientId := .spi
      let u := s.elapse dt
      let b := u.boot
      let other := if b.running = 0 then 1 else 0
      decide (admitted who n 0x5F11 u ∧ (u.slot15 other).state ≠ 4)) &&
     (let s : State := { R0.put [] with
          fc := 10000000000000, now := 10000000000000, twin.role := 0, dict.clients := [(0, { id := .spi, last := 0 })],
          boot.slotA := {
              state := 4, facts := some {
                  magicOk := true, product := 0x2430, revision := 0x00020001, version := 3, security := 2, length := 100,
                  bodyHashOk := true, vendorKeyHash := 0, vendorSigOk := true, customerKeyHash := none, customerSigOk := true }
                }, boot.slotB := {
                    state := 4, facts := some {
                        magicOk := true, product := 0x2430, revision := 0x00020001, version := 3, security := 2, length := 100,
                        bodyHashOk := true, vendorKeyHash := 0, vendorSigOk := true, customerKeyHash := none, customerSigOk :=
                          true } } }
      let dt : Nat := 0
      let n : Nat := 0
      let who : ClientId := .spi
      let u := s.elapse dt
      let b := u.boot
      let other := if b.running = 0 then 1 else 0
      decide (admitted who n 0x5F11 u ∧ (u.slot15 other).state = 4)) &&
     (let s : State := { R0.put [] with
          fc := 10000000000000, now := 10000000000000, twin.role := 0, dict.clients := [(0, { id := .spi, last := 0 })],
          boot.slotA := {
              state := 3, facts := some {
                  magicOk := true, product := 0x2430, revision := 0x00020001, version := 3, security := 2, length := 100,
                  bodyHashOk := true, vendorKeyHash := 0, vendorSigOk := true, customerKeyHash := none, customerSigOk := true }
                } }
      let dt : Nat := 0
      let n : Nat := 0
      let who : ClientId := .spi
      let u := s.elapse dt
      let b := u.boot
      let run := u.slot15 b.running
      decide (admitted who n 0x5F11 u ∧ (run.state ≠ 4 ∨ run.facts = none))) &&
     (let s : State := { R0.put [] with
          fc := 10000000000000, now := 10000000000000, twin.role := 0, dict.clients := [(0, { id := .spi, last := 0 })],
          boot.slotA := {
              state := 4, facts := some {
                  magicOk := true, product := 0x2430, revision := 0x00020001, version := 3, security := 2, length := 100,
                  bodyHashOk := true, vendorKeyHash := 0, vendorSigOk := true, customerKeyHash := none, customerSigOk := true }
                } }
      let dt : Nat := 0
      let n : Nat := 0
      let who : ClientId := .spi
      let f : ImageFacts := {
          magicOk := true, product := 0x2430, revision := 0x00020001, version := 3, security := 2, length := 100, bodyHashOk :=
            true, vendorKeyHash := 0, vendorSigOk := true, customerKeyHash := none, customerSigOk := true }
      let u := s.elapse dt
      let b := u.boot
      let run := u.slot15 b.running
      decide (admitted who n 0x5F11 u ∧ run.state = 4 ∧ run.facts = some f)) &&
     (let s : State := { R0.put [] with
          fc := 10000000000000, now := 10000000000000, twin.role := 0, dict.clients := [(0, { id := .spi, last := 0 })] }
      let dt : Nat := 0
      let n : Nat := 0
      let who : ClientId := .spi
      let v : Byte := 0x11
      let u := s.elapse dt
      decide (admitted who n 0x5F21 u ∧ v ≠ 0x4A)) &&
     (let s : State := { R0.put [] with
          fc := 10000000000000, now := 10000000000000, twin.role := 0, dict.clients := [(0, { id := .spi, last := 0 })],
          boot.customerHash := 7 }
      let dt : Nat := 0
      let n : Nat := 0
      let who : ClientId := .spi
      let u := s.elapse dt
      let b := u.boot
      let hash := (Cfg.text u.uid u.dict.imm 0x5F21 4 0).foldl (fun (x : Nat) y => 256 * x + y.toNat) 0
      decide (admitted who n 0x5F21 u ∧ (b.mode ≠ 0 ∨ b.customerHash ≠ 0 ∨ u.customerSigned hash 0 = false ∨ u.customerSigned
        hash 1 = false))) &&
     (let s : State := { R0.put [] with
          fc := 10000000000000, now := 10000000000000, twin.role := 0, dict.clients := [(0, { id := .spi, last := 0 })],
          boot.slotA := {
              state := 4, facts := some {
                  magicOk := true, product := 0x2430, revision := 0x00020001, version := 3, security := 2, length := 100,
                  bodyHashOk := true, vendorKeyHash := 0, vendorSigOk := true, customerKeyHash := some 5, customerSigOk := true
                    } }, boot.slotB := {
                        state := 4, facts := some {
                            magicOk := true, product := 0x2430, revision := 0x00020001, version := 3, security := 2, length :=
                              100, bodyHashOk := true, vendorKeyHash := 0, vendorSigOk := true, customerKeyHash := some 5,
                            customerSigOk := true } }, dict.imm := [(⟨0x5F21,4,0⟩,.bytes (List.replicate 31 0 ++ [5]))] }
      let dt : Nat := 0
      let n : Nat := 0
      let who : ClientId := .spi
      let u := s.elapse dt
      let b := u.boot
      let hash := (Cfg.text u.uid u.dict.imm 0x5F21 4 0).foldl (fun (x : Nat) y => 256 * x + y.toNat) 0
      decide (admitted who n 0x5F21 u ∧ b.mode = 0 ∧ b.customerHash = 0 ∧ hash ≠ 0 ∧ u.customerSigned hash 0 = true ∧
        u.customerSigned hash 1 = true)) &&
     (let s : State := { R0.put [] with fc := 10000000000000, now := 10000000000000, twin.role := 0 }
      let dt : Nat := 0
      let u := s.elapse dt
      let b := u.boot
      decide ((u.serves = false ∨ b.status ≠ 2 ∨ u.updateOpen = false))) &&
     (let s : State := { R0.put [] with
          fc := 10000000000000, now := 10000000000000, twin.role := 0, boot.target := 1, boot.slotB := { state := 1},
          boot.status := 2 }
      let dt : Nat := 0
      let u := s.elapse dt
      let b := u.boot
      decide (u.serves = true ∧ b.status = 2 ∧ u.updateOpen = true)) &&
     (let s : State := { R0.put [(0x5F11,6,0,0)] with fc := 10000000000000, now := 10000000000000, twin.role := 0 }
      let dt : Nat := 0
      let u := s.elapse dt
      let b := u.boot
      let run := u.slot15 b.running
      let m := u.cn 0x5F11 6 0
      decide (u.works domSup = true ∧ (m = 0 ∨ run.state ≠ 3 ∨ 2 ≤ b.mode ∨ u.now < b.confirmFrom + m * cyclesPerSec))) &&
     (let s : State := { R0.put [(0x5F11,6,0,10)] with
          fc := 10000000000000, now := 10000000000000, twin.role := 0, boot.slotA := {
              state := 3, facts := some {
                  magicOk := true, product := 0x2430, revision := 0x00020001, version := 3, security := 2, length := 100,
                  bodyHashOk := true, vendorKeyHash := 0, vendorSigOk := true, customerKeyHash := none, customerSigOk := true }
                } }
      let dt : Nat := 0
      let u := s.elapse dt
      let b := u.boot
      let run := u.slot15 b.running
      let m := u.cn 0x5F11 6 0
      decide (u.works domSup = true ∧ m ≠ 0 ∧ run.state = 3 ∧ b.mode ≤ 1 ∧ b.confirmFrom + m * cyclesPerSec ≤ u.now)) &&
     (let s : State :=
        { R0.put [] with fc := 10000000000000, now := 10000000000000, twin.role := 0, boot.startedAt := 9999999999999 }
      let dt : Nat := 0
      let u := s.elapse dt
      let b := u.boot
      decide (u.works domSup = true ∧ u.now < b.startedAt + 10 * cyclesPerSec)) &&
     (let s : State := { R0.put [] with
          fc := 10000000000000, now := 10000000000000, twin.role := 0, boot.slotA := {
              state := 3, facts := some {
                  magicOk := true, product := 0x2430, revision := 0x00020001, version := 3, security := 2, length := 100,
                  bodyHashOk := true, vendorKeyHash := 0, vendorSigOk := true, customerKeyHash := none, customerSigOk := true },
              failures := 2 } }
      let dt : Nat := 0
      let u := s.elapse dt
      let b := u.boot
      decide (u.works domSup = true ∧ b.startedAt + 10 * cyclesPerSec ≤ u.now)) &&
     (let s : State := { R0.put [] with fc := 10000000000000, now := 10000000000000, twin.role := 0 }
      let dt : Nat := 0
      let u := s.elapse dt
      let b := u.boot
      decide (u.works domSup = true ∧ (b.copyInForce = none ∨ b.rewriting = none ∧ (b.mode = 3 ∨ u.cycle.state ≠ 0 ∨
        u.cycle.writing.isSome = true)))) &&
     (let s : State := { R0.put [] with
          fc := 10000000000000, now := 10000000000000, twin.role := 0, boot.copyInForce := some 0, boot.copies := [(0,
          { generation := 6, sealed := true, content := [(⟨0x2101,3,0⟩,.num 7)] }), (1, { generation := 7, sealed := true })] }
      let dt : Nat := 0
      let c : Nat := 2
      let u := s.elapse dt
      let b := u.boot
      decide (u.works domSup = true ∧ b.copyInForce = some 0 ∧ b.rewriting = none ∧ b.mode ≠ 3 ∧ u.cycle.state = 0 ∧
        u.cycle.writing = none ∧ (u.copy 0).sealed = true ∧ (c = 1 ∨ c = 2) ∧ (u.copy c).sealed = false ∧ (c = 2 → (u.copy
        1).sealed = true ∧ (u.copy 0).generation ≤ (u.copy 1).generation))) &&
     (let s : State := { R0.put [] with
          fc := 10000000000000, now := 10000000000000, twin.role := 0, boot.rewriting := some 2, boot.copyInForce := some 0,
          boot.copies := [(0, { generation := 6, sealed := true, content := [(⟨0x2101,3,0⟩,.num 7)] }), (1,
          { generation := 7, sealed := true })] }
      let dt : Nat := 0
      let c : Nat := 2
      let u := s.elapse dt
      let b := u.boot
      decide (u.works domSup = true ∧ b.copyInForce = some 0 ∧ b.rewriting = some c)))
    = true := by decide +kernel

/-- States that meet the hypotheses of DomainResets, clause by clause. -/
theorem witness_DomainResets :
    ((let s : State := { (R0.put []).doms [(4,2)] with fc := 10000000000000, now := 10000000000000, twin.role := 4 }
      let dt : Nat := 0
      let d : Fin 15 := 4
      let u := s.elapse dt
      let k := d.val
      decide (u.dom k ≠ 3)) &&
     (let s : State := { (R0.put []).doms [] with fc := 10000000000000, now := 10000000000000, twin.role := 4 }
      let dt : Nat := 0
      let d : Fin 15 := 0
      let u := s.elapse dt
      let k := d.val
      decide (k = domAo ∧ u.dom k = 3)) &&
     (let s : State := { (R0.put []).doms [] with fc := 10000000000000, now := 10000000000000, twin.role := 4 }
      let dt : Nat := 0
      let d : Fin 15 := 4
      let u := s.elapse dt
      let k := d.val
      decide (k ≠ domAo ∧ k ≠ domSup ∧ u.dom k = 3)) &&
     (let s : State := { (R0.put []).doms [] with fc := 10000000000000, now := 10000000000000, twin.role := 4 }
      let dt : Nat := 0
      let d : Fin 15 := 7
      let u := s.elapse dt
      let k := d.val
      let calm : Bool := decide (u.runningIn 3 = false ∧ u.cycle.generation = 0)
      decide (k = domSup ∧ u.dom k = 3 ∧ calm)) &&
     (let s : State := { (R0.put []).doms [] with
          fc := 10000000000000, now := 10000000000000, twin.role := 4, boot.slotA := {
              state := 3, facts := some {
                  magicOk := true, product := 0x2430, revision := 0x00020001, version := 3, security := 2, length := 100,
                  bodyHashOk := true, vendorKeyHash := 0, vendorSigOk := true, customerKeyHash := none, customerSigOk := true }
                } }
      let dt : Nat := 0
      let d : Fin 15 := 7
      let u := s.elapse dt
      let k := d.val
      decide (k = domSup ∧ u.dom k = 3 ∧ u.escalates = true)) &&
     (let s : State := { (R0.put []).doms [] with fc := 10000000000000, now := 10000000000000, twin.role := 4 }
      let dt : Nat := 0
      let d : Fin 15 := 4
      let u := s.elapse dt
      let k := d.val
      decide (u.dom k ≠ 2)) &&
     (let s : State :=
        { (R0.put []).doms [(4,2)] with fc := 10000000000000, now := 10000000000000, twin.role := 4, boot.bootRom := true }
      let dt : Nat := 0
      let d : Fin 15 := 4
      let u := s.elapse dt
      let k := d.val
      decide (k ≠ domAo ∧ u.notStarted = true)) &&
     (let s : State :=
        { (R0.put []).doms [(0,2)] with fc := 10000000000000, now := 10000000000000, twin.role := 4, boot.internal := false }
      let dt : Nat := 0
      let d : Fin 15 := 0
      let u := s.elapse dt
      let k := d.val
      decide (k = domAo ∧ u.dom k = 2 ∧ u.held = true)) &&
     (let s : State := { (R0.put []).doms [(7,2)] with
          fc := 10000000000000, now := 10000000000000, twin.role := 4, boot.copies := [(1,
          { generation := 6, sealed := true, content := [(⟨0x2101,3,0⟩,.num 7)] }), (2, { generation := 5, sealed := true })],
          boot.copyInForce := some 1 }
      let dt : Nat := 0
      let d : Fin 15 := 7
      let u := s.elapse dt
      let k := d.val
      decide (k ≠ domAo ∧ u.notStarted = false ∧ u.boot.trained = true ∧ u.dom k = 2)) &&
     (let s : State := { (R0.put []).doms [] with
          fc := 10000000000000, now := 10000000000000, twin.role := 4, dict.clients := [(0, { id := .spi, last := 0 })] }
      let dt : Nat := 0
      let n : Nat := 0
      let who : ClientId := .spi
      let d : Fin 15 := 4
      let u := s.elapse dt
      let k := d.val
      decide (admitted who n 0x5821 u ∧ (u.boot.mode ≠ 4 ∨ k = domAo))) &&
     (let s : State := { (R0.put []).doms [(4,2)] with
          fc := 10000000000000, now := 10000000000000, twin.role := 4, dict.clients := [(0, { id := .spi, last := 0 })],
          boot.mode := 4 }
      let dt : Nat := 0
      let n : Nat := 0
      let who : ClientId := .spi
      let d : Fin 15 := 4
      let u := s.elapse dt
      let k := d.val
      decide (admitted who n 0x5821 u ∧ u.boot.mode = 4 ∧ k ≠ domAo ∧ u.dom k ≠ 3)) &&
     (let s : State := { (R0.put []).doms [] with
          fc := 10000000000000, now := 10000000000000, twin.role := 4, dict.clients := [(0, { id := .spi, last := 0 })],
          boot.mode := 4 }
      let dt : Nat := 0
      let n : Nat := 0
      let who : ClientId := .spi
      let d : Fin 15 := 4
      let u := s.elapse dt
      let k := d.val
      decide (admitted who n 0x5821 u ∧ u.boot.mode = 4 ∧ k ≠ domAo ∧ k ≠ domSup ∧ u.dom k = 3)) &&
     (let s : State := { (R0.put []).doms [] with fc := 10000000000000, now := 10000000000000, twin.role := 4 }
      let dt : Nat := 0
      let u := s.elapse dt
      let calm : Bool := decide (u.runningIn 3 = false ∧ u.cycle.generation = 0)
      decide (u.works domSup = true ∧ calm)) &&
     (let s : State := { (R0.put []).doms [] with
          fc := 10000000000000, now := 10000000000000, twin.role := 4, boot.slotA := {
              state := 3, facts := some {
                  magicOk := true, product := 0x2430, revision := 0x00020001, version := 3, security := 2, length := 100,
                  bodyHashOk := true, vendorKeyHash := 0, vendorSigOk := true, customerKeyHash := none, customerSigOk := true }
                } }
      let dt : Nat := 0
      let u := s.elapse dt
      decide (u.works domSup = true ∧ u.escalates = true)) &&
     (let s : State := { (R0.put []).doms [] with fc := 10000000000000, now := 10000000000000, twin.role := 4 }
      let dt : Nat := 0
      let u := s.elapse dt
      decide (u.works domCtrl = true)))
    = true := by decide +kernel

/-- States that meet the hypotheses of LowPowerAndWake, clause by clause. -/
theorem witness_LowPowerAndWake :
    ((let s : State := { R0.put [(0x5838,1,0,15),(0x5838,2,0,2),(0x5838,3,0,2),(0x5838,4,0,10)] with
          fc := 10000000000000, now := 10000000000000, twin.role := 4, dict.clients := [(0, { id := .spi, last := 0 })] }
      let dt : Nat := 0
      let n : Nat := 0
      let who : ClientId := .spi
      let u := s.elapse dt
      let barred : Bool := decide (3 ≤ u.twin.role ∧ u.twin.role ≤ 5 ∨ u.control.cascades.any (fun c => c.2.state != 0) = true ∨
        u.cycle.state ≠ 0 ∨ u.updateOpen = true)
      decide (admitted who n 0x5820 u ∧ u.power.state < 2 ∧ barred)) &&
     (let s : State := { R0.put [(0x5838,1,0,0)] with
          fc := 10000000000000, now := 10000000000000, twin.role := 0, dict.clients := [(0, { id := .spi, last := 0 })] }
      let dt : Nat := 0
      let n : Nat := 0
      let who : ClientId := .spi
      let u := s.elapse dt
      let barred : Bool := decide (3 ≤ u.twin.role ∧ u.twin.role ≤ 5 ∨ u.control.cascades.any (fun c => c.2.state != 0) = true ∨
        u.cycle.state ≠ 0 ∨ u.updateOpen = true)
      let free : Bool := decide (¬ barred)
      decide (admitted who n 0x5820 u ∧ u.power.state < 2 ∧ free ∧ u.wakeable 2 = false)) &&
     (let s : State := { R0.put [(0x5838,1,0,0)] with
          fc := 10000000000000, now := 10000000000000, twin.role := 0, dict.clients := [(0, { id := .spi, last := 0 })] }
      let dt : Nat := 0
      let n : Nat := 0
      let who : ClientId := .spi
      let u := s.elapse dt
      let barred : Bool := decide (3 ≤ u.twin.role ∧ u.twin.role ≤ 5 ∨ u.control.cascades.any (fun c => c.2.state != 0) = true ∨
        u.cycle.state ≠ 0 ∨ u.updateOpen = true)
      let free : Bool := decide (¬ barred)
      decide (admitted who n 0x5820 u ∧ u.power.state < 2 ∧ free ∧ u.wakeable 3 = false)) &&
     (let s : State := { R0.put [(0x5838,1,0,0)] with
          fc := 10000000000000, now := 10000000000000, twin.role := 0, dict.clients := [(0, { id := .spi, last := 0 })] }
      let dt : Nat := 0
      let n : Nat := 0
      let who : ClientId := .spi
      let u := s.elapse dt
      let barred : Bool := decide (3 ≤ u.twin.role ∧ u.twin.role ≤ 5 ∨ u.control.cascades.any (fun c => c.2.state != 0) = true ∨
        u.cycle.state ≠ 0 ∨ u.updateOpen = true)
      let free : Bool := decide (¬ barred)
      decide (admitted who n 0x5820 u ∧ u.power.state < 2 ∧ free ∧ u.wakeable 4 = false)) &&
     (let s : State := { R0.put [(0x5838,1,0,15),(0x5838,2,0,2),(0x5838,3,0,2),(0x5838,4,0,10)] with
          fc := 10000000000000, now := 10000000000000, twin.role := 0, dict.clients := [(0, { id := .spi, last := 0 })] }
      let dt : Nat := 0
      let n : Nat := 0
      let who : ClientId := .spi
      let u := s.elapse dt
      let barred : Bool := decide (3 ≤ u.twin.role ∧ u.twin.role ≤ 5 ∨ u.control.cascades.any (fun c => c.2.state != 0) = true ∨
        u.cycle.state ≠ 0 ∨ u.updateOpen = true)
      let free : Bool := decide (¬ barred)
      decide (admitted who n 0x5820 u ∧ u.power.state < 2 ∧ free ∧ u.wakeable 2 = true)) &&
     (let s : State := { R0.put [(0x5838,1,0,15),(0x5838,2,0,2),(0x5838,3,0,2),(0x5838,4,0,10)] with
          fc := 10000000000000, now := 10000000000000, twin.role := 0, dict.clients := [(0, { id := .spi, last := 0 })] }
      let dt : Nat := 0
      let n : Nat := 0
      let who : ClientId := .spi
      let u := s.elapse dt
      let barred : Bool := decide (3 ≤ u.twin.role ∧ u.twin.role ≤ 5 ∨ u.control.cascades.any (fun c => c.2.state != 0) = true ∨
        u.cycle.state ≠ 0 ∨ u.updateOpen = true)
      let free : Bool := decide (¬ barred)
      decide (admitted who n 0x5820 u ∧ u.power.state < 2 ∧ free ∧ u.wakeable 3 = true)) &&
     (let s : State := { R0.put [(0x5838,1,0,15),(0x5838,2,0,2),(0x5838,3,0,2),(0x5838,4,0,10)] with
          fc := 10000000000000, now := 10000000000000, twin.role := 0, dict.clients := [(0, { id := .spi, last := 0 })] }
      let dt : Nat := 0
      let n : Nat := 0
      let who : ClientId := .spi
      let u := s.elapse dt
      let barred : Bool := decide (3 ≤ u.twin.role ∧ u.twin.role ≤ 5 ∨ u.control.cascades.any (fun c => c.2.state != 0) = true ∨
        u.cycle.state ≠ 0 ∨ u.updateOpen = true)
      let free : Bool := decide (¬ barred)
      decide (admitted who n 0x5820 u ∧ u.power.state < 2 ∧ free ∧ u.wakeable 4 = true)) &&
     (let s : State := { R0.put [] with fc := 10000000000000, now := 10000000000000, twin.role := 0 }
      let dt : Nat := 0
      let pin : Fin 4 := 1
      let level : Bool := true
      let u := s.elapse dt
      let en := u.cn 0x5838 1 0
      let quiet : Bool := decide (u.power.state < 2)
      decide ((quiet ∨ en.testBit 0 = false ∨ (u.cn 0x5838 2 0).testBit pin.val = false ∨ (u.cn 0x5838 3 0).testBit pin.val ≠
        level))) &&
     (let s : State := { (R0.put [(0x5838,1,0,15),(0x5838,2,0,2),(0x5838,3,0,2),(0x5838,4,0,10)]).doms
            [(2,1),(3,1),(4,1),(5,1),(6,1),(7,1),(8,1),(9,1),(10,1),(11,1),(12,1),(13,1),(14,1)] with
          fc := 10000000000000, now := 10000000000000, twin.role := 0, power.state := 2 }
      let dt : Nat := 0
      let pin : Fin 4 := 1
      let level : Bool := true
      let u := s.elapse dt
      let en := u.cn 0x5838 1 0
      decide (u.power.state = 2 ∧ en.testBit 0 = true ∧ (u.cn 0x5838 2 0).testBit pin.val = true ∧ (u.cn 0x5838 3 0).testBit
        pin.val = level)) &&
     (let s : State := { R0.put [] with fc := 10000000000000, now := 10000000000000, twin.role := 0 }
      let dt : Nat := 0
      let u := s.elapse dt
      let en := u.cn 0x5838 1 0
      let quiet : Bool := decide (u.power.state < 2)
      decide ((quiet ∨ en.testBit 3 = false ∨ u.cn 0x5838 4 0 = 0 ∨ u.now < u.power.enteredAt + u.cn 0x5838 4 0 * cyclesPerSec))) &&
     (let s : State := { (R0.put [(0x5838,1,0,15),(0x5838,2,0,2),(0x5838,3,0,2),(0x5838,4,0,10)]).doms
            [(2,1),(3,1),(4,1),(5,1),(6,1),(7,1),(8,1),(9,1),(10,1),(11,1),(12,1),(13,1),(14,1)] with
          fc := 10000000000000, now := 10000000000000, twin.role := 0, power.state := 2 }
      let dt : Nat := 0
      let u := s.elapse dt
      let en := u.cn 0x5838 1 0
      decide (u.power.state = 2 ∧ en.testBit 3 = true ∧ u.cn 0x5838 4 0 ≠ 0 ∧ u.power.enteredAt + u.cn 0x5838 4 0 * cyclesPerSec
        ≤ u.now)))
    = true := by decide +kernel

/-- States that meet the hypotheses of SurgeAndTemperature, clause by clause. -/
theorem witness_SurgeAndTemperature :
    ((let s : State := { R0.put [(0x5820,3,0,0)] with fc := 10000000000000, now := 10000000000000, twin.role := 0 }
      let dt : Nat := 0
      let u := s.elapse dt
      let p := u.power
      let policy := u.cn 0x5820 3 0
      let may : Bool := decide (u.surgeAllowed = true ∧ p.settleAt = none ∧ p.burning = false)
      decide ((policy ≠ 1 ∨ ¬ may))) &&
     (let s : State := { R0.put [(0x5820,3,0,1),(0x5820,6,0,100)] with
          fc := 10000000000000, now := 10000000000000, twin.role := 0, power.left := 8 }
      let dt : Nat := 0
      let u := s.elapse dt
      let p := u.power
      let policy := u.cn 0x5820 3 0
      let may : Bool := decide (u.surgeAllowed = true ∧ p.settleAt = none ∧ p.burning = false)
      decide (policy = 1 ∧ may)) &&
     (let s : State := { R0.put [] with fc := 10000000000000, now := 10000000000000, twin.role := 0 }
      let dt : Nat := 0
      let u := s.elapse dt
      let p := u.power
      decide (p.burning = false)) &&
     (let s : State := { R0.put [] with fc := 10000000000000, now := 10000000000000, twin.role := 0, power.burning := true }
      let dt : Nat := 0
      let u := s.elapse dt
      let p := u.power
      decide (p.burning = true)) &&
     (let s : State := { R0.put [] with fc := 10000000000000, now := 10000000000000, twin.role := 0 }
      let dt : Nat := 0
      let u := s.elapse dt
      let p := u.power
      decide (p.settleAt = none)) &&
     (let s : State :=
        { R0.put [] with fc := 10000000000000, now := 10000000000000, twin.role := 0, power.settleAt := some 99999999999999 }
      let dt : Nat := 0
      let e : Nat := 99999999999999
      let u := s.elapse dt
      let p := u.power
      decide (p.settleAt = some e ∧ u.now < e)) &&
     (let s : State := { R0.put [] with fc := 10000000000000, now := 10000000000000, twin.role := 0, power.settleAt := some 7 }
      let dt : Nat := 0
      let mv : Nat := 859
      let e : Nat := 7
      let u := s.elapse dt
      let p := u.power
      decide (p.settleAt = some e ∧ e ≤ u.now ∧ mv < 860 ∧ p.state = 0)) &&
     (let s : State := { R0.put [] with
          fc := 10000000000000, now := 10000000000000, twin.role := 0, power.settleAt := some 7, power.left := 9 }
      let dt : Nat := 0
      let mv : Nat := 860
      let e : Nat := 7
      let u := s.elapse dt
      let p := u.power
      decide (p.settleAt = some e ∧ e ≤ u.now ∧ 860 ≤ mv)) &&
     (let s : State := { R0.put [(0x5820,3,0,1)] with fc := 10000000000000, now := 10000000000000, twin.role := 0 }
      let dt : Nat := 0
      let u := s.elapse dt
      let policy := u.cn 0x5820 3 0
      decide (u.works domSup = true ∧ policy ≠ 2)) &&
     (let s : State :=
        { R0.put [(0x5820,3,0,2),(0x5820,7,0,70)] with fc := 10000000000000, now := 10000000000000, twin.role := 0 }
      let dt : Nat := 0
      let load : Nat := 70
      let u := s.elapse dt
      let p := u.power
      let policy := u.cn 0x5820 3 0
      let may : Bool := decide (u.surgeAllowed = true ∧ p.settleAt = none ∧ p.burning = false)
      let th := u.cn 0x5820 7 0
      decide (u.works domSup = true ∧ policy = 2 ∧ p.state ≠ 1 ∧ (load ≤ th ∨ ¬ may))) &&
     (let s : State :=
        { R0.put [(0x5820,3,0,2),(0x5820,7,0,70)] with fc := 10000000000000, now := 10000000000000, twin.role := 0 }
      let dt : Nat := 0
      let load : Nat := 71
      let u := s.elapse dt
      let p := u.power
      let policy := u.cn 0x5820 3 0
      let may : Bool := decide (u.surgeAllowed = true ∧ p.settleAt = none ∧ p.burning = false)
      let th := u.cn 0x5820 7 0
      decide (u.works domSup = true ∧ policy = 2 ∧ p.state ≠ 1 ∧ th < load ∧ may)) &&
     (let s : State := { R0.put [(0x5820,3,0,2),(0x5820,7,0,70)] with
          fc := 10000000000000, now := 10000000000000, twin.role := 0, power.state := 1 }
      let dt : Nat := 0
      let load : Nat := 36
      let u := s.elapse dt
      let p := u.power
      let policy := u.cn 0x5820 3 0
      let th := u.cn 0x5820 7 0
      decide (u.works domSup = true ∧ policy = 2 ∧ p.state = 1 ∧ th < 2 * load)) &&
     (let s : State := { R0.put [(0x5820,3,0,2),(0x5820,7,0,70)] with
          fc := 10000000000000, now := 10000000000000, twin.role := 0, power.state := 1 }
      let dt : Nat := 0
      let load : Nat := 35
      let u := s.elapse dt
      let p := u.power
      let policy := u.cn 0x5820 3 0
      let th := u.cn 0x5820 7 0
      decide (u.works domSup = true ∧ policy = 2 ∧ p.state = 1 ∧ 2 * load ≤ th ∧ p.lowLoadSince = none)) &&
     (let s : State := { R0.put [(0x5820,3,0,2),(0x5820,7,0,70)] with
          fc := 10000000000000, now := 10000000000000, twin.role := 0, power.state := 1, power.lowLoadSince := some 7 }
      let dt : Nat := 0
      let load : Nat := 35
      let e : Nat := 7
      let u := s.elapse dt
      let p := u.power
      let policy := u.cn 0x5820 3 0
      let th := u.cn 0x5820 7 0
      decide (u.works domSup = true ∧ policy = 2 ∧ p.state = 1 ∧ 2 * load ≤ th ∧ p.lowLoadSince = some e ∧ e + cyclesPerSec ≤
        u.now)) &&
     (let s : State := { R0.put [] with fc := 10000000000000, now := 10000000000000, twin.role := 0, power.state := 1 }
      let dt : Nat := 0
      let ma : Nat := 14000
      let u := s.elapse dt
      let p := u.power
      decide ((ma ≤ 14000 ∨ p.state ≠ 1))) &&
     (let s : State := { R0.put [] with fc := 10000000000000, now := 10000000000000, twin.role := 0, power.state := 1 }
      let dt : Nat := 0
      let ma : Nat := 14001
      let u := s.elapse dt
      let p := u.power
      decide (14000 < ma ∧ p.state = 1)) &&
     (let s : State := { R0.put [] with fc := 10000000000000, now := 10000000000000, twin.role := 0 }
      let dt : Nat := 0
      let u := s.elapse dt
      let p := u.power
      decide ((p.state ≠ 1 ∨ u.now < p.secondAt + cyclesPerSec))) &&
     (let s : State :=
        { R0.put [] with fc := 10000000000000, now := 10000000000000, twin.role := 0, power.state := 1, power.left := 2 }
      let dt : Nat := 0
      let u := s.elapse dt
      let p := u.power
      decide (p.state = 1 ∧ p.secondAt + cyclesPerSec ≤ u.now ∧ 2 ≤ p.left)) &&
     (let s : State := { R0.put [] with
          fc := 10000000000000, now := 10000000000000, twin.role := 0, power.state := 1, power.left := 1, power.burned := 2627 }
      let dt : Nat := 0
      let u := s.elapse dt
      let p := u.power
      decide (p.state = 1 ∧ p.secondAt + cyclesPerSec ≤ u.now ∧ p.left ≤ 1 ∧ p.burned < 2628)) &&
     (let s : State := { R0.put [] with
          fc := 10000000000000, now := 10000000000000, twin.role := 0, power.state := 1, power.left := 1, power.burned := 2628 }
      let dt : Nat := 0
      let u := s.elapse dt
      let p := u.power
      decide (p.state = 1 ∧ p.secondAt + cyclesPerSec ≤ u.now ∧ p.left ≤ 1 ∧ 2628 ≤ p.burned)) &&
     (let s : State := { R0.put [] with fc := 10000000000000, now := 10000000000000, twin.role := 0 }
      let dt : Nat := 0
      let tenths : Int := 1249
      let u := s.elapse dt
      let p := u.power
      decide ((tenths < 1250 ∨ u.dom domAo ≠ 3 ∨ p.shutdownAt.isSome = true))) &&
     (let s : State := { R0.put [] with fc := 10000000000000, now := 10000000000000, twin.role := 0 }
      let dt : Nat := 0
      let tenths : Int := 1250
      let u := s.elapse dt
      let p := u.power
      decide (1250 ≤ tenths ∧ u.dom domAo = 3 ∧ p.shutdownAt = none)) &&
     (let s : State :=
        { R0.put [] with fc := 10000000000000, now := 10000000000000, twin.role := 0, power.shutdownAt := some 7 }
      let dt : Nat := 0
      let e : Nat := 7
      let tenths : Int := 1050
      let u := s.elapse dt
      let p := u.power
      decide (p.shutdownAt = some e ∧ (u.now < e + cyclesPerSec ∨ 1050 ≤ tenths))) &&
     (let s : State :=
        { R0.put [] with fc := 10000000000000, now := 10000000000000, twin.role := 0, power.shutdownAt := some 7 }
      let dt : Nat := 0
      let e : Nat := 7
      let tenths : Int := 1049
      let u := s.elapse dt
      let p := u.power
      decide (p.shutdownAt = some e ∧ e + cyclesPerSec ≤ u.now ∧ tenths < 1050)))
    = true := by decide +kernel

end Sys2Proof.Tests
end

section
/-! PROOF. Every command has an effect, and it leads to a state that follows (`Keeps`) the one at its moment. -/

namespace Sys2Proof.Machine

open Sys2Proof

/-- The outcome is a state that follows the one in which the command finds the block. -/
def Follows (dt : Nat) (s : State) (o : Host.Outcome State Fault Refusal) : Prop := ∃ t, o = .next t ∧ Keeps (s.elapse dt) t

theorem Follows.of {dt : Nat} {s t : State} (h : Keeps (s.elapse dt) t) : Follows dt s (.next t) := ⟨t, rfl, h⟩

theorem Follows.of_lasting {dt : Nat} {s t : State} (h : t.lasting = (s.elapse dt).lasting) : Follows dt s (.next t) :=
  .of (.of h)

/-- A command of one block, whose operation touches neither clock nor fuse. -/
theorem Follows.whenUp {dt d : Nat} {f : State → State} {s : State} (h : ∀ s, (f s).lasting = s.lasting) :
    Follows dt s (.next ((s.elapse dt).whenUp d f)) :=
  .of_lasting (State.whenUp_lasting d f _ h)

/-- A command of one block, whatever its operation may do. -/
theorem Follows.whenUp_keeps {dt d : Nat} {f : State → State} {s : State} (h : ∀ s, Keeps s (f s)) :
    Follows dt s (.next ((s.elapse dt).whenUp d f)) :=
  .of (.whenUp h)

/-- A command that a client gives by an access to the dictionary. -/
theorem Follows.access {dt i : Nat} {who : ClientId} {act : Nat → State → Reply × State} {s : State}
    (h : ∀ n s, Keeps s (act n s).2) : Follows dt s (.next ((s.elapse dt).access who i act)) :=
  .of (.access h)

/-- A frame of the peer, whose operation touches neither clock nor fuse. -/
theorem Follows.fromPeer {dt : Nat} {f : State → State} {s : State} (h : ∀ s, (f s).lasting = s.lasting) :
    Follows dt s (.next ((s.elapse dt).fromPeer f)) :=
  .of_lasting (State.fromPeer_lasting f _ h)

/-- A command that acts where `c` holds and else does nothing. -/
theorem Follows.ite {dt : Nat} {s t : State} (c : Prop) [Decidable c] (h : Keeps (s.elapse dt) t) :
    Follows dt s (.next (if c then t else s.elapse dt)) :=
  .of (.ite c h (.refl _))

theorem Keeps.withDispatch {c : Nat} {f : Dispatch → State → State} {s : State} (h : ∀ d s, Keeps s (f d s)) :
    Keeps s (s.withDispatch c f) := by
  unfold State.withDispatch; split
  · exact (Keeps.of (by simp)).trans (h _ _)
  · exact .refl s

/-- Every command has an effect, and it follows the state at its moment. First those of one block, then those given by an access
or by the peer, then those that may reset a domain, restart the device, burn a fuse or spend the ledger. -/
theorem exec_follows (c : Instr) (s : State) : Follows c.dt s (exec c s) := by
  cases c with
  | ppsEdge | zdaReceived | ppsLossTimeout | timeSourceRevert | ptpLossTimeout | shaftQuadratureEdge | shaftIndex |
  shaftLockTimer | shaftStandstill | mainsZeroCrossing | mainsLossTimeout | seaWheelLossTimeout | appointmentDue |
  ppsOutPulseStart | ppsOutPulseEnd | whlEvtDispatch | whlEvtPulseEnd | cardSerialCharacter | cardDatagram |
  cardCanMessage | cardReceivedPdo | sourceLate | sourceStale | voteCountingRecord | groupHoldExpiry |
  clearDiscoveryList | brambleMatch | shaperEmission | composeEntry | controlTakeRecord | modelRecompute |
  tankStaleTimeout | readingMeanInterval | gaugeSampleSet | fallbackSample | freeReportSample | cascadeInnerStep |
  cascadeStepComplete | cascadeHoldCommand | rebase | readmit | syncDispatch | serialCharacterReceived | falseStart |
  breakEnd | stuckLow | stuckProbe | lineRecovered | serialTxStart | serialTxDone | driverLagExpiry |
  autobaudMeasurement | frameSlotStart | frameResponseDeadline | frameHeaderObserved | busShort |
  classificationWindowEnd | loopConversion | phyPoll | arpFrame | arpRetry | arpResolutionTimeout | arpEntryExpiry |
  icmpEchoRequest | igmpQuery | igmpReportDelay | macFrameStart | macFrameEnd | txUnderrun | pauseTimerExpiry |
  pauseWatchdog | pauseHoldoffEnd | removeStampHead | ptpAnnounce | ptpAnnounceTimeout | ptpSync | ptpFollowUp |
  ptpDelayResp | ptpExchangeTimeout | macCounterSample | clearCaptureRing | canFrameSent | canBusError | busOffDelay |
  busOffRecovered | addressClaim | addressClaimComplete | pgnRequest | fastPacketTimeout | bamTimeout | nmtStart |
  nmtStop | nmtEnterPreOperational | nmtResetNode | nmtResetCommunication | canopenHeartbeat | emcyInhibitExpiry |
  scrubRead | unsettled | realignRequest | realignAcknowledge | realignAccept | realignResume | journalTakeRecord |
  journalFlush | flushNow | pageProgrammed | blockErased | nandTimeout | mountComplete | formatComplete |
  checkComplete | cycleCommit | copyWriteComplete | cycleTimeout | eventLogWrite | alertAcknowledge | acknowledgeAll |
  acnAcknowledge | acnRepeatRequest | alfRepeat | alcEmission | phlxStatus | phlxWheelReport | laneUp | laneLost |
  helloSend | heartbeatSend | heartbeatLost | beatOutToggle | beatInEdge | beatInAbsent | takingEntry | takingConfirm
  | claimTimerExpiry | witnessDatagram | witnessHoldExpiry | revertHoldExpiry | handoverSetPoint | serialOverlapExpiry
  | incomingStartDelay | resyncTimer | confirmTimeExpiry | startFailuresClear | copyRewrite | receiveMarkIdle |
  driverLeadExpiry =>
    exact .whenUp (by simp)
  | phyRegisterRead | journalDataRead | cycleOpen | cycleCheck | cycleSet | cycleAbandon | loadFactoryDefaults |
  statisticRead | eventLogDataRead | handoverCommand | imageOpen | imageDataWrite | imageVerify | imageActivate |
  imageConfirm | dozeRequest | listenRequest | deepStandbyRequest =>
    exact .access (fun _ _ => .of (by simp))
  | stgWrite | bndWrite | registerWrite =>
    exact .access (fun _ _ => State.writeBy_keeps ..)
  | dividerWrite | phyRegisterWrite | journalFormat | journalSeek | flagClear | eventLogSeek | clearLog =>
    exact .access (fun _ _ => State.writeObj_keeps ..)
  | helloReceived | heartbeatReceived | mirrorReceived | handoverRequest | handoverAgree | portRelease | shadow |
  checkResult | set | setAck =>
    exact .fromPeer (by simp)
  | canFrameReceived | sdoExpeditedUpload | sdoDownloadInitiate | sdoUploadInitiate | sdoUploadSegment | sdoAbort |
  sdoSegmentTimeout | spiFetch | arbNFall | arbNRise | surgeSettleCheck | temperatureSample | coreOvercurrent |
  rearmWaitExpiry =>
    exact .of_lasting (by simp [Instr.dt])
  | clientReleaseTimeout | clientRelease | verifyComplete =>
    exact .ite _ (.of (by simp [Instr.dt]))
  | imageActivationStart => exact .ite _ (State.activationStart_keeps _)
  | surgeEntry => exact .ite _ (State.beginSurge_keeps _)
  | externalClockStop | externalClockResume =>
    exact .of_lasting rfl
  | ethFrameReceived => exact .of (.ite _ (.whenUp fun _ => .of (by simp)) (State.frameWhileLow_keeps ..))
  | cascadeRelease => exact .whenUp fun _ => State.attempt_lasting _ _ fun _ => State.commandRelease_lasting _ _ _
  | blockingSetPoint => exact .whenUp_keeps fun _ => .withDispatch State.setPoint_keeps
  | queueStall => exact .whenUp_keeps (State.stall_keeps _)
  | surgeLoadEvaluation => exact .whenUp_keeps (State.loadEvaluation_keeps _)
  | supLockstep => exact .whenUp_keeps fun _ => (Keeps.of (State.recordAo_lasting ..)).trans (State.resetSup_keeps _)
  | ctrlLockstep => exact .whenUp_keeps fun _ => (Keeps.of (State.event_lasting ..)).trans (State.resetDomain_keeps ..)
  | restart | restartIntoRecovery =>
    exact .access fun _ _ => State.restart_keeps ..
  | imagePrevious => exact .access fun _ _ => State.imagePrevious_keeps _
  | raiseFloor => exact .access fun _ _ => State.raiseFloor_keeps _
  | burnCustomerHash => exact .access fun _ _ => State.burnHash_keeps ..
  | domainResetCommand => exact .access fun _ s => .ite2 _ (.refl s) (State.resetDomain_keeps ..)
  | sdoExpeditedDownload => exact .of ((Keeps.of (by simp [Instr.dt])).trans (State.sdoExpedited_keeps ..))
  | sdoDownloadSegment =>
    exact .of ((Keeps.of (by simp [Instr.dt])).trans (.sdoSegment fun _ _ => State.takeDownload_keeps ..))
  | lapRead | lapWrite | lapClose | lapEcho =>
    exact .of (State.lap_keeps ..)
  | spiReadRequest | spiWriteRequest =>
    exact .of (State.spiRequest_keeps ..)
  | powerOn => exact .of (State.powerOn_keeps _)
  | resetNAssert => exact .of ((State.hold_keeps 2 _).trans (.of rfl))
  | resetNRelease => exact .of (State.resetRelease_keeps ..)
  | brownOut => exact .of (State.brownOut_keeps ..)
  | internalResetRelease => exact .of (State.internalRelease_keeps _)
  | bootWatchdog => exact .of (State.bootWatchdog_keeps _)
  | domainResetEnter => exact .of (State.resetDomain_keeps ..)
  | domainResetExit => exact .of (State.leaveReset_keeps ..)
  | wakeIn => exact .of (State.wakeInput_keeps ..)
  | wakeTimer => exact .of (State.wakeTimer_keeps _)
  | serialStartEdgeWake => exact .of (State.serialWake_keeps ..)
  | surgeSecond => exact .of (State.surgeSecond_keeps _)
  | ledgerHourBurned => exact .of (State.hourBurned_keeps _)
  | thermalShutdown => exact .of (State.thermalShutdown_keeps ..)
  | shutdownRelease => exact .of (State.shutdownRelease_keeps ..)

end Sys2Proof.Machine

open Sys2Proof Sys2Proof.Machine

/-- Settles O5: every command's state follows (`exec_follows`) the one at its moment, which differs from the one before it in its
clocks and wheels alone. -/
theorem commandsKeepFusesAndTime : Obligations.CommandsKeepFusesAndTime := by
  intro c s
  obtain ⟨t, ht, k⟩ := exec_follows c s
  refine ⟨t, ht, ?_, ?_, ?_, ?_, ?_, ?_, ?_⟩
  · simpa using k.now
  · simpa using k.pending
  · simpa using k.vendor
  · simpa using k.serial
  · simpa using k.customer
  · simpa using k.floorUp
  · simpa using k.burnedUp
end

section
/-! PROOF. The end of a blocking cycle may let a handover through that was asked for meanwhile (R319): the frame to the peer has
a payload that the manual leaves open, for which a free value is used up. -/

namespace Sys2Proof.Machine

open Sys2Proof

/-- A frame to the peer goes out: the link is up, and queue 0x082 admits it. -/
def State.linkCarries (s : State) : Bool := s.up domJoile && s.linkUp && s.admits 0x82

/-- Notices of a queue touch the statistics and what the fabric keeps, and nothing else. -/
theorem State.notices_eq (q n : Nat) (s : State) :
    s.notices q n = { s with stats := (s.notices q n).stats, fabric := (s.notices q n).fabric } := by
  unfold State.notices
  split
  · rfl
  · dsimp only; (repeat' split) <;> rfl

/-- A packet put in a queue touches the statistics and what the fabric keeps, and nothing else. -/
theorem State.pushed_eq (q : Nat) (s : State) :
    s.pushed q = { s with stats := (s.pushed q).stats, fabric := (s.pushed q).fabric } := by
  unfold State.pushed
  extract_lets n told
  have h : told = { s with stats := told.stats, fabric := told.fabric } := State.notices_eq ..
  split
  · rw [h]; rfl
  · rw [h]

/-- A frame that goes out uses up a free value, for the bytes of its payload. -/
theorem State.sendJ_free (f : JFrame) (s : State) (h : s.linkCarries = true) : (s.sendJ f).free = s.free + 1 := by
  unfold State.linkCarries at h
  unfold State.sendJ
  rw [if_pos h, State.pushed_eq]; rfl

/-- The agreement to a handover goes out where one was asked for and no blocking cycle is open any more (R319). -/
theorem State.answerHandover_free (s : State) (role : s.twin.role = 4) (asked : s.twin.handoverAsked.isSome = true)
    (none : s.twin.handover.isNone = true) (idle : s.cycle.state = 0) (written : s.cycle.writing.isNone = true)
    (carries : s.linkCarries = true) : s.answerHandover.free = s.free + 1 := by
  unfold State.answerHandover
  rw [if_pos ⟨role, asked, idle, written, none⟩]
  exact State.sendJ_free _ _ carries

theorem State.event_linkCarries (c a b : Nat) (s : State) : (s.event c a b).linkCarries = s.linkCarries := by
  simp [State.linkCarries, State.linkUp, State.lanesUp, State.lanesUsed, State.admits, State.que]

/-- A copy that could not be written ends its cycle (R283), and with it the wait of a handover asked for. -/
theorem State.copyWritten_free (n : Nat) (s : State) (writing : s.cycle.writing = some n) (role : s.twin.role = 4)
    (asked : s.twin.handoverAsked.isSome = true) (none : s.twin.handover.isNone = true) (carries : s.linkCarries = true) :
    (s.copyWritten false).free = s.free + 1 := by
  unfold State.copyWritten
  simp only [writing, Bool.false_and, Bool.false_eq_true, if_false]
  rw [State.answerHandover_free]
  · rw [State.event_free]
  · rwa [State.event_twin]
  · rwa [State.event_twin]
  · rwa [State.event_twin]
  · rw [State.event_cycle]
  · rw [State.event_cycle]; rfl
  · rw [State.event_linkCarries]; exact carries

/-- An active unit with a link, whose committed cycle is writing copy 0 while its peer has asked for a handover. -/
def State.askedWhileWriting : State :=
  { State.reset with
    twin := { role := 4, lanes := [(0, true), (1, true)], handoverAsked := some 1 }
    cycle := { state := 5, owner := some 0, committed := true, generation := 1, writing := some 0 } }

end Sys2Proof.Machine

open Sys2Proof Sys2Proof.Machine

/-- Refutes O45: where the write of a copy fails while the peer waits for its handover, the agreement is sent (R319), and its
payload uses up a free value, of which the statement says that it stays. -/
theorem not_blockingCycleProceeds : ¬ Obligations.BlockingCycleProceeds := by
  intro h
  let u := State.askedWhileWriting.elapse 0
  have works : u.works domSup = true := by decide
  have carries : u.linkCarries = true := by decide +kernel
  have spent : (u.copyWritten false).free = u.free + 1 :=
    State.copyWritten_free 0 u (by decide) (by decide) (by decide) (by decide) carries
  obtain ⟨-, -, -, -, -, -, written, -⟩ := (h State.askedWhileWriting 0 0 0 ⟨0, 0, 0, 0, 0, false, 0⟩ [] false).1 works
  obtain ⟨t, run, -, -, -, -, -, -, -, -, -, kept⟩ := written (by decide)
  have ended : t = u.copyWritten false := by
    have := (Host.Outcome.next.inj run).symm
    rwa [State.whenUp_of _ _ _ works] at this
  have same : t.free = u.free := by rw [kept]
  rw [ended, spent] at same
  omega
end

section
/-! PROOF. An Ethernet domain that enters reset has nothing in flight any more, so that its port is released in a handover
(R320); with the last port released the outgoing unit is the standby (Table 14.4). -/

namespace Sys2Proof.Machine

open Sys2Proof

theorem foldl_twin {α : Type} (f : State → α → State) (h : ∀ s a, (f s a).twin = s.twin) (l : List α) (s : State) :
    (l.foldl f s).twin = s.twin := by
  induction l generalizing s with
  | nil => rfl
  | cons a l ih => exact (ih _).trans (h s a)

theorem State.sendJ_role (f : JFrame) (s : State) : (s.sendJ f).twin.role = s.twin.role := by
  unfold State.sendJ
  split
  · rw [State.pushed_eq]; rfl
  · rfl

theorem State.sendJ_released (f : JFrame) (s : State) : (s.sendJ f).twin.released = s.twin.released := by
  unfold State.sendJ
  split
  · rw [State.pushed_eq]; rfl
  · rfl

theorem State.handoverDone_role (s : State) (out : s.twin.role = 5)
    (all : listenerPorts.all (fun p => s.twin.released.contains p) = true) : s.handoverDone.twin.role = 2 := by
  unfold State.handoverDone
  rw [if_pos ⟨out, all⟩]

/-- The release of the last port of a handover, not a serial one, makes the unit the standby. -/
theorem State.releasePort_role (port : Nat) (s : State) (out : s.twin.role = 5)
    (unreleased : s.twin.released.contains port = false)
    (last : listenerPorts.all (fun p => (s.twin.released ++ [port]).contains p) = true) (notSerial : 23 < port) :
    (s.releasePort port).twin.role = 2 := by
  unfold State.releasePort
  rw [if_neg (by rw [out, unreleased]; decide)]
  dsimp only
  rw [if_neg (Nat.not_le.mpr notSerial)]
  apply State.handoverDone_role
  · rw [State.sendJ_role]; exact out
  · rw [State.sendJ_released]; exact last

theorem State.portIdle_eth (p : Nat) (s : State) (eth : p < 2) (idle : (s.ep p).inFlight = none) :
    s.portIdle (0x20 + p) = true := by
  unfold State.portIdle
  rw [if_neg (by omega), if_pos (by omega), Nat.add_sub_cancel_left, idle]

theorem State.sampleCounters_twin (p : Nat) (s : State) : (s.sampleCounters p).twin = s.twin := by
  unfold State.sampleCounters
  rw [State.modEp_twin]
  exact foldl_twin (fun s n => s.sampleCounter p (n + 1)) (fun _ _ => rfl) _ s

/-- An Ethernet port whose domain enters reset is released in a handover: of the last one the unit becomes the standby. -/
theorem State.ethEnter_role (p : Nat) (s : State) (eth : p < 2) (out : s.twin.role = 5)
    (unreleased : s.twin.released.contains (0x20 + p) = false)
    (last : listenerPorts.all (fun x => (s.twin.released ++ [0x20 + p]).contains x) = true) :
    (s.ethEnter p).twin.role = 2 := by
  unfold State.ethEnter
  extract_lets counted linked fresh
  have same : fresh.twin = s.twin := by
    have lost : linked.twin = counted.twin := by
      unfold linked
      split
      · rfl
      · exact State.event_twin ..
    exact (State.modEp_twin ..).trans (lost.trans (State.sampleCounters_twin p s))
  have idle : fresh.portIdle (0x20 + p) = true := State.portIdle_eth p fresh eth (by simp [fresh])
  rw [← same] at out unreleased last
  unfold State.releaseIdle
  rw [if_pos ⟨out, idle⟩]
  exact State.releasePort_role _ _ out unreleased last (by omega)

theorem State.markEnds_twin (d : Nat) (s : State) : (s.markEnds d).twin = s.twin := by
  unfold State.markEnds
  apply foldl_twin
  intro s q
  (repeat' split) <;> rfl

theorem State.enterReset_twin (d : Nat) (s : State) (runs : s.dom d = 3) : (s.enterReset d).twin = (s.domainLoses d).twin := by
  unfold State.enterReset
  rw [if_neg (fun still => still runs), State.markEnds_twin, State.modDom_twin]

/-- The reset of ETH0, whose port is the last of a handover, makes the unit the standby. -/
theorem State.resetDomain_eth0_role (s : State) (runs : s.dom 8 = 3) (out : s.twin.role = 5)
    (unreleased : s.twin.released.contains 0x20 = false)
    (last : listenerPorts.all (fun x => (s.twin.released ++ [0x20]).contains x) = true) :
    (s.resetDomain 8).twin.role = 2 := by
  have entered : s.resetDomain 8 = s.enterReset 8 := by
    unfold State.resetDomain
    rw [if_neg (by decide), if_neg (fun still => still runs)]
    exact if_neg (by simp)
  have loses : s.domainLoses 8 = s.ethEnter 0 := rfl
  rw [entered, State.enterReset_twin 8 s runs, loses]
  exact State.ethEnter_role 0 s (by decide) out unreleased last

/-- A unit that hands over and has released every port but E0. -/
def State.lastPortOpen : State :=
  { State.reset with twin := { role := 5, released := listenerPorts.erase 0x20 } }

end Sys2Proof.Machine

open Sys2Proof Sys2Proof.Machine

/-- Refutes O58: in a handover, the reset of the domain of the last port that is not released ends the handover, so that the role
does not stay as it was. -/
theorem not_domainResets : ¬ Obligations.DomainResets := by
  intro h
  let u := State.lastPortOpen.elapse 0
  have runs : u.dom 8 = 3 := by decide
  obtain ⟨-, -, enters, -⟩ := h State.lastPortOpen 0 0 0 .spi 8
  obtain ⟨t, run, -, -, -, -, role, -⟩ := enters (by decide) (by decide) runs
  have ended : t = u.resetDomain 8 := (Host.Outcome.next.inj run).symm
  have out : u.twin.role = 5 := by decide
  have standby : t.twin.role = 2 := by
    rw [ended]
    exact State.resetDomain_eth0_role u runs out (by decide) (by decide)
  exact absurd (standby.symm.trans (role.trans out)) (by decide)
end

section
/-! PROOF. The sentences of the device source (R79, R296, R297, R299): each enters queue 0x06A of Bramble behind what waits
there, with one free value for its health score, and nothing else moves but what its command keeps of it. -/

namespace Sys2Proof.Machine

open Sys2Proof

/-- From `u` on, `n` sentences of the device have entered queue 0x06A, and nothing but the device's sequence number, Bramble,
the statistics, what the fabric keeps and the free values has changed. -/
structure State.Sends (u : State) (n : Nat) (t : State) : Prop where
  behind : ∃ l, l.length = n ∧ Tbl.get [] 10 t.bramble.inputs = Tbl.get [] 10 u.bramble.inputs ++ l
  rest : t = { u with health.deviceSeq := t.health.deviceSeq, bramble := t.bramble, stats := t.stats, fabric := t.fabric
                      free := u.free + n }

theorem State.Sends.none (u : State) : u.Sends 0 u := ⟨⟨[], rfl, (List.append_nil _).symm⟩, rfl⟩

theorem State.Sends.trans {u v t : State} {m n : Nat} (h : u.Sends m v) (k : v.Sends n t) : u.Sends (m + n) t := by
  obtain ⟨⟨a, ha, hin⟩, hv⟩ := h
  obtain ⟨⟨b, hb, kin⟩, ht⟩ := k
  refine ⟨⟨a ++ b, by rw [List.length_append, ha, hb], by rw [kin, hin, List.append_assoc]⟩, ht.trans ?_⟩
  rw [hv, Nat.add_assoc]

/-- A sentence for each element of a list. -/
theorem State.Sends.foldl {α : Type} {f : State → α → State} (h : ∀ (s : State) a, s.Sends 1 (f s a)) (l : List α) (s : State) :
    s.Sends l.length (l.foldl f s) := by
  induction l generalizing s with
  | nil => exact .none s
  | cons a l ih =>
    rw [List.length_cons, Nat.add_comm]
    exact (h s a).trans (ih _)

theorem State.Sends.health {u t : State} {n : Nat} (h : u.Sends n t) :
    t.health = { u.health with deviceSeq := t.health.deviceSeq } := by
  rw [h.rest]

/-- What the statement says of sentences that enter Bramble after a change of SUP's own records. -/
theorem State.Sends.frame {u t : State} {x : Health} {n : Nat} (h : { u with health := x }.Sends n t) :
    (Tbl.get [] 10 t.bramble.inputs).length = (Tbl.get [] 10 u.bramble.inputs).length + n ∧
    (Tbl.get [] 10 t.bramble.inputs).take (Tbl.get [] 10 u.bramble.inputs).length = Tbl.get [] 10 u.bramble.inputs ∧
    t = { u with health := t.health, bramble := t.bramble, stats := t.stats, fabric := t.fabric, free := u.free + n } := by
  obtain ⟨⟨l, hl, hin⟩, ht⟩ := h
  refine ⟨?_, ?_, ?_⟩
  · rw [hin, List.length_append, hl]
  · rw [hin, List.take_left]
  · rw [ht]

theorem State.pushed_bramble (q : Nat) (s : State) : (s.pushed q).bramble = s.bramble := by
  rw [State.pushed_eq]

/-- A sentence of the device is one record more in its queue. -/
theorem State.deviceRecord_sends (code cls : Nat) (address : Text) (fields : List Text) (p : Pip) (s : State) :
    s.Sends 1 (s.deviceRecord code cls address fields p) := by
  unfold State.deviceRecord
  extract_lets _ _ n r counted
  refine ⟨⟨[r], rfl, ?_⟩, ?_⟩
  · rw [State.pushed_bramble]
    exact (Tbl.get_mod [] 10 10 (fun l => l ++ [r]) s.bramble.inputs).trans (if_pos rfl)
  · rw [State.pushed_eq]
    rfl

theorem State.repeatAlf_sends (row r : Nat) (x : Alert) (s : State)
    (stands : s.health.alerts.find? (fun y => y.1 == row) = some (r, x)) :
    { s with health.alerts := Tbl.put row { x with sentAt := s.fc } s.health.alerts }.Sends 1 (s.repeatAlf row) := by
  unfold State.repeatAlf
  rw [stands]
  exact State.deviceRecord_sends ..

/-! ### ALF_REPEAT -/

theorem State.alfDue_of_none (row : Nat) (s : State) (none : s.health.alerts.find? (fun y => y.1 == row) = none) :
    s.alfDue row = s := by
  unfold State.alfDue
  rw [none]

theorem State.alfDue_of_some (row r : Nat) (x : Alert) (s : State)
    (stands : s.health.alerts.find? (fun y => y.1 == row) = some (r, x)) :
    s.alfDue row = if s.cn 0x5800 5 0 ≠ 0 ∧ (x.state = 1 ∨ x.state = 3) ∧ s.cn 0x5800 5 0 * cyclesPerSec ≤ s.fc - x.sentAt
      then s.repeatAlf row else s := by
  unfold State.alfDue
  rw [stands]

/-- With no repeat interval no ALF is repeated. -/
theorem State.alfDue_of_no_interval (row : Nat) (s : State) (off : s.cn 0x5800 5 0 = 0) : s.alfDue row = s := by
  cases stands : s.health.alerts.find? (fun y => y.1 == row) with
  | none => exact State.alfDue_of_none row s stands
  | some y => rw [State.alfDue_of_some row y.1 y.2 s stands, if_neg (fun due => due.1 off)]

/-! ### ACN_REPEAT_REQUEST -/

theorem State.takeAcn_of_none (again : Bool) (act : Nat → State → State) (s : State) (none : s.health.acnIn = []) :
    s.takeAcn again act = s := by
  unfold State.takeAcn
  rw [none]
  rfl

/-- A request for the ALF of an alert that stands, alone in its list, is taken from it and acted on. -/
theorem State.takeAcn_of_request (act : Nat → State → State) (q : FibreRecord) (row : Nat) (s : State)
    (alone : s.health.acnIn = [q]) (ours : (acnFields q).1 = ascii "HLX") (asks : (acnFields q).2.2.2 = ascii "Q")
    (stands : s.alertRow (acnFields q).2.1 (acnFields q).2.2.1 = some row) :
    s.takeAcn true act = act row { s with health.acnIn := [] } := by
  have first : s.health.acnIn.find? (fun r => decide ((acnFields r).2.2.2 = ascii "Q") == true) = some q := by
    rw [alone]; exact List.find?_cons_of_pos (by rw [asks]; simp)
  have taken : s.health.acnIn.erase q = [] := by rw [alone]; exact List.erase_cons_head ..
  have row' : ({ s with health.acnIn := [] } : State).alertRow (acnFields q).2.1 (acnFields q).2.2.1 = some row := stands
  unfold State.takeAcn
  rw [first]
  dsimp only
  rw [taken, if_pos ⟨ours, .inr asks⟩, row']

/-! ### ALC_EMISSION -/

/-- Up to four alerts fit one sentence. -/
theorem fours_of_short {α : Type} (n : Nat) (l : List α) (some_ : l ≠ []) (short : l.length ≤ 4) : fours (n + 1) l = [l] := by
  cases l with
  | nil => exact absurd rfl some_
  | cons a l =>
    have none_left : (a :: l).drop 4 = [] := List.drop_eq_nil_of_le short
    have ends : fours n ([] : List α) = [] := by cases n <;> rfl
    rw [fours, none_left, List.take_of_length_le short, ends]
    exact List.cons_ne_nil a l

theorem State.alc_of_early (s : State)
    (early : s.cn 0x5800 6 0 = 0 ∨ s.fc - s.health.lastAlc < s.cn 0x5800 6 0 * cyclesPerSec) : s.alc = s := by
  unfold State.alc
  exact if_pos early

theorem State.alc_of_empty (s : State)
    (due : ¬ (s.cn 0x5800 6 0 = 0 ∨ s.fc - s.health.lastAlc < s.cn 0x5800 6 0 * cyclesPerSec)) (none : s.health.alerts = []) :
    s.alc = { s with health.lastAlc := s.fc } := by
  unfold State.alc
  rw [if_neg due]
  dsimp only
  rw [none]
  rfl

/-- The list of one to four alerts is one sentence. -/
theorem State.alc_sends (s : State)
    (due : ¬ (s.cn 0x5800 6 0 = 0 ∨ s.fc - s.health.lastAlc < s.cn 0x5800 6 0 * cyclesPerSec)) (some_ : s.health.alerts ≠ [])
    (short : s.health.alerts.length ≤ 4) :
    { s with health.lastAlc := s.fc, health.alcId := (s.health.alcId + 1) % 10 }.Sends 1 s.alc := by
  have list : s.health.alerts.map (fun x => x.2) ≠ [] := by simpa using some_
  have one : fours 16 (s.health.alerts.map (fun x => x.2)) = [s.health.alerts.map (fun x => x.2)] :=
    fours_of_short 15 _ list (by simpa using short)
  unfold State.alc
  rw [if_neg due]
  dsimp only
  rw [if_neg (by simpa using some_), one]
  exact State.deviceRecord_sends ..

/-! ### PHLX_STATUS and PHLX_WHEEL_REPORT -/

theorem State.phlxStatus_of_early (s : State) (early : s.health.statusGrid.due (s.cn 0x5803 1 0) s.time = false) :
    s.phlxStatus = s := by
  unfold State.phlxStatus
  exact if_pos early

theorem State.phlxStatus_sends (s : State) (due : s.health.statusGrid.due (s.cn 0x5803 1 0) s.time = true) :
    { s with health.statusGrid := s.health.statusGrid.sampled (s.cn 0x5803 1 0) s.time }.Sends 1 s.phlxStatus := by
  unfold State.phlxStatus
  extract_lets ms sampled
  rw [if_neg (by rw [due]; decide)]
  exact State.deviceRecord_sends ..

theorem State.phlxWheels_of_early (s : State) (early : s.health.wheelGrid.due (s.cn 0x5803 2 0) s.time = false) :
    s.phlxWheels = s := by
  unfold State.phlxWheels
  exact if_pos early

/-- One sentence for each wheel selected. -/
theorem State.phlxWheels_sends (s : State) (due : s.health.wheelGrid.due (s.cn 0x5803 2 0) s.time = true) :
    { s with health.wheelGrid := s.health.wheelGrid.sampled (s.cn 0x5803 2 0) s.time }.Sends
      ((List.range 4).filter (fun w => (s.cn 0x5803 3 0).testBit w)).length s.phlxWheels := by
  unfold State.phlxWheels
  extract_lets ms sampled p
  rw [if_neg (by rw [due]; decide)]
  exact .foldl (fun _ _ => State.deviceRecord_sends ..) _ _

/-! ### The commands -/

/-- The outcome of a command of one block that runs. -/
theorem next_whenUp {d : Nat} {u : State} (f : State → State) (runs : u.works d = true) :
    (Host.Outcome.next (u.whenUp d f) : Host.Outcome State Fault Refusal) = .next (f u) := by
  rw [State.whenUp_of _ _ _ runs]

end Sys2Proof.Machine

open Sys2Proof Sys2Proof.Machine

/-- Settles O50: each sentence that is due is one record more of the device source (`State.deviceRecord_sends`), after the change
of SUP's own records that its command makes. -/
theorem deviceSentences : Obligations.DeviceSentences := by
  intro s dt r row x q u h iv lv sd wd sent sup
  have run (f : State → State) := next_whenUp (u := u) f sup
  refine ⟨?_, ?_, ?_, ?_, ?_, ?_, ?_⟩
  · rintro (none | off)
    · exact (run _).trans (congrArg _ (State.alfDue_of_none _ u none))
    · exact (run _).trans (congrArg _ (State.alfDue_of_no_interval _ u off))
  · intro stands
    have alf := State.alfDue_of_some row.val _ x u stands
    refine ⟨fun idle => ?_, fun on st late => ?_⟩
    · refine (run _).trans (congrArg _ (alf.trans (if_neg ?_)))
      rintro ⟨-, st, late⟩
      rcases idle with acked | early
      · omega
      · exact absurd late (Nat.not_le.mpr early)
    · have sends := State.repeatAlf_sends row.val _ x u stands
      rw [if_pos ⟨on, st, late⟩] at alf
      exact ⟨_, (run _).trans (congrArg _ alf), sends.frame, by rw [sends.health]⟩
  · intro none
    exact (run _).trans (congrArg _ (State.takeAcn_of_none true _ u none))
  · intro alone ours asks stands here
    have sends := State.repeatAlf_sends r r x { u with health.acnIn := [] } here
    exact ⟨_, (run _).trans (congrArg _ (State.takeAcn_of_request _ q r u alone ours asks stands)), sends.frame,
      by rw [sends.health]⟩
  · intro early
    exact (run _).trans (congrArg _ (State.alc_of_early u early))
  · intro on late
    have due : ¬ (lv = 0 ∨ u.fc - h.lastAlc < lv * cyclesPerSec) := by omega
    refine ⟨fun none => (run _).trans (congrArg _ (State.alc_of_empty u due none)), fun some_ short => ?_⟩
    have sends := State.alc_sends u due some_ short
    exact ⟨_, run _, sends.frame, by rw [sends.health], by rw [sends.health]⟩
  · intro fabric
    have both (f : State → State) : (Host.Outcome.next (u.whenUp domSup (State.whenUp domFabric f)) :
        Host.Outcome State Fault Refusal) = .next (f u) := (run _).trans (next_whenUp f fabric)
    refine ⟨fun early => ?_, fun due => ?_, fun early => ?_, fun due => ?_⟩
    · exact (both _).trans (congrArg _ (State.phlxStatus_of_early u early))
    · have sends := State.phlxStatus_sends u due
      exact ⟨_, both _, sends.frame, by rw [sends.health]⟩
    · exact (both _).trans (congrArg _ (State.phlxWheels_of_early u early))
    · have sends := State.phlxWheels_sends u due
      exact ⟨_, both _, sends.frame, by rw [sends.health]⟩
end

section
/-! PROOF. A record that leaves a full input queue of Bramble lets one follow that had no credit (R227, R228): it becomes visible,
and 0x4850:02 counts it. -/

namespace Sys2Proof.Machine

open Sys2Proof

theorem State.statOf_congr {s t : State} (i j k : Nat) (h : s.stats = t.stats) : s.statOf i j k = t.statOf i j k :=
  congrArg (Tbl.get 0 (statKey i j k)) h

theorem State.stat_congr {s t : State} (i j k n : Nat) (h : s.stats = t.stats) :
    (s.stat i j k n).stats = (t.stat i j k n).stats := by
  unfold State.stat
  rw [State.statOf_congr i j k h]
  exact congrArg (Tbl.put (statKey i j k) _) h

theorem State.notices_stats (q n : Nat) (s : State) (some_ : n ≠ 0) : (s.notices q n).stats = (s.stat 0x4850 q 2 n).stats := by
  unfold State.notices
  rw [if_neg some_]
  dsimp only
  (repeat' split) <;> rfl

/-- Of a queue that needs no realignment as many packets are committed as it holds (R227). -/
theorem State.committedOf_of_admits (q n : Nat) (s : State) (admits : s.admits q = true) :
    s.committedOf q n = (queueLimit q).elim n (Nat.min n) := by
  have none : (s.que q).wasReset.isSome = false := by simpa [State.admits] using admits
  unfold State.committedOf
  dsimp only
  rw [if_neg (by rw [none]; decide)]
  cases queueLimit q <;> rfl

/-- In a queue that needs no realignment, what else the fabric keeps of it does not bear on what is visible. -/
theorem State.visible_modQue (q : Nat) (f : Queue → Queue) (s : State) (admits : s.admits q = true)
    (kept : (f (s.que q)).wasReset = (s.que q).wasReset) : (s.modQue q f).visible q = s.visible q := by
  have still : (s.modQue q f).admits q = true := by
    unfold State.admits at *
    rwa [State.que_modQue, if_pos rfl, kept]
  unfold State.visible
  rw [State.committedOf_of_admits q _ _ still, State.committedOf_of_admits q _ s admits]
  rfl

/-- Packets that become visible as others leave are counted. -/
theorem State.popped_stats (q n : Nat) (s before : State) (admits : s.admits q = true) (some_ : n ≠ 0)
    (follow : s.visible q + (before.queued q - s.queued q) - before.visible q = n) :
    (s.popped q before).stats = (s.stat 0x4850 q 2 n).stats := by
  have told : (s.released q before).stats = (s.stat 0x4850 q 2 n).stats := by
    unfold State.released
    extract_lets gone moved
    have same : moved.visible q = s.visible q := State.visible_modQue q _ s admits rfl
    rw [same, follow, State.notices_stats q n moved some_]
    rfl
  unfold State.popped
  extract_lets read
  have h : read.stats = (s.stat 0x4850 q 2 n).stats := told
  split <;> exact h

/-- A read that meets a double-bit error adds to no statistic. -/
theorem State.readEcc_double_stats (s : State) : (s.readEcc .double).stats = s.stats := State.event_stats ..

/-! ### The queue of the device's records -/

theorem State.queued_device (s : State) : s.queued 0x6A = (Tbl.get [] 10 s.bramble.inputs).length := List.length_map ..

theorem State.visible_device (s : State) (admits : s.admits 0x6A = true) : s.visible 0x6A = min (s.queued 0x6A) 256 :=
  State.committedOf_of_admits 0x6A _ s admits

/-- Where more than 256 records stand in the queue of the device's records, the discard of an uncorrectable one counts a packet
that becomes visible. -/
theorem State.brambleMatch_device_double (s : State) (r : FibreRecord) (rest : List FibreRecord) (yields : s.yields 0x6A = true)
    (admits : s.admits 0x6A = true) (queue : Tbl.get [] 10 s.bramble.inputs = r :: rest) (full : 256 ≤ rest.length) :
    (s.brambleMatch 10 .double).statOf 0x4850 0x6A 2 = Nat.min (s.statOf 0x4850 0x6A 2 + 1) (2 ^ 64 - 1) := by
  let left : State := { s with bramble.inputs := Tbl.put 10 rest s.bramble.inputs }
  have inputs : Tbl.get [] 10 left.bramble.inputs = rest := (Tbl.get_put ..).trans (if_pos rfl)
  have stood : s.queued 0x6A = rest.length + 1 := by rw [State.queued_device, queue]; rfl
  have stands : left.queued 0x6A = rest.length := by rw [State.queued_device, inputs]
  have follow : left.visible 0x6A + (s.queued 0x6A - left.queued 0x6A) - s.visible 0x6A = 1 := by
    rw [State.visible_device left admits, State.visible_device s admits, stood, stands, Nat.min_eq_right full,
      Nat.min_eq_right (by omega)]
    omega
  have discarded : s.brambleMatch 10 .double = ((left.popped 0x6A s).readEcc .double).discardUnc 0x6A 1 := by
    unfold State.brambleMatch
    rw [if_neg (by rw [yields]; decide), queue]
    rfl
  have counted : (s.brambleMatch 10 .double).stats = ((left.stat 0x4850 0x6A 2 1).stat 0x4850 0x6A 5 1).stats := by
    rw [discarded]
    exact State.stat_congr 0x4850 0x6A 5 1
      ((State.readEcc_double_stats _).trans (State.popped_stats 0x6A 1 left s admits (by decide) follow))
  rw [State.statOf_congr _ _ _ counted, State.statOf_stat, if_neg (by decide), State.statOf_stat, if_pos rfl]
  rfl

/-- A unit in whose queue of the device's records 257 stand: one more than the queue holds. -/
def State.crowded : State := { State.reset with bramble := { inputs := [(10, List.replicate 257 {})] } }

end Sys2Proof.Machine

open Sys2Proof Sys2Proof.Machine

/-- Refutes O17: where 257 records stand in queue 0x06A, of which 256 are visible, the discard of the oldest lets the last one
become visible, so that 0x4850:02 counts it beside the discard in 0x4850:05, of which alone the statement tells. -/
theorem not_brambleTakesTheOldest : ¬ Obligations.BrambleTakesTheOldest := by
  intro h
  let u := State.crowded.elapse 0
  have works : u.works domFabric = true := by decide
  have yields : u.yields 0x6A = true := by decide
  have queue : Tbl.get [] 10 u.bramble.inputs = {} :: List.replicate 256 {} := rfl
  obtain ⟨-, -, t, run, -, -, -, -, -, stats⟩ := h State.crowded 0 10 {} (List.replicate 256 {}) ⟨0, 0, 0⟩ works yields queue
  have ended : t = u.brambleMatch 10 .double := by
    have := (Host.Outcome.next.inj run).symm
    rwa [State.whenUp_of _ _ _ works] at this
  have counted : t.statOf 0x4850 0x6A 2 = Nat.min (u.statOf 0x4850 0x6A 2 + 1) (2 ^ 64 - 1) := by
    rw [ended]
    exact State.brambleMatch_device_double u _ _ yields (by decide) queue (Nat.le_of_eq List.length_replicate.symm)
  have told : t.statOf 0x4850 0x6A 2 = u.statOf 0x4850 0x6A 2 := by
    have elsewhere : (u.stat 0x4850 0x6A 5 1).statOf 0x4850 0x6A 2 = u.statOf 0x4850 0x6A 2 := by
      rw [State.statOf_stat, if_neg (by decide)]
    exact (State.statOf_congr _ _ _ stats).trans elsewhere
  have zero : u.statOf 0x4850 0x6A 2 = 0 := by decide
  rw [told, zero] at counted
  exact absurd counted (by decide)
end

section
/-! PROOF. Bramble's shapers, and the entry that an engine of fulling takes (R86, R88, R90, R95): queueing moves listeners, the
order of queueing, statistics, what the fabric keeps and events alone, and an entry taken leaves its listener's queue. -/

namespace Sys2Proof.Machine

open Sys2Proof

/-! ### Packets that leave a queue -/

/-- Packets that leave a queue touch the statistics and what the fabric keeps, and nothing else. -/
theorem State.released_eq (q : Nat) (s before : State) :
    s.released q before = { s with stats := (s.released q before).stats, fabric := (s.released q before).fabric } := by
  unfold State.released
  extract_lets gone moved
  rw [State.notices_eq]
  rfl

/-- Packets that their consumer has read touch the statistics and what the fabric keeps, and nothing else. -/
theorem State.popped_eq (q : Nat) (s before : State) :
    s.popped q before = { s with stats := (s.popped q before).stats, fabric := (s.popped q before).fabric } := by
  unfold State.popped
  extract_lets read
  have h : read = { s with stats := read.stats, fabric := read.fabric } := by
    unfold read
    rw [State.released_eq]
    rfl
  split
  · exact h
  · rw [h]
    rfl

theorem State.notices_badRecords (q n : Nat) (s : State) : (s.notices q n).fabric.badRecords = s.fabric.badRecords := by
  unfold State.notices
  split
  · rfl
  · dsimp only; (repeat' split) <;> rfl

theorem State.popped_badRecord (q : Nat) (s before : State) (r : FibreRecord) :
    (s.popped q before).badRecord r = s.badRecord r := by
  have kept : (s.popped q before).fabric.badRecords = s.fabric.badRecords := by
    unfold State.popped
    extract_lets read
    have h : read.fabric.badRecords = s.fabric.badRecords := State.notices_badRecords ..
    split <;> exact h
  unfold State.badRecord
  rw [kept]

/-! ### Queueing for a listener (R85 to R87) -/

/-- From `s` to `t` nothing has changed but listeners, the order of queueing, statistics, what the fabric keeps, and events. -/
def State.Queues (s t : State) : Prop :=
  t = { s with bramble.listeners := t.bramble.listeners, bramble.order := t.bramble.order, stats := t.stats, fabric := t.fabric
               health := t.health }

theorem State.Queues.trans {s t v : State} (h : s.Queues t) (k : t.Queues v) : s.Queues v := by
  unfold State.Queues at *
  refine k.trans ?_
  rw [h]

/-- What touches statistics and the fabric alone. -/
theorem State.Queues.of_told {s t : State} (h : t = { s with stats := t.stats, fabric := t.fabric }) : s.Queues t := by
  unfold State.Queues
  rw [h]

theorem State.Queues.raiseKind (kind astate code a b : Nat) (s : State) : s.Queues (s.raiseKind kind astate code a b) := by
  obtain ⟨_, -, -, -, -, h⟩ | ⟨-, h⟩ := State.raiseKind_eq kind astate code a b s
  · rw [h]; rfl
  · rw [h]; rfl

theorem State.Queues.event (code a b : Nat) (s : State) : s.Queues (s.event code a b) := by
  unfold State.event
  split <;> exact .raiseKind ..

theorem State.countDiscard_queues (l cls : Nat) (s : State) : s.Queues (s.countDiscard l cls) := by
  have counted : s.Queues (s.stat 0x4820 l (6 + cls) 1) := rfl
  unfold State.countDiscard
  extract_lets s' due
  split
  · exact counted
  · split
    · exact counted.trans (.trans (t := s.modLst l (fun x => { x with lastDiscard := some s.fc })) rfl (.event ..))
    · exact counted

theorem State.discardOldest_queues (l cls : Nat) (s : State) : s.Queues (s.discardOldest l cls) := by
  unfold State.discardOldest
  exact .trans (.trans (t := s.modLst l (fun x => { x with queue := dropOldest cls x.queue })) rfl
    (.of_told (State.released_eq ..))) (State.countDiscard_queues ..)

theorem State.displace_queues (l cls : Nat) (s : State) : s.Queues (s.displace l cls) := by
  unfold State.displace
  split
  · split
    · unfold State.returnSlot
      split <;> rfl
    · rfl
  · rfl

theorem State.enqueue_queues (c : Cfg) (l cls : Nat) (r : FibreRecord) (s : State) : s.Queues (s.enqueue c l cls r) := by
  unfold State.enqueue
  extract_lets x full low alone room e queued
  split
  · exact State.countDiscard_queues ..
  · have fits : s.Queues room := by
      refine .trans (t := if full then s.discardOldest l low else s) ?_ (State.displace_queues ..)
      split
      · exact State.discardOldest_queues ..
      · rfl
    clear_value room
    have put : room.Queues ({ queued.stat 0x4820 l 2 1 with bramble.order := queued.bramble.order + 1 } : State) := rfl
    exact (fits.trans put).trans (.of_told (State.pushed_eq ..))

/-! ### SHAPER_EMISSION (R90) -/

theorem State.withDispatch_of (consumer : Nat) (f : Dispatch → State → State) (s : State) (d : Dispatch) (rest : List Dispatch)
    (delivered : takeDispatch s.fc consumer s.appts.line = some (d, rest)) :
    s.withDispatch consumer f = f d { s with appts := { s.appts with line := rest } } := by
  unfold State.withDispatch
  rw [delivered]

theorem State.shp_modShp (n l m k : Nat) (f : ShaperState → ShaperState) (s : State) :
    (s.modShp n l f).shp m k = if shaperKey m k = shaperKey n l then f (s.shp n l) else s.shp m k :=
  Tbl.get_mod ..

/-- A shaper's state towards a listener for which it holds nothing any more. -/
def ShaperState.emptied (x : ShaperState) : ShaperState := { x with held := none }

/-- A record that a shaper held for a listener is passed on. -/
theorem State.emitHeld_of_held (n l cls : Nat) (r : FibreRecord) (s : State) (held : (s.shp n l).held = some (r, cls)) :
    ((s.emitHeld n l).shp n l).held = none ∧
    (s.emitHeld n l).bramble.shaperCounts = (s.countShaper n 0).bramble.shaperCounts ∧
    s.emitHeld n l = { s with bramble := (s.emitHeld n l).bramble, stats := (s.emitHeld n l).stats
                              fabric := (s.emitHeld n l).fabric, health := (s.emitHeld n l).health } := by
  let passed := (s.modShp n l ShaperState.emptied).countShaper n 0
  have queues : passed.Queues (s.emitHeld n l) := by
    unfold State.emitHeld
    rw [held]
    exact State.enqueue_queues ..
  have shapers : (s.emitHeld n l).bramble.shapers = passed.bramble.shapers := by rw [queues]
  have counts : (s.emitHeld n l).bramble.shaperCounts = passed.bramble.shaperCounts := by rw [queues]
  refine ⟨?_, counts, ?_⟩
  · have let_go : (passed.shp n l).held = none := by
      change ((s.modShp n l ShaperState.emptied).shp n l).held = none
      rw [State.shp_modShp, if_pos rfl]
      rfl
    unfold State.shp at *
    rwa [shapers]
  · rw [queues]
    rfl

theorem State.emitHeld_of_none (n l : Nat) (s : State) (none : (s.shp n l).held = none) :
    s.emitHeld n l = s.countShaper n 2 := by
  unfold State.emitHeld
  rw [none]

/-! ### COMPOSE_ENTRY (R86, R88) -/

/-- A listener without one of its entries. -/
def Listener.without (e : Entry) (x : Listener) : Listener := { x with queue := x.queue.filter (fun y => y.order != e.order) }

/-- The state in which an engine has taken an entry out of its listener's queue. -/
def State.takeEntry (l : Nat) (e : Entry) (s : State) : State :=
  (s.modLst l (Listener.without e)).popped (listenerQueue l e.cls) s

theorem State.takeEntry_eq (l : Nat) (e : Entry) (s : State) :
    s.takeEntry l e = { s with bramble := (s.takeEntry l e).bramble, stats := (s.takeEntry l e).stats
                               fabric := (s.takeEntry l e).fabric } := by
  unfold State.takeEntry
  rw [State.popped_eq]
  rfl

theorem State.takeEntry_line (l m : Nat) (e : Entry) (s : State) : ((s.takeEntry l e).lst m).line = (s.lst m).line := by
  have same : (s.takeEntry l e).lst m = (s.modLst l (Listener.without e)).lst m := by
    unfold State.takeEntry
    rw [State.popped_eq]
    rfl
  rw [same, State.lst_modLst]
  split
  · next own => rw [own]; rfl
  · rfl

/-- A clean entry whose record the store holds without an error is composed. -/
theorem State.composeEntry_clean (fe1 : Bool) (l : Nat) (e : Entry) (s : State) (next : s.nextEntry fe1 = some (l, e))
    (good : s.badRecord e.rcd = false) : s.composeEntry fe1 .clean = (s.takeEntry l e).compose l e := by
  have still : (s.takeEntry l e).badRecord e.rcd = false := (State.popped_badRecord ..).trans good
  unfold State.composeEntry
  rw [next]
  exact if_neg (still.symm ▸ Bool.false_ne_true)

theorem State.compose_journal (l : Nat) (e : Entry) (s : State)
    (kind : listenerKind s.uid (s.cfgAt e.rcd.pip.time) l = .journal) :
    s.compose l e = ({ s.stat 0x4820 l 3 1 with
      journal.inbox := s.journal.inbox ++ [(e.rcd, e.cls, e.seq.toNat)] } : State).pushed 0x81 := by
  simp only [State.compose, kind]

/-- Without a claimed address the messages go to no one (R212). -/
theorem State.compose_can_unclaimed (l p : Nat) (e : Entry) (s : State)
    (kind : listenerKind s.uid (s.cfgAt e.rcd.pip.time) l = .can p) (unclaimed : (s.cp p).addrState ≠ 2) :
    s.compose l e = s.stat 0x4840 p 3 (if e.rcd.fromCan then 1 else (pgnsOf e.rcd.formatter).length) := by
  simp only [State.compose, kind]
  exact if_pos unclaimed

/-- The characters of a serial listener's entry wait in its slot. -/
theorem State.compose_serial (l p : Nat) (e : Entry) (tx : Text) (s : State)
    (kind : listenerKind s.uid (s.cfgAt e.rcd.pip.time) l = .serial p)
    (text : sentenceText s.uid (s.cfgAt e.rcd.pip.time) l e.rcd = some tx) :
    ((s.compose l e).lst l).slot = some { entry := e, sent := 0, line := (s.lst l).line
                                          chars := s.txChars p (s.tagBlock (s.cfgAt e.rcd.pip.time) l e.rcd ++ tx) } ∧
    s.compose l e = { s with bramble := (s.compose l e).bramble } := by
  have composed : s.compose l e = s.composeSerial (s.cfgAt e.rcd.pip.time) l p e := by
    simp only [State.compose, kind]
  rw [composed]
  unfold State.composeSerial
  rw [text]
  refine ⟨?_, ?_⟩
  · dsimp only
    rw [State.lst_modLst, if_pos rfl]
  · unfold State.countLine
    dsimp only
    split <;> rfl

end Sys2Proof.Machine

open Sys2Proof Sys2Proof.Machine

/-- Settles O18: a dispatch passes on what its shaper holds for the one listener (`State.emitHeld_of_held`), and an entry taken
is composed by its listener's kind. -/
theorem shapersAndComposition : Obligations.ShapersAndComposition := by
  refine ⟨?_, ?_⟩
  · intro s dt l n d rest u v fabric delivered
    have run : exec (.shaperEmission dt n) s = .next (if u.cn 0x2530 2 n.val = 3
        then (u.shaperListeners n.val).foldl (State.emitHeld n.val) v else v) :=
      congrArg _ ((State.whenUp_of _ _ _ fabric).trans (State.withDispatch_of _ _ u d rest delivered))
    refine ⟨fun other => ?_, fun slotted one => ?_⟩
    · rw [run, if_neg other]
    · have run : exec (.shaperEmission dt n) s = .next (v.emitHeld n.val l) := by rw [run, if_pos slotted, one]; rfl
      refine ⟨fun none => ?_, fun r cls held => ?_⟩
      · rw [run, State.emitHeld_of_none n.val l v none]
      · obtain ⟨let_go, counts, frame⟩ := State.emitHeld_of_held n.val l cls r v held
        exact ⟨_, run, let_go, counts, by rw [frame]⟩
  · intro s dt l fe1 e u v full next good
    have taken : v = { u with bramble := v.bramble, stats := v.stats, fabric := v.fabric } := State.takeEntry_eq l e u
    have run : exec (.composeEntry dt fe1 .clean) s = .next (v.compose l e) :=
      congrArg _ ((State.whenUp_of _ _ _ full).trans (State.composeEntry_clean fe1 l e u next good))
    have same : v.uid = u.uid ∧ v.cfgAt e.rcd.pip.time = u.cfgAt e.rcd.pip.time := by rw [taken]; exact ⟨rfl, rfl⟩
    obtain ⟨unit, cfg⟩ := same
    rw [← unit, ← cfg]
    refine ⟨fun kind => ?_, fun p kind unclaimed => ?_, fun p tx kind text => ?_⟩
    · have inbox : v.journal = u.journal := by rw [taken]
      rw [run, State.compose_journal l e v kind, inbox]
    · have bus : v.cp p = u.cp p := by rw [taken]; rfl
      rw [run, State.compose_can_unclaimed l p e v kind (by rwa [bus])]
    · obtain ⟨slot, rest⟩ := State.compose_serial l p e tx v kind text
      have line : (v.lst l).line = (u.lst l).line := State.takeEntry_line ..
      exact ⟨_, run, by rw [slot, line], by rw [rest, taken]⟩
end

section
/-! PROOF. The control pair (R102, R103, R106 to R112): what it makes of a record of listener 63 moves the control pair and
events alone, and keeps the latest records of the sources; its totals are the sums over the tanks as they then stand. -/

namespace Sys2Proof.Machine

open Sys2Proof

/-! ### Changes of the tanks alone -/

/-- From `s` to `t` nothing has changed but the states of tanks. -/
def State.MovesTanks (s t : State) : Prop := t = { s with control.tanks := t.control.tanks }

theorem State.MovesTanks.refl (s : State) : s.MovesTanks s := rfl

theorem State.MovesTanks.trans {s t v : State} (h : s.MovesTanks t) (k : t.MovesTanks v) : s.MovesTanks v := by
  unfold State.MovesTanks at *
  refine k.trans ?_
  rw [h]

theorem State.MovesTanks.modTank (i : Nat) (f : Tank → Tank) (s : State) : s.MovesTanks (s.modTank i f) := rfl

theorem State.MovesTanks.fillTank (i : Nat) (s : State) : s.MovesTanks (s.fillTank i) := rfl

/-- Where only tanks have changed, nothing outside the control pair has. -/
theorem State.MovesTanks.withControl {s t : State} (h : s.MovesTanks t) (c : Control) :
    { t with control := c } = { s with control := c } := by
  rw [h]

theorem State.MovesTanks.takeReading (i basis : Nat) (g : Rat) (p : Pip) (s : State) :
    s.MovesTanks (s.takeReading i basis g p) := by
  unfold State.takeReading
  exact ((State.MovesTanks.modTank ..).trans (.fillTank ..)).trans (.modTank ..)

/-! ### The totals (R108) -/

/-- From `s` to `t` nothing has changed but the contributions of tanks. -/
def State.Contributes (s t : State) : Prop :=
  s.MovesTanks t ∧ ∀ k, ∃ c, t.tank k = { s.tank k with contribution := c }

theorem State.Contributes.refl (s : State) : s.Contributes s := ⟨.refl s, fun k => ⟨(s.tank k).contribution, rfl⟩⟩

theorem State.Contributes.modTank {s t : State} (h : s.Contributes t) (i : Nat) (g : Tank → Rat) :
    s.Contributes (t.modTank i (fun x => { x with contribution := g x })) := by
  obtain ⟨moved, only⟩ := h
  refine ⟨moved.trans (.modTank ..), fun k => ?_⟩
  obtain ⟨c, hc⟩ := only k
  rw [State.tank_modTank]
  split
  · next own => exact ⟨g (t.tank i), by rw [← own, hc]⟩
  · exact ⟨c, hc⟩

/-- A sum over the tanks stands where only contributions have changed, on which its terms do not rest. -/
theorem State.Contributes.sumTanks {s t : State} (h : s.Contributes t) (f : Tank → Rat)
    (blind : ∀ x c, f { x with contribution := c } = f x) : t.sumTanks f = s.sumTanks f := by
  obtain ⟨moved, only⟩ := h
  have tanks : t.tanksOn = s.tanksOn := by rw [moved]; rfl
  have reading : ∀ k, (t.tank k).reading = (s.tank k).reading := fun k => by
    obtain ⟨c, hc⟩ := only k
    rw [hc]
  have term : ∀ k, f (t.tank k) = f (s.tank k) := fun k => by
    obtain ⟨c, hc⟩ := only k
    rw [hc, blind]
  unfold State.sumTanks
  simp only [tanks, reading, term]

/-- The totals touch the control pair alone, and are the sums over the tanks as they then stand. -/
theorem State.totals_spec (s : State) :
    s.totals.control.lastModel = s.fc ∧
    s.totals.control.mass = s.totals.sumTanks (fun x => x.mass) ∧
    s.totals.control.trans = s.totals.sumTanks (fun x => x.mass * x.tcg / 1000) ∧
    s.totals.control.long = s.totals.sumTanks (fun x => x.mass * x.lcg / 1000) ∧
    s.totals = { s with control := { s.totals.control with sources := s.control.sources } } := by
  unfold State.totals
  extract_lets filled mass trans disp contributed
  have fills : s.MovesTanks filled :=
    List.foldlRecOn _ _ (.refl s) fun t h i _ => by
      split
      · exact h.trans (.fillTank ..)
      · exact h
  have contributes : filled.Contributes contributed :=
    List.foldlRecOn _ _ (.refl filled) fun t h i _ => h.modTank i _
  have moved : s.MovesTanks contributed := fills.trans contributes.1
  clear_value contributed
  refine ⟨?_, (contributes.sumTanks (fun x => x.mass) fun _ _ => rfl).symm,
    (contributes.sumTanks (fun x => x.mass * x.tcg / 1000) fun _ _ => rfl).symm, rfl, ?_⟩
  · rw [moved]
  · have sources : contributed.control.sources = s.control.sources := by rw [moved]
    rw [← sources]
    exact moved.withControl _

/-! ### Work of the control pair -/

/-- From `s` to `t` nothing has changed but the control pair, and in it not the records of the sources, and events. -/
def State.Controls (s t : State) : Prop :=
  t = { s with control := { t.control with sources := s.control.sources }, health := t.health }

theorem State.Controls.refl (s : State) : s.Controls s := rfl

theorem State.Controls.trans {s t v : State} (h : s.Controls t) (k : t.Controls v) : s.Controls v := by
  unfold State.Controls at *
  refine k.trans ?_
  rw [h]

theorem State.MovesTanks.controls {s t : State} (h : s.MovesTanks t) : s.Controls t := by
  unfold State.Controls
  rw [h]

theorem State.Controls.modTank (i : Nat) (f : Tank → Tank) (s : State) : s.Controls (s.modTank i f) :=
  (State.MovesTanks.modTank ..).controls

theorem State.Controls.raiseKind (kind astate code a b : Nat) (s : State) : s.Controls (s.raiseKind kind astate code a b) := by
  obtain ⟨_, -, -, -, -, h⟩ | ⟨-, h⟩ := State.raiseKind_eq kind astate code a b s
  · rw [h]; rfl
  · rw [h]; rfl

theorem State.Controls.event (code a b : Nat) (s : State) : s.Controls (s.event code a b) := by
  unfold State.event
  split <;> exact .raiseKind ..

theorem State.Controls.totals (s : State) : s.Controls s.totals := by
  obtain ⟨-, -, -, -, h⟩ := s.totals_spec
  unfold State.Controls
  rw [h]

theorem State.Controls.foldl {α : Type} {f : State → α → State} (h : ∀ (s : State) a, s.Controls (f s a)) (l : List α) (s : State) :
    s.Controls (l.foldl f s) :=
  List.foldlRecOn l f (.refl s) fun t k a _ => k.trans (h t a)

/-! ### Gauge records (R103, R106) -/

theorem State.Controls.tankFault (i : Nat) (s : State) : s.Controls (s.tankFault i) := by
  unfold State.tankFault
  split
  · exact .refl s
  · exact .trans (.modTank ..) (.event ..)

theorem State.Controls.unfault (i : Nat) (s : State) : s.Controls (s.unfault i) := by
  unfold State.unfault
  dsimp only
  split
  · exact .refl s
  · split
    · exact .modTank ..
    · split
      · exact .trans (.modTank ..) (.event ..)
      · exact .modTank ..

theorem State.Controls.takeReading (i basis : Nat) (g : Rat) (p : Pip) (s : State) :
    s.Controls (s.takeReading i basis g p) :=
  (State.MovesTanks.takeReading ..).controls

theorem State.Controls.tankSounding (i : Nat) (g : Int) (r : FibreRecord) (s : State) :
    s.Controls (s.tankSounding i g r) := by
  unfold State.tankSounding
  extract_lets basis me
  split
  · exact .takeReading ..
  · split
    · exact .trans (.modTank ..) (.takeReading ..)
    · next pair noted _ _ _ =>
      have note : s.Controls noted := .modTank ..
      clear_value pair noted
      split
      · exact note.trans (.takeReading ..)
      · exact note.trans (.unfault ..)
  · exact .trans (.modTank ..) (.unfault ..)

theorem State.Controls.gaugeRecord (r : FibreRecord) (s : State) (i : Nat) : s.Controls (s.gaugeRecord r i) := by
  unfold State.gaugeRecord
  split
  · exact .refl s
  · split
    · exact .tankFault ..
    · split
      · exact .tankFault ..
      · exact .tankSounding ..

/-! ### Attitude records (R107, R110 to R112) -/

theorem State.Controls.trimRecord (r : FibreRecord) (s : State) : s.Controls (s.trimRecord r) := by
  unfold State.trimRecord
  split <;> rfl

theorem State.Controls.takeLoading (s : State) : s.Controls s.takeLoading := by
  unfold State.takeLoading
  dsimp only
  split <;> rfl

theorem State.Controls.setWeight (i w : Nat) (s : State) : s.Controls (s.setWeight i w) := by
  unfold State.setWeight
  dsimp only
  split
  · exact .trans (.modTank ..) (.raiseKind ..)
  · exact .modTank ..

theorem State.Controls.anchor (all : Bool) (s : State) : s.Controls (s.anchor all) := by
  unfold State.anchor
  refine .foldl (fun s i => ?_) _ _
  split
  · exact .modTank ..
  · exact .refl s

theorem State.Controls.blame (r : Rat) (s : State) : s.Controls (s.blame r) := by
  unfold State.blame
  split
  · extract_lets w weighed
    have weigh : s.Controls weighed := .trans (.modTank ..) (.event ..)
    split
    · exact weigh.trans (.event ..)
    · exact weigh
  · exact .event ..

theorem State.Controls.crossCheck (s : State) : s.Controls s.crossCheck := by
  unfold State.crossCheck
  dsimp only
  split
  · exact .trans (t := { s with control.persistence := none }) rfl (.anchor ..)
  · split
    · exact .trans (.blame ..) rfl
    · rfl

theorem State.Controls.recover (s : State) (i : Nat) : s.Controls (s.recover i) := by
  unfold State.recover
  dsimp only
  split
  · exact .refl s
  · split
    · exact .modTank ..
    · split
      · exact .trans (.setWeight ..) (.modTank ..)
      · exact .modTank ..

theorem State.Controls.heelRecord (r : FibreRecord) (s : State) : s.Controls (s.heelRecord r) := by
  unfold State.heelRecord
  split
  · exact .refl s
  · extract_lets reckoned tau k _ filtered _ residual
    have reckon : s.Controls reckoned := .trans (.takeLoading s) (.totals _)
    clear_value reckoned
    have measured : s.Controls residual := reckon.trans rfl
    split
    · exact measured.trans rfl
    · exact measured.trans (.trans (.crossCheck _) (.foldl .recover _ _))

/-! ### CONTROL_TAKE_RECORD (R86, R103) -/

/-- A record that reaches the control pair is kept as the latest of its source, at its moment. -/
def State.noteSource (r : FibreRecord) (s : State) : State :=
  { s with control.sources := Tbl.put r.source (r, s.fc) s.control.sources }

/-- What the control pair makes of a record comes after the record is kept, and does not bear on that. -/
theorem State.controlRecord_controls (r : FibreRecord) (s : State) : (s.noteSource r).Controls (s.controlRecord r) := by
  unfold State.controlRecord
  extract_lets _ noted gauged trimmed
  have gauge : noted.Controls gauged := .foldl (.gaugeRecord r) _ _
  have trim : gauged.Controls trimmed := by
    unfold trimmed
    split
    · exact .trimRecord ..
    · exact .refl _
  split
  · exact gauge.trans (trim.trans (.heelRecord ..))
  · exact gauge.trans trim

theorem State.takeEntry_queue (l : Nat) (e : Entry) (s : State) :
    ((s.takeEntry l e).lst l).queue = (s.lst l).queue.filter (fun y => y.order != e.order) := by
  have same : (s.takeEntry l e).lst l = (s.modLst l (Listener.without e)).lst l := by
    unfold State.takeEntry
    rw [State.popped_eq]
    rfl
  rw [same, State.lst_modLst, if_pos rfl]
  rfl

/-- An entry whose record the store holds without an error reaches the control pair. -/
theorem State.controlTake_good (l : Nat) (e : Entry) (s : State)
    (next : ((s.lst 63).queue.filter (fun e => s.yields (0x1FC + e.cls))).foldl (fun b e => betterEntry b 63 e) none = some (l, e))
    (good : s.badRecord e.rcd = false) :
    s.controlTake = ((s.takeEntry 63 e).stat 0x4820 63 3 1).controlRecord e.rcd := by
  have still : (s.takeEntry 63 e).badRecord e.rcd = false := (State.popped_badRecord ..).trans good
  unfold State.controlTake
  rw [next]
  exact if_neg (still.symm ▸ Bool.false_ne_true)

end Sys2Proof.Machine

open Sys2Proof Sys2Proof.Machine

/-- Settles O19: all that follows on a record taken works on the state in which it is kept (`State.controlRecord_controls`), and
the totals are sums over the tanks on whose contributions they do not rest (`State.totals_spec`). -/
theorem controlTakesAndTotals : Obligations.ControlTakesAndTotals := by
  intro s dt l e u control
  refine ⟨fun next good => ?_, ?_⟩
  · let taken := (u.takeEntry 63 e).stat 0x4820 63 3 1
    have run : exec (.controlTakeRecord dt) s = .next (taken.controlRecord e.rcd) :=
      (next_whenUp _ control).trans (congrArg _ (State.controlTake_good l e u next good))
    have entry : taken = { u with bramble := taken.bramble, stats := taken.stats, fabric := taken.fabric } := by
      unfold taken
      rw [State.takeEntry_eq]
      rfl
    have works : (taken.noteSource e.rcd).Controls (taken.controlRecord e.rcd) := State.controlRecord_controls ..
    have moment : taken.fc = u.fc := by rw [entry]
    refine ⟨_, run, ?_, ?_, ?_⟩
    · have kept : (taken.controlRecord e.rcd).control.sources = (taken.noteSource e.rcd).control.sources := by rw [works]
      rw [kept, ← moment]
      exact (Tbl.get_put ..).trans (if_pos rfl)
    · have same : (taken.controlRecord e.rcd).lst 63 = (u.takeEntry 63 e).lst 63 := by rw [works]; rfl
      rw [same, State.takeEntry_queue]
    · rw [works]
      unfold State.noteSource
      rw [entry]
  · obtain ⟨last, mass, trans, long, frame⟩ := u.totals_spec
    exact ⟨u.totals, next_whenUp _ control, last, mass, trans, long, by rw [frame]⟩
end

section
/-! PROOF. SYNC and the loop PDOs (R117, R215, R216): a packet that has gone through a queue touches statistics and the fabric
alone, and SYNC is put in front of the frames of C2 that have not begun. -/

namespace Sys2Proof.Machine

open Sys2Proof

/-- Packets that have gone through a queue touch the statistics and what the fabric keeps, and nothing else. -/
theorem State.passed_eq (q n : Nat) (s : State) :
    s.passed q n = { s with stats := (s.passed q n).stats, fabric := (s.passed q n).fabric } := by
  unfold State.passed
  split
  · rfl
  · rw [State.notices_eq]; rfl

/-- What holds a SYNC back: the role or mode of the unit, a stopped or initialising node, or C2 in bus-off, in which a controller
that recovers still is (R205). -/
def State.syncHeld (s : State) : Prop :=
  s.syncBarred = true ∨ s.canOpen.nmt = 4 ∨ s.canOpen.nmt = 0 ∨ (s.cp 2).state = 3 ∨ (s.cp 2).state = 4

/-- Without its domain, with C2 disabled or with its queue to be realigned there is no way for a SYNC. -/
def State.syncLost (s : State) : Prop := s.up domCan = false ∨ s.canOn 2 = false ∨ s.flows 0x54 = false

/-- The SYNC frame. -/
def State.syncFrame (s : State) : CanTx := { frame := baseFrame (s.cn 0x1005 0 0 % 2048) [], kind := .sync }

/-- The frames that an earlier dispatch left, none of them begun. -/
def State.oldLoop (s : State) : List CanTx := ((s.cp 2).waiting s.fc).filter CanTx.isLoop

/-- The loop PDOs that follow a SYNC: in Operational, from a control pair that runs. -/
def State.syncPdos (s : State) : List CanTx :=
  if s.canOpen.nmt = 5 ∧ s.up domCtrl = true ∧ s.flows 0x55 = true then s.loopPdos else []

theorem State.sync_of_held (s : State) (held : s.syncHeld) : s.sync = s := if_pos held

theorem State.sync_of_lost (s : State) (free : ¬ s.syncHeld) (lost : s.syncLost) :
    s.sync = { s with canOpen.missed := s.canOpen.missed + 1 } := (if_neg free).trans (if_pos lost)

theorem State.requeue_tx (p : Nat) (l : List CanTx) (s : State) :
    ((s.requeue p l).cp p).tx = (s.cp p).begun s.fc ++ l := by
  unfold State.requeue
  rw [State.cp_modCp, if_pos rfl]

theorem State.requeue_other (p q : Nat) (l : List CanTx) (s : State) (other : q ≠ p) : (s.requeue p l).cp q = s.cp q := by
  unfold State.requeue
  rw [State.cp_modCp, if_neg other]

/-- Where it has its way, SYNC takes the place of what an earlier dispatch left in the queue of C2. -/
theorem State.sync_of_clear (s : State) (free : ¬ s.syncHeld) (clear : ¬ s.syncLost) :
    (s.sync.cp 2).tx = (s.cp 2).begun s.fc ++ [s.syncFrame] ++ s.syncPdos ++
      ((s.cp 2).waiting s.fc).filter (fun f => !f.isLoop) ∧
    s.sync.canOpen = { s.canOpen with
      missed := s.canOpen.missed + BitVec.ofNat 32 (s.oldLoop.filter (fun f => f.kind == .sync)).length
      discarded := s.canOpen.discarded + BitVec.ofNat 32 s.oldLoop.length } ∧
    (∀ q, q ≠ 2 → s.sync.cp q = s.cp q) ∧
    s.sync = { s with can := s.sync.can, canOpen := s.sync.canOpen, fabric := s.sync.fabric, stats := s.sync.stats } := by
  let counted : State := { s with
    canOpen.missed := s.canOpen.missed + BitVec.ofNat 32 (s.oldLoop.filter (fun f => f.kind == .sync)).length
    canOpen.discarded := s.canOpen.discarded + BitVec.ofNat 32 s.oldLoop.length }
  let told := (counted.passed 0x54 1).passed 0x55 s.syncPdos.length
  have run : s.sync = told.requeue 2 ([s.syncFrame] ++ s.syncPdos ++ ((s.cp 2).waiting s.fc).filter (fun f => !f.isLoop)) :=
    (if_neg free).trans (if_neg clear)
  have frame : told = { counted with stats := told.stats, fabric := told.fabric } := by
    unfold told
    rw [State.passed_eq, State.passed_eq 0x54]
  have port : ∀ q, told.cp q = s.cp q := fun q => by rw [frame]; rfl
  have moment : told.fc = s.fc := by rw [frame]
  clear_value told
  rw [run]
  refine ⟨?_, ?_, fun q other => ?_, ?_⟩
  · rw [State.requeue_tx, port, moment]
    simp only [List.append_assoc]
  · change told.canOpen = _
    rw [frame]
  · rw [State.requeue_other _ _ _ _ other, port]
  · unfold State.requeue
    rw [frame]
    rfl

end Sys2Proof.Machine

open Sys2Proof Sys2Proof.Machine

/-- Settles O23: the dispatch leaves the line, and then a SYNC that is not held back and has its way goes in front
(`State.sync_of_clear`). -/
theorem syncDispatch : Obligations.SyncDispatch := by
  intro s dt d rest u v x sync old fabric delivered
  have run : exec (.syncDispatch dt) s = .next v.sync :=
    (next_whenUp _ fabric).trans (congrArg _ (State.withDispatch_of _ _ u d rest delivered))
  refine ⟨fun held => ?_, fun allowed stopped starting off recovering => ?_⟩
  · rw [run, State.sync_of_held v held]
  · have free : ¬ v.syncHeld := by
      rintro (h | h | h | h | h)
      · exact absurd h (by rw [allowed]; decide)
      · exact stopped h
      · exact starting h
      · exact off h
      · exact recovering h
    refine ⟨fun lost => ?_, fun up on flows => ?_⟩
    · rw [run, State.sync_of_lost v free lost]
    · have clear : ¬ v.syncLost := by
        rintro (h | h | h)
        · exact Bool.false_ne_true (h.symm.trans up)
        · exact Bool.false_ne_true (h.symm.trans on)
        · exact Bool.false_ne_true (h.symm.trans flows)
      obtain ⟨queue, counts, others, frame⟩ := State.sync_of_clear v free clear
      exact ⟨v.sync, run, queue, counts, others, frame⟩
end

section
/-! PROOF. The protected identifier and the checksum of a frame (R151, R152). -/

namespace Sys2Proof.Machine

open Sys2Proof

/-- The first parity bit of an identifier (R151). -/
def parityLow (id : Nat) : Bool := id.testBit 0 ^^ id.testBit 1 ^^ id.testBit 2 ^^ id.testBit 4

/-- The second parity bit of an identifier, which is inverted (R151). -/
def parityHigh (id : Nat) : Bool := !(id.testBit 1 ^^ id.testBit 3 ^^ id.testBit 4 ^^ id.testBit 5)

theorem bne_bne_bne_eq_xor : ∀ a b c d : Bool, ((a != b) != (c != d)) = (a ^^ b ^^ c ^^ d) := by decide

/-- The protected identifier as two parity bits above the six bits of the identifier. -/
theorem protectedId_eq (id : Nat) :
    protectedId id = 2 ^ 6 * ((parityLow id).toNat + 2 * (parityHigh id).toNat) + id % 2 ^ 6 := by
  unfold protectedId parityLow parityHigh
  dsimp only
  rw [bne_bne_bne_eq_xor, bne_bne_bne_eq_xor]
  omega

theorem protectedId_lt (id : Nat) : protectedId id < 256 := by
  have low := (parityLow id).toNat_le
  have high := (parityHigh id).toNat_le
  rw [protectedId_eq]
  omega

theorem protectedId_testBit_id (id k : Nat) (inside : k < 6) : (protectedId id).testBit k = id.testBit k := by
  rw [protectedId_eq, Nat.testBit_two_pow_mul_add _ (Nat.mod_lt _ (by decide)), if_pos inside, Nat.testBit_mod_two_pow]
  simp [inside]

theorem protectedId_testBit_parity (id k : Nat) :
    (protectedId id).testBit (6 + k) = ((parityLow id).toNat + 2 * (parityHigh id).toNat).testBit k := by
  rw [protectedId_eq, Nat.testBit_two_pow_mul_add _ (Nat.mod_lt _ (by decide)), if_neg (by omega), Nat.add_sub_cancel_left]

theorem protectedId_testBit_six (id : Nat) : (protectedId id).testBit 6 = parityLow id := by
  rw [protectedId_testBit_parity id 0]
  cases parityLow id <;> cases parityHigh id <;> rfl

theorem protectedId_testBit_seven (id : Nat) : (protectedId id).testBit 7 = parityHigh id := by
  rw [protectedId_testBit_parity id 1]
  cases parityLow id <;> cases parityHigh id <;> rfl

/-- The 8-bit sum of two numbers with the carry out of bit 7 added back (R152). -/
def carrySum (a b : Nat) : Nat := (a + b) % 256 + (a + b) / 256

theorem carrySum_lt (a b : Nat) (ha : a < 256) (hb : b < 256) : carrySum a b < 256 := by
  unfold carrySum
  omega

theorem carryAdd_eq_carrySum (a : Nat) (b : Byte) (ha : a < 256) : carryAdd a b = carrySum a b.toNat := by
  have hb : b.toNat < 256 := b.isLt
  unfold carryAdd carrySum
  dsimp only
  split <;> omega

/-- The model's sum over bytes is the 8-bit sum with end-around carry, and stays a byte. -/
theorem foldl_carryAdd (data : List Byte) (a : Nat) (ha : a < 256) :
    data.foldl carryAdd a = (data.map BitVec.toNat).foldl carrySum a ∧ data.foldl carryAdd a < 256 := by
  induction data generalizing a with
  | nil => exact ⟨rfl, ha⟩
  | cons b data ih =>
    have sum := carryAdd_eq_carrySum a b ha
    have byte := carrySum_lt a b.toNat ha b.isLt
    rw [List.foldl_cons, List.map_cons, List.foldl_cons, sum]
    exact ih _ byte

/-- What a checksum covers: the protected identifier where it is enhanced and the identifier is not 60, and the data. -/
def checkedBytes (enhanced : Bool) (id : Nat) (data : List Byte) : List Nat :=
  (if enhanced = true ∧ id ≠ 60 then [protectedId id] else []) ++ data.map BitVec.toNat

theorem frameSum_eq (enhanced : Bool) (id : Nat) (data : List Byte) :
    (checkedBytes enhanced id data).foldl carrySum 0 < 256 ∧
    frameSum enhanced id data = 255 - (checkedBytes enhanced id data).foldl carrySum 0 := by
  unfold checkedBytes frameSum
  by_cases covers : enhanced = true ∧ id ≠ 60
  · have first : carrySum 0 (protectedId id) = protectedId id := by
      have := protectedId_lt id
      unfold carrySum
      omega
    obtain ⟨sum, byte⟩ := foldl_carryAdd data (protectedId id) (protectedId_lt id)
    rw [if_pos covers, if_pos (by simpa using covers), List.singleton_append, List.foldl_cons, first, ← sum]
    exact ⟨byte, rfl⟩
  · obtain ⟨sum, byte⟩ := foldl_carryAdd data 0 (by decide)
    rw [if_neg covers, if_neg (by simpa using covers), List.nil_append, ← sum]
    exact ⟨byte, rfl⟩

end Sys2Proof.Machine

open Sys2Proof Sys2Proof.Machine

/-- Settles O7: the protected identifier is the identifier below its parity bits (`protectedId_eq`), and the model's sum of bytes
is the 8-bit sum with end-around carry (`foldl_carryAdd`). -/
theorem frameIdentifierAndChecksum : Obligations.FrameIdentifierAndChecksum := by
  refine ⟨fun id => ⟨protectedId_lt _, fun k inside => ?_, protectedId_testBit_six _, protectedId_testBit_seven _⟩, rfl,
    fun enhanced id data _ => frameSum_eq enhanced id data⟩
  exact protectedId_testBit_id _ k inside
end

section
/-! PROOF. What a serial port receives (R128, R131, R133, R136, R139, R140): a character is queued with its tags, what else it
does touches its own port, statistics and the fabric alone, and the bits of a sent character give that character back. -/

namespace Sys2Proof.Machine

open Sys2Proof

/-! ### Changes of one port alone -/

/-- From `s` to `t` nothing has changed but port `p`, and of it what `k` shows has stayed. -/
structure State.Tunes {α : Type} (p : Nat) (k : SPort → α) (s t : State) : Prop where
  kept : k (t.sp p) = k (s.sp p)
  others : ∀ q, q ≠ p → t.sp q = s.sp q
  rest : t = { s with serial := t.serial }

section
variable {α β : Type} {p : Nat} {k : SPort → α} {s t v : State}

theorem State.Tunes.refl (s : State) : s.Tunes p k s := ⟨rfl, fun _ _ => rfl, rfl⟩

theorem State.Tunes.trans (h : s.Tunes p k t) (g : t.Tunes p k v) : s.Tunes p k v := by
  refine ⟨g.kept.trans h.kept, fun q other => (g.others q other).trans (h.others q other), g.rest.trans ?_⟩
  rw [h.rest]

theorem State.Tunes.modSp (f : SPort → SPort) (keeps : ∀ x, k (f x) = k x) : s.Tunes p k (s.modSp p f) := by
  refine ⟨?_, fun q other => ?_, rfl⟩
  · rw [State.sp_modSp, if_pos rfl, keeps]
  · rw [State.sp_modSp, if_neg other]

theorem State.Tunes.ite (c : Prop) [Decidable c] (h : s.Tunes p k t) : s.Tunes p k (if c then t else s) := by
  split
  · exact h
  · exact .refl s

/-- What can be read off what is kept is kept. -/
theorem State.Tunes.only (h : s.Tunes p k t) (g : α → β) : s.Tunes p (fun x => g (k x)) t :=
  ⟨congrArg g h.kept, h.others, h.rest⟩

end

/-! ### Dividers (R131) -/

/-- A port without its dividers and what goes with them: what taking one leaves as it is. -/
def SPort.undivided (x : SPort) : SPort :=
  { x with txDiv := 0, rxDiv := 0, pendTx := none, pendRx := none, txAuto := false, rxAuto := false, rxWas := none }

theorem State.takeTx_tunes (p : Nat) (s : State) : s.Tunes p SPort.undivided (s.takeTx p) :=
  .modSp _ fun x => by split <;> rfl

theorem State.takeRx_tunes (p : Nat) (s : State) : s.Tunes p SPort.undivided (s.takeRx p) :=
  .modSp _ fun x => by split <;> rfl

theorem State.keepRx_tunes (p : Nat) (f : RxForm) (s : State) : s.Tunes p SPort.undivided (s.keepRx p f) :=
  .modSp _ fun x => by split <;> rfl

/-! ### The receive queue (R139, R227) -/

theorem State.queued_receive (p : Nat) (s : State) (port : p < 24) : s.queued p = (s.sp p).rx.length := by
  unfold State.queued State.packets
  dsimp only
  rw [if_pos (Nat.le_of_lt_succ port), List.length_map]
  rfl

theorem State.hasRoom_congr {s t : State} (p : Nat) (port : p < 24) (rx : (t.sp p).rx = (s.sp p).rx)
    (fabric : t.fabric = s.fabric) : t.hasRoom p = s.hasRoom p := by
  unfold State.hasRoom State.admits State.que
  rw [State.queued_receive p t port, State.queued_receive p s port, rx, fabric]

/-- With credit, a character stands at the end of its port's queue. -/
theorem State.queueRx_of_room (p : Nat) (w : BitVec 16) (s : State) (runs : s.up (engineDom (engineOf p false)) = true)
    (room : s.hasRoom p = true) :
    (s.queueRx p w).sp p = { s.sp p with rx := (s.sp p).rx ++ [{ data := w, pip := s.pip, states := s.wheelByte }] } ∧
    (∀ q, q ≠ p → (s.queueRx p w).sp q = s.sp q) ∧
    s.queueRx p w = { s with serial := (s.queueRx p w).serial, stats := (s.queueRx p w).stats
                             fabric := (s.queueRx p w).fabric } := by
  unfold State.queueRx
  rw [if_pos (by rw [runs, room]; rfl)]
  extract_lets e
  generalize put : s.modSp p (fun x => { x with rx := x.rx ++ [e] }) = queued
  have port : ∀ q, (queued.pushed p).sp q = queued.sp q := fun q => by rw [State.pushed_eq]; rfl
  refine ⟨?_, fun q other => ?_, ?_⟩
  · rw [port, ← put, State.sp_modSp, if_pos rfl]
  · rw [port, ← put, State.sp_modSp, if_neg other]
  · rw [State.pushed_eq, ← put]
    rfl

/-! ### A character taken (R136, R140, R148) -/

theorem State.countChar_eq (p : Nat) (x : RxTaken) (s : State) :
    s.countChar p x = { s with stats := (s.countChar p x).stats } := by
  unfold State.countChar
  dsimp only
  (repeat' split) <;> rfl

theorem State.autoFault_tunes (p : Nat) (x : RxTaken) (s : State) : s.Tunes p SPort.rx (s.autoFault p x) := by
  unfold State.autoFault
  split
  · split
    · dsimp only
      split
      · exact .modSp _ fun _ => rfl
      · exact .modSp _ fun _ => rfl
    · exact .modSp _ fun _ => rfl
  · exact .refl s

theorem State.autoFault_of_unset (p : Nat) (x : RxTaken) (s : State) (unset : s.autobaudSet p = false) :
    s.autoFault p x = s := by
  unfold State.autoFault
  rw [unset]
  rfl

theorem State.autobaudSet_congr {s t : State} (p : Nat) (held : (t.sp p).held = (s.sp p).held) (boot : t.boot = s.boot)
    (cfg : t.cfg = s.cfg) (unit : t.uid = s.uid) : t.autobaudSet p = s.autobaudSet p := by
  unfold State.autobaudSet State.portMode State.modeOf State.portC State.portN State.cn
  rw [held, boot, cfg, unit]

/-- What follows on a character that is queued: a break, the end of an autobaud lock, a pending divider. -/
def State.afterChar (p from_ : Nat) (x : RxTaken) (s : State) : State :=
  let broken := if x.brk then s.enterBreak p from_ else s
  let judged := broken.autoFault p x
  if judged.portMode p = 2 ∧ (judged.sp p).busy.isNone = true then (judged.takeTx p).takeRx p else judged

theorem State.takeBoth_tunes (p : Nat) (s : State) : s.Tunes p SPort.undivided ((s.takeTx p).takeRx p) :=
  (State.takeTx_tunes p s).trans (State.takeRx_tunes p _)

theorem State.afterChar_tunes (p from_ : Nat) (x : RxTaken) (s : State) : s.Tunes p SPort.rx (s.afterChar p from_ x) := by
  unfold State.afterChar
  extract_lets broken judged
  have break_ : s.Tunes p SPort.rx broken := .ite _ (.modSp _ fun _ => rfl)
  exact (break_.trans (State.autoFault_tunes p x broken)).trans (.ite _ ((State.takeBoth_tunes p judged).only SPort.rx))

/-- A break puts its port into BREAK, timed from the falling edge of its start bit (R140, R141). -/
theorem State.afterChar_of_break (p from_ : Nat) (x : RxTaken) (s : State) (brk : x.brk = true)
    (unset : s.autobaudSet p = false) :
    ((s.afterChar p from_ x).sp p).line = 3 ∧ ((s.afterChar p from_ x).sp p).breakAt = some from_ := by
  have broken : (s.enterBreak p from_).sp p = { s.sp p with line := 3, breakAt := some from_, markIdle := false } := by
    unfold State.enterBreak
    rw [State.sp_modSp, if_pos rfl]
  have unset : (s.enterBreak p from_).autobaudSet p = false :=
    (State.autobaudSet_congr (s := s) (t := s.enterBreak p from_) p (by rw [broken]) rfl rfl rfl).trans unset
  have tunes : (s.enterBreak p from_).Tunes p SPort.undivided (s.afterChar p from_ x) := by
    unfold State.afterChar
    dsimp only
    rw [if_pos brk, State.autoFault_of_unset p x _ unset]
    exact .ite _ (State.takeBoth_tunes p _)
  refine ⟨(tunes.only SPort.line).kept.trans ?_, (tunes.only SPort.breakAt).kept.trans ?_⟩
  · rw [broken]; rfl
  · rw [broken]; rfl

/-- A character of a start-stop or synchronous port that is not in address mode, and for which there is credit. -/
theorem State.charTaken_of_room (p from_ : Nat) (c : Cfg) (x : RxTaken) (s : State) (port : p < 24)
    (runs : s.up (engineDom (engineOf p false)) = true) (room : s.hasRoom p = true) :
    ((s.charTaken p from_ c false x).sp p).rx =
      (s.sp p).rx ++ [{ data := x.word, pip := s.pip, states := s.wheelByte }] ∧
    (x.brk = true → s.autobaudSet p = false →
      ((s.charTaken p from_ c false x).sp p).line = 3 ∧ ((s.charTaken p from_ c false x).sp p).breakAt = some from_) ∧
    (∀ q, q ≠ p → (s.charTaken p from_ c false x).sp q = s.sp q) ∧
    s.charTaken p from_ c false x =
      { s with serial := (s.charTaken p from_ c false x).serial, stats := (s.charTaken p from_ c false x).stats
               fabric := (s.charTaken p from_ c false x).fabric } := by
  let heard : State := (s.countChar p x).modSp p (fun y => { y with markIdle := false })
  have frame : heard = { s with serial := heard.serial, stats := heard.stats } := by
    unfold heard
    rw [State.countChar_eq]
    rfl
  have own : heard.sp p = { s.sp p with markIdle := false } := by
    unfold heard
    rw [State.sp_modSp, if_pos rfl, State.countChar_eq]
    rfl
  have apart : ∀ q, q ≠ p → heard.sp q = s.sp q := fun q other => by
    unfold heard
    rw [State.sp_modSp, if_neg other, State.countChar_eq]
    rfl
  have fits : heard.hasRoom p = true := (State.hasRoom_congr p port (by rw [own]) (by rw [frame])).trans room
  obtain ⟨queue, others, rest⟩ := State.queueRx_of_room p x.word heard (by rw [frame]; exact runs) fits
  have run : s.charTaken p from_ c false x = (heard.queueRx p x.word).afterChar p from_ x := rfl
  have after := State.afterChar_tunes p from_ x (heard.queueRx p x.word)
  rw [run]
  refine ⟨?_, fun brk unset => ?_, fun q other => ?_, ?_⟩
  · have same : heard.pip = s.pip ∧ heard.wheelByte = s.wheelByte := by rw [frame]; exact ⟨rfl, rfl⟩
    rw [after.kept, queue, own, same.1, same.2]
  · refine State.afterChar_of_break p from_ x _ brk ((State.autobaudSet_congr p ?_ ?_ ?_ ?_).trans unset)
    · rw [queue, own]
    · rw [rest, frame]
    · rw [rest, frame]
    · rw [rest, frame]; rfl
  · rw [after.others q other, others q other, apart q other]
  · rw [after.rest, rest, frame]

/-! ### SERIAL_CHARACTER_RECEIVED (R132 to R137) -/

/-- When the character of a line began. -/
def State.beganAt (s : State) (line : List WireRun) : Nat := s.fc - serialCycles (lineCycles line)

/-- The configuration in force when the character of a line began (R20). -/
def State.cfgWhenBegun (s : State) (line : List WireRun) : Cfg := s.cfgAt (s.wheels.time.ago (serialCycles (lineCycles line)))

/-- What the receiver had in force when the character of a line began (R131, R143). -/
def State.formWhenBegun (s : State) (p : Nat) (line : List WireRun) : RxForm := (s.sp p).formFor (s.beganAt line)

/-- The data bits and the parity setting of the character of a line. -/
def State.formatWhenBegun (s : State) (p : Nat) (line : List WireRun) : Nat × Nat :=
  s.formatIn p (s.cfgWhenBegun line) (s.formWhenBegun p line).eightN1

/-- The decided bits of the character of a line. -/
def State.bitsOf (s : State) (p : Nat) (line : List WireRun) : Option (List (Bool × Bool)) :=
  s.charBits p (s.cfgWhenBegun line) (s.formWhenBegun p line) line

/-- The first of the decided bits, the start bit, is at mark. -/
def startsAtMark (ds : List (Bool × Bool)) : Bool := ((ds.head?).map (fun d => d.1)).getD false

/-- A port that is not receiving: disabled, in no line state to receive, waiting for mark after a wake, or hunting only since. -/
def State.deaf (s : State) (p : Nat) (line : List WireRun) : Prop :=
  s.modeOf p (s.cfgWhenBegun line) = 0 ∨ (s.sp p).line ≠ 1 ∨ (s.sp p).wakeHunt = true ∨ s.beganAt line < (s.sp p).huntFrom

theorem State.charReceived_of_deaf (p : Nat) (line : List WireRun) (s : State) (deaf : s.deaf p line) :
    s.charReceived p line = s := if_pos deaf

theorem State.charReceived_of_incomplete (p : Nat) (line : List WireRun) (s : State) (none : s.bitsOf p line = none) :
    s.charReceived p line = s := by
  simp only [State.bitsOf, State.cfgWhenBegun, State.formWhenBegun, State.beganAt] at none
  unfold State.charReceived
  dsimp only
  rw [none, ite_self]

/-- A character of a start-stop port whose bits are complete: a false start, or one that is taken (R133, R136). -/
theorem State.charReceived_of_bits (p : Nat) (line : List WireRun) (ds : List (Bool × Bool)) (s : State)
    (hears : ¬ s.deaf p line) (mode : s.modeOf p (s.cfgWhenBegun line) = 1) (bits : s.bitsOf p line = some ds) :
    s.charReceived p line =
      if startsAtMark ds = true then s.stat 0x4800 p 7 1
      else (s.keepRx p (s.formWhenBegun p line)).charTaken p (s.beganAt line) (s.cfgWhenBegun line)
        (decide ((s.formatWhenBegun p line).2 = 5))
        (Machine.takeChar (s.formatWhenBegun p line).1 (s.formatWhenBegun p line).2 ds) := by
  refine (if_neg hears).trans ?_
  simp only [State.bitsOf, State.cfgWhenBegun, State.formWhenBegun, State.beganAt] at bits mode
  rw [bits]
  dsimp only
  rw [mode]
  rfl

/-- A taken character moves its own port, statistics and the fabric alone. -/
theorem State.charTaken_keepRx_of_room (p from_ : Nat) (c : Cfg) (f : RxForm) (x : RxTaken) (s : State) (port : p < 24)
    (runs : s.up (engineDom (engineOf p false)) = true) (room : s.hasRoom p = true) :
    let t := (s.keepRx p f).charTaken p from_ c false x
    (t.sp p).rx = (s.sp p).rx ++ [{ data := x.word, pip := s.pip, states := s.wheelByte }] ∧
    (x.brk = true → s.autobaudSet p = false → (t.sp p).line = 3 ∧ (t.sp p).breakAt = some from_) ∧
    (∀ q, q ≠ p → t.sp q = s.sp q) ∧
    t = { s with serial := t.serial, stats := t.stats, fabric := t.fabric } := by
  have keeps := State.keepRx_tunes p f s
  obtain ⟨queue, broken, others, rest⟩ := State.charTaken_of_room p from_ c x (s.keepRx p f) port runs
    ((State.hasRoom_congr p port (keeps.only SPort.rx).kept rfl).trans room)
  refine ⟨?_, fun brk unset => ?_, fun q other => ?_, ?_⟩
  · rw [queue]
    exact congrArg (· ++ _) (keeps.only SPort.rx).kept
  · exact broken brk ((State.autobaudSet_congr p (keeps.only SPort.held).kept rfl rfl rfl).trans unset)
  · exact (others q other).trans (keeps.others q other)
  · exact rest

/-! ### The bits of a character (R128, R136) -/

theorem lowBits_succ (n v : Nat) : lowBits (n + 1) v = v.testBit 0 :: lowBits n (v / 2) := by
  unfold lowBits
  rw [List.range_succ_eq_map, List.map_cons, List.map_map]
  refine congrArg (v.testBit 0 :: ·) (List.map_congr_left fun k _ => ?_)
  exact Nat.testBit_succ v k

theorem length_lowBits (n v : Nat) : (lowBits n v).length = n := by
  unfold lowBits
  rw [List.length_map, List.length_range]

theorem bitsNat_lowBits (n v : Nat) : bitsNat (lowBits n v) = v % 2 ^ n := by
  induction n generalizing v with
  | zero => rw [Nat.pow_zero, Nat.mod_one]; rfl
  | succ n ih =>
    rw [lowBits_succ, bitsNat, ih, Nat.testBit_zero, Nat.pow_succ', Nat.mod_mul]
    rcases Nat.mod_two_eq_zero_or_one v with even | odd
    · rw [even]; rfl
    · rw [odd]; rfl

/-- A frame of bits free of noise whose stop bit is at mark, with its parity bit where it has one. -/
theorem takeChar_of_frame (data parity : Nat) (word par : List Bool) (length : word.length = data) :
    takeChar data parity ((false :: word ++ par ++ [true]).map (fun b => (b, false))) =
      { value := bitsNat word, address := decide (parity = 5) && ((par ++ [true])[0]?).getD false
        brk := false, noise := false, parity := parityBad parity (bitsNat word) (((par ++ [true])[0]?).getD false)
        framing := false } := by
  have levels : ((false :: word ++ par ++ [true]).map (fun b => (b, false))).map (fun d => d.1) =
      false :: word ++ (par ++ [true]) := by simp [Function.comp_def]
  have data_ : ((false :: word ++ (par ++ [true])).drop 1).take data = word := by
    rw [List.cons_append, List.drop_one, List.tail_cons, List.take_left' length]
  have next : (false :: word ++ (par ++ [true]))[1 + data]? = (par ++ [true])[0]? := by
    have all : (false :: word).length = data + 1 := by rw [List.length_cons, length]
    have beyond : (false :: word).length ≤ 1 + data := by omega
    have offset : 1 + data - (false :: word).length = 0 := by omega
    rw [List.getElem?_append_right beyond, offset]
  have marked : (false :: word ++ (par ++ [true])).all (fun b => !b) = false := by simp
  have quiet : ((false :: word ++ par ++ [true]).map (fun b => (b, false))).any (fun d => d.2) = false := by simp
  have stop : (false :: word ++ (par ++ [true])).getLast? = some true := by
    rw [← List.append_assoc, List.getLast?_concat]
  unfold takeChar
  dsimp only
  rw [levels, marked, data_, next, quiet, stop]
  rfl

/-- The bits of a sent character are received as that character. -/
theorem takeChar_sentBits (data parity : Nat) (v : BitVec 9) (setting : parity ≤ 5) :
    takeChar data parity ((sentBits data parity 1 0 v).map (fun b => (b, false))) =
      { value := v.toNat % 2 ^ data, address := decide (parity = 5) && v.getLsbD 8
        brk := false, noise := false, parity := false, framing := false } := by
  have value : bitsNat (lowBits data (v.toNat % 2 ^ data)) = v.toNat % 2 ^ data := by
    rw [bitsNat_lowBits, Nat.mod_mod]
  have frame := fun par => takeChar_of_frame data parity (lowBits data (v.toNat % 2 ^ data)) par (length_lowBits ..)
  rw [value] at frame
  match parity, setting with
  | 0, _ => exact frame []
  | 1, _ => exact (frame [oddOnes (v.toNat % 2 ^ data)]).trans (by simp [parityBad])
  | 2, _ => exact (frame [!oddOnes (v.toNat % 2 ^ data)]).trans (by simp [parityBad])
  | 3, _ => exact frame [true]
  | 4, _ => exact frame [false]
  | 5, _ => exact (frame [v.getLsbD 8]).trans (by simp [parityBad])

end Sys2Proof.Machine

open Sys2Proof Sys2Proof.Machine

/-- Settles O24: a character of complete bits is a false start or is taken (`State.charReceived_of_bits`), one taken moves its own
port alone (`State.charTaken_of_room`), and sending and receiving are inverse (`takeChar_sentBits`). -/
theorem serialReception : Obligations.SerialReception := by
  refine ⟨?_, fun data parity v _ setting => takeChar_sentBits data parity v setting⟩
  intro s dt p line ds u x span from_ c f mode g r works
  have run : exec (.serialCharacterReceived dt p line) s = .next (u.charReceived p.val line) := next_whenUp _ works
  have tried : exec (.falseStart dt p line) s = .next (u.falseStart p.val line) := next_whenUp _ works
  refine ⟨fun deaf => ?_, fun startStop receiving awake hunting bits => ?_,
    fun startStop receiving awake mark => ?_, fun idle => ?_⟩
  · rw [run]
    by_cases silent : u.deaf p.val line
    · rw [State.charReceived_of_deaf p.val line u silent]
    · have none : u.bitsOf p.val line = none := by
        rcases deaf with h | h | h | h | none
        · exact absurd (.inl h) silent
        · exact absurd (.inr (.inl h)) silent
        · exact absurd (.inr (.inr (.inl h))) silent
        · exact absurd (.inr (.inr (.inr h))) silent
        · exact none
      rw [State.charReceived_of_incomplete p.val line u none]
  · have hears : ¬ u.deaf p.val line := by
      rintro (h | h | h | h)
      · exact absurd (startStop.symm.trans h) (by decide)
      · exact h receiving
      · exact Bool.false_ne_true (awake.symm.trans h)
      · exact Nat.not_lt.mpr hunting h
    have taken := State.charReceived_of_bits p.val line ds u hears startStop bits
    refine ⟨fun mark => ?_, fun start plain up room => ?_⟩
    · rw [run, taken]
      exact congrArg _ (if_pos mark)
    · have plain : decide ((u.formatWhenBegun p.val line).2 = 5) = false := decide_eq_false plain
      rw [if_neg (by rw [startsAtMark, start]; decide), plain] at taken
      exact ⟨_, run.trans (congrArg _ taken),
        State.charTaken_keepRx_of_room p.val from_ c f r u p.isLt up room⟩
  · rw [tried]
    exact congrArg _ (if_pos ⟨startStop, receiving, awake, mark⟩)
  · rw [tried]
    refine congrArg _ (if_neg ?_)
    rintro ⟨startStop, receiving, awake, mark⟩
    rcases idle with off | sync | h | h | h
    · rw [off] at startStop
      exact absurd startStop (by decide)
    · rw [sync] at startStop
      exact absurd startStop (by decide)
    · exact h receiving
    · exact Bool.false_ne_true (awake.symm.trans h)
    · exact Bool.false_ne_true (h.symm.trans mark)
end

section
/-! PROOF. A domain that returns leaves the power state and the record of the last wake as they are (R344, R349), so that a start
edge at a serial port wakes the device (R147). -/

namespace Sys2Proof.Machine

open Sys2Proof

/-- What each step of a fold over states keeps, the fold keeps. -/
theorem foldl_keeps {α β : Type} (k : State → β) (f : State → α → State) (h : ∀ s a, k (f s a) = k s) (l : List α) (s : State) :
    k (l.foldl f s) = k s := by
  induction l generalizing s with
  | nil => rfl
  | cons a l ih => exact (ih _).trans (h s a)

@[simp] theorem foldl_power {α : Type} (f : State → α → State) (h : ∀ s a, (f s a).power = s.power) (l : List α) (s : State) :
    (l.foldl f s).power = s.power := foldl_keeps State.power f h l s

/-! ### Queues and frames of a CAN controller -/

@[simp] theorem State.pushed_power (q : Nat) (s : State) : (s.pushed q).power = s.power := by
  rw [State.pushed_eq]

@[simp] theorem State.popped_power (q : Nat) (s before : State) : (s.popped q before).power = s.power := by
  rw [State.popped_eq]

@[simp] theorem State.canDropped_power (p : Nat) (s before : State) : (s.canDropped p before).power = s.power := by
  simp [State.canDropped, State.withdrawn, apply_ite State.power]

@[simp] theorem State.loadCan_power (p : Nat) (s : State) : (s.loadCan p).power = s.power := by
  unfold State.loadCan
  dsimp only
  split
  · rfl
  · split <;> simp

@[simp] theorem State.sendCan_power (p : Nat) (f : CanTx) (s : State) : (s.sendCan p f).power = s.power := by
  simp [State.sendCan]

@[simp] theorem State.queueCan_power (p : Nat) (f : CanTx) (s : State) : (s.queueCan p f).power = s.power := by
  simp [State.queueCan, apply_ite State.power]

@[simp] theorem State.supSend_power (f : CanTx) (s : State) : (s.supSend f).power = s.power := by
  simp [State.supSend, State.refillSup, apply_ite State.power]

@[simp] theorem State.emcy_power (code event : Nat) (s : State) : (s.emcy code event).power = s.power := by
  simp [State.emcy, apply_ite State.power]

@[simp] theorem State.trackErrors_power (s : State) : s.trackErrors.power = s.power := by
  simp [State.trackErrors, apply_ite State.power]

@[simp] theorem State.nmtInit_power (s : State) : s.nmtInit.power = s.power := by
  simp [State.nmtInit, State.enterPreOp]

@[simp] theorem State.claimStart_power (p : Nat) (ask : Bool) (s : State) : (s.claimStart p ask).power = s.power := by
  simp [State.claimStart, State.claim, apply_ite State.power]

@[simp] theorem State.canStart_power (p : Nat) (s : State) : (s.canStart p).power = s.power := by
  simp [State.canStart, apply_ite State.power]

/-! ### Appointments and wheels -/

@[simp] theorem State.dispatch_power (r c : Nat) (due : WheelPos) (late : Bool) (s : State) :
    (s.dispatch r c due late).power = s.power := by
  simp [State.dispatch, State.countLate, apply_ite State.power]

@[simp] theorem State.rephaseRow_power (wheel : Nat) (new : WheelPos) (forward : Bool) (r : Nat) (s : State) :
    (State.rephaseRow wheel new forward s r).power = s.power := by
  unfold State.rephaseRow
  extract_lets c a passed
  clear_value passed
  split
  · rfl
  · cases passed <;> simp

@[simp] theorem State.skipSlots_power (old new : WheelPos) (s : State) : (s.skipSlots old new).power = s.power := by
  simp [State.skipSlots, apply_ite State.power]

@[simp] theorem State.jumped_power (wheel : Nat) (old new : WheelPos) (s : State) :
    (s.jumped wheel old new).power = s.power := by
  simp [State.jumped, State.skipSamples, apply_ite State.power]

@[simp] theorem State.coast_power (w : Nat) (s : State) : (s.coast w).power = s.power := by
  simp [State.coast, State.setWheel, apply_ite State.power]

@[simp] theorem State.coastSea_power (dflt : Bool) (s : State) : (s.coastSea dflt).power = s.power := by
  unfold State.coastSea
  extract_lets coasted still
  split
  · simp [still, coasted]
  · split
    · simp [still, coasted, apply_ite State.power]
    · simp [still, coasted]

/-! ### What each domain restores -/

@[simp] theorem State.fabricExit_power (s : State) : s.fabricExit.power = s.power := by
  simp [State.fabricExit, State.reloadPoint, State.restartRow, State.noteLeap, apply_ite State.power]

@[simp] theorem State.cardExit_power (d : Nat) (s : State) : (s.cardExit d).power = s.power := by
  simp [State.cardExit, State.restartSrc, State.checkHeel, State.checkSea, apply_ite State.power]

@[simp] theorem State.ctrlExit_power (s : State) : s.ctrlExit.power = s.power := by
  simp [State.ctrlExit, State.beginLoading, State.holdCasc]

@[simp] theorem State.join_power (s : State) : s.join.power = s.power := by
  simp [State.join, State.driveArb, State.startClaim, apply_ite State.power]

@[simp] theorem State.releaseEvents_power (s : State) : s.releaseEvents.power = s.power := by
  simp [State.releaseEvents, apply_ite State.power]

@[simp] theorem State.supStart_power (s : State) : s.supStart.power = s.power := by
  simp [State.supStart, State.beginReports]

@[simp] theorem State.supExit_power (s : State) : s.supExit.power = s.power := by
  simp [State.supExit, apply_ite State.power]

@[simp] theorem State.portEnabled_power (p : Nat) (s : State) : (s.portEnabled p).power = s.power := by
  simp [State.portEnabled, apply_ite State.power]

@[simp] theorem State.startPort_power (p : Nat) (s : State) : (s.startPort p).power = s.power := by
  simp [State.startPort, State.enterAutobaud, apply_ite State.power]

@[simp] theorem State.refChange_power (before : Bool) (s : State) : (s.refChange before).power = s.power := by
  simp [State.refChange, apply_ite State.power]

@[simp] theorem State.notReady_power (ch : Nat) (s : State) : (s.notReady ch).power = s.power := by
  simp [State.notReady, State.putLoopCode, apply_ite State.power]

@[simp] theorem State.afeExit_power (s : State) : s.afeExit.power = s.power := by
  simp [State.afeExit]

@[simp] theorem State.setJournal_power (n : Nat) (s : State) : (s.setJournal n).power = s.power := by
  unfold State.setJournal
  dsimp only
  (repeat' split) <;> simp

@[simp] theorem State.dramExit_power (s : State) : s.dramExit.power = s.power := by
  simp [State.dramExit, apply_ite State.power]

/-- No domain that returns touches the power state. -/
@[simp] theorem State.domainRestores_power (d : Nat) (s : State) : (s.domainRestores d).power = s.power := by
  unfold State.domainRestores
  split <;> simp [State.canExit, apply_ite State.power]

/-! ### The power state and the last wake -/

/-- The power state, and what woke the device last. -/
def State.wakeRecord (s : State) : Nat × Nat × Nat × BitVec 32 :=
  (s.power.state, s.power.wakeSource, s.power.wakeDetail, s.power.wakes)

theorem State.wakeRecord_of_power {s t : State} (h : t.power = s.power) : t.wakeRecord = s.wakeRecord := by
  unfold State.wakeRecord
  rw [h]

theorem State.regain_power (s before : State) : (s.regain before).power = s.power := rfl

theorem State.switchOn_wakeRecord (d : Nat) (s : State) : (s.switchOn d).wakeRecord = s.wakeRecord := by
  unfold State.switchOn
  split
  · rfl
  · refine (State.wakeRecord_of_power ((State.regain_power ..).trans (State.domainRestores_power ..))).trans ?_
    rfl

theorem State.onDomains_wakeRecord (s : State) : s.onDomains.wakeRecord = s.wakeRecord := by
  unfold State.onDomains
  extract_lets n up
  have kept : up.wakeRecord = s.wakeRecord := by
    refine foldl_keeps State.wakeRecord _ (fun s d => ?_) _ s
    split
    · rfl
    · exact State.switchOn_wakeRecord d s
  clear_value up
  exact kept

theorem State.releaseDomains_wakeRecord (s : State) : s.releaseDomains.wakeRecord = s.wakeRecord := by
  unfold State.releaseDomains
  extract_lets released
  have wheels : released.wakeWheels.power = released.power := by simp [State.wakeWheels]
  refine (State.wakeRecord_of_power wheels).trans (foldl_keeps State.wakeRecord _ (fun s d => ?_) _ s)
  split <;> rfl

/-- A source that wakes the device is recorded, and the device runs. -/
theorem State.wake_record (source detail : Nat) (s : State) (low : s.power.state = 2 ∨ s.power.state = 3) :
    (s.wake source detail).wakeRecord = (0, source, detail, s.power.wakes + 1) := by
  unfold State.wake
  dsimp only
  rw [if_neg (by omega)]
  split
  · rw [State.releaseDomains_wakeRecord]
    rfl
  · rw [State.onDomains_wakeRecord]
    rfl

/-! ### SERIAL_START_EDGE_WAKE (R147) -/

/-- A port whose receiver hunts once its line has been at mark. -/
def SPort.woken (x : SPort) : SPort := { x with wakeHunt := true, markIdle := false }

/-- Of a list of ports each hunts after a wake. -/
theorem foldl_woken_wakeHunt (p : Nat) (l : List Nat) (s : State) (h : p ∈ l ∨ (s.sp p).wakeHunt = true) :
    ((l.foldl (fun s q => s.modSp q SPort.woken) s).sp p).wakeHunt = true := by
  induction l generalizing s with
  | nil => exact h.resolve_left List.not_mem_nil
  | cons q l ih =>
    refine ih _ ?_
    rw [State.sp_modSp]
    by_cases own : p = q
    · rw [if_pos own]
      exact .inr rfl
    · rw [if_neg own]
      exact h.imp_left fun mem => (List.mem_cons.mp mem).resolve_left own

/-- A start edge at a wake port wakes the device, is recorded, and its port hunts. -/
theorem State.serialWake_spec (p : Fin 24) (s : State) (low : s.power.state = 2 ∨ s.power.state = 3)
    (allowed : (s.cn 0x5838 1 0).testBit 1 = true) (source : s.wakePort p.val = true) :
    (s.serialWake p.val).wakeRecord = (0, 2, p.val, s.power.wakes + 1) ∧ ((s.serialWake p.val).sp p.val).wakeHunt = true := by
  let ports := (List.range 24).filter (fun q => s.wakePort q)
  have run : s.serialWake p.val =
      ports.foldl (fun s q => s.modSp q SPort.woken) ((s.wake 2 p.val).stat 0x4800 p.val 0x0C 1) :=
    if_pos ⟨low, allowed, source⟩
  have woken : p.val ∈ ports := List.mem_filter.mpr ⟨List.mem_range.mpr p.isLt, source⟩
  rw [run]
  refine ⟨?_, foldl_woken_wakeHunt p.val ports _ (.inl woken)⟩
  exact (foldl_keeps State.wakeRecord (fun s q => s.modSp q SPort.woken) (fun _ _ => rfl) ports _).trans
    (State.wake_record 2 p.val s low)

theorem State.serialWake_of_awake (p : Nat) (s : State) (idle : s.power.state < 2 ∨ s.wakePort p = false) :
    s.serialWake p = s := by
  refine if_neg ?_
  rintro ⟨low, -, source⟩
  rcases idle with awake | h
  · omega
  · exact Bool.false_ne_true (h.symm.trans source)

end Sys2Proof.Machine
end

section
/-! PROOF. Line states, dividers, autobaud and the wake edge of a serial port (R131, R140 to R142, R147, R148, R267): each
changes its own port, and a pending divider is taken or waits. -/

namespace Sys2Proof.Machine

open Sys2Proof

/-! ### A pending divider at mark (R131) -/

/-- Where a start-stop port goes on at mark, its receiver takes a pending divider. -/
def State.takeAtMark (p : Nat) (s : State) : State := if s.portMode p = 1 then s.takeRx p else s

theorem State.takeAtMark_tunes (p : Nat) (s : State) : s.Tunes p SPort.undivided (s.takeAtMark p) :=
  .ite _ (State.takeRx_tunes p s)

theorem State.takeRx_rxDiv (p : Nat) (s : State) :
    ((s.takeRx p).sp p).rxDiv = (s.sp p).pendRx.getD (s.sp p).rxDiv := by
  unfold State.takeRx
  rw [State.sp_modSp, if_pos rfl]
  cases h : (s.sp p).pendRx with
  | none => rfl
  | some d => rfl

theorem State.takeAtMark_rxDiv (p : Nat) (s : State) :
    ((s.takeAtMark p).sp p).rxDiv = if s.portMode p = 1 then (s.sp p).pendRx.getD (s.sp p).rxDiv else (s.sp p).rxDiv := by
  unfold State.takeAtMark
  split
  · exact State.takeRx_rxDiv p s
  · rfl

/-- Of a port whose receiver may take a divider everything else stays. -/
theorem State.takeAtMark_field {α : Type} {p : Nat} {s : State} {y : SPort} (own : s.sp p = y) (k : SPort → α)
    (blind : ∀ x, k x.undivided = k x) : k ((s.takeAtMark p).sp p) = k y := by
  rw [← blind, (State.takeAtMark_tunes p s).kept, blind, own]

theorem State.modSp_own (p : Nat) (f : SPort → SPort) (s : State) : (s.modSp p f).sp p = f (s.sp p) := by
  rw [State.sp_modSp, if_pos rfl]

theorem State.modSp_other (p : Nat) (f : SPort → SPort) (s : State) (q : Nat) (other : q ≠ p) : (s.modSp p f).sp q = s.sp q := by
  rw [State.sp_modSp, if_neg other]

/-! ### Events -/

theorem State.event_eq (c a b : Nat) (s : State) : s.event c a b = { s with health := (s.event c a b).health } := by
  unfold State.event
  split
  · obtain ⟨_, -, -, -, -, h⟩ | ⟨-, h⟩ := State.raiseKind_eq 0 0 c a b s <;> rw [h]
  · obtain ⟨_, -, -, -, -, h⟩ | ⟨-, h⟩ := State.raiseKind_eq 1 1 c a b s <;> rw [h]

/-- An event is the same whatever the serial ports and the statistics. -/
theorem State.event_health_congr {s t : State} (c a b : Nat) (h : t = { s with serial := t.serial, stats := t.stats }) :
    (t.event c a b).health = (s.event c a b).health := by
  have raised : ∀ kind astate, (t.raiseKind kind astate c a b).health = (s.raiseKind kind astate c a b).health := by
    intro kind astate
    rw [h]
    unfold State.raiseKind
    dsimp only
    rw [apply_ite State.health, apply_ite State.health]
    rfl
  unfold State.event
  split
  · exact raised 0 0
  · exact raised 1 1

theorem State.event_sp (c a b q : Nat) (s : State) : (s.event c a b).sp q = s.sp q := by
  rw [State.event_eq]
  rfl

theorem State.modSp_portMode (p : Nat) (f : SPort → SPort) (s : State) (held : ∀ x, (f x).held = x.held) :
    (s.modSp p f).portMode p = s.portMode p := by
  unfold State.portMode State.modeOf
  rw [State.sp_modSp, if_pos rfl, held]
  rfl

/-! ### Breaks and marks (R131, R140, R147) -/

/-- A port whose break has ended. -/
def SPort.unbroken (now : Nat) (x : SPort) : SPort :=
  { x with line := 1, breakAt := none, markIdle := true, wakeHunt := false, huntFrom := now }

theorem State.breakEnd_of_break (p : Nat) (s : State) (broken : (s.sp p).line = 3) :
    let t := s.breakEnd p
    (t.sp p).line = 1 ∧ (t.sp p).breakAt = none ∧ (t.sp p).markIdle = true ∧ (t.sp p).wakeHunt = false ∧
    (t.sp p).rxDiv = (if s.portMode p = 1 then (s.sp p).pendRx.getD (s.sp p).rxDiv else (s.sp p).rxDiv) ∧
    (t.sp p).rx = (s.sp p).rx ∧ (∀ q, q ≠ p → t.sp q = s.sp q) ∧ t = { s with serial := t.serial } := by
  let ended := s.modSp p (SPort.unbroken s.fc)
  have run : s.breakEnd p = ended.takeAtMark p := if_pos broken
  have own : ended.sp p = (s.sp p).unbroken s.fc := State.modSp_own ..
  have mode : ended.portMode p = s.portMode p := State.modSp_portMode p (SPort.unbroken s.fc) s fun _ => rfl
  have tunes := State.takeAtMark_tunes p ended
  rw [run]
  refine ⟨State.takeAtMark_field own SPort.line fun _ => rfl, State.takeAtMark_field own SPort.breakAt fun _ => rfl,
    State.takeAtMark_field own SPort.markIdle fun _ => rfl, State.takeAtMark_field own SPort.wakeHunt fun _ => rfl, ?_,
    State.takeAtMark_field own SPort.rx fun _ => rfl,
    fun q other => (tunes.others q other).trans (State.modSp_other p _ s q other), tunes.rest⟩
  rw [State.takeAtMark_rxDiv, mode, own]
  rfl

/-- A port that has been at mark for 16 ticks. -/
def SPort.idled (now : Nat) (x : SPort) : SPort :=
  { x with markIdle := true, wakeHunt := false, huntFrom := if x.wakeHunt then now else x.huntFrom }

theorem State.receiveMarkIdle_of_open (p : Nat) (s : State) (startStop : s.portMode p = 1) (unbroken : (s.sp p).line ≠ 3)
    (free : (s.sp p).line ≠ 4) (driven : (s.sp p).line ≠ 6) :
    let t := s.receiveMarkIdle p
    (t.sp p).markIdle = true ∧ (t.sp p).wakeHunt = false ∧ (t.sp p).rxDiv = (s.sp p).pendRx.getD (s.sp p).rxDiv ∧
    (t.sp p).line = (s.sp p).line ∧ (∀ q, q ≠ p → t.sp q = s.sp q) ∧ t = { s with serial := t.serial } := by
  let idled := s.modSp p (SPort.idled s.fc)
  have open_ : ¬ (s.portMode p = 0 ∨ (s.sp p).line = 3 ∨ (s.sp p).line = 4 ∨ (s.sp p).line = 6) := by
    rintro (off | h | h | h)
    · exact absurd (startStop.symm.trans off) (by decide)
    · exact unbroken h
    · exact free h
    · exact driven h
  have run : s.receiveMarkIdle p = idled.takeAtMark p := if_neg open_
  have own : idled.sp p = (s.sp p).idled s.fc := State.modSp_own ..
  have mode : idled.portMode p = 1 := (State.modSp_portMode p (SPort.idled s.fc) s fun _ => rfl).trans startStop
  have tunes := State.takeAtMark_tunes p idled
  rw [run]
  refine ⟨State.takeAtMark_field own SPort.markIdle fun _ => rfl, State.takeAtMark_field own SPort.wakeHunt fun _ => rfl, ?_,
    State.takeAtMark_field own SPort.line fun _ => rfl,
    fun q other => (tunes.others q other).trans (State.modSp_other p _ s q other), tunes.rest⟩
  rw [State.takeAtMark_rxDiv, if_pos mode, own]
  rfl

/-- A port whose line is stuck, with the evidence of its pair. -/
def SPort.stuck (evidence probeAt : Nat) (x : SPort) : SPort :=
  { x with line := 4, flags := setBit (setBit x.flags 1 true) 3 true, stuckClass := evidence, probeAt := probeAt }

theorem State.stuckLow_of_due (p b : Nat) (s : State) (broken : (s.sp p).line = 3) (since : (s.sp p).breakAt = some b)
    (mode : s.portMode p ≠ 3) (due : b + s.stuckTime p ≤ s.fc) :
    let ev := s.pairEvidence p
    let t := s.stuckLow p
    (t.sp p).line = 4 ∧ (t.sp p).flags = setBit (setBit (s.sp p).flags 1 true) 3 true ∧ (t.sp p).stuckClass = ev ∧
    (t.sp p).probeAt = b + 2 * s.stuckTime p ∧ (t.sp p).rx = (s.sp p).rx ∧ t.stats = (s.stat 0x4800 p 0x0A 1).stats ∧
    t.health = (s.event 0x5001 p ev).health ∧ (∀ q, q ≠ p → t.sp q = s.sp q) ∧
    t = { s with serial := t.serial, stats := t.stats, health := t.health } := by
  intro ev t
  let counted := (s.modSp p (SPort.stuck ev (b + 2 * s.stuckTime p))).stat 0x4800 p 0x0A 1
  let told := counted.event 0x5001 p ev
  have run : t = told.takeAtMark p := by
    unfold t State.stuckLow
    dsimp only
    rw [since]
    exact if_pos ⟨broken, mode, due⟩
  have frame : told = { s with serial := told.serial, stats := told.stats, health := told.health } := by
    unfold told
    rw [State.event_eq]
    rfl
  have port : ∀ q, told.sp q = (s.modSp p (SPort.stuck ev (b + 2 * s.stuckTime p))).sp q := fun q => State.event_sp ..
  have own : told.sp p = (s.sp p).stuck ev (b + 2 * s.stuckTime p) := (port p).trans (State.modSp_own ..)
  have tunes := State.takeAtMark_tunes p told
  rw [run]
  refine ⟨State.takeAtMark_field own SPort.line fun _ => rfl, State.takeAtMark_field own SPort.flags fun _ => rfl,
    State.takeAtMark_field own SPort.stuckClass fun _ => rfl, State.takeAtMark_field own SPort.probeAt fun _ => rfl,
    State.takeAtMark_field own SPort.rx fun _ => rfl, ?_, ?_, fun q other => ?_, ?_⟩
  · rw [tunes.rest]
    exact State.event_stats ..
  · rw [tunes.rest]
    exact State.event_health_congr (s := s) (t := counted) _ _ _ rfl
  · rw [tunes.others q other, port, State.modSp_other p _ s q other]
  · rw [tunes.rest, frame]

/-- Where BREAK has not lasted the stuck time, or the port is not in BREAK or in frame mode, nothing is stuck. -/
theorem State.stuckLow_of_early (p : Nat) (s : State)
    (early : (s.sp p).line ≠ 3 ∨ s.portMode p = 3 ∨ ∃ b, (s.sp p).breakAt = some b ∧ s.fc < b + s.stuckTime p) :
    s.stuckLow p = s := by
  refine if_neg ?_
  rintro ⟨broken, mode, due⟩
  rcases early with h | h | ⟨b, since, early⟩
  · exact h broken
  · exact mode h
  · rw [since] at due
    exact Nat.not_le.mpr early due

/-- A port of which evidence has been taken anew. -/
def SPort.probed (evidence period : Nat) (x : SPort) : SPort := { x with probeAt := x.probeAt + period, stuckClass := evidence }

theorem State.stuckProbe_of_due (p : Nat) (s : State) (low : (s.sp p).line = 4 ∨ (s.sp p).line = 6)
    (due : (s.sp p).probeAt ≤ s.fc) :
    let ev := s.pairEvidence p
    let t := s.stuckProbe p
    (t.sp p).probeAt = (s.sp p).probeAt + s.stuckTime p ∧ (t.sp p).stuckClass = ev ∧ (t.sp p).line = (s.sp p).line ∧
    t.health = (if ev = (s.sp p).stuckClass then s else s.event 0x5002 p ev).health ∧ (∀ q, q ≠ p → t.sp q = s.sp q) ∧
    t = { s with serial := t.serial, health := t.health } := by
  intro ev t
  let probed := s.modSp p (SPort.probed ev (s.stuckTime p))
  have run : t = if ev = (s.sp p).stuckClass then probed else probed.event 0x5002 p ev := if_pos ⟨low, due⟩
  have port : ∀ q, t.sp q = probed.sp q := fun q => by
    rw [run]
    split
    · rfl
    · exact State.event_sp ..
  have own : t.sp p = (s.sp p).probed ev (s.stuckTime p) := (port p).trans (State.modSp_own ..)
  refine ⟨by rw [own]; rfl, by rw [own]; rfl, by rw [own]; rfl, ?_, fun q other => ?_, ?_⟩
  · rw [run]
    split
    · rfl
    · exact State.event_health_congr (s := s) (t := probed) _ _ _ rfl
  · rw [port, State.modSp_other p _ s q other]
  · rw [run]
    split
    · rfl
    · rw [State.event_eq]
      rfl

/-- A port whose line has recovered. -/
def SPort.recovered (now : Nat) (x : SPort) : SPort :=
  { x with line := 1, flags := setBit x.flags 3 false, breakAt := none, markIdle := true, huntFrom := now }

/-- What a recovery leaves of a port besides its dividers and its next schedule slot. -/
def SPort.lineView (x : SPort) : Nat × BitVec 16 × Bool × Bool := (x.line, x.flags, x.markIdle, x.held)

theorem State.lineRecovered_of_low (p : Nat) (s : State) (low : (s.sp p).line = 4 ∨ (s.sp p).line = 6)
    (unset : s.autobaudSet p = false) :
    ((s.modSp p (SPort.recovered s.fc)).event 0x5003 p 0).Tunes p SPort.lineView (s.lineRecovered p) := by
  unfold State.lineRecovered
  extract_lets x risen after
  rw [if_pos low]
  change risen.Tunes p SPort.lineView _
  have frame : risen = { s with serial := risen.serial, health := risen.health } := by
    unfold risen
    rw [State.event_eq]
    rfl
  have own : (risen.sp p).held = (s.sp p).held := by
    unfold risen
    rw [State.event_sp, State.modSp_own]
  have tunes : risen.Tunes p SPort.lineView after := by
    unfold after
    split
    · exact .modSp _ fun _ => rfl
    · exact .ite _ ((State.takeRx_tunes p risen).only SPort.lineView)
  have unset : after.autobaudSet p = false := by
    refine (State.autobaudSet_congr (s := s) p ((tunes.only (fun v => v.2.2.2)).kept.trans own) ?_ ?_ ?_).trans unset
    · rw [tunes.rest, frame]
    · rw [tunes.rest, frame]
    · rw [tunes.rest, frame]
      rfl
  rw [unset, Bool.and_false, Bool.false_and]
  exact tunes

/-- Where autobaud is not set, a recovered line returns its port to reception, with its event. -/
theorem State.lineRecovered_spec (p : Nat) (s : State) (low : (s.sp p).line = 4 ∨ (s.sp p).line = 6)
    (unset : s.autobaudSet p = false) :
    let t := s.lineRecovered p
    (t.sp p).line = 1 ∧ (t.sp p).flags = setBit (s.sp p).flags 3 false ∧ (t.sp p).markIdle = true ∧
    t.health = (s.event 0x5003 p 0).health ∧ (∀ q, q ≠ p → t.sp q = s.sp q) ∧
    t = { s with serial := t.serial, health := t.health } := by
  intro t
  let recovered := s.modSp p (SPort.recovered s.fc)
  let told := recovered.event 0x5003 p 0
  have tunes : told.Tunes p SPort.lineView t := State.lineRecovered_of_low p s low unset
  have frame : told = { s with serial := told.serial, health := told.health } := by
    unfold told
    rw [State.event_eq]
    rfl
  have own : told.sp p = (s.sp p).recovered s.fc := (State.event_sp ..).trans (State.modSp_own ..)
  have view : (t.sp p).lineView = ((s.sp p).recovered s.fc).lineView := tunes.kept.trans (congrArg _ own)
  refine ⟨congrArg (fun v => v.1) view, congrArg (fun v => v.2.1) view, congrArg (fun v => v.2.2.1) view, ?_,
    fun q other => ?_, ?_⟩
  · rw [tunes.rest]
    exact State.event_health_congr (s := s) (t := recovered) _ _ _ rfl
  · rw [tunes.others q other]
    exact (State.event_sp ..).trans (State.modSp_other p _ s q other)
  · rw [tunes.rest, frame]

/-! ### Dividers taken or waiting (R131) -/

/-- In each direction the divider is in force with none waiting, or it waits. -/
def SPort.Offered (d : Nat) (x : SPort) : Prop :=
  (x.pendTx = some d ∨ x.pendTx = none ∧ x.txDiv = d) ∧ (x.pendRx = some d ∨ x.pendRx = none ∧ x.rxDiv = d)

/-- From `s` on, a divider has been offered to port `p`: it is in force or waits, and nothing else has changed. -/
def State.Offers (p d : Nat) (s t : State) : Prop := s.Tunes p SPort.undivided t ∧ (t.sp p).Offered d

theorem State.Offers.takeTx {p d : Nat} {s t : State} (h : s.Offers p d t) : s.Offers p d (t.takeTx p) := by
  obtain ⟨tunes, tx, rx⟩ := h
  refine ⟨tunes.trans (State.takeTx_tunes p t), ?_⟩
  unfold State.takeTx
  rw [State.modSp_own]
  rcases tx with waits | ⟨none, taken⟩
  · rw [waits]
    exact ⟨.inr ⟨rfl, rfl⟩, rx⟩
  · rw [none]
    exact ⟨.inr ⟨none, taken⟩, rx⟩

theorem State.Offers.takeRx {p d : Nat} {s t : State} (h : s.Offers p d t) : s.Offers p d (t.takeRx p) := by
  obtain ⟨tunes, tx, rx⟩ := h
  refine ⟨tunes.trans (State.takeRx_tunes p t), ?_⟩
  unfold State.takeRx
  rw [State.modSp_own]
  rcases rx with waits | ⟨none, taken⟩
  · rw [waits]
    exact ⟨tx, .inr ⟨rfl, rfl⟩⟩
  · rw [none]
    exact ⟨tx, .inr ⟨none, taken⟩⟩

theorem State.offerDivider_offers (p d : Nat) (s : State) : s.Offers p d (s.offerDivider p d) := by
  unfold State.offerDivider
  extract_lets offered x
  have offer : s.Offers p d offered :=
    ⟨.modSp _ fun _ => rfl, by unfold offered; rw [State.modSp_own]; exact ⟨.inl rfl, .inl rfl⟩⟩
  clear_value offered
  split
  · next sent _ _ =>
    have send : s.Offers p d sent := by
      unfold sent
      split
      · exact offer.takeTx
      · exact offer
    split
    · exact send.takeRx
    · exact send
  · split
    · exact offer
    · exact offer.takeTx.takeRx
  · split
    · exact offer.takeTx.takeRx
    · exact offer

/-- A written divider ends a measured one, and is offered to its port. -/
theorem State.writeDivider_spec (p d : Nat) (s : State) :
    ((s.writeDivider p d).sp p).autoDiv = none ∧ ((s.writeDivider p d).sp p).Offered d ∧
    s.writeDivider p d = { s with serial := (s.writeDivider p d).serial } := by
  obtain ⟨tunes, offered⟩ :=
    State.offerDivider_offers p d (s.modSp p (fun x => { x with autoDiv := none, pendAuto := false }))
  refine ⟨(tunes.only SPort.autoDiv).kept.trans ?_, offered, tunes.rest⟩
  rw [State.modSp_own]
  rfl

/-! ### Autobaud (R148) -/

/-- A port that has locked on a listed rate. -/
def SPort.locked (rate now : Nat) (x : SPort) : SPort :=
  { x with line := 1, autoRate := rate, autoDiv := some (4608000 / rate), autoPair := none, autoFaults := 0, markIdle := false
           pendAuto := true, huntFrom := now }

/-- The second `$` in a row of one listed rate locks the port, with its event. -/
theorem State.lockAuto_spec (p rate : Nat) (s : State) :
    ((s.lockAuto p rate).sp p).line = 1 ∧ ((s.lockAuto p rate).sp p).autoRate = rate ∧
    ((s.lockAuto p rate).sp p).autoDiv = some (4608000 / rate) ∧
    (s.lockAuto p rate).health = (s.event 0x5005 p rate).health ∧
    s.lockAuto p rate = { s with serial := (s.lockAuto p rate).serial, health := (s.lockAuto p rate).health } := by
  let offered := (s.modSp p (SPort.locked rate s.fc)).offerDivider p (4608000 / rate)
  have run : s.lockAuto p rate = offered.event 0x5005 p rate := rfl
  obtain ⟨tunes, -⟩ : (s.modSp p (SPort.locked rate s.fc)).Offers p (4608000 / rate) offered :=
    State.offerDivider_offers ..
  have own : offered.sp p = (s.lockAuto p rate).sp p := by rw [run, State.event_sp]
  have frame : offered = { s with serial := offered.serial } := tunes.rest
  rw [← own]
  refine ⟨?_, ?_, ?_, ?_, ?_⟩
  · exact (tunes.only SPort.line).kept.trans (by rw [State.modSp_own]; rfl)
  · exact (tunes.only SPort.autoRate).kept.trans (by rw [State.modSp_own]; rfl)
  · exact (tunes.only SPort.autoDiv).kept.trans (by rw [State.modSp_own]; rfl)
  · rw [run]
    exact State.event_health_congr _ _ _ (by rw [frame])
  · rw [run, State.event_eq, frame]

theorem State.autoMeasure_of_noDollar (p l1 h1 l2 h2 : Nat) (s : State)
    (idle : (s.sp p).line ≠ 5 ∨ judgeDollar l1 h1 l2 h2 = .noDollar) : s.autoMeasure p l1 h1 l2 h2 = s := by
  unfold State.autoMeasure
  split
  · rfl
  · next measures =>
    rw [idle.resolve_left measures]

theorem State.autoMeasure_of_uncounted (p l1 h1 l2 h2 : Nat) (s : State) (measures : (s.sp p).line = 5)
    (judged : judgeDollar l1 h1 l2 h2 = .uncounted) :
    s.autoMeasure p l1 h1 l2 h2 = s.modSp p (fun x => { x with autoPair := none }) := by
  unfold State.autoMeasure
  rw [if_neg (not_not_intro measures), judged]

theorem State.autoMeasure_of_counted (p l1 h1 l2 h2 r : Nat) (s : State) (measures : (s.sp p).line = 5)
    (judged : judgeDollar l1 h1 l2 h2 = .counted r) :
    s.autoMeasure p l1 h1 l2 h2 =
      if (s.sp p).autoPair = some r then s.lockAuto p r else s.modSp p (fun x => { x with autoPair := some r }) := by
  unfold State.autoMeasure
  rw [if_neg (not_not_intro measures), judged]

/-! ### DIVIDER_WRITE (R131, R264 to R267) -/

/-- An admitted access acts in the state in which it is counted and its client's slot renewed. -/
theorem State.access_of_admitted (who : ClientId) (n index : Nat) (act : Nat → State → Reply × State) (s : State)
    (admitted : Admitted who n index s) :
    s.access who index act = (act n (s.accessed who n)).2.answer who (act n (s.accessed who n)).1 := by
  obtain ⟨serves, slot, here, reaches⟩ := admitted
  let counted := s.stat 0x4870 (pathOf who) 2 1
  have taken : counted.takeSlot who = some (n, s.accessed who n) := by
    have slot : counted.slotOf who = some n := slot
    unfold State.takeSlot
    rw [slot]
    rfl
  have kept : (s.accessed who n).dict.gone.contains who = false := here
  have open_ : ((s.accessed who n).boot.bootRom && !romReaches index) = false := by
    change (s.boot.bootRom && !romReaches index) = false
    cases rom : s.boot.bootRom with
    | false => rfl
    | true => rw [reaches rom]; rfl
  unfold State.access
  dsimp only
  rw [if_pos serves, taken]
  dsimp only
  rw [kept, open_]
  rfl

theorem leNat_leBytes_two (d : BitVec 16) : leNat (leBytes 2 d.toNat) = d.toNat := by
  have bound := d.isLt
  simp only [leBytes, leNat, BitVec.toNat_ofNat]
  omega

/-- The divider of a serial port in its object (Table 6.10). -/
def dividerObj : Obj := ⟨2, 2, .uns 2, .rw, .bnd, 960, rg [(5, 15360)] [], 0⟩

/-- The objects of the serial ports. -/
def serialGroup : Group := ⟨0x2100, 0x2117, none, obj2100⟩

theorem findGroup_serial (p : Fin 24) : findGroup (0x2100 + p.val) = some serialGroup := by
  revert p
  decide +kernel

theorem dividerObj_judge (d : BitVec 16) (low : 5 ≤ d.toNat) (high : d.toNat ≤ 15360) :
    dividerObj.judge (leBytes 2 d.toNat) = .ok (.num d.toNat) := by
  have within : (Rng.among [(5, 15360)] []).refuses (.num d.toNat) = none := by
    have above : (5 : Int) ≤ d.toNat := by omega
    have below : (d.toNat : Int) ≤ 15360 := by omega
    refine if_pos ?_
    change (false || ((decide ((5 : Int) ≤ d.toNat) && decide ((d.toNat : Int) ≤ 15360)) || false)) = true
    rw [decide_eq_true above, decide_eq_true below]
    rfl
  have decoded : dividerObj.ty.decode (leBytes 2 d.toNat) = .num d.toNat := by
    change Val.num (leNat (leBytes 2 d.toNat)) = _
    rw [leNat_leBytes_two]
  have length : ¬ (leBytes 2 d.toNat).length ≠ 2 := not_not_intro rfl
  have real : ¬ (dividerObj.ty = .real32 ∧ finite32 (leNat (leBytes 2 d.toNat)) = false) := fun h => nomatch h.1
  have range : dividerObj.rng.refuses (.num d.toNat) = none := within
  have whole : dividerObj.mask = 0 := rfl
  have size : dividerObj.ty.size = some 2 := rfl
  unfold Obj.judge
  rw [size]
  dsimp only
  rw [if_neg length, if_neg real, decoded, if_pos whole, range]

/-- A divider within its range is a BND value. -/
theorem State.writeObj_divider (n : Nat) (p : Fin 24) (d : BitVec 16) (s : State) (low : 5 ≤ d.toNat) (high : d.toNat ≤ 15360) :
    s.writeObj n (0x2100 + p.val) 2 (leBytes 2 d.toNat) = s.writeBnd ⟨0x2100 + p.val, 2, 0⟩ (.num d.toNat) := by
  have row : s.rowOf n serialGroup (0x2100 + p.val) = 0 := if_neg (by decide)
  have unlocked : ∀ p : Fin 24, lockedRow (0x2100 + p.val) 2 0 = false := by decide
  have line : serialGroup.line 2 = some dividerObj := by decide
  have writable : ¬ (dividerObj.acc = .ro ∨ dividerObj.acc = .const ∨ lockedRow (0x2100 + p.val) 2 0 = true) := by
    rw [unlocked p]
    decide
  have bnd : dividerObj.eff = .bnd := rfl
  unfold State.writeObj
  rw [findGroup_serial]
  dsimp only
  rw [if_neg (by decide), line]
  dsimp only
  rw [row, if_neg writable, dividerObj_judge d low high]
  dsimp only
  rw [bnd]

/-- A unit that is no standby takes a divider for a port that is in no frame mode: its port is offered it. -/
theorem State.writeBnd_divider (p : Fin 24) (d : Nat) (s : State) (joining : s.twin.role ≠ 1) (standby : s.twin.role ≠ 2)
    (taking : s.twin.role ≠ 3) (mode : s.portMode p.val ≠ 3) :
    let k : Key := ⟨0x2100 + p.val, 2, 0⟩
    let t := ({ s with cfg := Cfg.set s.uid k (.num d) s.cfg } : State).writeDivider p.val d
    ∃ w, s.writeBnd k (.num d) = granted { t with twin := w } := by
  intro k t
  have port : 0x2100 + p.val - 0x2100 = p.val := Nat.add_sub_cancel_left ..
  have serial : 0x2100 ≤ 0x2100 + p.val ∧ 0x2100 + p.val ≤ 0x2117 ∧ 2 = 2 := by omega
  have put : s.putBnd k (.num d) = t := by
    unfold State.putBnd
    refine (if_pos serial).trans ?_
    rw [port]
    rfl
  have role : ¬ (s.twin.role = 1 ∨ s.twin.role = 2 ∨ s.twin.role = 3) := by
    rintro (h | h | h)
    · exact joining h
    · exact standby h
    · exact taking h
  have free (x : Prop) : ¬ (0x2100 ≤ k.index ∧ k.index ≤ 0x2117 ∧ s.portMode (k.index - 0x2100) = 3 ∧ x) := by
    rintro ⟨-, -, frame, -⟩
    exact mode (port ▸ frame)
  unfold State.writeBnd
  rw [if_neg role, if_neg (free _), if_neg (free _), put]
  dsimp only
  split
  · exact ⟨_, rfl⟩
  · exact ⟨_, rfl⟩

/-- DIVIDER_WRITE of an admitted client. -/
theorem State.dividerWritten (who : ClientId) (n : Nat) (p : Fin 24) (d : BitVec 16) (s : State)
    (admitted : Admitted who n (0x2100 + p.val) s) (joining : s.twin.role ≠ 1) (standby : s.twin.role ≠ 2)
    (taking : s.twin.role ≠ 3) (mode : s.portMode p.val ≠ 3) (low : 5 ≤ d.toNat) (high : d.toNat ≤ 15360) :
    let t := s.access who (0x2100 + p.val) (fun n s => s.writeObj n (0x2100 + p.val) 2 (leBytes 2 d.toNat))
    t.dict.reply = some (who, .done []) ∧ t.cfg = Cfg.set s.uid ⟨0x2100 + p.val, 2, 0⟩ (.num d.toNat) s.cfg ∧
    (t.sp p.val).autoDiv = none ∧ (t.sp p.val).Offered d.toNat ∧
    t = { s with cfg := t.cfg, serial := t.serial, stats := t.stats, dict := t.dict, twin := t.twin } := by
  intro t
  let found := s.accessed who n
  let k : Key := ⟨0x2100 + p.val, 2, 0⟩
  let put := ({ found with cfg := Cfg.set found.uid k (.num d.toNat) found.cfg } : State).writeDivider p.val d.toNat
  obtain ⟨w, written⟩ := State.writeBnd_divider p d.toNat found joining standby taking mode
  have run : t = { put with twin := w, dict.reply := some (who, .done []) } := by
    unfold t
    rw [State.access_of_admitted who n _ _ s admitted, State.writeObj_divider n p d _ low high, written]
    rfl
  obtain ⟨auto, offered, frame⟩ :=
    State.writeDivider_spec p.val d.toNat ({ found with cfg := Cfg.set found.uid k (.num d.toNat) found.cfg } : State)
  have own : t.sp p.val = put.sp p.val := by rw [run]; rfl
  refine ⟨by rw [run], ?_, by rw [own]; exact auto, by rw [own]; exact offered, ?_⟩
  · rw [run]
    exact congrArg State.cfg frame
  · rw [run]
    dsimp only
    unfold put
    rw [frame]
    rfl

end Sys2Proof.Machine

open Sys2Proof Sys2Proof.Machine

/-- Settles O25: what an operation makes of its port stands but for a pending divider that it takes (`State.takeAtMark_field`), a
divider offered is taken or waits (`State.offerDivider_offers`), and no domain that returns touches the record of the wake
(`State.serialWake_spec`). -/
theorem serialLinesAndDividers : Obligations.SerialLinesAndDividers := by
  refine ⟨?_, ?_⟩
  · intro s dt p u x ev others works
    have run (f : State → State) : (.next (u.whenUp domSerial f) : Host.Outcome State Fault Refusal) = .next (f u) :=
      next_whenUp f works
    refine ⟨fun broken => ⟨_, run _, State.breakEnd_of_break p.val u broken⟩,
      fun whole => (run _).trans (congrArg _ (if_neg whole)),
      fun early => ?_, fun b broken since mode due => ⟨_, run _, State.stuckLow_of_due p.val b u broken since mode due⟩,
      fun b since early => ?_, fun low due => ⟨_, run _, State.stuckProbe_of_due p.val u low due⟩, fun free driven => ?_,
      fun low unset => ⟨_, run _, State.lineRecovered_spec p.val u low unset⟩,
      fun closed => (run _).trans (congrArg _ (if_pos closed)),
      fun startStop unbroken free driven =>
        ⟨_, run _, State.receiveMarkIdle_of_open p.val u startStop unbroken free driven⟩⟩
    · exact (run _).trans (congrArg _ (State.stuckLow_of_early p.val u (early.imp_right .inl)))
    · exact (run _).trans (congrArg _ (State.stuckLow_of_early p.val u (.inr (.inr ⟨b, since, early⟩))))
    · have high : ¬ (x.line = 4 ∨ x.line = 6) := not_or.mpr ⟨free, driven⟩
      exact ⟨(run _).trans (congrArg _ (if_neg fun h => high h.1)), (run _).trans (congrArg _ (if_neg high))⟩
  · intro s dt l1 h1 l2 h2 n r p who d u x
    refine ⟨?_, ?_, ?_, ?_⟩
    · intro admitted joining standby taking mode low high
      obtain ⟨reply, cfg, auto, ⟨tx, rx⟩, frame⟩ := State.dividerWritten who n p d u admitted joining standby taking mode low high
      exact ⟨_, rfl, reply, cfg, auto, tx.symm.imp_left And.right, rx.symm.imp_left And.right, frame⟩
    · intro works
      have run : exec (.autobaudMeasurement dt p l1 h1 l2 h2) s = .next (u.autoMeasure p.val l1 h1 l2 h2) := next_whenUp _ works
      refine ⟨fun idle => ?_, fun measures judged => ?_, fun measures judged => ?_⟩
      · rw [run, State.autoMeasure_of_noDollar p.val l1 h1 l2 h2 u idle]
      · rw [run, State.autoMeasure_of_uncounted p.val l1 h1 l2 h2 u measures judged]
      · have counted := State.autoMeasure_of_counted p.val l1 h1 l2 h2 r u measures judged
        refine ⟨fun first => ?_, fun again => ?_⟩
        · rw [run, counted, if_neg first]
        · rw [if_pos again] at counted
          exact ⟨_, run.trans (congrArg _ counted), State.lockAuto_spec p.val r u⟩
    · intro low allowed source
      obtain ⟨record, hunts⟩ := State.serialWake_spec p u low allowed source
      obtain ⟨state, source, detail, wakes⟩ : _ ∧ _ ∧ _ ∧ _ := by simpa only [State.wakeRecord, Prod.mk.injEq] using record
      exact ⟨_, rfl, state, source, detail, wakes, hunts⟩
    · intro idle
      exact congrArg _ (State.serialWake_of_awake p.val u idle)
end

section
/-! PROOF. The outgoing unit of a handover releases a serial port as soon as nothing is in flight on it (R320): the frame to the
peer has a payload that the manual leaves open, for which a free value is used up. -/

namespace Sys2Proof.Machine

open Sys2Proof

/-- A unit that hands over, with a link to its peer: port S2 sends the last character of its item. -/
def State.sendingLast : State :=
  { State.reset with
    twin := { role := 5, lanes := [(0, true), (1, true)] }
    bramble.listeners :=
      [(2, { inFlight := some { entry := { rcd := {}, seq := 1, cls := 1, order := 0 }, chars := [0x24], sent := 1, line := 0 } })]
    serial := [(2, { line := 1, busy := some 0x24 })] }

/-- A unit that hands over, with a link to its peer: on the frame-mode port S20 no byte has come by the deadline. -/
def State.unanswered : State :=
  { State.reset with
    cfg := [(⟨0x2114, 1, 0⟩, .num 3)]
    twin := { role := 5, lanes := [(0, true), (1, true)] }
    serial := [(20, { line := 1, slot := some { entry := 0, id := 0x10, length := 2, deadline := 0, got := [] } })] }

end Sys2Proof.Machine

open Sys2Proof Sys2Proof.Machine

/-- Refutes O26: where the last character of an item ends on a port that the unit is handing over, the port is released (R320),
and the payload of PORT_RELEASE uses up a free value, of which the statement says that it stays. -/
theorem not_serialTransmitter : ¬ Obligations.SerialTransmitter := by
  intro h
  let u := State.sendingLast.elapse 0
  let i : Item := { entry := { rcd := {}, seq := 1, cls := 1, order := 0 }, chars := [0x24], sent := 1, line := 0 }
  have works : u.works domSerial = true := by decide
  have listener : u.portListener 2 = some 2 := by decide +kernel
  have spent : (u.txDone 2).free = u.free + 1 := by decide +kernel
  obtain ⟨-, -, -, -, -, ends, -⟩ := h State.sendingLast 0 2 2 i 0 [] works listener (by decide)
  obtain ⟨t, run, -, -, -, kept⟩ := (ends 0x24 rfl rfl).2 (by decide) rfl rfl
  have ended : t = u.txDone 2 := (Host.Outcome.next.inj (run.symm.trans (next_whenUp _ works)))
  have same : t.free = u.free := by rw [kept]
  rw [ended, spent] at same
  omega

/-- Refutes O27: where the deadline of a frame without an answer passes on a port that the unit is handing over, the port is
released (R320), and the payload of PORT_RELEASE uses up a free value, of which the statement says that it stays. -/
theorem not_frameMode : ¬ Obligations.FrameMode := by
  intro h
  let u := State.unanswered.elapse 0
  have works : u.works domSerial = true := by decide
  have spent : (u.frameExpiry 20 false).free = u.free + 1 := by decide +kernel
  obtain ⟨-, -, -, deadline, -⟩ :=
    h State.unanswered 0 0 0 false 0 0 { entry := 0, id := 0x10, length := 2, deadline := 0, got := [] } works
  obtain ⟨-, passed⟩ := deadline (by decide) rfl
  obtain ⟨t, run, -, -, kept⟩ := (passed (Nat.zero_le _) rfl rfl).1 rfl rfl
  have ended : t = u.frameExpiry 20 false := (Host.Outcome.next.inj (run.symm.trans (next_whenUp _ works)))
  have same : t.free = u.free := by rw [kept]
  rw [ended, spent] at same
  omega
end

section
/-! PROOF. The end of a classification window, and a conversion of a loop channel (R162, R164, R168): what follows the figures of
a window, or the current of a conversion, in the same command classifies and reports, and leaves them as they are. -/

namespace Sys2Proof.Machine

open Sys2Proof

/-! ### Records made in the device (R65) -/

/-- From `s` to `t` nothing has changed but what a record and a corrected polarity move: no figure of an input, no free value. -/
def State.Reports (s t : State) : Prop :=
  t = { s with serial := t.serial, carding := t.carding, bramble := t.bramble, fabric := t.fabric, stats := t.stats
               wheels := t.wheels, health := t.health }

theorem State.Reports.refl (s : State) : s.Reports s := rfl

theorem State.Reports.trans {s t v : State} (h : s.Reports t) (k : t.Reports v) : s.Reports v := by
  unfold State.Reports at *
  refine k.trans ?_
  rw [h]

theorem State.Reports.event (c a b : Nat) (s : State) : s.Reports (s.event c a b) := by
  unfold State.Reports
  rw [State.event_eq]

theorem State.Reports.pushed {s t : State} (q : Nat) (h : s.Reports t) : s.Reports (t.pushed q) := by
  refine h.trans ?_
  unfold State.Reports
  rw [State.pushed_eq]

theorem State.Reports.stepScore (row : Nat) (d : Int) (s : State) : s.Reports (s.stepScore row d) := by
  unfold State.stepScore
  split <;> rfl

theorem State.Reports.discover (c : Cfg) (port : Nat) (k : SrcKey) (p : WheelPos) (s : State) :
    s.Reports (s.discover c port k p) := by
  unfold State.discover
  split <;> rfl

/-- A record goes to Bramble, and to those that take it beside: the voting engines, the time wheel and SUP. -/
theorem State.Reports.handOn (engine : Nat) (r : FibreRecord) (s : State) : s.Reports (s.handOn engine r) := by
  unfold State.handOn
  extract_lets c _ matched k _ low _ high _ timed
  have toBramble : s.Reports matched := .pushed _ rfl
  have toLow : matched.Reports low := by
    unfold low
    split
    · exact .refl _
    · exact .pushed _ rfl
  have toHigh : low.Reports high := by
    unfold high
    split
    · exact .refl _
    · exact .pushed _ rfl
  have toWheel : high.Reports timed := by
    unfold timed
    split <;> rfl
  have taken : s.Reports timed := toBramble.trans (toLow.trans (toHigh.trans toWheel))
  split
  · exact taken.trans rfl
  · exact taken

theorem State.Reports.reject (i : Intake) (c : Cfg) (row : Option Nat) (reason offset : Nat) (address tag rest : Text)
    (s : State) : s.Reports (s.reject i c row reason offset address tag rest) := by
  unfold State.reject
  extract_lets counted charged
  have charge : s.Reports charged := by
    unfold charged
    split
    · exact .trans (t := counted.modSrc _ _) rfl (.stepScore ..)
    · rfl
  split
  · exact charge.trans (.handOn ..)
  · exact charge

theorem State.Reports.emitRecord (i : Intake) (c : Cfg) (row : Nat) (r : FibreRecord) (s : State) :
    s.Reports (s.emitRecord i c row r) := by
  unfold State.emitRecord
  extract_lets inv counts scored numbered
  have score : s.Reports scored := by
    unfold scored
    split
    · exact .stepScore ..
    · split
      · exact .refl s
      · exact .stepScore ..
  have number : scored.Reports numbered := rfl
  exact (score.trans number).trans (.trans (t := numbered.modSrc row _) rfl (.handOn ..))

theorem State.Reports.accept (i : Intake) (c : Cfg) (row : Nat) (recs : List FibreRecord) (s : State) :
    s.Reports (s.accept i c row recs) := by
  unfold State.accept
  extract_lets counted
  split
  · rfl
  · exact List.foldlRecOn recs _ (show s.Reports (counted.refreshSrc row i.pip) from rfl) fun _ h r _ =>
      h.trans (.emitRecord i c row r _)

theorem State.Reports.acceptLocal (i : Intake) (key : SrcKey) (slots : List (Option Int)) (flags : BitVec 16) (s : State) :
    s.Reports (s.acceptLocal i key slots flags) := by
  unfold State.acceptLocal
  dsimp only
  split
  · exact .trans (.discover ..) (.reject ..)
  · exact .trans (.discover ..) (.accept ..)

theorem State.Reports.polarity (p cls : Nat) (s : State) : s.Reports (s.polarity p cls) := by
  unfold State.polarity
  dsimp only
  split
  · exact .trans (t := State.stat 0x4800 p 0x0B 1 _) rfl (.event ..)
  · exact .refl s

/-! ### Classification (R163, R164) -/

/-- What a window leaves in its pair, beside the classification and what makes it persist. -/
def Pair.figures (x : Pair) : Pair := { x with cls := 0xFF, cand := 0xFF, count := 0, changes := 0, lastRecord := none }

/-- From `s` to `t` pair `p` may have been classified and reported: the figures of its window stand, and no free value is used
up. -/
structure State.Classifies (p : Nat) (s t : State) : Prop where
  figures : (t.pair p).figures = (s.pair p).figures
  rest : t = { s with analog := t.analog, serial := t.serial, carding := t.carding, bramble := t.bramble, fabric := t.fabric
                      stats := t.stats, wheels := t.wheels, health := t.health }

section
variable {p : Nat} {s t v : State}

theorem State.Classifies.refl (s : State) : s.Classifies p s := ⟨rfl, rfl⟩

theorem State.Classifies.trans (h : s.Classifies p t) (k : t.Classifies p v) : s.Classifies p v := by
  refine ⟨k.figures.trans h.figures, k.rest.trans ?_⟩
  rw [h.rest]

theorem State.Reports.classifies (h : s.Reports t) : s.Classifies p t := by
  unfold State.Reports at h
  refine ⟨?_, ?_⟩ <;> rw [h]
  rfl

theorem State.Classifies.modPair (f : Pair → Pair) (keeps : ∀ x, (f x).figures = x.figures) :
    s.Classifies p (s.modPair p f) := by
  refine ⟨?_, rfl⟩
  rw [State.pair_modPair, if_pos rfl, keeps]

end

theorem State.Classifies.pairRecord (p : Nat) (s : State) : s.Classifies p (s.pairRecord p) := by
  have noted : s.Classifies p (s.modPair p (fun x => { x with lastRecord := some s.fc })) := .modPair _ fun _ => rfl
  unfold State.pairRecord
  dsimp only
  split
  · exact noted
  · exact noted.trans (State.Reports.acceptLocal ..).classifies

theorem State.Classifies.takeVerdict (p v : Nat) (s : State) : s.Classifies p (s.takeVerdict p v) := by
  unfold State.takeVerdict
  extract_lets x n moved changed
  split
  · exact .modPair _ fun _ => rfl
  · have move : s.Classifies p moved := .modPair _ fun _ => rfl
    split
    · exact move
    · have change : moved.Classifies p changed := .modPair _ fun _ => rfl
      have event := (State.Reports.event 0x6001 p (pack16 x.cls v) changed).classifies (p := p)
      exact (move.trans (change.trans event)).trans (.trans (.pairRecord ..) (State.Reports.polarity ..).classifies)

/-! ### CLASSIFICATION_WINDOW_END (R162) -/

/-- The end of the window of pair `p` that runs, in fabric cycles. -/
def State.windowDue (s : State) (p : Nat) : Nat := (s.pair p).windowAt + msCycles (s.cn 0x2180 4 0)

/-- The next window of pair `p` begins where the one that runs ends. -/
def State.nextWindow (p : Nat) (s : State) : State := s.modPair p (fun x => { x with windowAt := s.windowDue p })

/-- The port of a pair measures the runs on its line: a receive pair, on a start-stop or synchronous port. -/
def State.measuresRuns (s : State) (p : Nat) : Prop := s.cn 0x2181 2 p = 1 ∧ (s.portMode p = 1 ∨ s.portMode p = 2)

theorem State.windowEnd_of_closed (p : Nat) (o : WindowObs) (s : State)
    (closed : s.cn 0x2180 1 0 = 0 ∨ s.cn 0x2181 2 p = 0 ∨ s.fc < s.windowDue p) : s.windowEnd p o = s := if_pos closed

/-- After the figures of a window that is due, its end classifies and reports alone. -/
theorem State.windowEnd_of_due (p : Nat) (o : WindowObs) (s : State) (scan : s.cn 0x2180 1 0 ≠ 0) (kind : s.cn 0x2181 2 p ≠ 0)
    (due : s.windowDue p ≤ s.fc) : ((s.nextWindow p).windowFigures p o).Classifies p (s.windowEnd p o) := by
  unfold State.windowEnd
  extract_lets _ ends measured verdict judged
  have falls : ¬ (s.cn 0x2180 1 0 = 0 ∨ s.cn 0x2181 2 p = 0 ∨ s.fc < ends) :=
    not_or.mpr ⟨scan, not_or.mpr ⟨kind, Nat.not_lt.mpr due⟩⟩
  rw [if_neg falls]
  have judge : measured.Classifies p judged := by
    unfold judged
    cases verdict with
    | some v => exact .takeVerdict ..
    | none => exact .refl _
  split
  · exact judge.trans (.pairRecord ..)
  · exact judge

theorem State.spend_pair (b : Bool) (p : Nat) (s : State) : (s.spend b).pair p = s.pair p := by
  cases b <;> rfl

theorem State.spend_eq (b : Bool) (s : State) : s.spend b = { s with free := (s.spend b).free } := by
  cases b <;> rfl

theorem State.spend_spend_free (b : Bool) (s : State) : ((s.spend b).spend b).free = s.free + if b then 2 else 0 := by
  cases b <;> rfl

/-- The figures of a window: the run lengths where the port measures them, the means where there is a sample, and two free values
in their place where there is none. -/
theorem State.windowFigures_spec (p : Nat) (o : WindowObs) (s : State) :
    let t := s.windowFigures p o
    let x := t.pair p
    x.windowAt = (s.pair p).windowAt ∧
    (s.measuresRuns p → x.longHigh = o.longHigh ∧ x.longLow = o.longLow) ∧
    (¬ s.measuresRuns p → x.longHigh = 0 ∧ x.longLow = 0) ∧ x.complete = true ∧
    x.least = s.diffMv o.minD ∧ x.greatest = s.diffMv o.maxD ∧
    (o.count ≠ 0 → t.free = s.free ∧ x.a = s.lineMv ((o.sumA : Rat) / (o.count : Rat)) ∧
      x.b = s.lineMv ((o.sumB : Rat) / (o.count : Rat))) ∧
    (o.count = 0 → t.free = s.free + 2) ∧ t = { s with analog := t.analog, free := t.free } := by
  unfold State.windowFigures
  extract_lets mean runs empty t x
  have own : x = _ := ((State.spend_pair ..).trans (State.spend_pair ..)).trans ((State.pair_modPair ..).trans (if_pos rfl))
  have measured : runs = true ↔ s.measuresRuns p := by simp [runs, State.measuresRuns]
  have free : t.free = s.free + if empty then 2 else 0 := State.spend_spend_free ..
  rw [own]
  refine ⟨rfl, fun yes => ⟨if_pos (measured.mpr yes), if_pos (measured.mpr yes)⟩,
    fun no => ⟨if_neg (mt measured.mp no), if_neg (mt measured.mp no)⟩, rfl, rfl, rfl,
    fun sampled => ?_, fun unsampled => ?_, ?_⟩
  · have unspent : empty = false := decide_eq_false sampled
    have mean_eq : ∀ sum v, mean sum v = v.lineMv ((sum : Rat) / (o.count : Rat)) := fun _ _ => if_neg sampled
    dsimp only
    rw [free, mean_eq, mean_eq, unspent]
    exact ⟨rfl, rfl, rfl⟩
  · rw [free, if_pos (decide_eq_true unsampled)]
  · unfold t
    rw [State.spend_eq, State.spend_eq]
    rfl

/-! ### LOOP_CONVERSION (R167 to R169) -/

/-- From `s` to `t` channel `ch` may have been given a fault code: what its conversions have measured stands. -/
structure State.Grades (ch : Nat) (s t : State) : Prop where
  current : (t.chan ch).f = (s.chan ch).f
  conversions : (t.chan ch).convs = (s.chan ch).convs
  rest : t = { s with analog := t.analog, health := t.health }

section
variable {ch : Nat} {s t v : State}

theorem State.Grades.trans (h : s.Grades ch t) (k : t.Grades ch v) : s.Grades ch v := by
  refine ⟨k.current.trans h.current, k.conversions.trans h.conversions, k.rest.trans ?_⟩
  rw [h.rest]

theorem State.Grades.modChan (f : Chan → Chan) (current : ∀ x, (f x).f = x.f) (conversions : ∀ x, (f x).convs = x.convs) :
    s.Grades ch (s.modChan ch f) := by
  have own : (s.modChan ch f).chan ch = f (s.chan ch) := (State.chan_modChan ..).trans (if_pos rfl)
  exact ⟨by rw [own, current], by rw [own, conversions], rfl⟩

theorem State.Grades.of_health (h : t = { s with health := t.health }) : s.Grades ch t := by
  refine ⟨?_, ?_, ?_⟩ <;> rw [h] <;> rfl

end

theorem State.Grades.refChange (ch : Nat) (before : Bool) (s : State) : s.Grades ch (s.refChange before) := by
  apply State.Grades.of_health
  unfold State.refChange
  split
  · rfl
  · split
    · obtain ⟨_, -, -, -, -, h⟩ | ⟨-, h⟩ := State.raiseKind_eq 3 0 0x6003 0 0 s <;> rw [State.endAlert, h]
    · rw [State.event_eq]

theorem State.Grades.setLoopCode (ch code : Nat) (s : State) : s.Grades ch (s.setLoopCode ch code) := by
  have put : s.Grades ch (s.putLoopCode ch code) := by
    unfold State.putLoopCode
    refine .trans ?_ (.of_health (State.event_eq ..))
    exact .modChan _ (fun _ => rfl) fun _ => rfl
  exact put.trans (.refChange ..)

theorem State.loopConversion_of_disabled (ch : Nat) (code : BitVec 24) (refMv : Nat) (s : State)
    (off : s.cn 0x2191 2 ch = 0) : s.loopConversion ch code refMv = s := if_pos off

/-- The current of a code at a channel, unfiltered (R167). -/
def State.currentOf (s : State) (ch : Nat) (code : BitVec 24) : Rat :=
  (loopCurrent code.toInt (s.cn 0x2191 5 ch) (s.cr 0x2191 6 ch) (s.ci 0x2191 7 ch) : Rat)

/-- A channel after a conversion without a filter. -/
def Chan.converted (i : Rat) (x : Chan) : Chan := { x with f := i, convs := Nat.min 3 (x.convs + 1) }

/-- Where the filter is off, a conversion is its current, and then gives a fault code alone. -/
theorem State.loopConversion_of_unfiltered (ch : Nat) (code : BitVec 24) (refMv : Nat) (s : State)
    (on : s.cn 0x2191 2 ch ≠ 0) (unfiltered : s.cn 0x2191 8 ch = 0) :
    (s.modChan ch (Chan.converted (s.currentOf ch code))).Grades ch (s.loopConversion ch code refMv) := by
  unfold State.loopConversion
  rw [if_neg on]
  extract_lets c kind rate tau i k converted x seen v need n
  have full : k = 1 := if_pos unfiltered
  have whole (f : Rat) : f + ((i : Rat) - f) * 1 = (i : Rat) := by
    rw [Rat.mul_one, Rat.add_comm, Rat.sub_add_cancel]
  have filtered : converted = s.modChan ch (Chan.converted (s.currentOf ch code)) := by
    unfold converted
    rw [full]
    simp only [whole]
    rfl
  rw [← filtered]
  split
  · exact .modChan _ (fun _ => rfl) fun _ => rfl
  · split
    · exact .setLoopCode ..
    · exact .modChan _ (fun _ => rfl) fun _ => rfl

end Sys2Proof.Machine

open Sys2Proof Sys2Proof.Machine

/-- Settles O22: after the figures of a window (`State.windowFigures_spec`) its end only classifies and reports
(`State.windowEnd_of_due`), and after the current of a conversion its command only gives a fault code
(`State.loopConversion_of_unfiltered`). -/
theorem windowAndConversion : Obligations.WindowAndConversion := by
  intro s dt refMv p o ch code u due runs works
  have run (f : State → State) : (.next (u.whenUp domAfe f) : Host.Outcome State Fault Refusal) = .next (f u) :=
    next_whenUp f works
  refine ⟨fun scan kind ends => ?_, fun closed => (run _).trans (congrArg _ (State.windowEnd_of_closed p.val o u closed)),
    fun off => (run _).trans (congrArg _ (State.loopConversion_of_disabled ch.val code refMv u off)),
    fun on unfiltered => ?_⟩
  · let v := u.nextWindow p.val
    obtain ⟨begins, measured, unmeasured, complete, least, greatest, sampled, unsampled, rest⟩ :=
      State.windowFigures_spec p.val o v
    have classified := State.windowEnd_of_due p.val o u scan kind ends
    have next : (v.pair p.val).windowAt = due := congrArg Pair.windowAt ((State.pair_modPair ..).trans (if_pos rfl))
    have stays {α : Type} (k : Pair → α) := congrArg k classified.figures
    have free : (u.windowEnd p.val o).free = (v.windowFigures p.val o).free := by rw [classified.rest]
    refine ⟨_, run _, (stays Pair.windowAt).trans (begins.trans next),
      fun h => ⟨(stays Pair.longHigh).trans (measured h).1, (stays Pair.longLow).trans (measured h).2⟩,
      fun h => ⟨(stays Pair.longHigh).trans (unmeasured h).1, (stays Pair.longLow).trans (unmeasured h).2⟩,
      (stays Pair.complete).trans complete, (stays Pair.least).trans least, (stays Pair.greatest).trans greatest,
      fun h => ?_, fun h => free.trans (unsampled h), ?_⟩
    · obtain ⟨unspent, a, b⟩ := sampled h
      exact ⟨free.trans unspent, (stays Pair.a).trans a, (stays Pair.b).trans b⟩
    · rw [classified.rest, rest]
      rfl
  · have graded := State.loopConversion_of_unfiltered ch.val code refMv u on unfiltered
    have own : (u.modChan ch.val (Chan.converted (u.currentOf ch.val code))).chan ch.val =
      (u.chan ch.val).converted (u.currentOf ch.val code) := (State.chan_modChan ..).trans (if_pos rfl)
    exact ⟨_, run _, graded.current.trans (congrArg Chan.f own), graded.conversions.trans (congrArg Chan.convs own),
      graded.rest⟩
end

section
/-! PROOF. The faults of the queue fabric (R231 to R235, R239): a stalled queue resets its consumer's domain, the scrubber goes
through queue memory word by word, a crossing that does not settle is counted, and an external clock stands or runs. -/

namespace Sys2Proof.Machine

open Sys2Proof

/-! ### The watch (R231) -/

/-- An event is the same whatever the fabric, the serial ports and the statistics. -/
theorem State.event_health_of_flow {s t : State} (c a b : Nat)
    (h : t = { s with fabric := t.fabric, serial := t.serial, stats := t.stats }) :
    (t.event c a b).health = (s.event c a b).health := by
  have raised : ∀ kind astate (x : Fabric),
      (({ s with fabric := x } : State).raiseKind kind astate c a b).health = (s.raiseKind kind astate c a b).health := by
    intro kind astate x
    unfold State.raiseKind
    dsimp only
    rw [apply_ite State.health, apply_ite State.health]
    rfl
  have same : (({ s with fabric := t.fabric } : State).event c a b).health = (s.event c a b).health := by
    unfold State.event
    split
    · exact raised 0 0 _
    · exact raised 1 1 _
  exact (State.event_health_congr (s := { s with fabric := t.fabric }) c a b h).trans same

theorem State.dom_congr {s t : State} (d : Nat) (h : t.power = s.power) : t.dom d = s.dom d :=
  congrArg (fun p => (Tbl.get {} d p.doms).state) h

theorem State.dom_modDom (d k : Nat) (f : Dom → Dom) (s : State) :
    (s.modDom k f).dom d = if d = k then (f (Tbl.get {} k s.power.doms)).state else s.dom d :=
  (congrArg Dom.state (Tbl.get_mod ..)).trans (apply_ite ..)

/-- From `s` to `t` sides of queues have entered reset: a consumer that was reset stays so (R243), and what the watch has found
stands. -/
structure State.Marks (s t : State) : Prop where
  tripped : ∀ q, (t.que q).tripped = (s.que q).tripped
  consumer : ∀ q, (s.que q).wasReset = some .consumer → (t.que q).wasReset = some .consumer
  rest : t = { s with fabric := t.fabric }

theorem State.Marks.refl (s : State) : s.Marks s := ⟨fun _ => rfl, fun _ => id, rfl⟩

theorem State.Marks.trans {s t v : State} (h : s.Marks t) (k : t.Marks v) : s.Marks v := by
  refine ⟨fun q => (k.tripped q).trans (h.tripped q), fun q was => k.consumer q (h.consumer q was), k.rest.trans ?_⟩
  rw [h.rest]

theorem State.que_markEnd (k q : Nat) (side : Side) (s : State) :
    ((s.markEnd q side).que k).tripped = (s.que k).tripped ∧
    ((s.markEnd q side).que k).wasReset = if k = q then
      (if side = .consumer ∨ (s.que q).wasReset = some .consumer then some .consumer else some .producer)
      else (s.que k).wasReset := by
  unfold State.markEnd
  rw [State.que_modQue]
  split
  · next same => exact ⟨by rw [same], rfl⟩
  · exact ⟨rfl, rfl⟩

theorem State.Marks.markEnd (q : Nat) (side : Side) (s : State) : s.Marks (s.markEnd q side) := by
  refine ⟨fun k => (State.que_markEnd k q side s).1, fun k was => (State.que_markEnd k q side s).2.trans ?_, rfl⟩
  split
  · next same => exact if_pos (.inr (same ▸ was))
  · exact was

theorem State.Marks.markEnds (d : Nat) (s : State) : s.Marks (s.markEnds d) := by
  refine List.foldlRecOn (motive := s.Marks) _ _ (.refl s) fun t h q _ => h.trans ?_
  split
  · split
    · exact .markEnd ..
    · split
      · exact .markEnd ..
      · exact .refl _
  · exact .refl _

/-- What a domain of the engines loses as it enters reset is part of its own block, and of CAN messages partly taken. -/
theorem State.domainLoses_of_engine (d : Nat) (s : State) (low : 3 ≤ d) (high : d ≤ 6) :
    s.domainLoses d = { s with carding := (s.domainLoses d).carding, can := (s.domainLoses d).can
                               bramble := (s.domainLoses d).bramble, control := (s.domainLoses d).control } := by
  have card (d : Nat) : s.cardEnter d = { s with carding := (s.cardEnter d).carding, can := (s.cardEnter d).can } := by
    unfold State.cardEnter
    dsimp only
    split <;> rfl
  obtain rfl | rfl | rfl | rfl : d = 3 ∨ d = 4 ∨ d = 5 ∨ d = 6 := by omega
  · exact card 3
  · exact card 4
  · rfl
  · rfl

theorem State.resetDomain_of_block (d : Nat) (s : State) (ao : d ≠ domAo) (sup : d ≠ domSup) :
    s.resetDomain d = s.enterReset d := by
  unfold State.resetDomain
  rw [if_neg ao]
  split
  · next stands => exact (if_pos stands).symm
  · exact if_neg fun h => sup h.1

/-- An engine domain that runs is reset: its block loses what it holds, and the ends of its queues are marked. -/
theorem State.resetDomain_of_engine (d : Nat) (s : State) (low : 3 ≤ d) (high : d ≤ 6) (runs : s.up d = true) :
    let t := s.resetDomain d
    t.dom d = 2 ∧ (∀ k, k ≠ d → t.dom k = s.dom k) ∧ (∀ q, (t.que q).tripped = (s.que q).tripped) ∧
    (∀ q, (s.que q).wasReset = some .consumer → (t.que q).wasReset = some .consumer) ∧
    t = { s with fabric := t.fabric, power := t.power, carding := t.carding, can := t.can, bramble := t.bramble
                 control := t.control } := by
  let lost := s.domainLoses d
  let stopped := lost.modDom d (fun x => { x with state := 2, resets := x.resets + 1 })
  have entered : s.resetDomain d = stopped.markEnds d := by
    have ao : d ≠ domAo := by unfold domAo; omega
    have sup : d ≠ domSup := by unfold domSup; omega
    rw [State.resetDomain_of_block d s ao sup]
    exact if_neg fun still => still (eq_of_beq runs)
  have block : lost = { s with carding := lost.carding, can := lost.can, bramble := lost.bramble, control := lost.control } :=
    State.domainLoses_of_engine d s low high
  clear_value lost
  have queues : ∀ q, stopped.que q = s.que q := fun q => by
    change lost.que q = _
    rw [block]
    rfl
  have marks := State.Marks.markEnds d stopped
  have doms : ∀ k, (stopped.markEnds d).dom k = stopped.dom k := fun k => State.dom_congr k (by rw [marks.rest])
  dsimp only
  rw [entered]
  refine ⟨?_, fun k other => ?_, fun q => ?_, fun q was => ?_, ?_⟩
  · rw [doms, State.dom_modDom, if_pos rfl]
  · rw [doms, State.dom_modDom, if_neg other, block]
    rfl
  · rw [marks.tripped, queues]
  · exact marks.consumer q ((congrArg Queue.wasReset (queues q)).trans was)
  · rw [marks.rest]
    generalize (stopped.markEnds d).fabric = fabric
    unfold stopped
    rw [block]
    rfl

theorem State.stall_of_unwatched (q : Nat) (s : State)
    (idle : (s.que q).since = none ∨ s.visible q = 0 ∨ watchedQueue q = false) : s.stall q = s := by
  unfold State.stall
  split
  · next since =>
    refine if_pos ?_
    rcases idle with none | empty | unwatched
    · exact nomatch none.symm.trans since
    · exact .inr (.inr (.inl empty))
    · exact .inl unwatched
  · rfl

theorem State.stall_of_early (q t : Nat) (s : State) (since : (s.que q).since = some t)
    (early : s.fc - t < msCycles (s.cn 0x5818 8 q)) : s.stall q = s := by
  unfold State.stall
  split
  · next since' =>
    obtain rfl : t = _ := Option.some.inj (since.symm.trans since')
    exact if_pos (.inr (.inr (.inr (.inr early))))
  · rfl

/-- The read pointer of a queue is found at rest: counted, noted with the queue, and its consumer rule applies (R231, R243). -/
def State.trip (q : Nat) (s : State) : State :=
  ((s.stat 0x4850 q 8 1).modQue q (fun x => { x with tripped := true })).markEnd q .consumer

theorem State.stall_of_rested (q p c t : Nat) (s : State) (since : (s.que q).since = some t)
    (rested : msCycles (s.cn 0x5818 8 q) ≤ s.fc - t) (ends : queueEnds q = some (p, c)) (low : 3 ≤ c) (high : c ≤ 6)
    (runs : s.up c = true) (holds : s.visible q ≠ 0) (credit : s.creditFor q = true) :
    s.stall q = ((s.trip q).event 0x9001 q c).resetDomain c := by
  have watched : watchedQueue q = true := by
    unfold watchedQueue
    rw [ends]
    exact decide_eq_true (by omega)
  unfold State.stall
  rw [ends, since]
  dsimp only
  rw [if_neg (by simp [watched, runs, holds, credit, rested]), if_neg (by unfold domSup; omega)]
  rfl

theorem State.que_trip (q : Nat) (s : State) :
    ((s.trip q).que q).tripped = true ∧ ((s.trip q).que q).wasReset = some .consumer := by
  unfold State.trip
  obtain ⟨tripped, was⟩ := State.que_markEnd q q .consumer
    ((s.stat 0x4850 q 8 1).modQue q (fun x => { x with tripped := true }))
  rw [State.que_modQue, if_pos rfl] at tripped
  exact ⟨tripped, was.trans (if_pos rfl)⟩

/-! ### The scrubber (R234) -/

theorem State.scrubDue_iff (a : BitVec 24) (s : State) : s.scrubDue a = true ↔
    a.toNat / 16 = s.fabric.scrubAt ∧ (s.fabric.scrubAt = 0 → ∀ b, s.fabric.scrubFrom = some b →
      s.cn 0x5810 6 0 * cyclesPerSec ≤ s.fc - b) := by
  have since (b : Nat) : (∀ c, some b = some c → s.cn 0x5810 6 0 * cyclesPerSec ≤ s.fc - c) ↔
      s.cn 0x5810 6 0 * cyclesPerSec ≤ s.fc - b := ⟨fun h => h b rfl, fun h c same => Option.some.inj same ▸ h⟩
  unfold State.scrubDue
  rw [Bool.and_eq_true, Bool.or_eq_true, decide_eq_true_iff, decide_eq_true_iff]
  refine and_congr_right fun _ => ?_
  rw [← Decidable.imp_iff_not_or]
  refine imp_congr_right fun _ => ?_
  cases s.fabric.scrubFrom with
  | none => exact ⟨fun _ _ h => (nomatch h), fun _ => rfl⟩
  | some b => rw [since b, decide_eq_true_iff]

/-- The scrubber goes on to the next word; the last one ends a pass, and the first one begins it. -/
def State.nextWord (s : State) : State :=
  let next := if s.fabric.scrubAt = 2 ^ 20 - 1 then 0 else s.fabric.scrubAt + 1
  { s with
    fabric.scrubAt := next, fabric.scrubPasses := if next = 0 then s.fabric.scrubPasses + 1 else s.fabric.scrubPasses
    fabric.scrubFrom := if s.fabric.scrubAt = 0 then some s.fc else s.fabric.scrubFrom }

theorem State.nextWord_of_last (s : State) (last : s.fabric.scrubAt + 1 = queueMemory / 16) :
    s.nextWord = { s with fabric.scrubAt := 0, fabric.scrubPasses := s.fabric.scrubPasses + 1
                          fabric.scrubFrom := if s.fabric.scrubAt = 0 then some s.fc else s.fabric.scrubFrom } := by
  have at_ : s.fabric.scrubAt = 2 ^ 20 - 1 := Nat.eq_sub_of_add_eq last
  unfold State.nextWord
  rw [if_pos at_]
  rfl

theorem State.nextWord_of_inner (s : State) (inner : s.fabric.scrubAt + 1 ≠ queueMemory / 16) :
    s.nextWord = { s with fabric.scrubAt := s.fabric.scrubAt + 1
                          fabric.scrubFrom := if s.fabric.scrubAt = 0 then some s.fc else s.fabric.scrubFrom } := by
  have at_ : s.fabric.scrubAt ≠ 2 ^ 20 - 1 := fun h => inner (congrArg (· + 1) h)
  unfold State.nextWord
  rw [if_neg at_]
  rfl

/-- What a word holds does not bear on where the scrubber stands. -/
theorem State.scrubWord_place (a : BitVec 24) (e : Ecc) (live : Bool) (s : State) :
    (s.scrubWord a e live).fc = s.fc ∧ (s.scrubWord a e live).fabric.scrubAt = s.fabric.scrubAt ∧
    (s.scrubWord a e live).fabric.scrubFrom = s.fabric.scrubFrom := by
  unfold State.scrubWord
  split
  · exact ⟨rfl, rfl, rfl⟩
  · exact ⟨rfl, rfl, rfl⟩
  · split
    · exact ⟨rfl, rfl, rfl⟩
    · unfold State.uncorrectable
      rw [State.event_eq]
      exact ⟨rfl, rfl, rfl⟩

theorem State.scrub_of_not_due (a : BitVec 24) (e : Ecc) (live : Bool) (s : State) (not_due : s.scrubDue a = false) :
    s.scrub a e live = s := if_pos not_due

theorem State.scrub_of_due (a : BitVec 24) (e : Ecc) (live : Bool) (s : State) (due : s.scrubDue a = true) :
    s.scrub a e live = (s.scrubWord a e live).nextWord := by
  obtain ⟨moment, word, pass⟩ := State.scrubWord_place a e live s
  unfold State.scrub
  rw [if_neg (by rw [due]; decide)]
  dsimp only
  split
  · next last => rw [State.nextWord_of_last _ last, word, pass, moment]
  · next inner => rw [State.nextWord_of_inner _ inner, word, pass, moment]

theorem State.corrected_spec (a : BitVec 24) (s : State) :
    let t := s.corrected a.toNat
    t.fabric.corrected = s.fabric.corrected + 1 ∧ t.fabric.lastAddr = a.toNat ∧ t.fabric.lastKind = 1 ∧
    Tbl.get 0 (bankOf a.toNat) t.fabric.bankCorr = Tbl.get 0 (bankOf a.toNat) s.fabric.bankCorr + 1 :=
  ⟨rfl, Nat.mod_eq_of_lt a.isLt, rfl,
    (Tbl.get_mod 0 _ _ (fun x => x + 1) s.fabric.bankCorr).trans (if_pos rfl)⟩

theorem State.uncorrectable_spec (a : BitVec 24) (s : State) :
    let t := s.uncorrectable a.toNat
    t.fabric.uncorrectable = s.fabric.uncorrectable + 1 ∧ t.fabric.lastAddr = a.toNat ∧ t.fabric.lastKind = 2 ∧
    Tbl.get 0 (bankOf a.toNat) t.fabric.bankUnc = Tbl.get 0 (bankOf a.toNat) s.fabric.bankUnc + 1 ∧
    t.health = (s.event 0x9002 (bankOf a.toNat) a.toNat).health ∧
    t = { s with health := t.health, fabric := { s.fabric with
      uncorrectable := t.fabric.uncorrectable, bankUnc := t.fabric.bankUnc, lastAddr := t.fabric.lastAddr
      lastKind := t.fabric.lastKind } } := by
  have whole : a.toNat % 2 ^ 24 = a.toNat := Nat.mod_eq_of_lt a.isLt
  unfold State.uncorrectable
  rw [whole]
  dsimp only
  refine ⟨?_, ?_, ?_, ?_, State.event_health_of_flow _ _ _ rfl, ?_⟩
  · rw [State.event_fabric]
  · rw [State.event_fabric]
  · rw [State.event_fabric]
  · rw [State.event_fabric]
    exact (Tbl.get_mod 0 _ _ (fun x => x + 1) s.fabric.bankUnc).trans (if_pos rfl)
  · rw [State.event_eq]

/-! ### Crossings and external clocks (R235, R239) -/

theorem mem_stopped_without (j k : ExtClock) (l : List ExtClock) : j ∈ l.filter (fun c => c != k) ↔ j ≠ k ∧ j ∈ l := by
  rw [List.mem_filter, bne_iff_ne, and_comm]

theorem mem_stopped_with (j k : ExtClock) (l : List ExtClock) :
    j ∈ l.filter (fun c => c != k) ++ [k] ↔ j = k ∨ j ∈ l := by
  rw [List.mem_append, mem_stopped_without, List.mem_singleton]
  by_cases same : j = k <;> simp [same]

theorem State.notSettled_spec (x : BitVec 16) (s : State) :
    let t := s.notSettled x
    t.fabric.unsettled = s.fabric.unsettled + 1 ∧ t.fabric.lastUnsettled = x.toNat ∧
    t.health = (s.event 0x9006 x.toNat (s.fabric.unsettled + 1).toNat).health ∧
    t = { s with fabric := t.fabric, health := t.health } := by
  unfold State.notSettled
  dsimp only
  refine ⟨?_, ?_, State.event_health_of_flow _ _ _ rfl, ?_⟩
  · rw [State.event_fabric]
  · rw [State.event_fabric]
  · rw [State.event_eq]

end Sys2Proof.Machine

open Sys2Proof Sys2Proof.Machine

/-- Settles O39: a queue whose read pointer has rested too long trips and resets its consumer's domain
(`State.stall_of_rested`, `State.resetDomain_of_engine`), a word that is due is one step of the scrubber after what is found in it
(`State.scrub_of_due`), and a word that is not, or a queue that has not rested, changes nothing. -/
theorem fabricFaults : Obligations.FabricFaults := by
  intro s dt p c t0 q a live x k u limit due next v
  refine ⟨fun works => ?_, ?_, ?_⟩
  · have run (f : State → State) : (.next (u.whenUp domFabric f) : Host.Outcome State Fault Refusal) = .next (f u) :=
      next_whenUp f works
    have word (e : Ecc) (live : Bool) (is_due : due) :
        exec (.scrubRead dt a e live) s = .next (u.scrubWord a e live).nextWord :=
      (run _).trans (congrArg _ (State.scrub_of_due a e live u ((State.scrubDue_iff a u).mpr is_due)))
    refine ⟨fun idle => (run _).trans (congrArg _ (State.stall_of_unwatched q.val u idle)),
      fun since early => (run _).trans (congrArg _ (State.stall_of_early q.val t0 u since early)),
      fun since rested ends low high runs holds credit => ?_, fun not_due e => ?_, fun is_due => ?_, ?_⟩
    · let told := (u.trip q.val).event 0x9001 q.val c
      have event : told = { u.trip q.val with health := told.health } := State.event_eq ..
      have frame : told = { u with fabric := told.fabric, stats := told.stats, health := told.health } := by rw [event]; rfl
      have doms : ∀ d, told.dom d = u.dom d := fun d => by rw [frame]; rfl
      have queue : told.que q.val = (u.trip q.val).que q.val := by rw [event]; rfl
      obtain ⟨tripped, was⟩ := State.que_trip q.val u
      obtain ⟨down, others, stands, consumer, rest⟩ :=
        State.resetDomain_of_engine c told low high ((State.event_up ..).trans runs)
      refine ⟨told.resetDomain c,
        (run _).trans (congrArg _ (State.stall_of_rested q.val p c t0 u since rested ends low high runs holds credit)),
        down, fun d other => (others d other).trans (doms d), ?_, consumer q.val ?_, ?_, ?_, ?_⟩
      · rw [stands, queue, tripped]
      · rw [queue, was]
      · rw [rest, event]
        rfl
      · rw [rest]
        exact State.event_health_of_flow _ _ _ rfl
      · rw [rest, frame]
    · have later : u.scrubDue a = false := Bool.eq_false_iff.mpr fun h => not_due ((State.scrubDue_iff a u).mp h)
      exact (run _).trans (congrArg _ (State.scrub_of_not_due a e live u later))
    · refine ⟨word .clean live is_due, word .double true is_due, ⟨_, word .single live is_due, ?_⟩,
        ⟨_, word .double false is_due, ?_⟩⟩
      · obtain ⟨count, addr, kind, bank⟩ := State.corrected_spec a u
        exact ⟨count, addr, kind, bank, rfl⟩
      · obtain ⟨count, addr, kind, bank, health, rest⟩ := State.uncorrectable_spec a u
        refine ⟨count, addr, kind, bank, health, ?_⟩
        change (u.uncorrectable a.toNat).nextWord = _
        rw [rest]
        rfl
    · exact ⟨_, run _, State.notSettled_spec x u⟩
  · exact ⟨_, rfl, fun j => mem_stopped_with j k _, rfl⟩
  · exact ⟨_, rfl, fun j => mem_stopped_without j k _, rfl⟩
end

section
/-! PROOF. The realignment of a queue in four phases (R242, R243, Table 10.5). Packets that move leave alone where the exchange of
every queue stands, and the count of realignments: so do the frames that SUP puts in its own queues after one. -/

namespace Sys2Proof.Machine

open Sys2Proof

/-! ### Where the exchange of a queue stands -/

/-- Where the realignment of a queue stands, and how many it has had (0x4850:07). -/
structure Standing where
  wasReset : Option Side
  both : Bool
  phase : Nat
  realigned : Nat

/-- Where the realignment of queue `q` stands. -/
def State.standing (q : Nat) (s : State) : Standing :=
  let x := s.que q
  { wasReset := x.wasReset, both := x.both, phase := x.phase, realigned := s.statOf 0x4850 q 7 }

/-- A queue without what moves with its packets. -/
def Queue.exchange (x : Queue) : Queue := { x with underrun := false, since := none, read := 0, frozen := 0, notices := 0, taken := 0 }

theorem State.standing_congr {s t : State} (q : Nat) (queue : (t.que q).exchange = (s.que q).exchange)
    (count : t.statOf 0x4850 q 7 = s.statOf 0x4850 q 7) : t.standing q = s.standing q := by
  unfold State.standing
  dsimp only
  rw [count]
  have same := congrArg (fun x : Queue => Standing.mk x.wasReset x.both x.phase (s.statOf 0x4850 q 7)) queue
  exact same

theorem State.admits_of_standing {q n : Nat} {s : State} (h : s.standing q = ⟨none, false, 0, n⟩) :
    (s.que q).wasReset = none ∧ (s.que q).phase = 0 ∧ (s.que q).both = false ∧ s.admits q = true ∧ s.yields q = true ∧
    s.statOf 0x4850 q 7 = n := by
  obtain ⟨was, both, phase, count⟩ := Standing.mk.inj h
  refine ⟨was, phase, both, ?_, ?_, count⟩
  · unfold State.admits
    rw [was]
    rfl
  · unfold State.yields
    dsimp only
    rw [was, phase]
    rfl

theorem State.modQue_standing (k q : Nat) (f : Queue → Queue) (s : State) (keeps : ∀ x, (f x).exchange = x.exchange) :
    (s.modQue k f).standing q = s.standing q := by
  refine State.standing_congr q ?_ rfl
  rw [State.que_modQue]
  split
  · next same => rw [keeps, same]
  · rfl

/-! ### Packets that move -/

/-- What keys of the table a map keeps, and `k` of every entry, it keeps of what is read from it. -/
theorem Tbl.get_map_keeps {α β : Type} (k : α → β) (d : α) (g : Nat × α → Nat × α) (j : Nat) (t : Tbl α)
    (keys : ∀ e, (g e).1 = e.1) (keeps : ∀ e, k (g e).2 = k e.2) : k (Tbl.get d j (t.map g)) = k (Tbl.get d j t) := by
  induction t with
  | nil => rfl
  | cons e t ih =>
    change k (Tbl.get d j (((g e).1, (g e).2) :: t.map g)) = k (Tbl.get d j ((e.1, e.2) :: t))
    unfold Tbl.get
    rw [keys]
    split
    · exact keeps e
    · split
      · rfl
      · exact ih

/-- A watch that begins anew is all that changes of a queue. -/
theorem State.que_rewatch (qs : List Nat) (k : Nat) (s : State) :
    { (s.rewatch qs).que k with since := (s.que k).since } = s.que k := by
  have rest := Tbl.get_map_keeps (fun x : Queue => { x with since := none }) {}
    (fun x => if qs.contains x.1 && x.2.since.isSome then (x.1, { x.2 with since := some s.fc }) else x) k s.fabric.queues
    (fun e => by dsimp only; split <;> rfl) (fun e => by dsimp only; split <;> rfl)
  exact congrArg (fun x : Queue => { x with since := (s.que k).since }) rest

theorem State.rewatch_standing (qs : List Nat) (q : Nat) (s : State) : (s.rewatch qs).standing q = s.standing q :=
  have same := congrArg Queue.exchange (State.que_rewatch qs q s)
  State.standing_congr q same rfl

theorem State.rewatch_nil (s : State) : s.rewatch [] = s := by
  unfold State.rewatch
  simp

theorem State.notices_queues (q n : Nat) (s : State) (some_ : n ≠ 0) : (s.notices q n).fabric.queues =
    Tbl.mod {} q (fun x => { x with
      notices := (x.notices + n) % 65536
      taken := if s.up ((queueEnds q).getD (0, 0)).2 then (s.que q).notices else (s.que q).taken }) s.fabric.queues := by
  unfold State.notices
  rw [if_neg some_]
  dsimp only
  rw [apply_ite State.fabric, apply_ite Fabric.queues]
  exact ite_self _

theorem State.que_notices (q n k : Nat) (s : State) : ((s.notices q n).que k).exchange = (s.que k).exchange ∧
    (k ≠ q → (s.notices q n).que k = s.que k) := by
  by_cases none : n = 0
  · rw [none]
    exact ⟨rfl, fun _ => rfl⟩
  · unfold State.que
    rw [State.notices_queues q n s none, Tbl.get_mod]
    split
    · next same => exact ⟨by rw [same]; rfl, fun other => absurd same other⟩
    · exact ⟨rfl, fun _ => rfl⟩

/-- Notices are counted in 0x4850:02 alone. -/
theorem State.notices_statOf (q n k sub : Nat) (s : State) (small : sub < 256) (other : sub ≠ 2) :
    (s.notices q n).statOf 0x4850 k sub = s.statOf 0x4850 k sub := by
  by_cases none : n = 0
  · rw [none]
    rfl
  · rw [State.statOf_congr _ _ _ (State.notices_stats q n s none), State.statOf_stat, if_neg]
    unfold statKey
    omega

theorem State.notices_standing (q n k : Nat) (s : State) : (s.notices q n).standing k = s.standing k :=
  State.standing_congr k (State.que_notices q n k s).1 (State.notices_statOf q n k 7 s (by decide) (by decide))

/-- Notices change of the fabric its queues, and what it tells of an overflow. -/
theorem State.notices_fabric (q n : Nat) (s : State) : (s.notices q n).fabric = { s.fabric with
    queues := (s.notices q n).fabric.queues, countOvf := (s.notices q n).fabric.countOvf
    ovfCrossing := (s.notices q n).fabric.ovfCrossing } := by
  unfold State.notices
  split
  · rfl
  · dsimp only
    (repeat' split) <;> rfl

theorem State.pushed_standing (q k : Nat) (s : State) : (s.pushed q).standing k = s.standing k := by
  unfold State.pushed
  dsimp only
  split
  · exact .trans (State.modQue_standing _ _ _ _ fun _ => rfl) (State.notices_standing ..)
  · exact State.notices_standing ..

theorem State.passed_standing (q n k : Nat) (s : State) : (s.passed q n).standing k = s.standing k := by
  unfold State.passed
  split
  · rfl
  · exact .trans (State.modQue_standing _ _ _ _ fun _ => rfl) (State.notices_standing ..)

theorem State.released_standing (q k : Nat) (s before : State) : (s.released q before).standing k = s.standing k :=
  (State.notices_standing ..).trans (State.modQue_standing _ _ _ _ fun _ => rfl)

theorem State.popped_standing (q k : Nat) (s before : State) : (s.popped q before).standing k = s.standing k := by
  have read (f : Queue → Queue) (keeps : ∀ x, (f x).exchange = x.exchange) :
      ((s.released q before).modQue q f).standing k = s.standing k :=
    (State.modQue_standing _ _ _ _ keeps).trans (State.released_standing ..)
  unfold State.popped
  dsimp only
  split
  · exact read _ fun _ => rfl
  · exact (State.rewatch_standing ..).trans (read _ fun _ => rfl)

theorem State.event_standing (c a b k : Nat) (s : State) : (s.event c a b).standing k = s.standing k := by
  rw [State.event_eq]
  rfl

/-! ### What SUP puts in its queues (R185, R203, R216, R227) -/

theorem State.placeFrame_standing (p n k : Nat) (f : TxFrame) (s : State) :
    (s.placeFrame p n f).standing k = s.standing k := by
  unfold State.placeFrame
  split
  · exact State.pushed_standing ..
  · unfold State.macCount
    dsimp only
    split
    · exact (State.event_standing ..).trans (State.passed_standing ..)
    · exact State.passed_standing ..

theorem State.letFramesIn_standing (p k : Nat) (s : State) : (s.letFramesIn p).standing k = s.standing k := by
  refine foldl_keeps (State.standing k) _ (fun s w => ?_) _ s
  split
  · exact State.placeFrame_standing ..
  · rfl

theorem State.loadCan_standing (p k : Nat) (s : State) : (s.loadCan p).standing k = s.standing k := by
  unfold State.loadCan
  dsimp only
  split
  · rfl
  · split
    · rfl
    · exact State.popped_standing ..

theorem State.sendCan_standing (p k : Nat) (f : CanTx) (s : State) : (s.sendCan p f).standing k = s.standing k :=
  (State.loadCan_standing ..).trans (State.pushed_standing ..)

theorem State.fillCan_standing (p k : Nat) (s : State) : (s.fillCan p).standing k = s.standing k := by
  refine (foldl_keeps (State.standing k) _ (fun s _ => State.loadCan_standing p k s) _ _).trans ?_
  refine foldl_keeps (State.standing k) _ (fun s f => ?_) _ s
  split
  · exact State.sendCan_standing ..
  · rfl

theorem State.queueCan_standing (p k : Nat) (f : CanTx) (s : State) : (s.queueCan p f).standing k = s.standing k := by
  unfold State.queueCan
  split
  · rfl
  · split
    · rfl
    · exact State.sendCan_standing ..

theorem State.letCanIn_standing (p k : Nat) (s : State) : (s.letCanIn p).standing k = s.standing k := by
  unfold State.letCanIn
  split
  · refine Eq.trans ?_ (State.fillCan_standing 2 k s)
    refine foldl_keeps (State.standing k) _ (fun s f => ?_) _ _
    split
    · exact State.queueCan_standing ..
    · rfl
  · exact State.fillCan_standing ..

theorem State.refill_standing (q k : Nat) (s : State) : (s.refill q).standing k = s.standing k := by
  unfold State.refill
  split
  · exact State.letFramesIn_standing ..
  · split
    · exact State.letCanIn_standing ..
    · split
      · exact State.letCanIn_standing ..
      · rfl

/-- SUP fills the transmit queues of the Ethernet ports and of the CAN controllers alone. -/
theorem State.refill_of_elsewhere (q : Nat) (s : State) (elsewhere : ¬ (0x38 ≤ q ∧ q ≤ 0x56)) : s.refill q = s := by
  unfold State.refill
  rw [if_neg (by omega), if_neg (by omega), if_neg (by omega)]

/-! ### REALIGN_REQUEST -/

theorem State.realignRequest_of_reset (q : Nat) (side : Side) (s : State) (was : (s.que q).wasReset = some side)
    (idle : (s.que q).phase = 0) (runs : s.sideRuns q side = true) :
    s.realignRequest q side = s.modQue q (fun x => { x with phase := 1 }) := by
  unfold State.realignRequest
  dsimp only
  rw [if_neg (by rw [idle, runs]; decide), if_pos was]

theorem ne_otherSide (side : Side) : some (otherSide side) ≠ some side := by cases side <;> decide

theorem State.realignRequest_of_both (q : Nat) (side : Side) (s : State) (was : (s.que q).wasReset = some (otherSide side))
    (both : (s.que q).both = true) (idle : (s.que q).phase = 0) (runs : s.sideRuns q side = true) :
    s.realignRequest q side = s.modQue q (fun x => { x with raised := true }) := by
  unfold State.realignRequest
  dsimp only
  rw [if_neg (by rw [idle, runs]; decide), was, both, if_neg (ne_otherSide side)]
  rfl

theorem State.realignRequest_of_unneeded (q : Nat) (side : Side) (s : State)
    (none : (s.que q).wasReset = none ∨ ((s.que q).wasReset = some (otherSide side) ∧ (s.que q).both = false) ∨
      (s.que q).phase ≠ 0 ∨ s.sideRuns q side = false) : s.realignRequest q side = s := by
  unfold State.realignRequest
  dsimp only
  split
  · rfl
  · next asks =>
    rcases none with none | ⟨was, both⟩ | begun | stands
    · rw [none]
      rfl
    · rw [was, both, if_neg (ne_otherSide side)]
      rfl
    · exact absurd (.inl begun) asks
    · exact absurd (.inr stands) asks

/-! ### REALIGN_ACKNOWLEDGE -/

theorem State.realignAck_of_none (q : Nat) (s : State) (none : (s.que q).wasReset = none) : s.realignAck q = s := by
  unfold State.realignAck
  rw [none]

theorem State.realignAck_of_some (q : Nat) (side : Side) (s : State) (was : (s.que q).wasReset = some side) :
    s.realignAck q = if (s.que q).phase = 1 ∧ s.sideRuns q (otherSide side) = true then
      s.modQue q (fun x => { x with phase := 2, presented := Nat.min x.frozen (s.queued q) }) else s := by
  unfold State.realignAck
  rw [was]

/-! ### REALIGN_ACCEPT -/

theorem State.realignAccept_of_none (q : Nat) (s : State) (none : (s.que q).wasReset = none) : s.realignAccept q = s := by
  unfold State.realignAccept
  rw [none]

theorem State.realignAccept_of_producer (q : Nat) (s : State) (was : (s.que q).wasReset = some .producer) :
    s.realignAccept q = if (s.que q).phase = 2 ∧ s.sideRuns q .producer = true then
      s.modQue q (fun x => { x with phase := 3 }) else s := by
  unfold State.realignAccept
  rw [was]

theorem State.realignAccept_of_consumer (q : Nat) (s : State) (was : (s.que q).wasReset = some .consumer) :
    s.realignAccept q = if (s.que q).phase = 2 ∧ s.sideRuns q .consumer = true then
      (s.discardRealigned q (s.que q).presented).modQue q (fun x => { x with phase := 3 }) else s := by
  unfold State.realignAccept
  rw [was]

/-- The oldest characters of a receive queue are dropped, whose consumer was reset: no packet follows them that was not committed,
unless more are dropped than were. -/
theorem State.dropPackets_receive (q n : Nat) (s : State) (port : q ≤ 0x17) (was : (s.que q).wasReset = some .consumer) :
    let t := s.dropPackets q n
    (t.sp q).rx = (s.sp q).rx.drop n ∧ (∀ k, k ≠ q → t.que k = s.que k) ∧
    (∀ sub, sub < 256 → sub ≠ 2 → t.statOf 0x4850 q sub = s.statOf 0x4850 q sub) ∧
    (n ≤ (s.que q).frozen → t.stats = s.stats) ∧
    t = { s with fabric := t.fabric, serial := t.serial, stats := t.stats } := by
  let left := s.modSp q (fun x => { x with rx := x.rx.drop n })
  have without : s.without q n = left := if_pos port
  have full : s.hasRoom q = false := by
    unfold State.hasRoom State.admits
    rw [was]
    rfl
  have alone : ∀ t : State, t.upstream q = [] := fun t => by
    unfold State.upstream
    rw [if_neg (by omega), if_neg (by omega), if_neg (by omega)]
  have stood : s.queued q = (s.sp q).rx.length := State.queued_receive q s (by omega)
  have rx : (left.sp q).rx = (s.sp q).rx.drop n := by rw [State.sp_modSp, if_pos rfl]
  have stands : left.queued q = s.queued q - n := by
    rw [State.queued_receive q left (by omega), rx, List.length_drop, stood]
  let gone := s.queued q - left.queued q
  let moved := left.modQue q (fun x => { x with read := x.read + (s.wordsIn q - left.wordsIn q), frozen := x.frozen - gone })
  let told := moved.notices q (moved.visible q + gone - s.visible q)
  have run : s.dropPackets q n = told.modQue q (fun x => { x with since := if left.queued q = 0 then none else some left.fc }) := by
    unfold State.dropPackets State.popped
    rw [without]
    dsimp only
    rw [full, alone, State.rewatch_nil]
    rfl
  have frame : told = { left with stats := told.stats, fabric := told.fabric } := by
    unfold told
    rw [State.notices_eq]
    rfl
  dsimp only
  rw [run]
  refine ⟨?_, fun k other => ?_, fun sub small other => ?_, fun few => ?_, ?_⟩
  · change (told.sp q).rx = _
    rw [frame]
    exact rx
  · rw [State.que_modQue, if_neg other, (State.que_notices ..).2 other, State.que_modQue, if_neg other]
    rfl
  · exact State.notices_statOf q _ q sub moved small other
  · have before : s.visible q = min (s.queued q) (s.que q).frozen := by
      unfold State.visible State.committedOf
      dsimp only
      rw [was]
      rfl
    have after : moved.visible q = min (left.queued q) ((s.que q).frozen - gone) := by
      have queue : moved.que q = { s.que q with
          read := (s.que q).read + (s.wordsIn q - left.wordsIn q), frozen := (s.que q).frozen - gone } :=
        (State.que_modQue ..).trans (if_pos rfl)
      unfold State.visible State.committedOf
      dsimp only
      rw [queue, was]
      rfl
    have none : moved.visible q + gone - s.visible q = 0 := by
      rw [before, after]
      unfold gone
      rw [stands]
      omega
    change told.stats = _
    unfold told
    rw [none]
    rfl
  · rw [frame]
    rfl

/-- The packets presented to a receive queue's consumer are discarded, counted and told. -/
theorem State.discardRealigned_receive (q n : Nat) (s : State) (port : q ≤ 0x17) (was : (s.que q).wasReset = some .consumer)
    (some_ : n ≠ 0) :
    let t := s.discardRealigned q n
    (t.sp q).rx = (s.sp q).rx.drop n ∧ (∀ k, k ≠ q → t.que k = s.que k) ∧
    t.statOf 0x4850 q 4 = (s.stat 0x4850 q 4 n).statOf 0x4850 q 4 ∧
    (n ≤ (s.que q).frozen → t.stats = (s.stat 0x4850 q 4 n).stats) ∧ t.health = (s.event 0x9003 q n).health ∧
    t = { s with fabric := t.fabric, serial := t.serial, stats := t.stats, health := t.health } := by
  obtain ⟨rx, others, count, stats, rest⟩ := State.dropPackets_receive q n s port was
  generalize dropped : s.dropPackets q n = left at *
  have run : s.discardRealigned q n = (left.stat 0x4850 q 4 n).event 0x9003 q n := by
    unfold State.discardRealigned State.countRealigned
    dsimp only
    rw [dropped, if_neg (by omega), if_neg some_]
  dsimp only
  rw [run]
  refine ⟨?_, fun k other => ?_, ?_, fun few => ?_, ?_, ?_⟩
  · rw [State.event_sp]
    exact rx
  · rw [State.event_eq]
    exact others k other
  · rw [State.statOf_congr _ _ _ (State.event_stats ..), State.statOf_stat, State.statOf_stat, if_pos rfl, if_pos rfl,
      count 4 (by decide) (by decide)]
  · rw [State.event_stats]
    exact State.stat_congr _ _ _ _ (stats few)
  · exact State.event_health_of_flow _ _ _ (by rw [rest]; rfl)
  · rw [State.event_eq, rest]
    rfl

/-! ### REALIGN_RESUME -/

theorem State.realignResume_of_none (q : Nat) (s : State) (none : (s.que q).wasReset = none) : s.realignResume q = s := by
  unfold State.realignResume
  rw [none]

/-- The exchange of queue `q` has ended: counted, and the watch begins where packets stand. -/
def State.realigned (q : Nat) (s : State) : State :=
  (s.stat 0x4850 q 7 1).modQue q (fun x => { x with
    wasReset := none, both := false, raised := false, phase := 0, presented := 0, frozen := 0
    since := if watchedQueue q ∧ s.queued q ≠ 0 then some s.fc else none })

theorem State.realignResume_of_some (q : Nat) (side : Side) (s : State) (was : (s.que q).wasReset = some side) :
    s.realignResume q = if (s.que q).phase = 3 ∧ s.sideRuns q side = true ∧ s.sideRuns q (otherSide side) = true then
      (((s.realigned q).notices q ((s.realigned q).visible q - s.visible q)).refill q).regain s else s := by
  unfold State.realignResume
  rw [was]
  rfl

theorem State.realigned_standing (q : Nat) (s : State) :
    (s.realigned q).standing q = ⟨none, false, 0, (s.stat 0x4850 q 7 1).statOf 0x4850 q 7⟩ := by
  unfold State.standing State.realigned
  rw [State.que_modQue, if_pos rfl]
  rfl

/-- After the exchange its queue admits and yields, whatever SUP puts in then. -/
theorem State.resumed_standing (q n : Nat) (s : State) :
    ((((s.realigned q).notices q n).refill q).regain s).standing q =
      ⟨none, false, 0, (s.stat 0x4850 q 7 1).statOf 0x4850 q 7⟩ :=
  calc ((((s.realigned q).notices q n).refill q).regain s).standing q
      = (((s.realigned q).notices q n).refill q).standing q := State.rewatch_standing ..
    _ = ((s.realigned q).notices q n).standing q := State.refill_standing ..
    _ = (s.realigned q).standing q := State.notices_standing ..
    _ = _ := State.realigned_standing ..

/-- A queue that SUP does not fill is the only one that changes, but for watches that begin anew. -/
theorem State.resumed_of_elsewhere (q n : Nat) (s : State) (elsewhere : ¬ (0x38 ≤ q ∧ q ≤ 0x56)) :
    let t := (((s.realigned q).notices q n).refill q).regain s
    (∀ k, k ≠ q → { t.que k with since := (s.que k).since } = s.que k) ∧ t.visible q = (s.realigned q).visible q ∧
    (n = 0 → t.stats = (s.stat 0x4850 q 7 1).stats) ∧
    t = { s with stats := t.stats, fabric := { s.fabric with
      queues := t.fabric.queues, countOvf := t.fabric.countOvf, ovfCrossing := t.fabric.ovfCrossing } } := by
  let told := (s.realigned q).notices q n
  have run : (told.refill q).regain s = told.regain s := by rw [State.refill_of_elsewhere q told elsewhere]
  have frame : told.regain s = { s with stats := told.stats, fabric := { s.fabric with
      queues := (told.regain s).fabric.queues, countOvf := (told.regain s).fabric.countOvf
      ovfCrossing := (told.regain s).fabric.ovfCrossing } } := by
    unfold State.regain State.rewatch told
    rw [State.notices_eq, State.notices_fabric]
    rfl
  have admits : (told.regain s).admits q = true ∧ (s.realigned q).admits q = true := by
    have after := State.resumed_standing q n s
    rw [run] at after
    obtain ⟨-, -, -, resumed, -⟩ := State.admits_of_standing after
    obtain ⟨-, -, -, realigned, -⟩ := State.admits_of_standing (State.realigned_standing q s)
    exact ⟨resumed, realigned⟩
  dsimp only
  rw [run]
  refine ⟨fun k other => ?_, ?_, fun none => ?_, frame⟩
  · have same : told.que k = s.que k := by
      rw [(State.que_notices ..).2 other, State.realigned, State.que_modQue, if_neg other]
      rfl
    rw [← same]
    exact State.que_rewatch _ k told
  · have packets : (told.regain s).queued q = (s.realigned q).queued q := by
      rw [frame]
      rfl
    unfold State.visible
    rw [State.committedOf_of_admits q _ _ admits.1, State.committedOf_of_admits q _ _ admits.2, packets]
  · change told.stats = _
    unfold told
    rw [none]
    rfl

end Sys2Proof.Machine

open Sys2Proof Sys2Proof.Machine

/-- Settles O40: each phase has its effect where the sides that it needs run, and none elsewhere (`State.realignRequest_of_unneeded`,
`State.realignAck_of_some`, `State.realignAccept_of_consumer`, `State.realignResume_of_some`); what a consumer discards is
`State.discardRealigned_receive`, and what SUP then puts in leaves the queue realigned (`State.resumed_standing`). -/
theorem realignmentInFourPhases : Obligations.RealignmentInFourPhases := by
  intro s dt q side u x others works
  have run (f : State → State) : (.next (u.whenUp domFabric f) : Host.Outcome State Fault Refusal) = .next (f u) :=
    next_whenUp f works
  have runs {f : State → State} {t : State} (h : f u = t) :
      (.next (u.whenUp domFabric f) : Host.Outcome State Fault Refusal) = .next t := (run f).trans (congrArg _ h)
  refine ⟨fun was idle up => runs (State.realignRequest_of_reset q.val side u was idle up),
    fun was both idle up => runs (State.realignRequest_of_both q.val side u was both idle up),
    fun none => runs (State.realignRequest_of_unneeded q.val side u none),
    fun none => ⟨runs (State.realignAck_of_none q.val u none), runs (State.realignAccept_of_none q.val u none),
      runs (State.realignResume_of_none q.val u none)⟩,
    fun was => ?_⟩
  have ack := State.realignAck_of_some q.val side u was
  have resume := State.realignResume_of_some q.val side u was
  refine ⟨fun asked up => runs (ack.trans (if_pos ⟨asked, up⟩)), fun other => runs (ack.trans (if_neg fun h => other h.1)),
    fun told up producer => ?_, fun told up consumer port some_ => ?_, fun other => ?_, fun accepted up upOther => ?_,
    fun other => runs (resume.trans (if_neg fun h => other h.1))⟩
  · subst producer
    exact runs ((State.realignAccept_of_producer q.val u was).trans (if_pos ⟨told, up⟩))
  · subst consumer
    obtain ⟨rx, queues, count, stats, health, rest⟩ := State.discardRealigned_receive q.val x.presented u port was some_
    refine ⟨_, runs ((State.realignAccept_of_consumer q.val u was).trans (if_pos ⟨told, up⟩)), rx, ?_, count, stats, health,
      fun k other => ?_, ?_⟩
    · rw [State.que_modQue, if_pos rfl]
    · rw [State.que_modQue, if_neg other]
      exact queues k other
    · change State.modQue _ _ (u.discardRealigned q.val x.presented) = _
      rw [rest]
      rfl
  · cases side with
    | producer => exact runs ((State.realignAccept_of_producer q.val u was).trans (if_neg fun h => other h.1))
    | consumer => exact runs ((State.realignAccept_of_consumer q.val u was).trans (if_neg fun h => other h.1))
  · let n := (u.realigned q.val).visible q.val - u.visible q.val
    obtain ⟨none, phase, both, admits, yields, count⟩ := State.admits_of_standing (State.resumed_standing q.val n u)
    refine ⟨_, runs (resume.trans (if_pos ⟨accepted, up, upOther⟩)), none, phase, both, admits, yields, count,
      fun k other elsewhere => (State.resumed_of_elsewhere q.val n u elsewhere).1 k other, fun elsewhere => ?_,
      fun elsewhere same => ?_⟩
    · obtain ⟨-, -, -, frame⟩ := State.resumed_of_elsewhere q.val n u elsewhere
      exact frame
    · obtain ⟨-, visible, unseen, -⟩ := State.resumed_of_elsewhere q.val n u elsewhere
      exact unseen (Nat.sub_eq_zero_of_le (Nat.le_of_eq (visible.symm.trans same)))
end

section
/-! PROOF. Retrieval (R260, R261, R300): a seek or a read of an admitted client reaches its one object, moves that client's cursor,
and carries no more bytes than its path takes. -/

namespace Sys2Proof.Machine

open Sys2Proof

/-! ### The objects of retrieval -/

theorem State.writeObj_journalSeek (n : Nat) (s : State) : s.writeObj n 0x3810 4 [1] = granted (s.journalSeek n) := rfl

theorem State.readObj_records (n limit : Nat) (bad : List Nat) (s : State) :
    s.readObj n 0x3810 6 limit bad = s.recordsRead n limit bad := rfl

theorem State.writeObj_logSeek (n : Nat) (s : State) : s.writeObj n 0x5802 3 [1] = granted (s.logSeek n) := rfl

theorem State.readObj_log (n limit : Nat) (bad : List Nat) (s : State) : s.readObj n 0x5802 4 limit bad = s.logRead n limit := rfl

theorem State.writeObj_clearLog (n : Nat) (s : State) :
    s.writeObj n 0x5802 8 [0x4A] = s.inService (fun s => { s with health.log := [] }) := rfl

theorem State.inService_of_mode (act : State → State) (s : State) (mode : s.serviceMode = true) :
    s.inService act = granted (act s) := if_pos mode

theorem State.inService_of_other (act : State → State) (s : State) (mode : s.serviceMode = false) :
    s.inService act = refuse abState s := if_neg (by rw [mode]; decide)

/-- The command of an admitted client ends in the answer to what its access does. -/
theorem next_access_of_admitted {who : ClientId} {n index : Nat} {u t : State} {act : Nat → State → Reply × State} {r : Reply}
    (admitted : Admitted who n index u) (acts : act n (u.accessed who n) = (r, t)) :
    (.next (u.access who index act) : Host.Outcome State Fault Refusal) = .next (t.answer who r) := by
  rw [State.access_of_admitted who n index act u admitted, acts]

/-! ### The client in a slot -/

theorem State.clientAt_modClient (n : Nat) (f : Client → Client) (s : State) :
    (s.modClient n f).clientAt n = (s.clientAt n).map f := by
  unfold State.clientAt State.modClient
  dsimp only
  induction s.dict.clients with
  | nil => rfl
  | cons x l ih =>
    by_cases own : x.1 = n
    · simp [own]
    · simpa [own] using ih

/-! ### Whole records within a limit -/

theorem length_leBytes (n v : Nat) : (leBytes n v).length = n := by
  induction n generalizing v with
  | zero => rfl
  | succ n ih => exact congrArg Nat.succ (ih _)

theorem length_recBytes (r : JRecord) : (recBytes r).length = recSize r := by
  simp only [recBytes, recSize, List.length_append, length_leBytes]

theorem length_takeWhole_le (n : Nat) (l : List (JRecord × Nat)) :
    ((takeWhole n l).flatMap (fun x => recBytes x.1)).length ≤ n := by
  induction l generalizing n with
  | nil => exact Nat.zero_le n
  | cons r l ih =>
    unfold takeWhole
    split
    · next fits =>
      have rest := ih (n - recSize r.1)
      rw [List.flatMap_cons, List.length_append, length_recBytes]
      omega
    · exact Nat.zero_le n

theorem State.length_journalRead_le (cursor limit : Nat) (bad : List Nat) (s : State) :
    (s.journalRead cursor limit bad).1.length ≤ limit := length_takeWhole_le ..

theorem State.length_logFrom_le (newest : Bool) (at_ : BitVec 32) (limit : Nat) (s : State) :
    (s.logFrom newest at_ limit).length * 32 ≤ limit := by
  refine (Nat.mul_le_mul_right 32 (List.length_take_le ..)).trans ?_
  exact Nat.div_mul_le_self limit 32

/-! ### What is read does not depend on the count of the access -/

theorem State.met_accessed (who : ClientId) (n : Nat) (s : State) : (s.accessed who n).met = s.met := by
  funext gap l
  induction l generalizing gap with
  | nil => rfl
  | cons x l ih =>
    match x with
    | (r, true) => exact ih (some (gap.getD r.seq))
    | (r, false) =>
      unfold State.met
      rw [ih none]
      rfl

theorem State.journalRead_accessed (who : ClientId) (n cursor limit : Nat) (bad : List Nat) (s : State) :
    (s.accessed who n).journalRead cursor limit bad = s.journalRead cursor limit bad := by
  unfold State.journalRead
  rw [State.met_accessed]
  rfl

/-! ### Reads move the cursor of their client -/

theorem State.recordsRead_of_client (n limit : Nat) (bad : List Nat) (c : Client) (s : State) (client : s.clientAt n = some c) :
    let got := s.journalRead (c.journal.getD (if s.oldestSeq = 0 then s.journal.nextSeq else s.oldestSeq))
      (Nat.min limit (s.heldBy n 0x3810 5)) bad
    ∃ t, s.recordsRead n limit bad = (.done got.1, t) ∧ t.clientAt n = some { c with journal := some got.2.1 } ∧
      t = { s with dict := t.dict, stats := t.stats } := by
  intro got
  have run : s.recordsRead n limit bad = (.done got.1, (if got.2.2 = 0 then s else s.stat 0x4860 0 6 got.2.2).modClient n
      (fun c => { c with journal := some got.2.1 })) := by
    unfold State.recordsRead
    rw [client]
  refine ⟨_, run, ?_, ?_⟩
  · rw [State.clientAt_modClient]
    split
    · rw [client]; rfl
    · exact congrArg (Option.map _) client
  · split <;> rfl

theorem State.logRead_of_client (n limit : Nat) (c : Client) (s : State) (client : s.clientAt n = some c) :
    let at_ : BitVec 32 := match c.log with
      | some k => BitVec.ofNat 32 k
      | none => s.health.nextSeq - 1
    ∃ t, s.logRead n limit = (.done ((s.logFrom c.logNewest at_ limit).flatMap LogRec.bytes), t) ∧
      t = { s with dict := t.dict } := by
  intro at_
  unfold State.logRead
  rw [client]
  exact ⟨_, rfl, rfl⟩

end Sys2Proof.Machine

open Sys2Proof Sys2Proof.Machine

/-- Settles O43: an admitted access acts in the state that counts it (`State.access_of_admitted`), on the one object it names; a
read moves the cursor of its client alone (`State.recordsRead_of_client`, `State.logRead_of_client`), and what it carries is within
the limit of its path (`State.length_journalRead_le`, `State.length_logFrom_le`). -/
theorem recordRetrieval : Obligations.RecordRetrieval := by
  refine ⟨?_, ?_⟩
  · intro s dt n who c bad u v at_ got admitted client
    obtain ⟨t, read, cursor, frame⟩ := State.recordsRead_of_client n (pathLimit who) bad c v client
    rw [State.journalRead_accessed] at read cursor
    refine ⟨next_access_of_admitted admitted (State.writeObj_journalSeek n v),
      _, next_access_of_admitted admitted ((State.readObj_records ..).trans read), rfl, ?_, cursor, ?_⟩
    · exact (State.length_journalRead_le ..).trans (Nat.min_le_left ..)
    · rw [frame]; rfl
  · intro s dt n who c u v mode at_ l admitted client
    obtain ⟨t, read, frame⟩ := State.logRead_of_client n (pathLimit who) c v client
    refine ⟨next_access_of_admitted admitted (State.writeObj_logSeek n v),
      ⟨_, next_access_of_admitted admitted ((State.readObj_log ..).trans read), rfl, State.length_logFrom_le .., ?_, ?_⟩,
      fun service => ?_, fun other => ?_⟩
    · rw [frame]; rfl
    · rw [frame]; rfl
    · exact next_access_of_admitted admitted ((State.writeObj_clearLog n v).trans (State.inService_of_mode _ v service))
    · exact next_access_of_admitted admitted ((State.writeObj_clearLog n v).trans (State.inService_of_other _ v other))
end

section
/-! PROOF. What the felt journal's operations move (R247 to R259): a page in progress, the records of the ring, the state and
the write point, each with a lemma that says what it leaves as it is. -/

namespace Sys2Proof.Machine

open Sys2Proof

/-- A command of a block that runs ends in what its operation makes of the state. -/
theorem next_whenUp_eq {d : Nat} {f : State → State} {u t : State} (runs : u.works d = true) (acts : f u = t) :
    (.next (u.whenUp d f) : Host.Outcome State Fault Refusal) = .next t := (next_whenUp f runs).trans (congrArg _ acts)

/-! ### What of the block a change may touch -/

/-- From `s` to `t` nothing has changed but the journal, statistics and events. -/
def State.Manages (s t : State) : Prop := t = { s with journal := t.journal, stats := t.stats, health := t.health }

/-- From `s` to `t` nothing has changed but events. -/
def State.Tells (s t : State) : Prop := t = { s with health := t.health }

/-- From `s` to `t` nothing has changed but the journal's page in progress. -/
def State.Pages (s t : State) : Prop :=
  t = { s with
    journal.early := t.journal.early, journal.programming := t.journal.programming, journal.load := t.journal.load
    journal.progAt := t.journal.progAt }

/-- From `s` to `t` nothing has changed but the ring's records, those that are due to it, and the page in progress. -/
def State.Rings (s t : State) : Prop :=
  t = { s with
    journal.ring := t.journal.ring, journal.nextSeq := t.journal.nextSeq, journal.supNext := t.journal.supNext
    journal.startReason := t.journal.startReason, journal.lostPending := t.journal.lostPending
    journal.early := t.journal.early, journal.programming := t.journal.programming, journal.load := t.journal.load
    journal.progAt := t.journal.progAt }

/-- From `s` to `t` nothing has changed but what `State.Rings` names, the journal's state and write point, the erase in
progress, statistics and events: what the device holds stays. -/
def State.Tends (s t : State) : Prop :=
  t = { s with
    stats := t.stats, health := t.health
    journal.state := t.journal.state, journal.erasing := t.journal.erasing, journal.eraseAt := t.journal.eraseAt
    journal.blockNo := t.journal.blockNo, journal.pageInBlock := t.journal.pageInBlock, journal.passes := t.journal.passes
    journal.ring := t.journal.ring, journal.nextSeq := t.journal.nextSeq, journal.supNext := t.journal.supNext
    journal.startReason := t.journal.startReason, journal.lostPending := t.journal.lostPending
    journal.early := t.journal.early, journal.programming := t.journal.programming, journal.load := t.journal.load
    journal.progAt := t.journal.progAt }

theorem State.Manages.trans {s t v : State} (h : s.Manages t) (k : t.Manages v) : s.Manages v := by
  unfold State.Manages at *
  refine k.trans ?_
  rw [h]

theorem State.Tells.trans {s t v : State} (h : s.Tells t) (k : t.Tells v) : s.Tells v := by
  unfold State.Tells at *
  refine k.trans ?_
  rw [h]

theorem State.Tells.withState {s t : State} (h : s.Tells t) (n : Nat) :
    ({ s with journal.state := n } : State).Tells { t with journal.state := n } := by
  unfold State.Tells at *
  rw [h]

theorem State.Rings.refl (s : State) : s.Rings s := rfl

theorem State.Rings.trans {s t v : State} (h : s.Rings t) (k : t.Rings v) : s.Rings v := by
  unfold State.Rings at *
  refine k.trans ?_
  rw [h]

theorem State.Tends.refl (s : State) : s.Tends s := rfl

theorem State.Tends.trans {s t v : State} (h : s.Tends t) (k : t.Tends v) : s.Tends v := by
  unfold State.Tends at *
  refine k.trans ?_
  rw [h]

theorem State.Pages.rings {s t : State} (h : s.Pages t) : s.Rings t := by
  unfold State.Rings
  rw [h]

theorem State.Rings.tends {s t : State} (h : s.Rings t) : s.Tends t := by
  unfold State.Tends
  rw [h]

theorem State.Tends.manages {s t : State} (h : s.Tends t) : s.Manages t := by
  unfold State.Manages
  rw [h]

/-! ### The page in progress (R249) -/

theorem State.startPage_pages (s : State) : s.Pages s.startPage := by
  unfold State.startPage
  dsimp only
  (repeat' split) <;> rfl

theorem State.startPage_of_still (s : State) (still : s.recording = false) : s.startPage = s := if_pos (.inl still)

theorem State.earlyFlush_pages (s : State) : s.Pages s.earlyFlush := by
  unfold State.earlyFlush
  split
  · have started := State.startPage_pages { s with journal.early := true }
    unfold State.Pages at *
    rw [started]
  · rfl

theorem State.earlyFlush_programming (s : State) (still : s.recording = false) :
    s.earlyFlush.journal.programming = s.journal.programming := by
  unfold State.earlyFlush
  split
  · exact congrArg (fun t => t.journal.programming) (State.startPage_of_still { s with journal.early := true } still)
  · rfl

/-! ### Records and markers (R247, R248) -/

theorem State.ringAppend_rings (type cls dseq : Nat) (body : List Byte) (s : State) :
    s.Rings (s.ringAppend type cls dseq body) := rfl

theorem State.journalMarker_rings (type : Nat) (payload : List Byte) (s : State) : s.Rings (s.journalMarker type payload) := by
  unfold State.journalMarker
  split
  · exact .refl s
  · exact (State.ringAppend_rings ..).trans (State.earlyFlush_pages _).rings

theorem State.journalMarker_nextSeq_le (type : Nat) (payload : List Byte) (s : State) :
    s.journal.nextSeq ≤ (s.journalMarker type payload).journal.nextSeq := by
  unfold State.journalMarker
  split
  · exact Nat.le_refl _
  · rw [State.earlyFlush_pages]
    exact Nat.le_succ _

theorem State.journalMarker_programming (type : Nat) (payload : List Byte) (s : State) (still : s.recording = false) :
    (s.journalMarker type payload).journal.programming = s.journal.programming := by
  unfold State.journalMarker
  split
  · rfl
  · exact State.earlyFlush_programming _ still

theorem State.lossMarker_tends (n cause : Nat) (s : State) : s.Tends (s.lossMarker n cause) :=
  .trans (t := s.stat 0x4860 0 3 n) rfl (State.journalMarker_rings ..).tends

theorem State.startMarker_spec (s : State) : s.Rings s.startMarker ∧ s.journal.nextSeq ≤ s.startMarker.journal.nextSeq := by
  unfold State.startMarker
  split
  · next n _ =>
    extract_lets _ began
    have rings : s.Rings began := .trans (t := { s with journal.startReason := none }) rfl (State.journalMarker_rings ..)
    have next : s.journal.nextSeq ≤ began.journal.nextSeq :=
      State.journalMarker_nextSeq_le 4 (leBytes 1 n) { s with journal.startReason := none }
    clear_value began
    split
    · exact ⟨rings.trans (.trans (t := { began with journal.lostPending := none }) rfl (State.journalMarker_rings ..)),
        next.trans (State.journalMarker_nextSeq_le 2 _ { began with journal.lostPending := none })⟩
    · exact ⟨rings, next⟩
  · exact ⟨.refl s, Nat.le_refl _⟩

/-! ### The journal's state (Table 11.5) -/

theorem State.endAlert_tells (c a : Nat) (s : State) : s.Tells (s.endAlert c a) := by
  unfold State.endAlert
  obtain ⟨_, -, -, -, -, h⟩ | ⟨-, h⟩ := State.raiseKind_eq 3 0 c a 0 s <;> rw [h] <;> rfl

/-- A state that the journal enters is its state, with the events that say so. -/
theorem State.setJournal_tells (n : Nat) (s : State) : ({ s with journal.state := n } : State).Tells (s.setJournal n) := by
  unfold State.setJournal
  split
  · next same => subst same; rfl
  · extract_lets _ ended _ entered
    have left : s.Tells ended := by
      unfold ended
      split
      · exact State.endAlert_tells ..
      · rfl
    refine (left.withState n).trans (t := entered) ?_
    split
    · exact State.event_eq ..
    · rfl

/-- Between states that no alert stands for. -/
theorem State.setJournal_of_quiet (n : Nat) (s : State) (before : journalAlert s.journal.state = none)
    (after : journalAlert n = none) : s.setJournal n = { s with journal.state := n } := by
  unfold State.setJournal
  split
  · next same => subst same; rfl
  · rw [before, after]

theorem State.setJournal_tends (n : Nat) (s : State) : s.Tends (s.setJournal n) := by
  rw [State.setJournal_tells]
  rfl

/-- The device fails: its state says so, and no operation of it goes on. -/
theorem State.journalFails_spec (s : State) : s.Tends s.journalFails ∧ s.journalFails.journal.state = 7 ∧
    s.journalFails.journal.programming = none ∧ s.journalFails.journal.erasing = none := by
  let lost := (s.notInRing s.journal.nand).length
  let stopped : State := { s with journal.programming := none, journal.load := [], journal.erasing := none }
  have failed := State.setJournal_tells 7 stopped
  let counted := (stopped.setJournal 7).stat 0x4860 0 3 lost
  have state : counted.journal.state = 7 := congrArg (fun t => t.journal.state) failed
  have still : counted.recording = false := by
    unfold State.recording
    rw [state]
    rfl
  have marked : counted.Rings ((stopped.setJournal 7).lossMarker lost 3) := State.journalMarker_rings ..
  refine ⟨.trans (t := stopped) rfl ((State.setJournal_tends ..).trans (State.lossMarker_tends ..)), ?_, ?_, ?_⟩
  · exact (congrArg (fun t => t.journal.state) marked).trans state
  · exact (State.journalMarker_programming _ _ counted still).trans (congrArg (fun t => t.journal.programming) failed)
  · exact (congrArg (fun t => t.journal.erasing) marked).trans (congrArg (fun t => t.journal.erasing) failed)

/-! ### Blocks (R254 to R256) -/

theorem State.judgeBlocks_tends (s : State) : s.Tends s.judgeBlocks := by
  unfold State.judgeBlocks
  dsimp only
  split
  · exact (State.journalFails_spec s).1
  · split
    · exact State.setJournal_tends 5 s
    · rfl

theorem State.judgeBlocks_of_good (s : State) (enough : 16 ≤ s.journal.blocks - s.journal.bad.length)
    (few : 1000 * s.journal.retired ≤ s.cn 0x3800 8 0 * s.journal.blocks) : s.judgeBlocks = s := by
  unfold State.judgeBlocks
  dsimp only
  rw [if_neg (Nat.not_lt.mpr enough), if_neg fun many => Nat.not_lt.mpr few many.1]

theorem State.eraseAhead_eq (s : State) : s.eraseAhead = { s with
    health := s.eraseAhead.health, journal.state := s.eraseAhead.journal.state, journal.erasing := s.eraseAhead.journal.erasing
    journal.eraseAt := s.eraseAhead.journal.eraseAt } := by
  unfold State.eraseAhead
  extract_lets here
  split
  · rfl
  · split
    · rfl
    · split
      · rw [State.setJournal_tells]
      · rfl

theorem State.eraseAhead_tends (s : State) : s.Tends s.eraseAhead := by
  rw [State.eraseAhead_eq]
  rfl

/-- Where full blocks are written over, the state stays. -/
theorem State.eraseAhead_state (s : State) (overwrites : s.cn 0x3800 5 0 = 0) : s.eraseAhead.journal.state = s.journal.state := by
  unfold State.eraseAhead
  extract_lets here
  split
  · rfl
  · split
    · rfl
    · rw [if_neg fun stop => absurd (overwrites.symm.trans stop.1) (by decide)]

/-- No block is erased that stands erased. -/
theorem State.eraseAhead_erasing (b : Nat) (s : State) (idle : s.journal.erasing = none) (erased : b ∈ s.journal.erased) :
    s.eraseAhead.journal.erasing ≠ some b := by
  unfold State.eraseAhead
  extract_lets here
  split
  · rw [idle]; exact nofun
  · split
    · rw [idle]; exact nofun
    · next x found =>
      split
      · rw [State.setJournal_tells, idle]; exact nofun
      · intro same
        have self : x = b := Option.some.inj same
        have unerased := List.find?_some found
        rw [self, List.contains_iff_mem.mpr erased] at unerased
        exact Bool.noConfusion unerased

/-- A block is listed as bad, its pages are gone, and its records in the ring are to be programmed again. -/
def State.delist (b : Nat) (s : State) : State :=
  let pages := s.journal.nand.filter (fun p => p.block == b)
  { s with
    journal.bad := s.journal.bad ++ [b], journal.retired := s.journal.retired + 1, journal.tableGen := s.journal.tableGen + 1
    journal.nand := s.journal.nand.filter (fun p => p.block != b), journal.erased := s.journal.erased.filter (fun x => x != b)
    journal.ring := s.journal.ring.map (fun r =>
      if pages.any (fun p => r.page == some p.seq) then { r with page := none } else r) }

/-- A block that is retired is listed; after that the device's contents stay. -/
theorem State.retireBlock_tends (b cause : Nat) (s : State) : (s.delist b).Tends (s.retireBlock b cause) := by
  unfold State.retireBlock
  extract_lets pages lost mine _ listed marked told moved
  have toldTends : listed.Tends told := by
    refine .trans (t := marked) (State.journalMarker_rings ..).tends ?_
    unfold told
    split
    · exact .refl marked
    · exact State.lossMarker_tends ..
  have movedTends : told.Tends moved := by
    unfold moved
    split <;> rfl
  exact toldTends.trans (movedTends.trans ((State.judgeBlocks_tends moved).trans (State.eraseAhead_tends _)))

theorem State.retireBlock_manages (b cause : Nat) (s : State) : s.Manages (s.retireBlock b cause) :=
  .trans (t := s.delist b) rfl (State.retireBlock_tends b cause s).manages

end Sys2Proof.Machine
end

section
/-! PROOF. Records, flushes and pages of the felt journal (R228, R248 to R256): what each does where it acts, and what its block
leaves as it is. -/

namespace Sys2Proof.Machine

open Sys2Proof

/-! ### JOURNAL_TAKE_RECORD (R228, R248, R250) -/

/-- From `s` to `t` nothing has changed but the journal, statistics and what the fabric keeps. -/
def State.Fills (s t : State) : Prop := t = { s with journal := t.journal, fabric := t.fabric, stats := t.stats }

theorem State.Fills.trans {s t v : State} (h : s.Fills t) (k : t.Fills v) : s.Fills v := by
  unfold State.Fills at *
  refine k.trans ?_
  rw [h]

theorem State.Pages.fills {s t : State} (h : s.Pages t) : s.Fills t := by
  unfold State.Fills
  rw [h]

/-- The oldest packet of queue 0x081 has been taken, and these stay. -/
def State.taken (rest : List (FibreRecord × Nat × Nat)) (s : State) : State :=
  ({ s with journal.inbox := rest } : State).popped 0x81 s

theorem State.taken_eq (rest : List (FibreRecord × Nat × Nat)) (s : State) : s.taken rest =
    { s with journal.inbox := rest, stats := (s.taken rest).stats, fabric := (s.taken rest).fabric } := State.popped_eq ..

theorem State.journalTake_of_waiting (s : State) (waits : s.yields 0x81 = false) : s.journalTake = s := if_pos waits

theorem State.journalTake_of_empty (s : State) (yields : s.yields 0x81 = true) (empty : s.journal.inbox = []) :
    s.journalTake = s.readEmpty 0x81 := by
  unfold State.journalTake
  rw [if_neg (by rw [yields]; decide), empty]

section
variable {s : State} {r : FibreRecord} {cls dseq : Nat} {rest : List (FibreRecord × Nat × Nat)}
  (yields : s.yields 0x81 = true) (head : s.journal.inbox = (r, cls, dseq) :: rest)

include yields head

theorem State.journalTake_of_closed (closed : s.journal.state = 0 ∨ s.journal.state = 4) :
    s.journalTake = (s.taken rest).stat 0x4860 0 7 1 := by
  unfold State.journalTake
  rw [if_neg (by rw [yields]; decide), head]
  exact if_pos closed

theorem State.journalTake_of_full (enabled : s.journal.state ≠ 0) (open_ : s.journal.state ≠ 4)
    (full : s.cn 0x3800 2 0 * 2 ^ 20 < ringBytes (s.roomFor (32 + (journalBody r).length)) + (32 + (journalBody r).length)) :
    s.journalTake = s := by
  unfold State.journalTake
  rw [if_neg (by rw [yields]; decide), head]
  exact (if_neg (not_or.mpr ⟨enabled, open_⟩)).trans (if_pos full)

theorem State.journalTake_of_room (enabled : s.journal.state ≠ 0) (open_ : s.journal.state ≠ 4)
    (room : ringBytes (s.roomFor (32 + (journalBody r).length)) + (32 + (journalBody r).length) ≤ s.cn 0x3800 2 0 * 2 ^ 20) :
    s.journalTake = (((s.taken rest).stat 0x4860 0 1 1).ringAppend 1 cls dseq (journalBody r)).earlyFlush := by
  unfold State.journalTake
  rw [if_neg (by rw [yields]; decide), head]
  exact (if_neg (not_or.mpr ⟨enabled, open_⟩)).trans (if_neg (Nat.not_lt.mpr room))

end

/-- A record that is taken stands at the end of the ring. -/
theorem State.recordTaken_spec (cls dseq : Nat) (body : List Byte) (rest : List (FibreRecord × Nat × Nat)) (s : State) :
    let counted := (s.taken rest).stat 0x4860 0 1 1
    let t := (counted.ringAppend 1 cls dseq body).earlyFlush
    t.journal.inbox = rest ∧ t.journal.nextSeq = s.journal.nextSeq + 1 ∧
    t.journal.ring = s.roomFor (32 + body.length) ++ [{ page := none, rcd := {
      type := 1, cls := cls, seq := s.journal.nextSeq, dseq := dseq, taken := s.time, body := body } }] ∧
    t.stats = counted.stats ∧ s.Fills t := by
  intro counted t
  let appended := counted.ringAppend 1 cls dseq body
  have taken := State.taken_eq rest s
  have pages : appended.Pages t := State.earlyFlush_pages appended
  have journal : counted.journal = { s.journal with inbox := rest } := congrArg State.journal taken
  have room : counted.roomFor (32 + body.length) = s.roomFor (32 + body.length) := by
    change (s.taken rest).roomFor _ = _
    rw [taken]
    rfl
  have time : counted.time = s.time := by
    change (s.taken rest).time = _
    rw [taken]
    rfl
  have ring : appended.journal.ring = counted.roomFor (32 + body.length) ++ [{ page := none, rcd := {
      type := 1, cls := cls, seq := counted.journal.nextSeq, dseq := dseq, taken := counted.time, body := body } }] := rfl
  refine ⟨(congrArg (fun t => t.journal.inbox) pages).trans (congrArg (fun j => j.inbox) journal),
    (congrArg (fun t => t.journal.nextSeq) pages).trans (congrArg (fun j => j.nextSeq + 1) journal),
    (congrArg (fun t => t.journal.ring) pages).trans ?_, (congrArg (fun t => t.stats) pages).trans rfl, ?_⟩
  · rw [ring, room, time, journal]
  · have read : s.Fills (s.taken rest) := by
      unfold State.Fills
      rw [taken]
    exact read.trans (.trans (t := appended) rfl pages.fills)

/-! ### Flushes (R249) -/

theorem State.flushAll_of_still (s : State) (still : s.recording = false) : s.flushAll = s :=
  if_neg (by rw [still]; decide)

theorem State.flushAll_spec (s : State) (recording : s.recording = true) :
    s.flushAll.journal.flushTo = s.journal.nextSeq - 1 ∧ s.flushAll.journal.ring = s.journal.ring ∧
    s.flushAll.journal.nand = s.journal.nand ∧ s.flushAll = { s with journal := s.flushAll.journal } := by
  let marked : State := { s with journal.flushTo := s.journal.nextSeq - 1 }
  have run : s.flushAll = marked.startPage := if_pos recording
  have pages := State.startPage_pages marked
  rw [run]
  exact ⟨congrArg (fun t => t.journal.flushTo) pages, congrArg (fun t => t.journal.ring) pages,
    congrArg (fun t => t.journal.nand) pages, by rw [pages]⟩

/-! ### PAGE_PROGRAMMED (R249, R254, R256, R259) -/

/-- From `s` to `t` nothing has changed but the account of wear, statistics and events. -/
def State.Wears (s t : State) : Prop :=
  t = { s with stats := t.stats, health := t.health, journal.programmed := t.journal.programmed, journal.worn := t.journal.worn }

theorem State.Wears.trans {s t v : State} (h : s.Wears t) (k : t.Wears v) : s.Wears v := by
  unfold State.Wears at *
  refine k.trans ?_
  rw [h]

theorem State.Tells.wears {s t : State} (h : s.Tells t) : s.Wears t := by
  unfold State.Wears
  rw [h]

theorem State.countWear_wears (s : State) : s.Wears s.countWear := by
  unfold State.countWear
  extract_lets near counted _ paid use told _
  have events : paid.Tells told := by
    unfold told
    split
    · exact State.event_eq ..
    · rfl
  exact .trans (t := paid) rfl (events.wears.trans (t := told) rfl)

theorem State.Wears.manages {s t : State} (h : s.Wears t) : s.Manages t := by
  unfold State.Manages
  rw [h]

/-- A page that is programmed is part of the journal. -/
def State.addPage (recs : List JRecord) (s : State) : State :=
  let n := s.journal.pageSeq
  { s with
    journal.programming := none, journal.load := [], journal.timeouts := 0
    journal.nand := s.journal.nand ++ [{ seq := n, block := s.journal.blockNo, recs := recs }], journal.pageSeq := n + 1
    journal.pageInBlock := s.journal.pageInBlock + 1, journal.erased := s.journal.erased.filter (fun x => x != s.journal.blockNo)
    journal.ring := s.journal.ring.map (fun (r : RingRec) =>
      if recs.any (fun x => x.seq == r.rcd.seq) then { r with page := some n } else r) }

theorem State.pageDone_of_none (ok : Bool) (s : State) (idle : s.journal.programming = none) : s.pageDone ok = s := by
  unfold State.pageDone
  rw [idle]

theorem State.pageDone_of_programmed (recs : List JRecord) (s : State) (programs : s.journal.programming = some recs)
    (within : s.journal.pageInBlock + 1 < 64) : s.pageDone true = (s.addPage recs).countWear.startPage := by
  have inner : (s.addPage recs).countWear.journal.pageInBlock ≠ 64 := by
    rw [State.countWear_wears (s.addPage recs)]
    exact Nat.ne_of_lt within
  unfold State.pageDone
  rw [programs]
  exact congrArg State.startPage (if_neg inner)

theorem State.pageDone_of_failed (recs : List JRecord) (s : State) (programs : s.journal.programming = some recs) :
    let freed : State := { s with journal.programming := none, journal.load := [], journal.timeouts := 0 }
    s.pageDone false = ((freed.stat 0x4860 0 4 1).retireBlock s.journal.blockNo 1).startPage := by
  unfold State.pageDone
  rw [programs]
  rfl

theorem State.pageProgrammed_spec (recs : List JRecord) (s : State) (programs : s.journal.programming = some recs)
    (within : s.journal.pageInBlock + 1 < 64) :
    let t := s.pageDone true
    t.journal.nand = s.journal.nand ++ [{ seq := s.journal.pageSeq, block := s.journal.blockNo, recs := recs }] ∧
    t.journal.pageSeq = s.journal.pageSeq + 1 ∧ t.journal.pageInBlock = s.journal.pageInBlock + 1 ∧
    t.journal.bad = s.journal.bad ∧ s.Manages t := by
  intro t
  have run : t = _ := State.pageDone_of_programmed recs s programs within
  have wears := State.countWear_wears (s.addPage recs)
  have pages := State.startPage_pages (s.addPage recs).countWear
  rw [← run] at pages
  exact ⟨(congrArg (fun t => t.journal.nand) pages).trans (congrArg (fun t => t.journal.nand) wears),
    (congrArg (fun t => t.journal.pageSeq) pages).trans (congrArg (fun t => t.journal.pageSeq) wears),
    (congrArg (fun t => t.journal.pageInBlock) pages).trans (congrArg (fun t => t.journal.pageInBlock) wears),
    (congrArg (fun t => t.journal.bad) pages).trans (congrArg (fun t => t.journal.bad) wears),
    .trans (t := s.addPage recs) rfl (wears.manages.trans pages.rings.tends.manages)⟩

theorem State.pageFailed_spec (recs : List JRecord) (s : State) (programs : s.journal.programming = some recs) :
    let t := s.pageDone false
    t.journal.bad = s.journal.bad ++ [s.journal.blockNo] ∧ t.journal.retired = s.journal.retired + 1 ∧
    t.journal.tableGen = s.journal.tableGen + 1 ∧
    t.journal.nand = s.journal.nand.filter (fun p => p.block != s.journal.blockNo) ∧ s.Manages t := by
  intro t
  let freed : State := { s with journal.programming := none, journal.load := [], journal.timeouts := 0 }
  let counted := freed.stat 0x4860 0 4 1
  have run : t = (counted.retireBlock s.journal.blockNo 1).startPage := State.pageDone_of_failed recs s programs
  have retired := (State.retireBlock_tends s.journal.blockNo 1 counted).trans (State.startPage_pages _).rings.tends
  rw [← run] at retired
  exact ⟨congrArg (fun t => t.journal.bad) retired, congrArg (fun t => t.journal.retired) retired,
    congrArg (fun t => t.journal.tableGen) retired, congrArg (fun t => t.journal.nand) retired,
    .trans (t := counted.delist s.journal.blockNo) rfl retired.manages⟩

/-! ### BLOCK_ERASED (R254, R256) -/

theorem State.blockDone_of_none (ok : Bool) (s : State) (idle : s.journal.erasing = none) : s.blockDone ok = s := by
  unfold State.blockDone
  rw [idle]

theorem State.blockErased_spec (b : Nat) (s : State) (erases : s.journal.erasing = some b) :
    let t := s.blockDone true
    t.journal.nand = s.journal.nand.filter (fun p => p.block != b) ∧ b ∈ t.journal.erased ∧ t.journal.erasing ≠ some b ∧
    t.journal.bad = s.journal.bad ∧ t = { s with journal := t.journal, health := t.health } := by
  intro t
  let clean : State := { s with
    journal.erasing := none, journal.timeouts := 0, journal.nand := s.journal.nand.filter (fun p => p.block != b)
    journal.erased := s.journal.erased ++ [b] }
  have run : t = clean.eraseAhead.startPage := by
    unfold t State.blockDone
    rw [erases]
    rfl
  have ahead := State.eraseAhead_eq clean
  have pages := State.startPage_pages clean.eraseAhead
  rw [← run] at pages
  have stands : b ∈ clean.journal.erased := List.mem_append_right _ (List.mem_singleton.mpr rfl)
  have kept : t.journal.erased = clean.journal.erased :=
    (congrArg (fun t => t.journal.erased) pages).trans (congrArg (fun t => t.journal.erased) ahead)
  refine ⟨(congrArg (fun t => t.journal.nand) pages).trans (congrArg (fun t => t.journal.nand) ahead), kept ▸ stands, ?_,
    (congrArg (fun t => t.journal.bad) pages).trans (congrArg (fun t => t.journal.bad) ahead), ?_⟩
  · have erasing : t.journal.erasing = clean.eraseAhead.journal.erasing := congrArg (fun t => t.journal.erasing) pages
    rw [erasing]
    exact State.eraseAhead_erasing b clean rfl stands
  · rw [pages, ahead]

theorem State.blockFailed_spec (b : Nat) (s : State) (erases : s.journal.erasing = some b) :
    (s.blockDone false).journal.bad = s.journal.bad ++ [b] ∧ s.Manages (s.blockDone false) := by
  let freed : State := { s with journal.erasing := none, journal.timeouts := 0 }
  let counted := freed.stat 0x4860 0 5 1
  have run : s.blockDone false = counted.retireBlock b 2 := by
    unfold State.blockDone
    rw [erases]
    rfl
  rw [run]
  exact ⟨congrArg (fun t => t.journal.bad) (State.retireBlock_tends b 2 counted),
    .trans (t := counted) rfl (State.retireBlock_manages b 2 counted)⟩

end Sys2Proof.Machine

open Sys2Proof Sys2Proof.Machine

/-- Settles O41: a record taken stands at the end of the ring (`State.recordTaken_spec`), a flush marks and starts a page
(`State.flushAll_spec`), a page joins the journal or its block is retired (`State.pageProgrammed_spec`, `State.pageFailed_spec`), and
so with an erase (`State.blockErased_spec`, `State.blockFailed_spec`). -/
theorem journalRecordsAndFlushes : Obligations.JournalRecordsAndFlushes := by
  intro s dt cls dseq r rest d line recs b u v took need
  refine ⟨fun works waits => next_whenUp_eq works (State.journalTake_of_waiting u waits),
    fun works yields empty => next_whenUp_eq works (State.journalTake_of_empty u yields empty),
    fun works yields head => ⟨fun closed => next_whenUp_eq works (State.journalTake_of_closed yields head closed),
      fun enabled open_ full => next_whenUp_eq works (State.journalTake_of_full yields head enabled open_ full),
      fun enabled open_ room => ⟨_, next_whenUp_eq works (State.journalTake_of_room yields head enabled open_ room),
        State.recordTaken_spec cls dseq (journalBody r) rest u⟩⟩,
    fun fabric works delivered => ?_, fun sup works => ?_,
    fun works => ⟨fun idle => ?_, fun programs => ⟨fun within => ?_, ?_⟩, fun idle => ?_, fun erases => ⟨?_, ?_⟩⟩⟩
  · have run : exec (.journalFlush dt) s = .next v.flushAll := by
      refine (next_whenUp _ fabric).trans (congrArg _ ?_)
      rw [State.withDispatch_of 0x0700 _ u d line delivered]
      exact State.whenUp_of domDram State.flushAll v works
    exact ⟨fun still => run.trans (congrArg _ (State.flushAll_of_still v still)),
      fun recording => ⟨_, run, State.flushAll_spec v recording⟩⟩
  · have run : exec (.flushNow dt) s = .next u.flushAll :=
      (next_whenUp _ sup).trans (congrArg _ (State.whenUp_of domDram State.flushAll u works))
    exact ⟨fun still => run.trans (congrArg _ (State.flushAll_of_still u still)),
      fun recording => ⟨_, run, State.flushAll_spec u recording⟩⟩
  · exact ⟨next_whenUp_eq works (State.pageDone_of_none true u idle),
      next_whenUp_eq works (State.pageDone_of_none false u idle)⟩
  · exact ⟨_, next_whenUp_eq works rfl, State.pageProgrammed_spec recs u programs within⟩
  · exact ⟨_, next_whenUp_eq works rfl, State.pageFailed_spec recs u programs⟩
  · exact ⟨next_whenUp_eq works (State.blockDone_of_none true u idle),
      next_whenUp_eq works (State.blockDone_of_none false u idle)⟩
  · exact ⟨_, next_whenUp_eq works rfl, State.blockErased_spec b u erases⟩
  · exact ⟨_, next_whenUp_eq works rfl, State.blockFailed_spec b u erases⟩
end

section
/-! PROOF. The NAND device of the felt journal (R248, R252, R255 to R258): an operation that times out, a mount, a format, and
the format that a client commands. -/

namespace Sys2Proof.Machine

open Sys2Proof

/-- An event is the same whatever the journal. -/
theorem State.event_health_of_journal (c a b : Nat) (x : Journal) (s : State) :
    (({ s with journal := x } : State).event c a b).health = (s.event c a b).health := by
  have raised : ∀ kind astate, (({ s with journal := x } : State).raiseKind kind astate c a b).health =
      (s.raiseKind kind astate c a b).health := by
    intro kind astate
    unfold State.raiseKind
    dsimp only
    rw [apply_ite State.health, apply_ite State.health]
    rfl
  unfold State.event
  split
  · exact raised 0 0
  · exact raised 1 1

/-! ### NAND_TIMEOUT (R256) -/

/-- An operation that has timed out is counted, by itself and in the run of those in a row. -/
def State.countTimeout (s : State) : State :=
  { s.stat 0x4860 0 5 1 with journal.timeouts := s.journal.timeouts + 1 }

theorem State.nandTimeout_of_idle (op : NandOp) (s : State)
    (idle : s.journal.state = 0 ∨ s.journal.state = 6 ∨ s.journal.state = 7 ∨ s.nandLate op = false) :
    s.nandTimeout op = s := if_pos idle

section
variable {s : State} {op : NandOp} (enabled : s.journal.state ≠ 0) (present : s.journal.state ≠ 6)
  (sound : s.journal.state ≠ 7)

include enabled present sound

theorem State.acts_of_late (late : s.nandLate op = true) :
    ¬ (s.journal.state = 0 ∨ s.journal.state = 6 ∨ s.journal.state = 7 ∨ s.nandLate op = false) := by
  rintro (h | h | h | h)
  · exact enabled h
  · exact present h
  · exact sound h
  · exact Bool.false_ne_true (h.symm.trans late)

theorem State.nandTimeout_of_third (late : s.nandLate op = true) (third : 2 ≤ s.journal.timeouts) :
    s.nandTimeout op = s.countTimeout.journalFails := by
  unfold State.nandTimeout
  rw [if_neg (State.acts_of_late enabled present sound late)]
  exact if_pos (Nat.succ_le_succ third)

theorem State.nandTimeout_read (b : Nat) (few : s.journal.timeouts < 2) : s.nandTimeout (.read b) =
    if 2 ≤ b ∧ b < s.journal.blocks ∧ s.journal.bad.contains b = false then s.countTimeout.retireBlock b 3
    else s.countTimeout := by
  unfold State.nandTimeout
  rw [if_neg (State.acts_of_late enabled present sound rfl)]
  exact if_neg (Nat.not_le.mpr (Nat.succ_lt_succ few))

end

/-! ### Mounts and formats (R248, R258) -/

/-- The state in which a start marker has been written where one is due. -/
theorem State.recordingBegun_spec (s : State) : let t := (s.setJournal 3).startMarker
    s.Tends t ∧ t.journal.state = 3 ∧ s.journal.nextSeq ≤ t.journal.nextSeq := by
  intro t
  have entered := State.setJournal_tells 3 s
  obtain ⟨rings, next⟩ := State.startMarker_spec (s.setJournal 3)
  have kept : (s.setJournal 3).journal.nextSeq = s.journal.nextSeq := congrArg (fun t => t.journal.nextSeq) entered
  exact ⟨(State.setJournal_tends 3 s).trans rings.tends,
    (congrArg (fun t => t.journal.state) rings).trans (congrArg (fun t => t.journal.state) entered), kept ▸ next⟩

/-- With good blocks enough, what begins to record goes on. -/
theorem State.judgeBlocks_of_begun (s : State) (enough : 16 ≤ s.journal.blocks - s.journal.bad.length)
    (few : 1000 * s.journal.retired ≤ s.cn 0x3800 8 0 * s.journal.blocks) :
    (s.setJournal 3).startMarker.judgeBlocks = (s.setJournal 3).startMarker := by
  obtain ⟨tends, -, -⟩ := State.recordingBegun_spec s
  refine State.judgeBlocks_of_good _ ?_ ?_
  · rw [tends]; exact enough
  · rw [tends]; exact few

theorem State.formatDone_of_other (s : State) (other : s.journal.state ≠ 2) : s.formatDone = s := if_pos other

theorem State.formatDone_spec (s : State) (formats : s.journal.state = 2)
    (enough : 16 ≤ s.journal.blocks - s.journal.bad.length)
    (few : 1000 * s.journal.retired ≤ s.cn 0x3800 8 0 * s.journal.blocks) :
    let t := s.formatDone
    s.Manages t ∧ t.journal.state = 3 ∧ t.journal.formatId = s.count.toNat % 2 ^ 32 ∧
    t.journal.tableGen = s.journal.tableGen + 1 ∧ t.journal.nand = s.journal.nand := by
  intro t
  let ready : State := { s with
    journal.formatId := s.count.toNat % 2 ^ 32, journal.tableGen := s.journal.tableGen + 1, journal.startReason := some 2
    journal.blockNo := (s.nextBlock 1).1, journal.pageInBlock := 0, journal.pageSeq := 1, journal.passes := 0
    journal.erased := (s.nextBlock 1).1 :: s.blocksAhead (s.nextBlock 1).1 }
  have run : t = (ready.setJournal 3).startMarker :=
    (if_neg (not_not_intro formats)).trans (State.judgeBlocks_of_begun ready enough few)
  obtain ⟨tends, state, -⟩ := State.recordingBegun_spec ready
  rw [← run] at tends state
  exact ⟨.trans (t := ready) rfl tends.manages, state, congrArg (fun t => t.journal.formatId) tends,
    congrArg (fun t => t.journal.tableGen) tends, congrArg (fun t => t.journal.nand) tends⟩

/-- A format empties the journal, and numbers what stays in the ring anew. -/
theorem State.beginFormat_spec (keepRing : Bool) (s : State) : let t := s.beginFormat keepRing
    s.Manages t ∧ t.journal.state = 2 ∧ t.journal.nand = [] ∧
    t.journal.ring = renumberRing 1 (if keepRing then s.journal.ring else []) ∧
    t.journal.nextSeq = 1 + (if keepRing then s.journal.ring else []).length ∧
    (journalAlert s.journal.state = none → t.health = s.health) := by
  intro t
  let emptied : State := { s with
    journal.nand := [], journal.retired := 0, journal.programming := none, journal.load := [], journal.erasing := none
    journal.flushTo := 0, journal.early := false, journal.ring := if keepRing then s.journal.ring else [] }
  have entered := State.setJournal_tells 2 emptied
  have ring : (emptied.setJournal 2).journal.ring = if keepRing then s.journal.ring else [] :=
    congrArg (fun t => t.journal.ring) entered
  refine ⟨.trans (t := emptied) rfl (.trans (State.setJournal_tends 2 emptied).manages rfl),
    congrArg (fun t => t.journal.state) entered, congrArg (fun t => t.journal.nand) entered,
    congrArg (renumberRing 1) ring, congrArg (fun l => 1 + l.length) ring, fun quiet => ?_⟩
  exact (congrArg (fun t => t.health) (State.setJournal_of_quiet 2 emptied quiet rfl) : (emptied.setJournal 2).health = _)

/-! ### MOUNT_COMPLETE (R248, R252, R255, R256) -/

theorem le_foldl_max (l : List JRecord) (a : Nat) : a ≤ l.foldl (fun (a : Nat) r => Nat.max a r.seq) a ∧
    ∀ r ∈ l, r.seq ≤ l.foldl (fun (a : Nat) r => Nat.max a r.seq) a := by
  induction l generalizing a with
  | nil => exact ⟨Nat.le_refl a, nofun⟩
  | cons x l ih =>
    obtain ⟨start, rest⟩ := ih (Nat.max a x.seq)
    refine ⟨(Nat.le_max_left ..).trans start, fun r mem => ?_⟩
    rcases List.mem_cons.mp mem with rfl | mem
    · exact (Nat.le_max_right ..).trans start
    · exact rest r mem

theorem State.mount_of_mounted (f : MountFound) (s : State) (mounted : s.journal.state ≠ 1)
    (stays : f.answered = true ∨ s.journal.state < 3 ∨ 5 < s.journal.state) : s.mount f = s := by
  refine (if_pos mounted).trans (if_neg ?_)
  rintro ⟨silent, low, high⟩
  rcases stays with answered | early | late
  · exact Bool.false_ne_true (silent.symm.trans answered)
  · omega
  · omega

theorem State.mount_of_silent (f : MountFound) (s : State) (low : 3 ≤ s.journal.state) (high : s.journal.state ≤ 5)
    (silent : f.answered = false) : s.mount f = s.journalFails :=
  (if_pos (by omega)).trans (if_pos ⟨silent, low, high⟩)

section
variable {s : State} {f : MountFound} (mounts : s.journal.state = 1)

include mounts

/-- Without a device that is supported the ring alone is the journal, and an alert says so. -/
theorem State.mount_of_unsupported (unsupported : f.answered = false ∨ supportedNand f = false) :
    s.Manages (s.mount f) ∧ (s.mount f).journal.state = 6 ∧ (s.mount f).health = (s.event 0xA004 0 0).health := by
  have run : s.mount f = (s.setJournal 6).startMarker := (if_neg (not_not_intro mounts)).trans (if_pos unsupported)
  have entered := State.setJournal_tells 6 s
  obtain ⟨rings, -⟩ := State.startMarker_spec (s.setJournal 6)
  have alert : s.setJournal 6 = ({ s with journal.state := 6 } : State).event 0xA004 0 0 := by
    unfold State.setJournal
    rw [if_neg (by omega), mounts]
    rfl
  rw [run]
  refine ⟨.trans (State.setJournal_tends 6 s).manages rings.tends.manages,
    (congrArg (fun t => t.journal.state) rings).trans (congrArg (fun t => t.journal.state) entered), ?_⟩
  refine (congrArg State.health rings).trans ((congrArg State.health alert).trans ?_)
  exact State.event_health_of_journal 0xA004 0 0 { s.journal with state := 6 } s

theorem State.mount_of_blank (answered : f.answered = true) (supported : supportedNand f = true)
    (blank : f.tableValid = false) :
    s.Manages (s.mount f) ∧ (s.mount f).journal.state = 2 ∧ (s.mount f).journal.nand = [] ∧
    (s.mount f).journal.nextSeq = 1 + s.journal.ring.length ∧ (s.mount f).health = s.health := by
  let found : State := { s with
    journal.capacity := f.capacity, journal.pageSize := f.pageSize, journal.blocks := f.blocks, journal.bad := f.bad
    journal.timeouts := 0 }
  have run : s.mount f = found.beginFormat true := by
    unfold State.mount
    rw [if_neg (not_not_intro mounts), if_neg (by simp [answered, supported])]
    exact if_pos blank
  obtain ⟨manages, state, nand, -, next, quiet⟩ := State.beginFormat_spec true found
  rw [run]
  exact ⟨.trans (t := found) rfl manages, state, nand, next, quiet (congrArg journalAlert mounts)⟩

/-- A journal that is found is what the device holds, numbered on from it. -/
theorem State.mount_of_table (answered : f.answered = true) (supported : supportedNand f = true) (valid : f.tableValid = true) :
    ∃ m : State, s.mount f = ((m.setJournal 3).startMarker).judgeBlocks.eraseAhead ∧ s.Manages m ∧
      m.journal.nand = f.pages ∧ m.journal.formatId = f.formatId ∧ m.journal.bad = f.bad ∧ m.journal.blocks = f.blocks ∧
      m.journal.retired = f.retired ∧ ∀ r ∈ nandRecs f.pages, r.seq < m.journal.nextSeq := by
  unfold State.mount
  rw [if_neg (not_not_intro mounts), if_neg (by simp [answered, supported])]
  extract_lets _ found highest page _ table numbered moved here _ ready
  have tends : numbered.Tends moved := by
    unfold moved
    split <;> rfl
  have next : highest < moved.journal.nextSeq := by
    have same : moved.journal.nextSeq = numbered.journal.nextSeq := by
      unfold moved
      split <;> rfl
    rw [same]
    change highest < Nat.max _ (highest + 1) + _
    exact Nat.lt_add_right _ (Nat.le_max_right ..)
  refine ⟨ready, if_neg (by rw [valid]; decide), .trans (t := numbered) rfl (tends.manages.trans rfl),
    congrArg (fun t => t.journal.nand) tends, congrArg (fun t => t.journal.formatId) tends,
    congrArg (fun t => t.journal.bad) tends, congrArg (fun t => t.journal.blocks) tends,
    congrArg (fun t => t.journal.retired) tends, fun r mem => ?_⟩
  exact Nat.lt_of_le_of_lt ((le_foldl_max (nandRecs f.pages) 0).2 r mem) next

/-- A journal that is found, with good blocks enough, is recorded on. -/
theorem State.mount_spec (answered : f.answered = true) (supported : supportedNand f = true) (valid : f.tableValid = true)
    (enough : 16 ≤ f.blocks - f.bad.length) (few : 1000 * f.retired ≤ s.cn 0x3800 8 0 * f.blocks)
    (overwrites : s.cn 0x3800 5 0 = 0) :
    s.Manages (s.mount f) ∧ (s.mount f).journal.state = 3 ∧ (s.mount f).journal.nand = f.pages ∧
    (s.mount f).journal.formatId = f.formatId ∧ (s.mount f).journal.bad = f.bad ∧
    ∀ g ∈ f.pages, ∀ r ∈ g.recs, r.seq < (s.mount f).journal.nextSeq := by
  obtain ⟨m, run, manages, nand, formatId, bad, blocks, retired, below⟩ :=
    State.mount_of_table mounts answered supported valid
  let begun := (m.setJournal 3).startMarker
  obtain ⟨tends, state, next⟩ := State.recordingBegun_spec m
  have config (sub : Nat) : m.cn 0x3800 sub 0 = s.cn 0x3800 sub 0 := by rw [manages]; rfl
  have good : begun.judgeBlocks = begun :=
    State.judgeBlocks_of_begun m (by rw [blocks, bad]; exact enough) (by rw [retired, blocks, config]; exact few)
  have begunOverwrites : begun.cn 0x3800 5 0 = 0 :=
    (congrArg (fun t : State => t.cn 0x3800 5 0) tends).trans ((config 5).trans overwrites)
  have ahead := State.eraseAhead_eq begun
  rw [run, good]
  have tended := tends.trans (State.eraseAhead_tends begun)
  refine ⟨manages.trans tended.manages, (State.eraseAhead_state begun begunOverwrites).trans state,
    (congrArg (fun t => t.journal.nand) tended).trans nand, (congrArg (fun t => t.journal.formatId) tended).trans formatId,
    (congrArg (fun t => t.journal.bad) tended).trans bad, fun g page r mem => ?_⟩
  have kept : begun.eraseAhead.journal.nextSeq = begun.journal.nextSeq := congrArg (fun t => t.journal.nextSeq) ahead
  rw [kept]
  exact (below r (List.mem_flatMap.mpr ⟨g, page, mem⟩)).trans_le next

end

/-! ### JOURNAL_FORMAT (R255 to R257) -/

theorem State.writeObj_journalFormat (n : Nat) (s : State) : s.writeObj n 0x3800 9 [0x4A] = s.inService State.formatNow := rfl

theorem State.formatNow_of_device (s : State) (works : s.works domDram = true) (enabled : s.journal.state ≠ 0)
    (present : s.journal.state ≠ 6) (sound : s.journal.state ≠ 7) : s.formatNow = s.beginFormat false := by
  unfold State.formatNow
  rw [if_neg (by omega), State.whenUp_of _ _ _ works]

end Sys2Proof.Machine

open Sys2Proof Sys2Proof.Machine

/-- Settles O42: the third time-out in a row fails the device (`State.journalFails_spec`) and a block that cannot be read is retired
before that (`State.retireBlock_tends`); a mount finds no device, a blank one or the journal it holds
(`State.mount_of_unsupported`, `State.mount_of_blank`, `State.mount_spec`); a format ends in recording (`State.formatDone_spec`), and
by command empties journal and ring (`State.beginFormat_spec`). -/
theorem journalDevice : Obligations.JournalDevice := by
  intro s dt n b f op who u j frame
  refine ⟨fun works => ⟨fun idle => next_whenUp_eq works (State.nandTimeout_of_idle op u idle),
    fun enabled present sound => ⟨fun late third => ?_, fun few => ⟨fun gone => ?_, fun inner within good => ?_⟩⟩,
    fun mounted stays => next_whenUp_eq works (State.mount_of_mounted f u mounted stays), fun low high silent => ?_,
    fun mounts => ⟨fun unsupported => ?_, fun answered supported blank => ?_,
      fun answered supported valid enough few overwrites => ?_⟩,
    fun other => next_whenUp_eq works (State.formatDone_of_other u other), fun formats enough few => ?_⟩,
    fun admitted => ⟨fun other => ?_, fun service works enabled present sound => ?_⟩⟩
  · obtain ⟨tends, state, programming, erasing⟩ := State.journalFails_spec u.countTimeout
    exact ⟨_, next_whenUp_eq works (State.nandTimeout_of_third enabled present sound late third),
      State.Manages.trans (t := u.countTimeout) rfl tends.manages, state, programming, erasing,
      congrArg (fun t => t.journal.timeouts) tends⟩
  · have run : u.nandTimeout (.read b) = u.countTimeout := by
      rw [State.nandTimeout_read enabled present sound b few, if_neg]
      rintro ⟨inner, within, good⟩
      rcases gone with outer | beyond | bad
      · exact Nat.not_le.mpr outer inner
      · exact Nat.not_le.mpr within beyond
      · exact Bool.false_ne_true (good.symm.trans (List.contains_iff_mem.mpr bad))
    exact ⟨_, next_whenUp_eq works run, rfl, rfl, rfl⟩
  · have run : u.nandTimeout (.read b) = u.countTimeout.retireBlock b 3 := by
      rw [State.nandTimeout_read enabled present sound b few]
      exact if_pos ⟨inner, within, Bool.eq_false_iff.mpr fun bad => good (List.contains_iff_mem.mp bad)⟩
    have retired := State.retireBlock_tends b 3 u.countTimeout
    exact ⟨_, next_whenUp_eq works run, State.Manages.trans (t := u.countTimeout) rfl (State.retireBlock_manages b 3 _),
      congrArg (fun t => t.journal.bad) retired, congrArg (fun t => t.journal.retired) retired⟩
  · obtain ⟨tends, state, -⟩ := State.journalFails_spec u
    exact ⟨_, next_whenUp_eq works (State.mount_of_silent f u low high silent), tends.manages, state⟩
  · exact ⟨_, next_whenUp_eq works rfl, State.mount_of_unsupported mounts unsupported⟩
  · exact ⟨_, next_whenUp_eq works rfl, State.mount_of_blank mounts answered supported blank⟩
  · exact ⟨_, next_whenUp_eq works rfl, State.mount_spec mounts answered supported valid enough few overwrites⟩
  · exact ⟨_, next_whenUp_eq works rfl, State.formatDone_spec u formats enough few⟩
  · exact next_access_of_admitted admitted
      ((State.writeObj_journalFormat n _).trans (State.inService_of_other _ (u.accessed who n) other))
  · let found := u.accessed who n
    have run : found.writeObj n 0x3800 9 [0x4A] = granted (found.beginFormat false) := by
      rw [State.writeObj_journalFormat, State.inService_of_mode _ found service]
      exact congrArg granted (State.formatNow_of_device found works enabled present sound)
    obtain ⟨manages, state, nand, ring, -, -⟩ := State.beginFormat_spec false found
    refine ⟨_, next_access_of_admitted admitted run, rfl, state, nand, ring, ?_⟩
    rw [manages]
    rfl
end

section
/-! PROOF. O1 and O2: a step runs the command at the front of the queue, and every command has an effect. -/

namespace Sys2Proof.Machine

open Sys2Proof

/-! ### What no bus can carry, and what stands in its place (log entry 9) -/

/-- The frame put in the place of any other is one that a bus can carry. -/
theorem legalFrame_wellFormed (n : Nat) (f : CanFrame) : (legalFrame n f).wellFormed = true := by
  unfold legalFrame
  split
  · assumption
  · have bound : n % (if f.ext then 2 ^ 29 else 2 ^ 11) < (if f.ext then 2 ^ 29 else 2 ^ 11) :=
      Nat.mod_lt _ (by split <;> norm_num)
    have id : (if f.id < (if f.ext then 2 ^ 29 else 2 ^ 11) then f.id else n % (if f.ext then 2 ^ 29 else 2 ^ 11)) <
        (if f.ext then 2 ^ 29 else 2 ^ 11) := by
      by_cases low : f.id < (if f.ext then 2 ^ 29 else 2 ^ 11)
      · rw [if_pos low]; exact low
      · rw [if_neg low]; exact bound
    have data : (if f.remote then [] else if f.data.length ≤ 8 then f.data else leBytes 8 n).length ≤ 8 := by
      split
      · exact Nat.zero_le _
      · split
        · assumption
        · exact (length_leBytes 8 n).le
    have empty : (!f.remote || (if f.remote then [] else if f.data.length ≤ 8 then f.data else leBytes 8 n).isEmpty) = true := by
      cases f.remote <;> rfl
    simp only [CanFrame.wellFormed, Bool.and_eq_true, decide_eq_true_eq]
    exact ⟨⟨data, id⟩, empty⟩

theorem legalFrame_of_wellFormed {n : Nat} {f : CanFrame} (h : f.wellFormed = true) : legalFrame n f = f := if_pos h

theorem State.elapse_spend (dt : Nat) (b : Bool) (s : State) : (s.spend b).elapse dt = (s.elapse dt).spend b := by
  cases b
  · rfl
  · change (State.elapse dt { s with free := s.free + 1 }) = { s.elapse dt with free := (s.elapse dt).free + 1 }
    unfold State.elapse
    change (if s.up domFabric then _ else _) = _
    split <;> rfl

theorem State.notices_useFree (q n : Nat) (s : State) : s.useFree.notices q n = (s.notices q n).useFree := by
  unfold State.notices
  by_cases none : n = 0
  · rw [if_pos none, if_pos none]
  · rw [if_neg none, if_neg none]
    dsimp only
    rw [apply_ite State.useFree]
    rfl

theorem State.passed_useFree (q n : Nat) (s : State) : s.useFree.passed q n = (s.passed q n).useFree := by
  unfold State.passed
  rw [State.notices_useFree, apply_ite State.useFree]
  rfl

/-- A request frame is taken from its receive object alike before and after a free value is used up. -/
theorem State.takeSdo_spend (b : Bool) (s : State) : (s.spend b).takeSdo = s.takeSdo.spend b := by
  cases b
  · rfl
  · change s.useFree.takeSdo = s.takeSdo.useFree
    unfold State.takeSdo
    by_cases serves : s.serves = true
    · have kept : s.useFree.serves = true := serves
      rw [if_pos serves, if_pos kept]
      exact State.passed_useFree 0x4D ((s.cp 2).supIn.filter (fun f => f.id == 0x600 + s.nodeId)).length
        (s.modCp 2 (fun c => { c with supIn := c.supIn.filter (fun f => !(f.id == 0x600 + s.nodeId)) }))
    · have kept : ¬ s.useFree.serves = true := serves
      rw [if_neg serves, if_neg kept]

theorem exec_canFrameReceived_legal (s : State) (dt : Nat) (p : Fin 3) (f : CanFrame) :
    exec (.canFrameReceived dt p f) s =
      exec (.canFrameReceived dt p (legalFrame s.freeNat f)) (s.spend (!f.wellFormed)) := by
  have good := legalFrame_wellFormed s.freeNat f
  change Host.Outcome.next _ = Host.Outcome.next _
  rw [good, legalFrame_of_wellFormed good, State.elapse_spend]
  rfl

/-- Data that the manual does not give stand in the place of those that no frame can carry; those that one can carry are
used. -/
theorem exec_sdoExpeditedDownload_legal (s : State) (dt : Nat) (index : BitVec 16) (sub : Byte) (sized : Bool) (data four : List Byte)
    (given : four = if expeditedWellFormed sized data then data else leBytes 4 s.freeNat)
    (good : expeditedWellFormed sized four = true) :
    exec (.sdoExpeditedDownload dt index sub sized data) s =
      exec (.sdoExpeditedDownload dt index sub sized four) (s.spend (!expeditedWellFormed sized data)) := by
  change Host.Outcome.next _ = Host.Outcome.next _
  rw [good, State.elapse_spend, State.takeSdo_spend, given]
  rfl

theorem exec_sdoDownloadSegment_legal (s : State) (dt : Nat) (toggle last : Bool) (data seven : List Byte)
    (given : seven = if segmentWellFormed data then data else leBytes 7 s.freeNat) (good : segmentWellFormed seven = true) :
    exec (.sdoDownloadSegment dt toggle last data) s =
      exec (.sdoDownloadSegment dt toggle last seven) (s.spend (!segmentWellFormed data)) := by
  change Host.Outcome.next _ = Host.Outcome.next _
  rw [good, State.elapse_spend, State.takeSdo_spend, given]
  rfl

end Sys2Proof.Machine

open Sys2Proof Sys2Proof.Machine

/-- Settles O1: `step` is the match on the queue. -/
theorem stepRunsTheFrontCommand : Obligations.StepRunsTheFrontCommand := by
  refine ⟨fun c s => rfl, fun s empty => ?_⟩
  unfold step
  rw [empty]

/-- Settles O2: every command follows its moment (`exec_follows`), and the operation of a command with a frame or data that no
bus can carry is that of one with those of `legalFrame`, or with free bytes in their place. -/
theorem wellFormedCommandsRun : Obligations.WellFormedCommandsRun := by
  refine ⟨fun c s => ?_, fun s dt index sub sized toggle last data p f => ?_⟩
  · obtain ⟨t, run, -⟩ := exec_follows c s
    exact ⟨t, run⟩
  · intro whole part g four seven
    have fits : expeditedWellFormed sized four = true := by
      cases h : expeditedWellFormed sized data with
      | true => exact (congrArg _ (if_pos h)).trans h
      | false =>
        have free : four = leBytes 4 s.freeNat := if_neg (Bool.eq_false_iff.mp h)
        rw [free]
        cases sized <;> rfl
    have fitsSegment : segmentWellFormed seven = true := by
      cases h : segmentWellFormed data with
      | true => exact (congrArg _ (if_pos h)).trans h
      | false =>
        have free : seven = leBytes 7 s.freeNat := if_neg (Bool.eq_false_iff.mp h)
        rw [free]
        rfl
    exact ⟨legalFrame_wellFormed _ _, exec_canFrameReceived_legal s dt p f, fits,
      exec_sdoExpeditedDownload_legal s dt index sub sized data four rfl fits, fitsSegment,
      exec_sdoDownloadSegment_legal s dt toggle last data seven rfl fitsSegment⟩
end

section
/-! PROOF. O6: the content of a sealed configuration is read back entry by entry (R337, R265, Table 15.8). -/

namespace Sys2Proof

/-! ### Bytes of numbers (R4) -/

theorem leNat_leBytes (n v : Nat) : leNat (leBytes n v) = v % 256 ^ n := by
  induction n generalizing v with
  | zero => rw [pow_zero, Nat.mod_one]; rfl
  | succ n ih =>
    change (BitVec.ofNat 8 v).toNat + 256 * leNat (leBytes n (v / 256)) = _
    rw [ih, BitVec.toNat_ofNat, pow_succ' 256 n, Nat.mod_mul (x := v) (a := 256) (b := 256 ^ n)]

theorem leNat_leBytes_of_lt {n v : Nat} (h : v < 256 ^ n) : leNat (leBytes n v) = v := by
  rw [leNat_leBytes, Nat.mod_eq_of_lt h]

/-- A signed number is read back from its two's complement. -/
theorem toSigned_ofSigned {w : Nat} {x : Int} (pos : 0 < w) (low : -(2 ^ (w - 1) : Int) ≤ x) (high : x < 2 ^ (w - 1)) :
    toSigned w (ofSigned w x) = x := by
  unfold toSigned ofSigned
  rw [BitVec.ofNat_toNat, BitVec.setWidth_eq]
  exact BitVec.toInt_ofInt_eq_self pos low high

theorem ofSigned_lt (w : Nat) (x : Int) : ofSigned w x < 2 ^ w := (BitVec.ofInt w x).isLt

namespace Machine

/-! ### Values (R265) -/

/-- A value that its type holds is read back from its bytes. -/
theorem Ty.decode_encode {t : Ty} {v : Val} (fits : Val.fits t v) : t.decode (t.encode v) = v := by
  cases t with
  | uns n =>
    cases v with
    | num x =>
      obtain ⟨-, low, high⟩ := fits
      have bound : x.toNat < 256 ^ n := by zify; rw [Int.toNat_of_nonneg low]; exact high
      change Val.num (leNat (leBytes n x.toNat)) = _
      rw [leNat_leBytes_of_lt bound, Int.toNat_of_nonneg low]
    | bytes b => exact fits.elim
  | int n =>
    cases v with
    | num x =>
      obtain ⟨pos, -, low, high⟩ := fits
      have bound : ofSigned (8 * n) x < 256 ^ n := (ofSigned_lt (8 * n) x).trans_eq (pow_mul 2 8 n)
      change Val.num (toSigned (8 * n) (leNat (leBytes n (ofSigned (8 * n) x)))) = _
      rw [leNat_leBytes_of_lt bound, toSigned_ofSigned (by omega) low high]
    | bytes b => exact fits.elim
  | real32 =>
    cases v with
    | num x =>
      obtain ⟨low, high⟩ := fits
      have bound : x.toNat < 256 ^ 4 := by omega
      change Val.num (leNat (leBytes 4 x.toNat)) = _
      rw [leNat_leBytes_of_lt bound, Int.toNat_of_nonneg low]
    | bytes b => exact fits.elim
  | text m | octets m | domain =>
    cases v with
    | num x => exact fits.elim
    | bytes b => rfl

/-- The bytes of a value that its type holds are no more than the length field of an entry tells. -/
theorem Ty.encode_length {t : Ty} {v : Val} (fits : Val.fits t v) : (t.encode v).length < 0x10000 := by
  cases t with
  | uns n | int n =>
    change (leBytes n _).length < _
    rw [length_leBytes]
    cases v with
    | num x => simp only [Val.fits] at fits; omega
    | bytes b => exact fits.elim
  | real32 => change (leBytes 4 _).length < _; rw [length_leBytes]; omega
  | text m | octets m | domain =>
    cases v with
    | num x => exact fits.elim
    | bytes b => exact fits

/-! ### Entries (Table 15.8) -/

/-- The eight bytes in front of the value of an entry. -/
def entryHead (k : Key) (len : Nat) : List Byte :=
  leBytes 2 k.index ++ leBytes 1 k.sub ++ [0] ++ leBytes 2 (rowField k) ++ leBytes 2 len

theorem entryHead_length (k : Key) (len : Nat) : (entryHead k len).length = 8 := rfl

theorem entryBytes_eq {e : Key × Val} {o : Obj} (found : findObj e.1.index e.1.sub = some o) :
    entryBytes e = entryHead e.1 (o.ty.encode e.2).length ++ (o.ty.encode e.2 ++
      List.replicate ((4 - (o.ty.encode e.2).length % 4) % 4) 0) := by
  unfold entryBytes entryHead
  rw [found]
  simp only [List.append_assoc]

/-- The row of an entry is read back from its row field. -/
theorem row_of_rowField {k : Key} (h : if rowField k = 0xFFFF then k.row = 0 else k.row < 0xFFFF) :
    rowField k < 0x10000 ∧ (if rowField k = 0xFFFF then 0 else rowField k) = k.row := by
  have field : rowField k = k.row ∨ rowField k = 0xFFFF := by
    unfold rowField
    split
    · split
      · exact .inl rfl
      · exact .inr rfl
    · exact .inr rfl
  by_cases none : rowField k = 0xFFFF
  · rw [if_pos none] at h ⊢; omega
  · rw [if_neg none] at h ⊢; omega

/-- What the fields of an entry's head read. -/
theorem entryHead_fields {k : Key} {len : Nat} (index : k.index < 0x10000) (sub : k.sub < 0x100) (row : rowField k < 0x10000)
    (short : len < 0x10000) (rest : List Byte) :
    leNat ((entryHead k len ++ rest).take 2) = k.index ∧ leNat (((entryHead k len ++ rest).drop 2).take 1) = k.sub ∧
      leNat (((entryHead k len ++ rest).drop 4).take 2) = rowField k ∧
      leNat (((entryHead k len ++ rest).drop 6).take 2) = len :=
  ⟨leNat_leBytes_of_lt (n := 2) index, leNat_leBytes_of_lt (n := 1) sub, leNat_leBytes_of_lt (n := 2) row,
    leNat_leBytes_of_lt (n := 2) short⟩

/-- The reader takes an entry off the front of the content and sets its value. -/
theorem readContent_entry {u : UnitId} {e : Key × Val} (ok : sealable u e) (n : Nat) (rest : List Byte) (c : Cfg) :
    readContent u (n + 1) (entryBytes e ++ rest) c = readContent u n rest (Cfg.set u e.1 e.2 c) := by
  obtain ⟨o, found, stored, fits, -, index, sub, row⟩ := ok
  obtain ⟨rowShort, rowBack⟩ := row_of_rowField row
  rw [entryBytes_eq found, List.append_assoc]
  set v := o.ty.encode e.2 with hv
  set pad := List.replicate ((4 - v.length % 4) % 4) (0 : Byte) with hpad
  obtain ⟨readIndex, readSub, readRow, readLen⟩ :=
    entryHead_fields index sub rowShort (Ty.encode_length fits) (v ++ pad ++ rest)
  have enough : ¬ (entryHead e.1 v.length ++ (v ++ pad ++ rest)).length < 8 := by
    rw [List.length_append, entryHead_length]; omega
  have value : ((entryHead e.1 v.length ++ (v ++ pad ++ rest)).drop 8).take v.length = v := by
    rw [List.drop_left' (entryHead_length ..), List.append_assoc, List.take_left']
    rfl
  have after : (entryHead e.1 v.length ++ (v ++ pad ++ rest)).drop (8 + (v.length + 3) / 4 * 4) = rest := by
    have padded : (v.length + 3) / 4 * 4 = (v ++ pad).length := by
      rw [List.length_append, hpad, List.length_replicate]; omega
    rw [← List.drop_drop, List.drop_left' (entryHead_length ..), padded, List.drop_left]
  have back : o.ty.decode v = e.2 := Ty.decode_encode fits
  simp only [readContent]
  rw [if_neg enough, readIndex, readSub, readRow, readLen, value, after, found]
  dsimp only
  rw [if_pos stored, back, rowBack]

/-! ### The whole content -/

/-- A value listed behind all others goes to the end. -/
theorem Cfg.put_of_above {k : Key} {c : Cfg} (v : Val) (above : ∀ x ∈ c, x.1.lt k = true) : Cfg.put k v c = c ++ [(k, v)] := by
  induction c with
  | nil => rfl
  | cons x t ih =>
    obtain ⟨j, w⟩ := x
    have below : j.lt k = true := above (j, w) (.head t)
    have apart : j ≠ k ∧ ¬ k.lt j = true := by
      rw [Key.lt_iff] at below ⊢
      exact ⟨fun e => by subst e; omega, by omega⟩
    change (if j = k then _ else _) = _
    rw [if_neg apart.1, if_neg apart.2, ih (fun y m => above y (.tail _ m))]
    rfl

theorem Cfg.wf_append_cons {a c : Cfg} {e : Key × Val} (h : Cfg.wf (a ++ e :: c) = true) : ∀ x ∈ a, x.1.lt e.1 = true := by
  induction a with
  | nil => exact fun x m => absurd m List.not_mem_nil
  | cons y t ih =>
    obtain ⟨below, rest⟩ := (Cfg.wf_cons y (t ++ e :: c)).mp h
    intro x m
    rcases List.mem_cons.mp m with rfl | m
    · exact below e (List.mem_append_right t (.head c))
    · exact ih rest x m

/-- The entries that are left are read behind those that have been read; an entry takes no more steps than it has bytes. -/
theorem readContent_contentBytes (u : UnitId) (c a : Cfg) (n : Nat) (wf : Cfg.wf (a ++ c) = true) (ok : ∀ e ∈ c, sealable u e)
    (fuel : (contentBytes c).length ≤ n) : readContent u n (contentBytes c) a = a ++ c := by
  induction c generalizing a n with
  | nil =>
    rw [List.append_nil]
    cases n <;> rfl
  | cons e t ih =>
    have okE := ok e (.head t)
    obtain ⟨o, found, -, -, differs, -⟩ := ok e (.head t)
    have head : 8 ≤ (entryBytes e).length := by
      rw [entryBytes_eq found, List.length_append, entryHead_length]; omega
    have split : contentBytes (e :: t) = entryBytes e ++ contentBytes t := rfl
    rw [split, List.length_append] at fuel
    obtain ⟨m, rfl⟩ : ∃ m, n = m + 1 := ⟨n - 1, by omega⟩
    have listed : Cfg.set u e.1 e.2 a = a ++ [e] := (if_neg differs).trans (Cfg.put_of_above e.2 (Cfg.wf_append_cons wf))
    have whole : a ++ [e] ++ t = a ++ e :: t := List.append_assoc a [e] t
    rw [split, readContent_entry okE, listed, ih (a ++ [e]) m (by rw [whole]; exact wf) (fun x h => ok x (.tail _ h)) (by omega),
      whole]

end Machine

end Sys2Proof

open Sys2Proof Sys2Proof.Machine

/-- Settles O6, by induction on the entries: each is read off the front of what is left of the content
(`readContent_entry`) and, as its key is above those read before, listed behind them. -/
theorem sealedContentReadsBack : Obligations.SealedContentReadsBack :=
  fun u c wf ok => readContent_contentBytes u c [] _ wf ok (Nat.le_refl _)
end

section
/-! PROOF. O60 fails: an entry of Surge does not begin a new second where part of one is still to be charged (R356). -/

namespace Sys2Proof.Machine

open Sys2Proof

/-- A unit that settles for Surge again, 2 s after its start, when 1000 cycles that it spent in Surge before have not been
charged yet. -/
def surgeResumed : State :=
  { State.reset with
    fc := 500000000, now := 500000000, power.coreVsel := true, power.settleAt := some 500000000, power.left := 3000,
    power.burned := 1, power.surgePart := 1000 }

theorem surgeResumed_enters : ∃ t, exec (.surgeSettleCheck 0 860) surgeResumed = .next t ∧ t.power.secondAt = 499999000 :=
  ⟨_, rfl, by decide +kernel⟩

end Sys2Proof.Machine

open Sys2Proof Sys2Proof.Machine

/-- Refutes O60: the clause of SURGE_SETTLE_CHECK lets the second of Surge begin at the moment of entry. On `surgeResumed` it begins
1000 cycles before, as the model keeps the part of a second that has not been charged. -/
theorem not_surgeAndTemperature : ¬ Obligations.SurgeAndTemperature := by
  intro claim
  obtain ⟨-, -, -, -, -, -, settled, -⟩ := claim surgeResumed 0 860 0 0 500000000 0 0 0 0 0
  obtain ⟨-, enters⟩ := settled rfl (by decide +kernel)
  have claimed := enters (Nat.le_refl _)
  obtain ⟨t, run, second⟩ := surgeResumed_enters
  have same := Host.Outcome.next.inj (run.symm.trans claimed)
  have now : t.power.secondAt = 500000000 := by
    rw [same]
    decide +kernel
  omega
end

section
/-! PROOF. O51 fails: a unit that becomes standby also ends the persistence of its cross-check (R110, R311). -/

namespace Sys2Proof.Machine

open Sys2Proof

/-- A unit in JOINING with both lanes up, in which the cross-check of its tanks has been out for some time. -/
def joiningInDoubt : State :=
  { State.reset.put [(0x4000, 1, 0, 1), (0x4000, 9, 0, 3)] with
    fc := 500000000, now := 500000000, twin.role := 1, twin.lanes := [(0, true), (1, true)], twin.unitSel := false,
    control.persistence := some 250000000 }

/-- The HELLO of an active unit of the same make, with the other level of UNIT_SEL. -/
def helloOfActive : Hello :=
  { product := 0x2430, revision := 0x00020001, firmware := 0, serial := 1, identity := 1, mode := 0, role := 4, generation := 0 }

theorem joiningInDoubt_hears : ∃ t, exec (.helloReceived 0 helloOfActive) joiningInDoubt = .next t ∧ t.control.persistence = none :=
  ⟨_, rfl, by decide +kernel⟩

end Sys2Proof.Machine

open Sys2Proof Sys2Proof.Machine

/-- Refutes O51: the frame of HELLO_RECEIVED leaves out the control block. On `joiningInDoubt` the HELLO of an active peer makes the
unit standby, which ends the persistence that ran in it. -/
theorem not_linkAndHeartbeat : ¬ Obligations.LinkAndHeartbeat := by
  intro claim
  obtain ⟨-, -, -, -, -, -, -, -, accepted, -⟩ :=
    claim joiningInDoubt 0 0 0 0 helloOfActive ⟨0, 0, 0, 0, 0, 0, 0, 0, 0, 0, 0, 0⟩ (by decide +kernel) (by decide +kernel)
  obtain ⟨t, run, frame, -⟩ := accepted (by decide +kernel) (by decide +kernel) (by decide +kernel)
  obtain ⟨v, hears, ended⟩ := joiningInDoubt_hears
  have same := Host.Outcome.next.inj (hears.symm.trans run)
  have kept : t.control.persistence = some 250000000 := congrArg (fun t => t.control.persistence) frame
  rw [← same, ended] at kept
  exact nomatch kept
end

section
/-! PROOF. O56 fails: the boot ROM judges the bytes that a slot holds, not the facts that come with the command (R331, R333). -/

namespace Sys2Proof.Machine

open Sys2Proof

/-- A unit held by RESET_N. Its boot slot is CONFIRMED and holds one byte, which does not begin the magic number of an image; the
other slot is empty. -/
def heldWithBadImage : State :=
  { State.reset with
    boot.resetN := false, boot.slotA := { state := 4, data := [(0, 0)] }, boot.slotB := {}, boot.bootSlot := 0, boot.vendorHash := 1 }

theorem heldWithBadImage_starts :
    ∃ t, exec (.resetNRelease 0 false false false State.resetImage State.resetImage true) heldWithBadImage = .next t ∧ t.boot.bootRom = true :=
  ⟨_, rfl, by decide +kernel⟩

end Sys2Proof.Machine

open Sys2Proof Sys2Proof.Machine

/-- Refutes O56: a boot slot is said to run where the facts of the command (here `State.resetImage`) pass. On `heldWithBadImage` the slot holds bytes,
from which the model reads the header; they carry no magic number, the slot is REJECTED and the boot ROM alone runs. -/
theorem not_resetAndStart : ¬ Obligations.ResetAndStart := by
  intro claim
  obtain ⟨-, -, -, -, -, released, -⟩ :=
    claim heldWithBadImage 0 0 0 0 .sdo .vddAo false false false true State.resetImage State.resetImage
  obtain ⟨t, run, -, -, -, -, -, -, image⟩ := released rfl rfl rfl
  obtain ⟨runs, -⟩ := image rfl rfl (by decide) (by decide) (by decide +kernel)
  obtain ⟨v, starts, romAlone⟩ := heldWithBadImage_starts
  have same := Host.Outcome.next.inj (run.symm.trans starts)
  rw [same, romAlone] at runs
  exact nomatch runs
end

section
/-! PROOF. What an operation leaves alone, block by block. `State.bare` blots out some blocks of the state: an operation that touches
no others leaves what is left the same, and operations that do are composed by rewriting. -/

namespace Sys2Proof.Machine

open Sys2Proof

/-- A choice of fields of the state. -/
structure Blocks where
  now : Bool := false
  fc : Bool := false
  fabricZero : Bool := false
  free : Bool := false
  cfg : Bool := false
  stats : Bool := false
  wheels : Bool := false
  appts : Bool := false
  carding : Bool := false
  bramble : Bool := false
  control : Bool := false
  serial : Bool := false
  analog : Bool := false
  eth : Bool := false
  can : Bool := false
  canOpen : Bool := false
  fabric : Bool := false
  journal : Bool := false
  dict : Bool := false
  cycle : Bool := false
  health : Bool := false
  twin : Bool := false
  boot : Bool := false
  power : Bool := false
  pending : Bool := false

/-- The state with the chosen fields as they stand in another. -/
def State.patch (F : Blocks) (s t : State) : State where
  now := bif F.now then t.now else s.now
  fc := bif F.fc then t.fc else s.fc
  fabricZero := bif F.fabricZero then t.fabricZero else s.fabricZero
  free := bif F.free then t.free else s.free
  cfg := bif F.cfg then t.cfg else s.cfg
  stats := bif F.stats then t.stats else s.stats
  wheels := bif F.wheels then t.wheels else s.wheels
  appts := bif F.appts then t.appts else s.appts
  carding := bif F.carding then t.carding else s.carding
  bramble := bif F.bramble then t.bramble else s.bramble
  control := bif F.control then t.control else s.control
  serial := bif F.serial then t.serial else s.serial
  analog := bif F.analog then t.analog else s.analog
  eth := bif F.eth then t.eth else s.eth
  can := bif F.can then t.can else s.can
  canOpen := bif F.canOpen then t.canOpen else s.canOpen
  fabric := bif F.fabric then t.fabric else s.fabric
  journal := bif F.journal then t.journal else s.journal
  dict := bif F.dict then t.dict else s.dict
  cycle := bif F.cycle then t.cycle else s.cycle
  health := bif F.health then t.health else s.health
  twin := bif F.twin then t.twin else s.twin
  boot := bif F.boot then t.boot else s.boot
  power := bif F.power then t.power else s.power
  pending := bif F.pending then t.pending else s.pending

/-- The state with the chosen fields blotted out. -/
def State.bare (F : Blocks) (s : State) : State := s.patch F {}

theorem eq_cond_of_cond_eq {α : Type} {b : Bool} {x y z : α} (h : (bif b then z else x) = bif b then z else y) :
    x = bif b then x else y := by
  cases b
  · exact h
  · rfl

/-- Where all but the chosen fields agree, a state is the other with its own in the place of those. -/
theorem State.eq_patch_of_bare {F : Blocks} {s t : State} (h : t.bare F = s.bare F) : t = s.patch F t := by
  refine (State.mk.injEq ..).mpr ?_
  have fields := State.mk.inj h
  revert fields
  iterate 24 refine And.imp eq_cond_of_cond_eq ?_
  exact eq_cond_of_cond_eq

section

variable {F : Blocks} (s : State)

/-- What SUP and the fabric count on the way is blotted out. -/
theorem State.bare_counts (stats : F.stats = true) (fabric : F.fabric = true) (a : Tbl Nat) (b : Fabric) :
    ({ s with stats := a, fabric := b } : State).bare F = s.bare F := by
  unfold State.bare State.patch
  rw [stats, fabric]
  rfl

@[simp] theorem State.stat_bare (stats : F.stats = true) (i x sub n : Nat) : (s.stat i x sub n).bare F = s.bare F := by
  unfold State.bare State.patch
  rw [stats]
  rfl

@[simp] theorem State.modQue_bare (fabric : F.fabric = true) (q : Nat) (f : Queue → Queue) : (s.modQue q f).bare F = s.bare F := by
  unfold State.bare State.patch
  rw [fabric]
  rfl

@[simp] theorem State.pushed_bare (stats : F.stats = true) (fabric : F.fabric = true) (q : Nat) : (s.pushed q).bare F = s.bare F := by
  rw [State.pushed_eq]
  exact s.bare_counts stats fabric ..

@[simp] theorem State.popped_bare (stats : F.stats = true) (fabric : F.fabric = true) (q : Nat) (before : State) :
    (s.popped q before).bare F = s.bare F := by
  rw [State.popped_eq]
  exact s.bare_counts stats fabric ..

@[simp] theorem State.passed_bare (stats : F.stats = true) (fabric : F.fabric = true) (q n : Nat) :
    (s.passed q n).bare F = s.bare F := by
  rw [State.passed_eq]
  exact s.bare_counts stats fabric ..

end

end Sys2Proof.Machine
end

section
/-! PROOF. O48: the SPI target (R275 to R277). A request transaction is discarded, refused or one access; a fetch clocks out the
reply that waits, and consumes it with its last byte. -/

namespace Sys2Proof.Machine

open Sys2Proof

/-! ### Queue 0x085: the reply that waits -/

/-- The last packets of a queue, all visible, leave it without a notice to its consumer. -/
theorem State.popped_stats_of_last (q : Nat) (s before : State) (visible : before.visible q = before.queued q)
    (empty : s.queued q = 0) : (s.popped q before).stats = s.stats := by
  have none_left (f : Queue → Queue) : (s.modQue q f).visible q = 0 := by
    have left : (s.modQue q f).queued q = 0 := empty
    unfold State.visible State.committedOf
    rw [left]
    dsimp only
    split
    · exact Nat.zero_min _
    · split
      · exact Nat.zero_min _
      · rfl
  have quiet : (s.released q before).stats = s.stats := by
    unfold State.released
    extract_lets gone moved
    have told : moved.visible q + gone - before.visible q = 0 := by
      rw [none_left, visible]
      change 0 + (before.queued q - s.queued q) - before.queued q = 0
      omega
    rw [told]
    rfl
  unfold State.popped
  extract_lets read
  have kept : read.stats = s.stats := quiet
  split
  · exact kept
  · exact kept

/-- A reply that the queue gives to its consumer is visible. -/
theorem State.visible_spiReply {s : State} {x : Nat × Reply} (waits : s.dict.spiReply = some x) (gives : s.yields 0x85 = true) :
    s.visible 0x85 = s.queued 0x85 := by
  have one : s.queued 0x85 = 1 := by
    change (if s.dict.spiReply.isSome then [0] else []).length = 1
    rw [waits]
    rfl
  unfold State.yields at gives
  unfold State.visible State.committedOf
  rw [one] at gives ⊢
  dsimp only at gives ⊢
  simp only [Bool.and_eq_true, Bool.or_eq_true, decide_eq_true_eq] at gives
  obtain ⟨-, (whole | frozen) | none⟩ := gives
  · rw [if_neg (by rw [Option.isSome_eq_false_iff.mpr whole]; exact Bool.false_ne_true)]
    rfl
  · split
    · exact Nat.min_eq_left frozen
    · rfl
  · exact absurd none Nat.one_ne_zero

/-- What the SPI target touches outside an access. -/
@[reducible] def spiBlocks : Blocks := { stats := true, fabric := true, dict := true }

@[simp] theorem State.spiClear_bare (s : State) : s.spiClear.bare spiBlocks = s.bare spiBlocks := by
  unfold State.spiClear
  split
  · exact State.popped_bare _ rfl rfl _ _
  · rfl

@[simp] theorem State.spiKeep_bare (seq : Nat) (r : Reply) (s : State) : (s.spiKeep seq r).bare spiBlocks = s.bare spiBlocks :=
  State.pushed_bare _ rfl rfl _

theorem State.spiClear_dict (s : State) : s.spiClear.dict = { s.dict with spiReply := none } := by
  unfold State.spiClear
  split
  · rw [State.popped_eq]
    rfl
  · next free => rw [← Option.not_isSome_iff_eq_none.mp free]

theorem State.spiKeep_dict (seq : Nat) (r : Reply) (s : State) :
    (s.spiKeep seq r).dict = { s.dict with spiReply := some (seq, r), spiAt := s.now } :=
  congrArg (fun t => t.dict) (State.pushed_eq ..)

/-! ### Requests -/

/-- The refusal of a request that is not sound waits for a fetch, in the place of a reply before it. -/
theorem State.spiRefused_spec (u : State) (l : List Byte) (seq : Nat) (r : Reply) :
    let v := u.miso l
    let t := ((v.spiClear.passed 0x84 1).stat 0x4870 2 3 1).spiKeep seq r
    t.dict = { v.dict with spiReply := some (seq, r), spiAt := u.now } ∧ t = { u with dict := t.dict, stats := t.stats, fabric := t.fabric } := by
  intro v t
  have frame : t.bare spiBlocks = u.bare spiBlocks := by
    change (State.spiKeep ..).bare _ = _
    rw [State.spiKeep_bare, State.stat_bare _ rfl, State.passed_bare _ rfl rfl, State.spiClear_bare]
    rfl
  refine ⟨?_, State.eq_patch_of_bare frame⟩
  have passed : (v.spiClear.passed 0x84 1).dict = v.spiClear.dict := congrArg (fun t => t.dict) (State.passed_eq ..)
  have now : (v.spiClear.passed 0x84 1).now = u.now := congrArg (fun t => t.now) (State.eq_patch_of_bare
    (F := spiBlocks) (by rw [State.passed_bare _ rfl rfl, State.spiClear_bare] : _ = v.bare _))
  change (State.spiKeep ..).dict = _
  rw [State.spiKeep_dict]
  change ({ (v.spiClear.passed 0x84 1).dict with spiReply := _, spiAt := (v.spiClear.passed 0x84 1).now } : Dict) = _
  rw [passed, now, State.spiClear_dict]

/-- The access that a sound request of either operation makes. -/
def State.spiAccess (b : List Byte) (s : State) : State :=
  if byteAt 1 b = 1 then s.access .spi (fieldLe 4 2 b) (fun n s => s.readObj n (fieldLe 4 2 b) (byteAt 6 b) 1024 [])
  else s.access .spi (fieldLe 4 2 b) (State.writeBy .spi (fieldLe 4 2 b) (byteAt 6 b) (slice 10 (fieldLe 8 2 b) b))

/-- The reply to a request is kept, unless its access has ended the start. -/
def State.spiAnswered (b : List Byte) (s t : State) : State := if s.sameStart t then t.spiKeep (byteAt 2 b) t.lastReply else t

theorem State.spiAnswered_keeps (b : List Byte) (s t : State) :
    (s.spiAnswered b t).dict.reply = t.dict.reply ∧ (s.spiAnswered b t).cfg = t.cfg ∧ (s.spiAnswered b t).cycle = t.cycle ∧
      (s.sameStart t = true → (s.spiAnswered b t).dict.spiReply = some (byteAt 2 b, t.lastReply)) := by
  unfold State.spiAnswered
  split
  · have frame := State.eq_patch_of_bare (State.spiKeep_bare (byteAt 2 b) t.lastReply t)
    rw [State.spiKeep_dict]
    exact ⟨rfl, congrArg (fun t => t.cfg) frame, congrArg (fun t => t.cycle) frame, fun _ => rfl⟩
  · next ended => exact ⟨rfl, rfl, rfl, fun same => absurd same ended⟩

section

variable {u : State} {b : List Byte}

theorem State.spiRequest_of_stopped (stands : u.fabric.stopped.contains .spi = true) : u.spiRequest b = u := if_pos stands

variable (clock : u.fabric.stopped.contains .spi = false)

include clock

theorem State.spiRequest_of_barred (barred : u.serves = false ∨ u.flows 0x84 = false) :
    u.spiRequest b = u.miso (List.replicate b.length 0xFF) := by
  have shut : ¬ (u.serves && u.flows 0x84) = true := by
    rcases barred with h | h <;> simp [h]
  exact (if_neg (Bool.eq_false_iff.mp clock)).trans (if_neg shut)

variable (serves : u.serves = true) (flows : u.flows 0x84 = true)

include serves flows

theorem State.spiRequest_of_short (short : b.length < 12 ∨ byteAt 0 b ≠ 0xA5) :
    u.spiRequest b = (u.miso (List.replicate b.length 0xFF)).stat 0x4870 2 4 1 := by
  have open_ : (u.serves && u.flows 0x84) = true := by rw [serves, flows]; rfl
  exact (if_neg (Bool.eq_false_iff.mp clock)).trans ((if_pos open_).trans (if_pos short))

variable (long : 12 ≤ b.length) (begins : byteAt 0 b = 0xA5)

include long begins

theorem State.spiRequest_of_unsound (unsound : spiSound b = false) : u.spiRequest b =
    ((((u.miso (List.replicate b.length 0xFF)).spiClear.passed 0x84 1).stat 0x4870 2 3 1).spiKeep (byteAt 2 b) (.refused abSpi)) := by
  have open_ : (u.serves && u.flows 0x84) = true := by rw [serves, flows]; rfl
  have whole : ¬ (b.length < 12 ∨ byteAt 0 b ≠ 0xA5) := fun h => h.elim (Nat.not_lt.mpr long) (fun ne => ne begins)
  exact (if_neg (Bool.eq_false_iff.mp clock)).trans ((if_pos open_).trans ((if_neg whole).trans (if_pos unsound)))

theorem State.spiRequest_of_sound (sound : spiSound b = true) :
    let w := (u.miso (List.replicate b.length 0xFF)).spiClear.passed 0x84 1
    u.spiRequest b = w.spiAnswered b (w.spiAccess b) := by
  have open_ : (u.serves && u.flows 0x84) = true := by rw [serves, flows]; rfl
  have whole : ¬ (b.length < 12 ∨ byteAt 0 b ≠ 0xA5) := fun h => h.elim (Nat.not_lt.mpr long) (fun ne => ne begins)
  exact (if_neg (Bool.eq_false_iff.mp clock)).trans ((if_pos open_).trans ((if_neg whole).trans
    (if_neg (Bool.not_eq_false _ ▸ sound))))

end

/-! ### Fetches -/

/-- The reply that waits goes out as far as it is clocked, and leaves its slot with its last byte. -/
def State.spiGive (clocked seq : Nat) (r : Reply) (s : State) : State :=
  let t := s.miso (0xFF :: (spiFrame seq r).take clocked)
  if (spiFrame seq r).length ≤ clocked then ({ t with dict.spiReply := none }).popped 0x85 t else t

theorem State.spiGive_spiOut (clocked seq : Nat) (r : Reply) (s : State) :
    (s.spiGive clocked seq r).dict.spiOut = (s.miso (0xFF :: (spiFrame seq r).take clocked)).dict.spiOut ∧
      (s.spiGive clocked seq r).bare spiBlocks = s.bare spiBlocks := by
  unfold State.spiGive
  dsimp only
  split
  · refine ⟨?_, State.popped_bare _ rfl rfl _ _⟩
    rw [State.popped_eq]
  · exact ⟨rfl, rfl⟩

section

variable {u : State} {clocked seq : Nat} {r : Reply} (clock : u.fabric.stopped.contains .spi = false) (serves : u.serves = true)

include clock serves

theorem State.spiFetch_of_none (none : u.dict.spiReply = none) : u.spiFetch clocked = u.miso (0xFF :: [(0x02 : Byte)].take clocked) := by
  unfold State.spiFetch
  rw [if_neg (Bool.eq_false_iff.mp clock), if_neg (Bool.not_eq_false _ ▸ serves), none]

variable (waits : u.dict.spiReply = some (seq, r))

include waits

/-- What a fetch does with the reply that waits. -/
theorem State.spiFetch_of_some : u.spiFetch clocked =
    if u.yields 0x85 == false || (u.spiFresh && u.freeNat % 2 == 1) then (u.spend u.spiFresh).miso (0xFF :: [(0x00 : Byte)].take clocked)
    else (u.spend u.spiFresh).spiGive clocked seq r := by
  unfold State.spiFetch
  rw [if_neg (Bool.eq_false_iff.mp clock), if_neg (Bool.not_eq_false _ ▸ serves), waits]
  rfl

theorem State.spiFetch_of_busy (holds : u.yields 0x85 = false) (settled : u.spiFresh = false) :
    u.spiFetch clocked = u.miso (0xFF :: [(0x00 : Byte)].take clocked) := by
  rw [State.spiFetch_of_some clock serves waits, holds, settled]
  rfl

theorem State.spiFetch_of_settled (gives : u.yields 0x85 = true) (settled : u.spiFresh = false) :
    u.spiFetch clocked = u.spiGive clocked seq r := by
  rw [State.spiFetch_of_some clock serves waits, gives, settled]
  rfl

theorem State.spiFetch_of_fresh (fresh : u.spiFresh = true) :
    ((u.spiFetch clocked).dict.spiOut = (u.miso (0xFF :: [(0x00 : Byte)].take clocked)).dict.spiOut ∨
      (u.spiFetch clocked).dict.spiOut = (u.miso (0xFF :: (spiFrame seq r).take clocked)).dict.spiOut) ∧
    u.spiFetch clocked = { u with dict := (u.spiFetch clocked).dict, fabric := (u.spiFetch clocked).fabric,
                                  stats := (u.spiFetch clocked).stats, free := u.free + 1 } := by
  rw [State.spiFetch_of_some clock serves waits, fresh]
  split
  · exact ⟨.inl rfl, rfl⟩
  · obtain ⟨out, frame⟩ := State.spiGive_spiOut clocked seq r (u.spend true)
    exact ⟨.inr out, State.eq_patch_of_bare frame⟩

omit clock serves in
/-- A reply that has gone out whole is consumed, and nothing is counted. -/
theorem State.spiGive_of_whole (gives : u.yields 0x85 = true) (whole : (spiFrame seq r).length ≤ clocked) :
    (u.spiGive clocked seq r).dict = { (u.miso (0xFF :: spiFrame seq r)).dict with spiReply := none } ∧
    u.spiGive clocked seq r = { u with dict := (u.spiGive clocked seq r).dict, fabric := (u.spiGive clocked seq r).fabric } := by
  have all : (spiFrame seq r).take clocked = spiFrame seq r := List.take_of_length_le whole
  unfold State.spiGive
  rw [all]
  dsimp only
  rw [if_pos whole, State.popped_eq, State.popped_stats_of_last]
  · exact ⟨rfl, rfl⟩
  · exact State.visible_spiReply (s := u.miso (0xFF :: spiFrame seq r)) waits gives
  · rfl

end

end Sys2Proof.Machine

open Sys2Proof Sys2Proof.Machine

/-- Settles O48: what a request does (`State.spiRequest_of_barred`, `_of_short`, `_of_unsound`, `_of_sound`) and what a fetch does
(`State.spiFetch_of_none`, `_of_some`), case by case; a reply consumed leaves its queue without a notice
(`State.popped_stats_of_last`). -/
theorem spiTarget : Obligations.SpiTarget := by
  intro s dt clocked seq b r u out v w clock index sub rd wr
  have answered {t : State} (h : u.spiRequest b = t) :
      exec (.spiReadRequest dt b) s = .next t ∧ exec (.spiWriteRequest dt b) s = .next t := ⟨congrArg _ h, congrArg _ h⟩
  refine ⟨fun stands => ⟨congrArg _ (State.spiRequest_of_stopped stands), congrArg _ (State.spiRequest_of_stopped stands),
      congrArg _ (if_pos stands)⟩,
    fun clock barred => answered (State.spiRequest_of_barred clock barred),
    fun clock shut => congrArg _ ((if_neg (Bool.eq_false_iff.mp clock)).trans (if_pos shut)),
    fun serves clock flows => ⟨fun short => answered (State.spiRequest_of_short clock serves flows short), fun long begins =>
      ⟨fun unsound => ?_, fun sound reads => ?_, fun sound writes => ?_⟩⟩,
    fun serves clock => ⟨fun none => congrArg _ (State.spiFetch_of_none clock serves none), fun waits =>
      ⟨fun holds settled => congrArg _ (State.spiFetch_of_busy clock serves waits holds settled), fun gives fresh => ?_,
        fun gives settled part => ?_, fun gives settled whole => ?_⟩⟩⟩
  · obtain ⟨read, write⟩ := answered (State.spiRequest_of_unsound clock serves flows long begins unsound)
    obtain ⟨kept, frame⟩ := State.spiRefused_spec u (List.replicate b.length 0xFF) (byteAt 2 b) (.refused abSpi)
    refine ⟨_, read, write, ?_, ?_⟩
    · exact kept
    · exact frame
  · have access : w.spiAccess b = rd := if_pos reads
    obtain ⟨read, -⟩ := answered
      ((State.spiRequest_of_sound clock serves flows long begins sound).trans (congrArg (w.spiAnswered b) access))
    obtain ⟨reply, -, -, kept⟩ := State.spiAnswered_keeps b w rd
    exact ⟨_, read, reply, kept⟩
  · have access : w.spiAccess b = wr := if_neg (by rw [writes]; decide)
    obtain ⟨-, write⟩ := answered
      ((State.spiRequest_of_sound clock serves flows long begins sound).trans (congrArg (w.spiAnswered b) access))
    exact ⟨_, write, State.spiAnswered_keeps b w wr⟩
  · obtain ⟨shown, frame⟩ := State.spiFetch_of_fresh (clocked := clocked) clock serves waits fresh
    exact ⟨_, rfl, shown, frame⟩
  · exact congrArg _ ((State.spiFetch_of_settled clock serves waits gives settled).trans (if_neg (Nat.not_le.mpr part)))
  · obtain ⟨consumed, frame⟩ := State.spiGive_of_whole waits gives whole
    exact ⟨_, congrArg Host.Outcome.next (State.spiFetch_of_settled clock serves waits gives settled), consumed, frame⟩
end

section
/-! PROOF. The release of a client (R269, R284): what it leaves alone, and what it makes of the client slots and the cycle. -/

namespace Sys2Proof.Machine

open Sys2Proof

section

variable {F : Blocks} (s : State)

@[simp] theorem State.sendJ_bare (stats : F.stats = true) (fabric : F.fabric = true) (twin : F.twin = true) (free : F.free = true)
    (f : JFrame) : (s.sendJ f).bare F = s.bare F := by
  unfold State.sendJ
  split
  · rw [State.pushed_bare _ stats fabric]
    unfold State.bare State.patch
    rw [twin, free]
    rfl
  · rfl

@[simp] theorem State.enterHandover_bare (twin : F.twin = true) (appts : F.appts = true) (p : WheelPos) :
    (s.enterHandover p).bare F = s.bare F := by
  unfold State.bare State.patch
  rw [twin, appts]
  rfl

@[simp] theorem State.answerHandover_bare (stats : F.stats = true) (fabric : F.fabric = true) (twin : F.twin = true)
    (free : F.free = true) (appts : F.appts = true) : s.answerHandover.bare F = s.bare F := by
  unfold State.answerHandover
  split
  · rw [State.sendJ_bare _ stats fabric twin free, State.enterHandover_bare _ twin appts]
  · rfl

@[simp] theorem State.dropCycle_bare (dict : F.dict = true) (appts : F.appts = true) (cycle : F.cycle = true) (r : Nat) (tell : Bool) :
    (s.dropCycle r tell).bare F = s.bare F := by
  unfold State.bare State.patch
  rw [dict, appts, cycle]
  rfl

@[simp] theorem State.loseCycle_bare (dict : F.dict = true) (appts : F.appts = true) (cycle : F.cycle = true) :
    s.loseCycle.bare F = s.bare F := by
  unfold State.loseCycle
  split
  · rfl
  · exact State.dropCycle_bare s dict appts cycle ..

end

/-- A cycle lost to its owner leaves the client slots alone. -/
theorem State.loseCycle_dict (s : State) : s.loseCycle.dict = { s.dict with gone := s.loseCycle.dict.gone } := by
  unfold State.loseCycle
  split
  · rfl
  · rfl

theorem State.loseCycle_of_open {s : State} (running : s.cycle.state ≠ 0) (uncommitted : s.cycle.committed = false) :
    s.loseCycle = s.dropCycle 4 true :=
  if_neg (fun h => h.elim running (fun c => Bool.false_ne_true (uncommitted.symm.trans c)))

/-- What the release of a client touches beside the dictionary and the cycle: a handover that it lets begin, and the image update
that it closes. -/
@[reducible] def releaseBlocks : Blocks :=
  { stats := true, fabric := true, twin := true, free := true, appts := true, dict := true, cycle := true, boot := true }

/-- The cycle of an owner that goes is lost, and a handover that waited for its end may be answered. -/
def State.lostCycle (n : Nat) (s : State) : State := if s.cycle.owner = some n then s.loseCycle.answerHandover else s

/-- No cycle is owned by a client that has gone. -/
def State.leaveCycle (n : Nat) (s : State) : State :=
  if (s.lostCycle n).cycle.owner = some n then { s.lostCycle n with cycle.owner := none } else s.lostCycle n

theorem State.answerHandover_keeps (s : State) :
    s.answerHandover.dict = s.dict ∧ s.answerHandover.cycle = s.cycle ∧ s.answerHandover.boot = s.boot := by
  have frame := State.eq_patch_of_bare (State.answerHandover_bare
    (F := { stats := true, fabric := true, twin := true, free := true, appts := true }) s rfl rfl rfl rfl rfl)
  exact ⟨congrArg (fun t => t.dict) frame, congrArg (fun t => t.cycle) frame, congrArg (fun t => t.boot) frame⟩

theorem State.leaveCycle_of_other {n : Nat} {s : State} (other : s.cycle.owner ≠ some n) : s.leaveCycle n = s := by
  have kept : s.lostCycle n = s := if_neg other
  unfold State.leaveCycle
  rw [kept, if_neg other]

/-- Beside its owner the cycle is as it was left. -/
theorem State.leaveCycle_cycle (n : Nat) (s : State) :
    (s.leaveCycle n).cycle = { (s.lostCycle n).cycle with owner := (s.leaveCycle n).cycle.owner } := by
  unfold State.leaveCycle
  split <;> rfl

/-- The cycle of an owner that goes, where it has not been committed, is abandoned. -/
theorem State.leaveCycle_of_owner {n : Nat} {s : State} (own : s.cycle.owner = some n) (running : s.cycle.state ≠ 0)
    (uncommitted : s.cycle.committed = false) :
    (s.leaveCycle n).cycle.state = 0 ∧ (s.leaveCycle n).cycle.shadow = [] ∧ (s.leaveCycle n).cycle.result = 4 := by
  obtain ⟨-, kept, -⟩ := State.answerHandover_keeps s.loseCycle
  have lost : s.lostCycle n = s.loseCycle.answerHandover := if_pos own
  rw [State.leaveCycle_cycle, lost, kept, State.loseCycle_of_open running uncommitted]
  exact ⟨rfl, rfl, rfl⟩

theorem State.lostCycle_keeps (n : Nat) (s : State) :
    (s.lostCycle n).bare releaseBlocks = s.bare releaseBlocks ∧ (s.lostCycle n).boot = s.boot ∧
      (s.lostCycle n).dict = { s.dict with gone := (s.lostCycle n).dict.gone } := by
  obtain ⟨dict, -, boot⟩ := State.answerHandover_keeps s.loseCycle
  unfold State.lostCycle
  split
  · have frame := State.eq_patch_of_bare (State.loseCycle_bare (F := { dict := true, appts := true, cycle := true }) s rfl rfl rfl)
    refine ⟨?_, boot.trans (congrArg (fun t => t.boot) frame), ?_⟩
    · rw [State.answerHandover_bare _ rfl rfl rfl rfl rfl, State.loseCycle_bare _ rfl rfl rfl]
    · rw [dict]
      exact State.loseCycle_dict s
  · exact ⟨rfl, rfl, rfl⟩

theorem State.leaveCycle_keeps (n : Nat) (s : State) :
    (s.leaveCycle n).bare releaseBlocks = s.bare releaseBlocks ∧ (s.leaveCycle n).boot = s.boot ∧
      (s.leaveCycle n).dict = { s.dict with gone := (s.leaveCycle n).dict.gone } := by
  have lost := State.lostCycle_keeps n s
  unfold State.leaveCycle
  split
  · exact lost
  · exact lost

theorem State.closeUpdate_keeps (n : Nat) (s : State) :
    s.closeUpdate n = { s with boot := { s.boot with owner := (s.closeUpdate n).boot.owner, target := (s.closeUpdate n).boot.target,
                                                     status := (s.closeUpdate n).boot.status } } := by
  unfold State.closeUpdate
  split
  · rfl
  · split <;> rfl

/-- A client that is there gives up its cycle, its image update, its slot and its transfer. -/
theorem State.releaseClient_of_some {n : Nat} {s : State} {c : Client} (there : s.clientAt n = some c) :
    s.releaseClient n = { ((s.leaveCycle n).closeUpdate n) with
      dict.clients := ((s.leaveCycle n).closeUpdate n).dict.clients.filter (fun x => x.1 != n)
      dict.transfer := if c.id = .sdo then none else ((s.leaveCycle n).closeUpdate n).dict.transfer } := by
  unfold State.releaseClient
  rw [there]
  rfl

/-- What the release of a client leaves, and what it makes of the dictionary and the cycle. -/
theorem State.releaseClient_spec {n : Nat} {s : State} {c : Client} (there : s.clientAt n = some c) :
    let t := s.releaseClient n
    t.bare releaseBlocks = s.bare releaseBlocks ∧ t.boot.supRunning = s.boot.supRunning ∧ t.boot.bootRom = s.boot.bootRom ∧
      t.dict = { s.dict with clients := s.dict.clients.filter (fun x => x.1 != n), gone := (s.leaveCycle n).dict.gone,
                             transfer := if c.id = .sdo then none else s.dict.transfer } ∧
      t.cycle = (s.leaveCycle n).cycle := by
  intro t
  obtain ⟨bare, boot, dict⟩ := State.leaveCycle_keeps n s
  have left : t = _ := State.releaseClient_of_some there
  rw [State.closeUpdate_keeps] at left
  rw [left]
  refine ⟨bare, ?_, ?_, ?_, rfl⟩
  · exact congrArg (fun b => b.supRunning) boot
  · exact congrArg (fun b => b.bootRom) boot
  · dsimp only
    rw [dict]

theorem State.clientAt_of_slotOf {who : ClientId} {n : Nat} {s : State} (slot : s.slotOf who = some n) :
    ∃ c, s.clientAt n = some c := by
  obtain ⟨x, found, key⟩ := Option.map_eq_some_iff.mp slot
  have present : (s.dict.clients.find? (fun c => c.1 == n)).isSome = true :=
    List.find?_isSome.mpr ⟨x, List.mem_of_find?_eq_some found, beq_iff_eq.mpr key⟩
  obtain ⟨y, here⟩ := Option.isSome_iff_exists.mp present
  exact ⟨y.2, Option.map_eq_some_iff.mpr ⟨y, here, rfl⟩⟩

end Sys2Proof.Machine
end

section
/-! PROOF. What a frame of SUP leaves alone on its way to the MAC of a port (R185, R197). -/

namespace Sys2Proof.Machine

open Sys2Proof

section

variable {F : Blocks} (s : State)

@[simp] theorem State.event_bare (health : F.health = true) (code a b : Nat) : (s.event code a b).bare F = s.bare F := by
  unfold State.bare State.patch
  rw [health]
  simp

@[simp] theorem State.modEp_bare (eth : F.eth = true) (p : Nat) (f : EPort → EPort) : (s.modEp p f).bare F = s.bare F := by
  unfold State.bare State.patch
  rw [eth]
  rfl

@[simp] theorem State.macCount_bare (eth : F.eth = true) (health : F.health = true) (p sub n : Nat) :
    (s.macCount p sub n).bare F = s.bare F := by
  unfold State.macCount
  dsimp only
  split
  · rw [State.event_bare _ health, State.modEp_bare _ eth]
  · exact State.modEp_bare s eth ..

variable (stats : F.stats = true) (fabric : F.fabric = true) (eth : F.eth = true) (health : F.health = true)

include stats fabric eth in
@[simp] theorem State.enterFrame_bare (p k : Nat) (f : TxFrame) : (s.enterFrame p k f).bare F = s.bare F := by
  unfold State.enterFrame State.trackWatchdog
  rw [State.pushed_bare _ stats fabric, State.modEp_bare _ eth, State.modEp_bare _ eth]

include stats fabric eth health

@[simp] theorem State.placeFrame_bare (p k : Nat) (f : TxFrame) : (s.placeFrame p k f).bare F = s.bare F := by
  unfold State.placeFrame
  split
  · exact State.enterFrame_bare s stats fabric eth ..
  · rw [State.macCount_bare _ eth health, State.passed_bare _ stats fabric]

@[simp] theorem State.queueFrame_bare (p q : Nat) (kind : TxKind) (b : List Byte) : (s.queueFrame p q kind b).bare F = s.bare F := by
  unfold State.queueFrame
  extract_lets pcp f
  split
  · rfl
  · split
    · exact State.placeFrame_bare s stats fabric eth health ..
    · exact State.modEp_bare s eth ..

@[simp] theorem State.sendUnicast_bare (p dst : Nat) (f : List Byte) : (s.sendUnicast p dst f).bare F = s.bare F := by
  unfold State.sendUnicast
  split
  · rfl
  · split
    · rw [State.queueFrame_bare _ stats fabric eth health, State.modEp_bare _ eth]
    · unfold State.sendArp
      rw [State.queueFrame_bare _ stats fabric eth health, State.modEp_bare _ eth]

@[simp] theorem State.sendUdp_bare (p dst sport dport : Nat) (b : List Byte) : (s.sendUdp p dst sport dport b).bare F = s.bare F := by
  unfold State.sendUdp State.nextIpId
  rw [State.sendUnicast_bare _ stats fabric eth health, State.modEp_bare _ eth]

end

end Sys2Proof.Machine
end

section
/-! PROOF. O47: LAP requests (R272 to R274). Every datagram is judged the same way, whatever it asks for; an accepted request is one
access or a close, and its reply is kept and sent where the start goes on. -/

namespace Sys2Proof.Machine

open Sys2Proof

/-! ### The frame of a datagram -/

section

variable {p : Nat} {ip : BitVec 32} {udp : BitVec 16} {b : List Byte} {s : State}

theorem State.takeLap_of_shut (shut : (s.ep p).supIn = [] ∨ s.yields (0x34 + p) = false) : s.takeLap p ip udp b = s := by
  unfold State.takeLap
  split
  · rfl
  · next f rest queue =>
    refine if_neg ?_
    rcases shut with none | held
    · rw [none] at queue
      exact nomatch queue
    · rw [held]
      exact Bool.false_ne_true

variable {f : RxFrame} {rest : List RxFrame}

theorem State.takeLap_of_head (queue : (s.ep p).supIn = f :: rest) (gives : s.yields (0x34 + p) = true) (is : isLap ip udp b f = true) :
    s.takeLap p ip udp b = (s.modEp p (fun e => { e with supIn := rest })).popped (0x34 + p) s := by
  unfold State.takeLap
  rw [queue]
  dsimp only
  rw [gives, is]
  rfl

theorem State.takeLap_of_other (queue : (s.ep p).supIn = f :: rest) (other : isLap ip udp b f = false) :
    s.takeLap p ip udp b = s := by
  unfold State.takeLap
  rw [queue]
  dsimp only
  rw [other, Bool.and_false]
  rfl

theorem State.takeLap_bare : (s.takeLap p ip udp b).bare { eth := true, stats := true, fabric := true } =
    s.bare { eth := true, stats := true, fabric := true } := by
  unfold State.takeLap
  split
  · rfl
  · split
    · rw [State.popped_bare _ rfl rfl, State.modEp_bare _ rfl]
    · rfl

end

theorem State.takeLap_serves (p : Nat) (ip : BitVec 32) (udp : BitVec 16) (b : List Byte) (s : State) :
    (s.takeLap p ip udp b).serves = s.serves := by
  rw [State.eq_patch_of_bare (State.takeLap_bare (p := p) (ip := ip) (udp := udp) (b := b) (s := s))]
  rfl

/-- The reply leaves all but the port, its statistics and its queue alone. -/
theorem State.lapSend_keeps (p ip udp : Nat) (m : List Byte) (s : State) :
    (s.lapSend p ip udp m).dict = s.dict ∧ (s.lapSend p ip udp m).cfg = s.cfg ∧ (s.lapSend p ip udp m).cycle = s.cycle := by
  have frame := State.eq_patch_of_bare (State.sendUdp_bare (F := { stats := true, fabric := true, eth := true, health := true })
    s rfl rfl rfl rfl p ip 47321 udp m)
  exact ⟨congrArg (fun t => t.dict) frame, congrArg (fun t => t.cfg) frame, congrArg (fun t => t.cycle) frame⟩

/-! ### The verdict on a request -/

section

variable {p : Fin 2} {ip : BitVec 32} {udp : BitVec 16} {b : List Byte} {s : State}

theorem State.lap_of_down (down : s.serves = false ∨ s.up (domEth p.val) = false) : s.lap p ip udp b = s := by
  refine if_neg ?_
  rcases down with h | h <;> simp [h]

variable (serves : s.serves = true) (up : s.up (domEth p.val) = true)

include serves up

theorem State.lap_of_invalid (invalid : (s.takeLap p.val ip udp b).lapValid b = none) :
    s.lap p ip udp b = (s.takeLap p.val ip udp b).stat 0x4870 1 4 1 := by
  unfold State.lap
  rw [serves, up]
  dsimp only
  rw [invalid]
  rfl

theorem State.lap_of_valid {r : LapReq} (valid : (s.takeLap p.val ip udp b).lapValid b = some r) :
    s.lap p ip udp b = (s.takeLap p.val ip udp b).lapRequest p.val ip.toNat udp.toNat b r (.lap r.key ip udp) := by
  unfold State.lap
  rw [serves, up]
  dsimp only
  rw [valid]
  rfl

end

section

variable {p ip udp : Nat} {b : List Byte} {r : LapReq} {who : ClientId} {s : State}

theorem State.lapRequest_of_echo (echo : r.op = 4) :
    s.lapRequest p ip udp b r who = s.lapSend p ip udp (s.lapReply b r 0xFF (.done [])) := if_pos echo

variable (op : r.op ≠ 4)

include op

theorem State.lapRequest_of_repeat (again : (s.lapKey r.key.val).request = b) :
    s.lapRequest p ip udp b r who = s.lapSend p ip udp (s.lapKey r.key.val).reply := (if_neg op).trans (if_pos again)

variable (fresh : (s.lapKey r.key.val).request ≠ b)

include fresh

theorem State.lapRequest_of_start (other : r.start ≠ s.dict.startCount) :
    s.lapRequest p ip udp b r who = s.lapStale p ip udp b r who abStart := (if_neg op).trans ((if_neg fresh).trans (if_pos other))

variable (start : r.start = s.dict.startCount)

include start

theorem State.lapRequest_of_counter (low : r.counter ≤ (s.lapKey r.key.val).counter) :
    s.lapRequest p ip udp b r who = s.lapStale p ip udp b r who abCounter :=
  (if_neg op).trans ((if_neg fresh).trans ((if_neg (not_not_intro start)).trans (if_pos low)))

theorem State.lapRequest_of_accepted (high : (s.lapKey r.key.val).counter < r.counter) :
    s.lapRequest p ip udp b r who = s.lapAccept p ip udp b r who :=
  (if_neg op).trans ((if_neg fresh).trans ((if_neg (not_not_intro start)).trans (if_neg (Nat.not_le.mpr high))))

end

theorem State.lapStale_dict (p ip udp : Nat) (b : List Byte) (r : LapReq) (who : ClientId) (code : Nat) (s : State) :
    (s.lapStale p ip udp b r who code).dict = { s.dict with reply := some (who, .refused code) } :=
  (State.lapSend_keeps ..).1

/-! ### Accepted requests -/

/-- The counter of a request is taken for its key slot. -/
def State.lapCounted (r : LapReq) (s : State) : State :=
  { s with dict := { s.dict with laps := Tbl.put r.key.val { (s.lapKey r.key.val) with counter := r.counter } s.dict.laps } }

/-- A request and its reply are kept for a repetition. -/
def State.lapKept (b : List Byte) (r : LapReq) (m : List Byte) (s : State) : State :=
  { s with dict.laps := Tbl.put r.key.val { counter := r.counter, request := b, reply := m } s.dict.laps }

/-- The reply to a request that has been accepted. -/
def State.lapAnswer (b : List Byte) (r : LapReq) (who : ClientId) (s : State) : List Byte :=
  (s.lapCounted r).lapReply b r ((s.lapCounted r).lapDo r who).2.1 ((s.lapCounted r).lapDo r who).1

/-- An accepted request that was done ends in its reply, kept for a repetition, where the start goes on. -/
theorem State.lapAccept_spec {p ip udp : Nat} {b : List Byte} {r : LapReq} {who : ClientId} {s t : State}
    (done : ((s.lapCounted r).lapDo r who).2.2 = t) :
    let v := s.lapAccept p ip udp b r who
    v.dict.reply = t.dict.reply ∧ v.dict.clients = t.dict.clients ∧ v.cfg = t.cfg ∧ v.cycle = t.cycle ∧
      ((s.lapCounted r).sameStart t = true → (v.lapKey r.key.val).request = b ∧ (v.lapKey r.key.val).counter = r.counter) := by
  intro v
  let answer := s.lapAnswer b r who
  have ends : v = if (s.lapCounted r).sameStart t then (t.lapKept b r answer).lapSend p ip udp answer else t := by
    rw [← done]
    rfl
  by_cases same : (s.lapCounted r).sameStart t = true
  · obtain ⟨dict, cfg, cycle⟩ := State.lapSend_keeps p ip udp answer (t.lapKept b r answer)
    rw [ends, if_pos same]
    refine ⟨congrArg (fun d => d.reply) dict, congrArg (fun d => d.clients) dict, cfg, cycle, fun _ => ?_⟩
    have key : ((t.lapKept b r answer).lapSend p ip udp answer).lapKey r.key.val = ⟨r.counter, b, answer⟩ := by
      unfold State.lapKey
      rw [dict]
      exact (Tbl.get_put ..).trans (if_pos rfl)
    rw [key]
    exact ⟨rfl, rfl⟩
  · rw [ends, if_neg same]
    exact ⟨rfl, rfl, rfl, rfl, fun h => absurd h same⟩

/-- A client that closes is released, in the same start. -/
theorem State.lapDo_of_close {r : LapReq} {who : ClientId} {n : Nat} {s : State} (close : r.op = 3) (slot : s.slotOf who = some n)
    (serves : s.serves = true) :
    let t := (s.lapDo r who).2.2
    t.dict.reply = some (who, .done []) ∧ t.dict.clients = s.dict.clients.filter (fun x => x.1 != n) ∧ s.sameStart t = true := by
  intro t
  have released : t = { s.releaseClient n with dict := { (s.releaseClient n).dict with reply := some (who, .done []) } } := by
    change (State.lapDo ..).2.2 = _
    unfold State.lapDo
    rw [if_pos close, slot]
  obtain ⟨c, there⟩ := State.clientAt_of_slotOf slot
  obtain ⟨bare, sup, rom, dict, -⟩ := State.releaseClient_spec there
  have power : (s.releaseClient n).power = s.power := congrArg (fun t => t.power) (State.eq_patch_of_bare bare)
  have on : (s.releaseClient n).serves = s.serves := by
    unfold State.serves State.up State.dom
    rw [sup, rom, power]
  rw [released]
  refine ⟨rfl, congrArg (fun d => d.clients) dict, ?_⟩
  unfold State.sameStart
  change ((s.releaseClient n).serves && (s.releaseClient n).dict.startCount == s.dict.startCount) = true
  rw [on, serves, dict]
  exact beq_self_eq_true _

end Sys2Proof.Machine

open Sys2Proof Sys2Proof.Machine

/-- Settles O47: the verdicts of `State.lapRequest` in their order, and what an accepted request leaves (`State.lapAccept_spec`),
where a close stays in the same start (`State.lapDo_of_close`). -/
theorem lapRequests : Obligations.LapRequests := by
  intro s dt p ip udp b r f rest w0 u who k w rd wr all
  have every {t : State} (h : w0.lap p ip udp b = t) : all t :=
    ⟨congrArg Host.Outcome.next h, congrArg Host.Outcome.next h, congrArg Host.Outcome.next h, congrArg Host.Outcome.next h⟩
  refine ⟨State.takeLap_of_shut, State.takeLap_of_head, State.takeLap_of_other, fun down => every (State.lap_of_down down),
    fun serves up invalid => every (State.lap_of_invalid serves up invalid), fun serves up valid => ?_⟩
  have judged {t : State} (h : u.lapRequest p.val ip.toNat udp.toNat b r who = t) : all t :=
    every ((State.lap_of_valid serves up valid).trans h)
  refine ⟨fun echo => judged (State.lapRequest_of_echo echo), fun op again => judged (State.lapRequest_of_repeat op again),
    fun op fresh other => judged (State.lapRequest_of_start op fresh other),
    fun op fresh start low => judged (State.lapRequest_of_counter op fresh start low),
    fun code => State.lapStale_dict .., fun fresh start high => ?_⟩
  have accepted (op : r.op ≠ 4) : all (u.lapAccept p.val ip.toNat udp.toNat b r who) :=
    judged (State.lapRequest_of_accepted op fresh start high)
  refine ⟨fun read => ?_, fun write => ?_, fun n close slot => ?_⟩
  · have done : ((u.lapCounted r).lapDo r who).2.2 = rd := by
      unfold State.lapDo
      rw [if_neg (by omega), if_pos read]
      rfl
    obtain ⟨reply, -, -, -, kept⟩ := State.lapAccept_spec (p := p.val) (ip := ip.toNat) (udp := udp.toNat) (b := b) done
    exact ⟨_, (accepted (by omega)).1, reply, kept⟩
  · have done : ((u.lapCounted r).lapDo r who).2.2 = wr := by
      unfold State.lapDo
      rw [if_neg (by omega), if_neg (by omega)]
      rfl
    obtain ⟨reply, -, cfg, cycle, kept⟩ := State.lapAccept_spec (p := p.val) (ip := ip.toNat) (udp := udp.toNat) (b := b) done
    exact ⟨_, (accepted (by omega)).2.1, reply, cfg, cycle, kept⟩
  · have on : (u.lapCounted r).serves = true := (State.takeLap_serves ..).trans serves
    obtain ⟨reply, clients, same⟩ := State.lapDo_of_close (s := u.lapCounted r) close slot on
    obtain ⟨reply', clients', -, -, kept⟩ := State.lapAccept_spec (p := p.val) (ip := ip.toNat) (udp := udp.toNat) (b := b)
      (s := u) (r := r) (who := who) rfl
    exact ⟨_, (accepted (by omega)).2.2.1, reply'.trans reply, clients'.trans clients, kept same⟩
end

section
/-! PROOF. What a frame of SUP leaves alone on its way to C2 (R203, R216, R219), and a sentence on its way to Bramble (R79). -/

namespace Sys2Proof.Machine

open Sys2Proof

section

variable {F : Blocks} (s : State)

/-- What each step of a fold leaves alone, the fold leaves alone. -/
theorem State.foldl_bare {α : Type} {f : State → α → State} (h : ∀ s a, (f s a).bare F = s.bare F) (l : List α) :
    (l.foldl f s).bare F = s.bare F := foldl_keeps (State.bare F) f h l s

@[simp] theorem State.modCp_bare (can : F.can = true) (p : Nat) (f : CPort → CPort) : (s.modCp p f).bare F = s.bare F := by
  unfold State.bare State.patch
  rw [can]
  rfl

theorem State.canOpen_bare (canOpen : F.canOpen = true) (x : CanOpen) : ({ s with canOpen := x } : State).bare F = s.bare F := by
  unfold State.bare State.patch
  rw [canOpen]
  rfl

variable (stats : F.stats = true) (fabric : F.fabric = true) (can : F.can = true) (canOpen : F.canOpen = true)

include stats fabric

@[simp] theorem State.withdrawn_bare (qs : List Nat) (before : State) : (s.withdrawn qs before).bare F = s.bare F := by
  refine s.foldl_bare (fun s q => ?_) qs
  split
  · rfl
  · exact State.popped_bare s stats fabric ..

@[simp] theorem State.canDropped_bare (p : Nat) (before : State) : (s.canDropped p before).bare F = s.bare F :=
  State.withdrawn_bare s stats fabric ..

include can

@[simp] theorem State.loadCan_bare (p : Nat) : (s.loadCan p).bare F = s.bare F := by
  unfold State.loadCan
  dsimp only
  split
  · rfl
  · split
    · rfl
    · rw [State.popped_bare _ stats fabric, State.modCp_bare _ can]

@[simp] theorem State.sendCan_bare (p : Nat) (f : CanTx) : (s.sendCan p f).bare F = s.bare F := by
  unfold State.sendCan
  rw [State.loadCan_bare _ stats fabric can, State.pushed_bare _ stats fabric, State.modCp_bare _ can]

@[simp] theorem State.queueCan_bare (p : Nat) (f : CanTx) : (s.queueCan p f).bare F = s.bare F := by
  unfold State.queueCan
  split
  · rfl
  · split
    · exact State.modCp_bare s can ..
    · exact State.sendCan_bare s stats fabric can ..

@[simp] theorem State.fillCan_bare (p : Nat) : (s.fillCan p).bare F = s.bare F := by
  unfold State.fillCan
  dsimp only
  rw [State.foldl_bare _ (fun s _ => State.loadCan_bare s stats fabric can p)]
  refine s.foldl_bare (fun s f => ?_) _
  split
  · rw [State.sendCan_bare _ stats fabric can, State.modCp_bare _ can]
  · rfl

include canOpen

@[simp] theorem State.refillSup_bare : s.refillSup.bare F = s.bare F := by
  refine s.foldl_bare (fun s f => ?_) _
  split
  · rw [State.queueCan_bare _ stats fabric can, State.canOpen_bare _ canOpen]
  · rfl

@[simp] theorem State.letCanIn_bare (p : Nat) : (s.letCanIn p).bare F = s.bare F := by
  unfold State.letCanIn
  split
  · rw [State.refillSup_bare _ stats fabric can canOpen, State.fillCan_bare _ stats fabric can]
  · exact State.fillCan_bare s stats fabric can p

@[simp] theorem State.supSend_bare (f : CanTx) : (s.supSend f).bare F = s.bare F := by
  unfold State.supSend
  rw [State.refillSup_bare _ stats fabric can canOpen, State.canOpen_bare _ canOpen]

@[simp] theorem State.emcy_bare (code event : Nat) : (s.emcy code event).bare F = s.bare F := by
  unfold State.emcy
  split
  · rfl
  · dsimp only
    split
    · rw [State.supSend_bare _ stats fabric can canOpen, State.canOpen_bare _ canOpen]
    · split
      · exact s.canOpen_bare canOpen _
      · exact s.canOpen_bare canOpen _

@[simp] theorem State.trackErrors_bare : s.trackErrors.bare F = s.bare F := by
  unfold State.trackErrors
  dsimp only
  split
  · rw [State.emcy_bare _ stats fabric can canOpen, State.canOpen_bare _ canOpen]
  · exact s.canOpen_bare canOpen _

end

/-- A sentence touches what the device keeps of sentences, Bramble, and what counts on the way. -/
@[simp] theorem State.deviceRecord_bare {F : Blocks} (stats : F.stats = true) (fabric : F.fabric = true) (bramble : F.bramble = true)
    (free : F.free = true) (health : F.health = true) (code cls : Nat) (address : Text) (fields : List Text) (p : Pip) (s : State) :
    (s.deviceRecord code cls address fields p).bare F = s.bare F := by
  unfold State.deviceRecord
  extract_lets _ _ n r counted
  rw [State.pushed_bare _ stats fabric]
  unfold State.bare State.patch
  rw [bramble, free, health]
  rfl

end Sys2Proof.Machine
end

section
/-! PROOF. O49: the event log and the alert table (R292 to R294, R296, R297). Each operation of SUP is followed by what it makes of
the log and of the table; its sentences and its EMCY frames leave both alone. -/

namespace Sys2Proof

/-- What has been put at a key is the first entry of that key. -/
theorem Tbl.find?_put {α : Type} (k : Nat) (v : α) (t : Tbl α) : (Tbl.put k v t).find? (fun x => x.1 == k) = some (k, v) := by
  induction t with
  | nil => exact List.find?_cons_of_pos (beq_self_eq_true k)
  | cons x t ih =>
    obtain ⟨j, w⟩ := x
    unfold Tbl.put
    split
    · exact List.find?_cons_of_pos (beq_self_eq_true k)
    · next other =>
      split
      · exact List.find?_cons_of_pos (beq_self_eq_true k)
      · exact (List.find?_cons_of_neg (p := fun x : Nat × α => x.1 == k) (fun same => other (beq_iff_eq.mp same))).trans ih

theorem Tbl.find?_del_of_none {α : Type} {j k : Nat} {t : Tbl α} (none : t.find? (fun x => x.1 == j) = none) :
    (Tbl.del k t).find? (fun x => x.1 == j) = .none :=
  List.find?_eq_none.mpr fun x mem => List.find?_eq_none.mp none x (Tbl.mem_del k t x mem)

namespace Machine

/-- What SUP touches as it writes an event or changes an alert. -/
@[reducible] def alertBlocks : Blocks :=
  { health := true, canOpen := true, can := true, stats := true, fabric := true, bramble := true, free := true }

/-- What it touches as it sends an EMCY. -/
@[reducible] def emcyBlocks : Blocks := { canOpen := true, can := true, stats := true, fabric := true }

theorem State.trackErrors_health (s : State) : s.trackErrors.health = s.health :=
  congrArg (fun t => t.health) (State.eq_patch_of_bare (State.trackErrors_bare (F := emcyBlocks) s rfl rfl rfl rfl))

theorem State.emcy_health (code event : Nat) (s : State) : (s.emcy code event).health = s.health :=
  congrArg (fun t => t.health) (State.eq_patch_of_bare (State.emcy_bare (F := emcyBlocks) s rfl rfl rfl rfl code event))

theorem State.trackErrors_alertBlocks (s : State) : s.trackErrors.bare alertBlocks = s.bare alertBlocks :=
  State.trackErrors_bare s rfl rfl rfl rfl

theorem State.deviceRecord_alertBlocks (code cls : Nat) (address : Text) (fields : List Text) (p : Pip) (s : State) :
    (s.deviceRecord code cls address fields p).bare alertBlocks = s.bare alertBlocks :=
  State.deviceRecord_bare rfl rfl rfl rfl rfl ..

theorem State.health_bare {F : Blocks} (health : F.health = true) (x : Health) (s : State) :
    ({ s with health := x } : State).bare F = s.bare F := by
  unfold State.bare State.patch
  rw [health]
  rfl

/-- A sentence of the device advances their number. -/
theorem State.deviceRecord_health (code cls : Nat) (address : Text) (fields : List Text) (p : Pip) (s : State) :
    (s.deviceRecord code cls address fields p).health = { s.health with deviceSeq := s.health.deviceSeq + 1 } := by
  unfold State.deviceRecord
  exact congrArg (fun t => t.health) (State.pushed_eq ..)

theorem State.sendAlf_alertBlocks (x : Alert) (s : State) : (s.sendAlf x).bare alertBlocks = s.bare alertBlocks :=
  State.deviceRecord_alertBlocks ..

theorem State.sendAlf_health (x : Alert) (s : State) :
    (s.sendAlf x).health = { s.health with deviceSeq := s.health.deviceSeq + 1 } := State.deviceRecord_health ..

/-! ### The log -/

/-- The record that is written is the last of the log, which holds no more than 16 384. -/
theorem State.logWrite_spec (m : LogMark) (kind astate code a b : Nat) (s : State) : ∃ l : List LogRec,
    s.logWrite m kind astate code a b = { s with health := { s.health with log := l, nextSeq := s.health.nextSeq + 1 } } ∧
      l.length ≤ 16384 ∧ l.getLast? =
        some { seq := s.health.nextSeq, at_ := m.at_, code := code, wstate := m.wstate, kind := kind, astate := astate, a := a, b := b,
               start := m.start } := by
  refine ⟨_, rfl, ?_, ?_⟩
  · rw [List.length_drop]
    omega
  · rw [List.getLast?_drop, if_neg, List.getLast?_concat]
    rw [List.length_append, List.length_singleton]
    omega

theorem State.logWrite_alertBlocks (m : LogMark) (kind astate code a b : Nat) (s : State) :
    (s.logWrite m kind astate code a b).bare alertBlocks = s.bare alertBlocks := by
  obtain ⟨l, written, -⟩ := State.logWrite_spec m kind astate code a b s
  rw [written]
  exact s.health_bare rfl _

/-- The times at which events of a code came in the second before one. -/
def State.near (e : Event) (s : State) : List Nat :=
  (Tbl.get [] e.code s.health.rates).filter (fun t => decide (e.fc < t + cyclesPerSec))

/-- The time of an event is noted for its code. -/
def State.rated (e : Event) (s : State) : State :=
  { s with health := { s.health with rates := Tbl.put e.code (s.near e ++ [e.fc]) s.health.rates } }

/-- An event of which 16 have come within a second is counted, and not written. -/
theorem State.logEvent_of_many {m : LogMark} {e : Event} {s : State} (many : 16 ≤ (s.near e).length) :
    s.logEvent m e = { s with health.suppressed := s.health.suppressed + 1 } := if_pos many

theorem State.logEvent_of_few {m : LogMark} {e : Event} {s : State} (few : (s.near e).length < 16) :
    s.logEvent m e = (s.rated e).logWrite m 0 0 e.code e.a e.b := if_neg (Nat.not_le.mpr few)

theorem State.logEvent_alertBlocks (m : LogMark) (e : Event) (s : State) : (s.logEvent m e).bare alertBlocks = s.bare alertBlocks := by
  by_cases many : 16 ≤ (s.near e).length
  · rw [State.logEvent_of_many many]
    exact s.health_bare rfl _
  · rw [State.logEvent_of_few (Nat.not_le.mp many), State.logWrite_alertBlocks]
    exact s.health_bare rfl _

/-- SUP has taken the oldest event raised. -/
def State.eventTaken (rest : List Event) (s : State) : State := { s with health := { s.health with waiting := rest } }

theorem State.writeEvent_of_none {s : State} (none : s.health.waiting = []) : s.writeEvent = s := by
  unfold State.writeEvent
  rw [none]

theorem State.writeEvent_of_event {s : State} {e : Event} {rest : List Event} (oldest : s.health.waiting = e :: rest)
    (event : e.kind = 0) : s.writeEvent = ((s.eventTaken rest).logEvent ⟨e.at_, e.wstate, e.start⟩ e).trackErrors := by
  unfold State.writeEvent
  rw [oldest]
  dsimp only
  rw [event]
  rfl

theorem State.writeEvent_of_raise {s : State} {e : Event} {rest : List Event} (oldest : s.health.waiting = e :: rest)
    (raise : e.kind = 1) : s.writeEvent = ((s.eventTaken rest).raiseAlert ⟨e.at_, e.wstate, e.start⟩ e.code e.a e.b).trackErrors := by
  unfold State.writeEvent
  rw [oldest]
  dsimp only
  rw [raise]
  rfl

/-! ### The table -/

/-- An alert that stands nowhere yet, and is no occurrence, takes the lowest free row. -/
theorem State.raiseAlert_of_new {m : LogMark} {code a b r : Nat} {s : State} (new : s.alertRow code (a % 0x10000 + 1) = none)
    (notFull : s.alertRow 0xE0FF 1 = none) (free : (List.range 63).find? (fun r => !s.health.alerts.any (fun x => x.1 == r)) = some r)
    (lasts : evKind code ≠ .occurrence) :
    s.raiseAlert m code a b = (s.newAlert m r code (a % 0x10000 + 1) a b).emcy 0xFF00 code := by
  have held : (evKind code == .occurrence) = false := beq_eq_false_iff_ne.mpr lasts
  unfold State.raiseAlert
  dsimp only
  rw [new, notFull]
  dsimp only [Option.isSome]
  rw [if_neg Bool.false_ne_true, free]
  dsimp only
  rw [held, if_neg Bool.false_ne_true]

/-- A record in the log, with a change of the table. -/
def State.entered (log : List LogRec) (l : Tbl Alert) (s : State) : State :=
  { s with health := { s.health with log := log, nextSeq := s.health.nextSeq + 1, alerts := l } }

/-- A new alert stands in its row, in state V, and its raise is logged. -/
theorem State.newAlert_spec (m : LogMark) (row code inst a b : Nat) (s : State) :
    let t := s.newAlert m row code inst a b
    t.bare alertBlocks = s.bare alertBlocks ∧ t.health.waiting = s.health.waiting ∧ t.health.nextSeq = s.health.nextSeq + 1 ∧
      t.health.alerts = Tbl.put row { code := code, instance_ := inst, state := 1, revision := 1, raised := m.at_, a := a, b := b,
                                      sentAt := s.fc, changed := m.at_ } s.health.alerts := by
  intro t
  let x : Alert := { code := code, instance_ := inst, state := 1, revision := 1, raised := m.at_, a := a, b := b, sentAt := s.fc,
                     changed := m.at_ }
  obtain ⟨log, written, -⟩ := State.logWrite_spec m 1 1 code a b s
  have run : t = (s.entered log (Tbl.put row x s.health.alerts)).sendAlf x := by
    change State.newAlert .. = _
    unfold State.newAlert
    rw [written]
    rfl
  rw [run, State.sendAlf_health, State.sendAlf_alertBlocks]
  exact ⟨s.health_bare rfl _, rfl, rfl, rfl⟩

/-- The alert that a row holds, changed to a state. -/
def Alert.moved (m : LogMark) (st fc : Nat) (x : Alert) : Alert :=
  { x with state := st, revision := x.revision % 99 + 1, changed := m.at_, sentAt := fc }

/-- A change of an alert stays in the table, or takes it out of it where it ends in N. -/
theorem State.changeRow_spec {m : LogMark} {kind row k st : Nat} {x : Alert} {s : State}
    (stands : s.health.alerts.find? (fun y => y.1 == row) = some (k, x)) :
    let t := s.changeRow m kind row st
    t.bare alertBlocks = s.bare alertBlocks ∧ t.health.acnIn = s.health.acnIn ∧
      t.health.alerts = if st = 4 then Tbl.del row s.health.alerts else Tbl.put row (x.moved m st s.fc) s.health.alerts := by
  intro t
  let l := if st = 4 then Tbl.del row s.health.alerts else Tbl.put row (x.moved m st s.fc) s.health.alerts
  obtain ⟨log, written, -⟩ := State.logWrite_spec m kind st x.code x.a x.b s
  have run : t = (s.entered log l).sendAlf (x.moved m st s.fc) := by
    change State.changeRow .. = _
    unfold State.changeRow
    rw [stands]
    dsimp only
    rw [written]
    rfl
  rw [run, State.sendAlf_health, State.sendAlf_alertBlocks]
  exact ⟨s.health_bare rfl _, rfl, rfl⟩

/-! ### Acknowledgements -/

section

variable {row k : Nat} {x : Alert} {s : State} (stands : s.health.alerts.find? (fun y => y.1 == row) = some (k, x))

include stands

theorem State.ackRow_of_raised (raised : x.state = 1) : s.ackRow row = s.changeRow s.markNow 2 row 2 := by
  unfold State.ackRow
  rw [stands]
  dsimp only [Option.map]
  rw [raised]
  rfl

theorem State.ackRow_of_rectified (rectified : x.state = 3) :
    s.ackRow row = (s.changeRow s.markNow 2 row 4).judgeFull s.markNow := by
  unfold State.ackRow
  rw [stands]
  dsimp only [Option.map]
  rw [rectified]
  rfl

theorem State.ackAlert_of_stands (open_ : x.state = 1 ∨ x.state = 3) :
    s.ackAlert row = ((s.ackRow row).sendAcn x).trackErrors := by
  unfold State.ackAlert
  rw [stands]
  exact if_pos open_

theorem State.ackAlert_of_acked (notRaised : x.state ≠ 1) (notRectified : x.state ≠ 3) : s.ackAlert row = s := by
  unfold State.ackAlert
  rw [stands]
  exact if_neg (not_or_intro notRaised notRectified)

/-- An alert in V that is acknowledged stands in its row in A. -/
theorem State.ackRow_spec_of_raised (raised : x.state = 1) :
    (s.ackRow row).bare alertBlocks = s.bare alertBlocks ∧ (s.ackRow row).health.acnIn = s.health.acnIn ∧
      (s.ackRow row).health.alerts.find? (fun y => y.1 == row) = some (row, x.moved s.markNow 2 s.fc) := by
  obtain ⟨frame, acn, alerts⟩ := State.changeRow_spec (m := s.markNow) (kind := 2) (st := 2) stands
  rw [State.ackRow_of_raised stands raised, alerts]
  exact ⟨frame, acn, Tbl.find?_put ..⟩

/-- An alert in U that is acknowledged leaves the table, where alert 0xE0FF does not stand. -/
theorem State.ackRow_spec_of_rectified (rectified : x.state = 3) (notFull : s.health.alerts.find? (fun y => y.1 == 63) = none) :
    (s.ackRow row).bare alertBlocks = s.bare alertBlocks ∧ (s.ackRow row).health.alerts = Tbl.del row s.health.alerts := by
  obtain ⟨frame, -, alerts⟩ := State.changeRow_spec (m := s.markNow) (kind := 2) (st := 4) stands
  have judged : (s.changeRow s.markNow 2 row 4).judgeFull s.markNow = s.changeRow s.markNow 2 row 4 := by
    have none : (s.changeRow s.markNow 2 row 4).health.alerts.find? (fun y => y.1 == 63) = none := by
      rw [alerts]
      exact Tbl.find?_del_of_none notFull
    unfold State.judgeFull
    split
    · unfold State.endRow
      rw [none]
      rfl
    · rfl
  rw [State.ackRow_of_rectified stands rectified, judged]
  exact ⟨frame, alerts⟩

end

theorem State.ackAlert_of_none {row : Nat} {s : State} (none : s.health.alerts.find? (fun y => y.1 == row) = none) :
    s.ackAlert row = s := by
  unfold State.ackAlert
  rw [none]

/-- The ACN and the error register leave the table alone. -/
theorem State.acked_tail (x : Alert) (s : State) : (s.sendAcn x).trackErrors.bare alertBlocks = s.bare alertBlocks ∧
    (s.sendAcn x).trackErrors.health.alerts = s.health.alerts := by
  refine ⟨(State.trackErrors_alertBlocks _).trans (State.deviceRecord_alertBlocks ..), ?_⟩
  rw [State.trackErrors_health]
  exact congrArg (fun h => h.alerts) (State.deviceRecord_health ..)

/-- An acknowledgement of an alert that stands, alone in the list of ACN, is taken from it and acted on. -/
theorem State.takeAcn_of_acknowledge {act : Nat → State → State} {q : FibreRecord} {row : Nat} {s : State}
    (alone : s.health.acnIn = [q]) (ours : (acnFields q).1 = ascii "HLX") (asks : (acnFields q).2.2.2 = ascii "A")
    (stands : s.alertRow (acnFields q).2.1 (acnFields q).2.2.1 = some row) :
    s.takeAcn false act = act row { s with health := { s.health with acnIn := [] } } := by
  have first : s.health.acnIn.find? (fun r => decide ((acnFields r).2.2.2 = ascii "Q") == false) = some q := by
    rw [alone]
    exact List.find?_cons_of_pos (by rw [asks]; decide)
  have taken : s.health.acnIn.erase q = [] := by
    rw [alone]
    exact List.erase_cons_head ..
  have kept : ({ s with health := { s.health with acnIn := [] } } : State).alertRow (acnFields q).2.1 (acnFields q).2.2.1 =
      some row := stands
  unfold State.takeAcn
  rw [first]
  dsimp only
  rw [taken, if_pos ⟨ours, .inl asks⟩, kept]

end Machine

end Sys2Proof

open Sys2Proof Sys2Proof.Machine

/-- Settles O49: what SUP writes of an event (`State.logWrite_spec`, `State.newAlert_spec`) and what an acknowledgement makes of a row
(`State.ackRow_spec_of_raised`, `State.ackRow_spec_of_rectified`), through the dictionary or through ACN. -/
theorem eventLogAndAlerts : Obligations.EventLogAndAlerts := by
  intro s dt r row e rest x q u h inst near frame acked sup
  have run {f : State → State} {t : State} (acts : f u = t) := next_whenUp_eq (u := u) sup acts
  have framed {t : State} (bare : t.bare alertBlocks = u.bare alertBlocks) : frame t := State.eq_patch_of_bare bare
  refine ⟨fun none => run (State.writeEvent_of_none none), fun oldest event many => ?_, fun oldest event few => ?_,
    fun oldest raise new notFull free lasts => ?_, fun none => run (State.ackAlert_of_none none), fun stands =>
      ⟨fun notRaised notRectified => run (State.ackAlert_of_acked stands notRaised notRectified), fun raised => ?_,
        fun rectified notFull => ?_⟩, fun none => ?_, fun alone raised => ?_, fun none => run (State.takeAcn_of_none false _ u none),
    fun alone ours asks here stands raised => ?_⟩
  · refine ⟨_, run (State.writeEvent_of_event oldest event), framed ?_, ?_⟩
    · rw [State.trackErrors_alertBlocks, State.logEvent_alertBlocks]
      exact u.health_bare rfl _
    · rw [State.trackErrors_health, State.logEvent_of_many (s := u.eventTaken rest) many]
      rfl
  · refine ⟨_, run (State.writeEvent_of_event oldest event), framed ?_, ?_⟩
    · rw [State.trackErrors_alertBlocks, State.logEvent_alertBlocks]
      exact u.health_bare rfl _
    · rw [State.trackErrors_health, State.logEvent_of_few (s := u.eventTaken rest) few]
      obtain ⟨log, written, short, last⟩ :=
        State.logWrite_spec ⟨e.at_, e.wstate, e.start⟩ 0 0 e.code e.a e.b ((u.eventTaken rest).rated e)
      rw [written]
      exact ⟨rfl, rfl, short, rfl, last⟩
  · obtain ⟨bare, waiting, seq, alerts⟩ := State.newAlert_spec ⟨e.at_, e.wstate, e.start⟩ r e.code inst e.a e.b (u.eventTaken rest)
    refine ⟨_, run ((State.writeEvent_of_raise oldest raise).trans (congrArg _ (State.raiseAlert_of_new new notFull free lasts))),
      framed ?_, ?_⟩
    · rw [State.trackErrors_alertBlocks, State.emcy_bare _ rfl rfl rfl rfl, bare]
      exact u.health_bare rfl _
    · rw [State.trackErrors_health, State.emcy_health]
      exact ⟨waiting, seq, alerts⟩
  · obtain ⟨bare, -, acknowledged⟩ := State.ackRow_spec_of_raised stands raised
    obtain ⟨tail, kept⟩ := State.acked_tail x (u.ackRow row.val)
    exact ⟨_, run (State.ackAlert_of_stands stands (.inl raised)), framed (tail.trans bare),
      (congrArg (List.find? _) kept).trans acknowledged⟩
  · obtain ⟨bare, alerts⟩ := State.ackRow_spec_of_rectified stands rectified notFull
    obtain ⟨tail, kept⟩ := State.acked_tail x (u.ackRow row.val)
    exact ⟨_, run (State.ackAlert_of_stands stands (.inr rectified)), framed (tail.trans bare), kept.trans alerts⟩
  · refine run ?_
    unfold State.ackAll
    rw [none]
    rfl
  · have stands : h.alerts.find? (fun y => y.1 == r) = some (r, x) := by
      rw [alone]
      exact List.find?_cons_of_pos (beq_self_eq_true r)
    have one : u.ackAll = u.ackAlert r := by
      unfold State.ackAll
      rw [alone]
      rfl
    obtain ⟨bare, -, acknowledged⟩ := State.ackRow_spec_of_raised stands raised
    obtain ⟨tail, kept⟩ := State.acked_tail x (u.ackRow r)
    refine ⟨_, run (one.trans (State.ackAlert_of_stands stands (.inl raised))), framed (tail.trans bare), ?_⟩
    exact (congrArg (List.find? _) kept).trans acknowledged
  · obtain ⟨bare, acn, acknowledged⟩ := State.ackRow_spec_of_raised (s := { u with health := { u.health with acnIn := [] } })
      stands raised
    refine ⟨_, run (State.takeAcn_of_acknowledge alone ours asks here), framed ?_, ?_, ?_⟩
    · rw [State.trackErrors_alertBlocks, bare]
      exact u.health_bare rfl _
    · exact (congrArg (fun h : Health => h.alerts.find? (fun y => y.1 == r)) (State.trackErrors_health _)).trans acknowledged
    · exact (congrArg (fun h : Health => h.acnIn) (State.trackErrors_health _)).trans acn
end

section
/-! PROOF. Frames of the peer and to it (R8, R239, R304): what a Joile frame finds when SUP takes it, and what a frame that is sent
adds to the link's queue. -/

namespace Sys2Proof.Machine

open Sys2Proof

/-! ### What a frame of the peer finds -/

section

variable (q n : Nat) (u : State)

theorem State.passed_twin : (u.passed q n).twin = u.twin := by rw [State.passed_eq]

theorem State.passed_cfg : (u.passed q n).cfg = u.cfg := by rw [State.passed_eq]

theorem State.passed_cycle : (u.passed q n).cycle = u.cycle := by rw [State.passed_eq]

theorem State.passed_time : (u.passed q n).time = u.time := by rw [State.passed_eq]; rfl

theorem State.passed_uid : (u.passed q n).uid = u.uid := by rw [State.passed_eq]; rfl

theorem State.passed_up (d : Nat) : (u.passed q n).up d = u.up d := by rw [State.passed_eq]; rfl

theorem State.passed_linkUp : (u.passed q n).linkUp = u.linkUp := by rw [State.passed_eq]; rfl

theorem State.passed_formed : (u.passed q n).formed = u.formed := by rw [State.passed_eq]; rfl

theorem State.passed_writesCopy : (u.passed q n).writesCopy = u.writesCopy := by rw [State.passed_eq]; rfl

theorem State.passed_translate (p : WheelPos) : (u.passed q n).translate p = u.translate p := by rw [State.passed_eq]; rfl

end

/-- A packet that goes through a queue leaves it alone whether a queue is to be realigned. -/
theorem State.passed_admits (q n k : Nat) (s : State) : (s.passed q n).admits k = s.admits k := by
  have told : ((s.notices q n).que k).wasReset = (s.que k).wasReset := by
    have same := congrArg Queue.wasReset (State.que_notices q n k s).1
    exact same
  unfold State.passed
  split
  · rfl
  · unfold State.admits
    rw [State.que_modQue]
    split
    · next same =>
      subst same
      exact congrArg Option.isNone told
    · rw [told]

section

variable {u : State} {f : State → State}

theorem State.fromPeer_of_link (sup : u.works domSup = true) (joile : u.works domJoile = true)
    (link : u.flows 0x83 = true ∧ u.fabric.stopped.contains .joile = false) : u.fromPeer f = f (u.passed 0x83 1) := by
  obtain ⟨flows, clock⟩ := link
  unfold State.fromPeer
  rw [State.whenUp_of _ _ _ joile, State.whenUp_of _ _ _ sup, if_neg (Bool.eq_false_iff.mp clock)]
  exact if_pos flows

theorem State.fromPeer_of_no_link (noLink : ¬ (u.flows 0x83 = true ∧ u.fabric.stopped.contains .joile = false)) :
    u.fromPeer f = u := by
  unfold State.fromPeer State.whenUp
  split
  · split
    · dsimp only
      split
      · rfl
      · next clock => exact if_neg fun flows => noLink ⟨flows, Bool.eq_false_iff.mpr clock⟩
    · rfl
  · rfl

end

/-! ### What a frame to the peer adds -/

theorem State.pushed_twin (q : Nat) (s : State) : (s.pushed q).twin = s.twin := congrArg (fun t => t.twin) (State.pushed_eq q s)

/-- What a frame to the peer touches. -/
@[reducible] def linkBlocks : Blocks := { twin := true, stats := true, fabric := true, free := true }

theorem State.sendJ_linkBlocks (f : JFrame) (s : State) : (s.sendJ f).bare linkBlocks = s.bare linkBlocks :=
  State.sendJ_bare s rfl rfl rfl rfl f

/-- A frame that the link carries goes behind those that wait. -/
theorem State.sendJ_out {s : State} (f : JFrame) (carries : s.linkCarries = true) : (s.sendJ f).twin.out = s.twin.out ++ [f] := by
  unfold State.linkCarries at carries
  unfold State.sendJ
  rw [if_pos carries, State.pushed_twin]

/-- Of the twin block a frame to the peer touches the queue and the frame numbers alone. -/
theorem State.sendJ_twin (s : State) (f : JFrame) : (s.sendJ f).twin =
    { s.twin with out := (s.sendJ f).twin.out, txSeq := (s.sendJ f).twin.txSeq, wire := (s.sendJ f).twin.wire } := by
  unfold State.sendJ
  split
  · rw [State.pushed_twin]
    rfl
  · rfl

/-- A formed link carries what queue 0x082 admits. -/
theorem State.linkCarries_of_formed {s : State} (joile : s.works domJoile = true) (formed : s.formed = true)
    (admits : s.admits 0x82 = true) : s.linkCarries = true := by
  have up : s.up domJoile = true := (Bool.and_eq_true_iff.mp joile).1
  have lanes : s.linkUp = true := (Bool.and_eq_true_iff.mp (Bool.and_eq_true_iff.mp formed).1).1
  unfold State.linkCarries
  rw [up, lanes, admits]
  rfl

/-! ### Alerts that stand -/

/-- A code of Table 13.6 that is marked as an alert stands once it has been raised while SUP runs. -/
theorem State.event_alertOn {s : State} {code a b : Nat} (alert : evKind code ≠ .event) (up : s.up domSup = true) :
    (s.event code a b).alertOn code a = true := by
  have raised : s.event code a b = s.raiseKind 1 1 code a b := by
    unfold State.event
    split
    · next event => exact absurd event alert
    · rfl
  rw [raised]
  unfold State.raiseKind
  extract_lets e
  have waits : ¬ ((s.up domSup = false && decide (16 ≤
      (s.health.waiting.filter (fun x => x.code / 0x1000 == code / 0x1000)).length)) = true) := by
    rw [up]
    exact Bool.false_ne_true
  rw [if_neg waits]
  unfold State.alertOn
  dsimp only
  rw [List.reverse_append, List.reverse_singleton, List.singleton_append, List.find?_cons_of_pos]
  · rfl
  · change (code == code && a % 0x10000 == a % 0x10000 && (true || _)) = true
    rw [beq_self_eq_true, beq_self_eq_true]
    rfl

theorem State.raiseOnce_alertOn {s : State} {code a b : Nat} (alert : evKind code ≠ .event) (up : s.up domSup = true) :
    (s.raiseOnce code a b).alertOn code a = true := by
  unfold State.raiseOnce
  split
  · assumption
  · exact State.event_alertOn alert up

@[simp] theorem State.raiseOnce_bare {F : Blocks} (health : F.health = true) (code a b : Nat) (s : State) :
    (s.raiseOnce code a b).bare F = s.bare F := by
  unfold State.raiseOnce
  split
  · rfl
  · exact State.event_bare s health ..

@[simp] theorem State.raiseKind_bare {F : Blocks} (health : F.health = true) (kind astate code a b : Nat) (s : State) :
    (s.raiseKind kind astate code a b).bare F = s.bare F := by
  unfold State.raiseKind
  extract_lets e
  unfold State.bare State.patch
  rw [health]
  split
  · rfl
  · rfl

@[simp] theorem State.endOnce_bare {F : Blocks} (health : F.health = true) (code a : Nat) (s : State) :
    (s.endOnce code a).bare F = s.bare F := by
  unfold State.endOnce
  split
  · exact State.raiseKind_bare health ..
  · rfl

end Sys2Proof.Machine
end

section
/-! PROOF. O55: the configuration of a pair (R323), as each unit takes a SHADOW, a CHECK_RESULT, a SET and a SET_ACK, and as the
active unit's timer runs out. -/

namespace Sys2Proof.Machine

open Sys2Proof

theorem State.up_congr {s t : State} (power : t.power = s.power) (d : Nat) : t.up d = s.up d := by
  unfold State.up State.dom
  rw [power]

/-! ### SHADOW -/

theorem State.checkShadow_congr {s t : State} (c : Cfg) (cfg : t.cfg = s.cfg) (uid : t.uid = s.uid) (time : t.time = s.time) :
    t.checkShadow c t.time = s.checkShadow c s.time := by
  unfold State.checkShadow
  rw [cfg, uid, time]

/-- What has come of the configuration is kept, or dropped. -/
def State.holds (b : List Byte) (s : State) : State := { s with twin.inBytes := b }

theorem State.holds_linkBlocks (b : List Byte) (s : State) : (s.holds b).bare linkBlocks = s.bare linkBlocks := rfl

section

variable {s : State} {resync last : Bool} {offset : Nat} {data : List Byte}

theorem State.takeShadow_of_out (out : s.formed = false ∨ s.twin.role ≠ 2) : s.takeShadow resync offset data last = s := if_pos out

variable (formed : s.formed = true) (standby : s.twin.role = 2)

include formed standby

theorem State.takeShadow_of_gap (later : offset ≠ 0) (gap : offset ≠ s.twin.inBytes.length) :
    s.takeShadow resync offset data last = s.holds [] := by
  unfold State.takeShadow
  rw [if_neg (by rw [formed, standby]; decide), if_pos ⟨later, gap⟩]
  rfl

theorem State.takeShadow_of_first :
    s.takeShadow resync 0 data false = s.holds data := by
  unfold State.takeShadow
  rw [if_neg (by rw [formed, standby]; decide), if_neg (fun h => h.1 rfl)]
  rfl

theorem State.takeShadow_of_next (later : offset ≠ 0) (next : offset = s.twin.inBytes.length) :
    s.takeShadow resync offset data false = s.holds (s.twin.inBytes ++ data) := by
  unfold State.takeShadow
  rw [if_neg (by rw [formed, standby]; decide), if_neg (fun h => h.2 next), if_neg later]
  rfl

/-- A configuration that comes in one segment is judged whole. -/
theorem State.takeShadow_of_whole : s.takeShadow resync 0 data true =
    if resync then (s.holds []).judgeResync (exchange s.uid (contentCfg s.uid data))
    else (s.holds []).judgeShadow (exchange s.uid (contentCfg s.uid data)) := by
  unfold State.takeShadow
  rw [if_neg (by rw [formed, standby]; decide), if_neg (fun h => h.1 rfl)]
  rfl

end

/-- The standby's verdict on a shadow is kept, and answered. -/
theorem State.judgeShadow_spec (c : Cfg) (s : State) :
    let t := s.judgeShadow c
    t.bare linkBlocks = s.bare linkBlocks ∧ t.twin.inShadow = c ∧ t.twin.inBytes = s.twin.inBytes ∧
      t.twin.inReady = (s.checkShadow c s.time).isEmpty ∧
      (s.linkCarries = true → ∃ n l, t.twin.out = s.twin.out ++ [JFrame.checkResult t.twin.inReady n l]) := by
  intro t
  let e := s.checkShadow c s.time
  let judged : State := { s with twin.inShadow := c, twin.inReady := e.isEmpty }
  have twin : t.twin = { judged.twin with out := t.twin.out, txSeq := t.twin.txSeq, wire := t.twin.wire } :=
    State.sendJ_twin judged _
  have ready : t.twin.inReady = e.isEmpty := congrArg (fun x => x.inReady) twin
  refine ⟨State.sendJ_linkBlocks .., congrArg (fun x => x.inShadow) twin, congrArg (fun x => x.inBytes) twin, ready,
    fun carries => ⟨e.length, e.take 64, ?_⟩⟩
  rw [ready]
  exact State.sendJ_out (s := judged) _ carries

/-- The faults that the standby finds in a sealed configuration of the active unit. -/
def State.resyncFaults (c : Cfg) (s : State) : List CheckEntry :=
  if c = s.cfg then [] else Check.all { u := s.uid, c := c, point := s.time }

theorem State.judgeResync_of_busy {c : Cfg} {s : State} (busy : s.cycle.state ≠ 0 ∨ s.writesCopy = true) :
    s.judgeResync c = s := if_pos busy

/-- The answer to the active unit's sealed configuration. -/
def State.resyncAnswered (c : Cfg) (s : State) : State :=
  s.sendJ (.checkResult (s.resyncFaults c).isEmpty (s.resyncFaults c).length ((s.resyncFaults c).take 64))

section

variable {c : Cfg} {s : State} (idle : s.cycle.state = 0) (free : s.writesCopy = false)

include idle free

/-- Without a fault it takes effect 10 ms on; with one the alert stands, and the unit stays on its own. -/
theorem State.judgeResync_of_idle : s.judgeResync c =
    if (s.resyncFaults c).isEmpty then
      ({ s.resyncAnswered c with cycle := { (s.resyncAnswered c).cycle with
        shadow := c, whole := true, fromTwin := some (s.resyncAnswered c).twin.peerGen, owner := none } }).enterPoint
          ((s.resyncAnswered c).time + BitVec.ofNat 64 (msPos 10))
    else (s.resyncAnswered c).raiseOnce 0xC002 0 0 := by
  unfold State.judgeResync
  rw [if_neg (by rw [idle, free]; decide)]
  rfl

theorem State.judgeResync_spec (up : s.up domSup = true) :
    let t := s.judgeResync c
    t.twin.inBytes = s.twin.inBytes ∧ t.cfg = s.cfg ∧
      (s.resyncFaults c = [] → t.cycle.state = 5 ∧ t.cycle.shadow = c ∧ t.cycle.whole = true ∧
        t.cycle.fromTwin = some s.twin.peerGen ∧ t.appts.setRow = some (s.time + BitVec.ofNat 64 (msPos 10))) ∧
      (s.resyncFaults c ≠ [] → t.cycle = s.cycle ∧ t.appts = s.appts ∧ t.alertOn 0xC002 0 = true) := by
  intro t
  let a := s.resyncAnswered c
  have frame := State.eq_patch_of_bare (State.sendJ_linkBlocks
    (.checkResult (s.resyncFaults c).isEmpty (s.resyncFaults c).length ((s.resyncFaults c).take 64)) s)
  have twin : a.twin = { s.twin with out := a.twin.out, txSeq := a.twin.txSeq, wire := a.twin.wire } := State.sendJ_twin ..
  have bytes : a.twin.inBytes = s.twin.inBytes := congrArg (fun x => x.inBytes) twin
  have cfg : a.cfg = s.cfg := congrArg (fun t => t.cfg) frame
  have run : t = _ := State.judgeResync_of_idle idle free
  by_cases sound : s.resyncFaults c = []
  · rw [if_pos (List.isEmpty_iff.mpr sound)] at run
    have gen : a.twin.peerGen = s.twin.peerGen := congrArg (fun x => x.peerGen) twin
    have wheels : a.wheels = s.wheels := congrArg (fun t => t.wheels) frame
    have time : a.time = s.time := congrArg (fun w => w.time.visible) wheels
    rw [run]
    refine ⟨bytes, cfg, fun _ => ⟨rfl, rfl, rfl, congrArg some gen, ?_⟩, fun faults => absurd sound faults⟩
    exact congrArg (fun p => some (p + BitVec.ofNat 64 (msPos 10))) time
  · rw [if_neg (fun h => sound (List.isEmpty_iff.mp h))] at run
    have raised := State.eq_patch_of_bare (State.raiseOnce_bare (F := { health := true }) rfl 0xC002 0 0 a)
    have power : a.up domSup = s.up domSup := State.up_congr (congrArg (fun t => t.power) frame) domSup
    rw [run]
    refine ⟨(congrArg (fun t => t.twin.inBytes) raised).trans bytes, (congrArg (fun t => t.cfg) raised).trans cfg,
      fun none => absurd none sound, fun _ => ⟨?_, ?_, ?_⟩⟩
    · exact (congrArg (fun t => t.cycle) raised).trans (congrArg (fun t => t.cycle) frame)
    · exact (congrArg (fun t => t.appts) raised).trans (congrArg (fun t => t.appts) frame)
    · exact State.raiseOnce_alertOn (by decide) (power.trans up)

end

/-! ### CHECK_RESULT -/

section

variable {s : State} {pass : Bool} {count : Nat} {entries : List CheckEntry}

theorem State.takeResult_of_out (out : s.twin.role ≠ 4 ∨ s.formed = false) : s.takeResult pass count entries = s := if_pos out

/-- The standby's answer, as the check keeps it. -/
def State.answered (pass : Bool) (count : Nat) (entries : List CheckEntry) (s : State) : State :=
  { s with cycle := { s.cycle with
      twinPass := some pass, twinCount := count, twinFails := entries.map (fun e => { e with reason := 9 }) } }

variable (active : s.twin.role = 4) (formed : s.formed = true)

include active formed

/-- The answer to the check that waits for it is kept, and completes it where the unit's own has run. -/
theorem State.takeResult_of_check (checks : s.cycle.state = 2) (asked : s.cycle.asked = true) (waits : s.cycle.twinPass = none) :
    s.takeResult pass count entries = match s.cycle.found with
      | some own => (s.answered pass count entries).report own
      | none => s.answered pass count entries := by
  unfold State.takeResult
  rw [if_neg (by rw [active, formed]; decide), if_pos ⟨checks, asked, by rw [waits]; rfl⟩]
  rfl

/-- An answer to no check is one to a resync. -/
theorem State.takeResult_of_resync {x : Twin} {gen : Nat} (twin : s.twin = x) (generation : s.cycle.generation = gen)
    (other : s.cycle.state ≠ 2) : s.takeResult pass count entries =
      if pass then s else { s with twin := { x with resyncFailed := some gen, resyncSince := none } } := by
  subst twin generation
  unfold State.takeResult
  rw [if_neg (by rw [active, formed]; decide), if_neg (fun h => other h.1)]

end

theorem State.report_spec (own : List CheckEntry) (pass : Bool) (count : Nat) (entries : List CheckEntry) (s : State) :
    let t := (s.answered pass count entries).report own
    t.cycle.state = (if own ≠ [] ∨ pass = false then 4 else 3) ∧ t.cycle.twinPass = some pass ∧ t = { s with cycle := t.cycle } := by
  intro t
  refine ⟨?_, rfl, rfl⟩
  change (if (decide (own ≠ []) || decide (some pass = some false)) = true then 4 else 3) = _
  simp only [Bool.or_eq_true, decide_eq_true_eq, Option.some.injEq]

/-! ### SET and SET_ACK -/

section

variable {s : State} {point : WheelPos} {g : Nat}

theorem State.takeSet_of_barred (barred : s.twin.role ≠ 2 ∨ s.formed = false ∨ s.twin.inReady = false ∨ s.cycle.state ≠ 0 ∨
    s.writesCopy = true ∨ posDiff (s.translate point) s.time * 1000 < 2 ^ 32) : s.takeSet point g = s := if_pos barred

/-- The standby's shadow, with a set point of its own wheel. -/
def State.pairSet (sp : WheelPos) (g : Nat) (s : State) : State :=
  { s with cycle := { s.cycle with shadow := s.twin.inShadow, whole := false, fromTwin := some g, owner := none } }.enterPoint sp

theorem State.takeSet_of_good (standby : s.twin.role = 2) (formed : s.formed = true) (ready : s.twin.inReady = true)
    (idle : s.cycle.state = 0) (free : s.writesCopy = false) (inTime : 2 ^ 32 ≤ posDiff (s.translate point) s.time * 1000) :
    s.takeSet point g = { (s.pairSet (s.translate point) g).sendJ (.setAck (s.translate point)) with twin := {
      ((s.pairSet (s.translate point) g).sendJ (.setAck (s.translate point))).twin with inReady := false } } := by
  refine if_neg ?_
  rintro (h | h | h | h | h | h)
  · exact h standby
  · exact Bool.false_ne_true (h.symm.trans formed)
  · exact Bool.false_ne_true (h.symm.trans ready)
  · exact h idle
  · exact Bool.false_ne_true (free.symm.trans h)
  · exact absurd h (Int.not_lt.mpr inTime)

end

/-- What a set point of the pair touches. -/
@[reducible] def setBlocks : Blocks := { cycle := true, appts := true, twin := true, stats := true, fabric := true, free := true }

/-- A set point of the active unit is entered on the standby, and acknowledged. -/
theorem State.acknowledged_spec (sp : WheelPos) (g : Nat) (s : State) :
    let a := (s.pairSet sp g).sendJ (.setAck sp)
    let t : State := { a with twin := { a.twin with inReady := false } }
    t.cycle.state = 5 ∧ t.cycle.pending = some sp ∧ t.cycle.shadow = s.twin.inShadow ∧ t.cycle.fromTwin = some g ∧
      t.appts.setRow = some sp ∧ t.twin.inReady = false ∧ (s.linkCarries = true → t.twin.out = s.twin.out ++ [JFrame.setAck sp]) ∧
      t.bare setBlocks = s.bare setBlocks := by
  intro a t
  have frame := State.eq_patch_of_bare (State.sendJ_linkBlocks (.setAck sp) (s.pairSet sp g))
  have cycle : t.cycle = (s.pairSet sp g).cycle := congrArg (fun t => t.cycle) frame
  have appts : t.appts = (s.pairSet sp g).appts := congrArg (fun t => t.appts) frame
  have rest : t.bare setBlocks = s.bare setBlocks := (State.sendJ_bare (F := setBlocks) (s.pairSet sp g) rfl rfl rfl rfl (.setAck sp))
  rw [cycle, appts]
  exact ⟨rfl, rfl, rfl, rfl, rfl, rfl, fun carries => State.sendJ_out (s := s.pairSet sp g) _ carries, rest⟩

/-! ### RESYNC_TIMER -/

section

variable {s : State} {r : Nat}

theorem State.resyncTimer_of_idle (idle : s.twin.resyncSince = none ∨ s.twin.role ≠ 4 ∨ s.formed = false ∨ s.twin.heartbeat = false ∨
    s.unequal = false) : s.resyncTimer = s := by
  unfold State.resyncTimer
  split
  · next t since =>
    refine if_neg ?_
    rintro ⟨active, formed, beat, unequal, -⟩
    rcases idle with h | h | h | h | h
    · exact nomatch h.symm.trans since
    · exact h active
    · exact Bool.false_ne_true (h.symm.trans formed)
    · exact Bool.false_ne_true (h.symm.trans beat)
    · exact Bool.false_ne_true (h.symm.trans unequal)
  · rfl

theorem State.resyncTimer_of_early (since : s.twin.resyncSince = some r) (early : s.now - r < 10 * cyclesPerMs) : s.resyncTimer = s := by
  unfold State.resyncTimer
  rw [since]
  exact if_neg (fun h => Nat.not_le.mpr early h.2.2.2.2)

/-- After 10 ms the active unit sends its sealed configuration. -/
theorem State.resyncTimer_of_late (since : s.twin.resyncSince = some r) (late : 10 * cyclesPerMs ≤ s.now - r) (active : s.twin.role = 4)
    (formed : s.formed = true) (beat : s.twin.heartbeat = true) (unequal : s.unequal = true) (copy : s.boot.copyInForce ≠ none) :
    s.resyncTimer = ({ s with twin := { s.twin with resyncSince := none } } : State).sendJ (.shadow true s.sealedCfg) := by
  unfold State.resyncTimer State.resync
  rw [since]
  dsimp only
  rw [if_pos ⟨active, formed, beat, unequal, late⟩, if_pos (Option.isSome_iff_ne_none.mpr copy)]

end

end Sys2Proof.Machine

open Sys2Proof Sys2Proof.Machine

/-- Settles O55: what each frame of the pair does where it is taken, on the state in which SUP finds it (`State.fromPeer_of_link`):
the verdicts `State.judgeShadow_spec`, `State.judgeResync_spec` and `State.report_spec`, and the set point of
`State.acknowledged_spec`. -/
theorem pairConfiguration : Obligations.PairConfiguration := by
  intro s dt offset count g r resync pass last data entries own point u x sp whole v link sends sup joile
  have no {f : State → State} (none : ¬ link) : (.next (u.fromPeer f) : Host.Outcome State Fault Refusal) = .next u :=
    congrArg _ (State.fromPeer_of_no_link none)
  have run {f : State → State} {t : State} (there : link) (acts : f v = t) :
      (.next (u.fromPeer f) : Host.Outcome State Fault Refusal) = .next t :=
    congrArg _ ((State.fromPeer_of_link sup joile there).trans acts)
  have idle (none : ¬ link) : exec (.shadow dt resync offset data last) s = .next u ∧ exec (.checkResult dt pass count entries) s = .next u ∧
      exec (.set dt point g) s = .next u ∧ exec (.setAck dt point) s = .next u := ⟨no none, no none, no none, no none⟩
  have shadowed {rs l : Bool} {o : Nat} {t : State} (there : link) (acts : v.takeShadow rs o data l = t) :
      exec (.shadow dt rs o data l) s = .next t := run there acts
  have resulted {t : State} (there : link) (acts : v.takeResult pass count entries = t) :
      exec (.checkResult dt pass count entries) s = .next t := run there acts
  have setted {t : State} (there : link) (acts : v.takeSet point g = t) : exec (.set dt point g) s = .next t := run there acts
  have acked {t : State} (there : link) (acts : v.takeAck point = t) : exec (.setAck dt point) s = .next t := run there acts
  have timed {t : State} (acts : u.resyncTimer = t) : exec (.resyncTimer dt) s = .next t := next_whenUp_eq sup acts
  have twin : v.twin = x := State.passed_twin 0x83 1 u
  have cycle : v.cycle = u.cycle := State.passed_cycle 0x83 1 u
  have formedV : v.formed = u.formed := State.passed_formed 0x83 1 u
  have translated : v.translate point = sp := State.passed_translate 0x83 1 u point
  have time : v.time = u.time := State.passed_time 0x83 1 u
  have uid : v.uid = u.uid := State.passed_uid 0x83 1 u
  have cfgV : v.cfg = u.cfg := State.passed_cfg 0x83 1 u
  have apptsV : v.appts = u.appts := congrArg (fun t => t.appts) (State.passed_eq 0x83 1 u)
  have writes : v.writesCopy = u.writesCopy := State.passed_writesCopy 0x83 1 u
  have upV : v.up domSup = true := (State.passed_up 0x83 1 u domSup).trans (Bool.and_eq_true_iff.mp sup).1
  have bareV : v.bare linkBlocks = u.bare linkBlocks := State.passed_bare u rfl rfl 0x83 1
  have bareSet : v.bare setBlocks = u.bare setBlocks := State.passed_bare u rfl rfl 0x83 1
  have carries (formed : u.formed = true) (admits : u.admits 0x82 = true) : v.linkCarries = true := by
    have joileV : v.works domJoile = true := by
      unfold State.works
      rw [State.passed_up 0x83 1 u domJoile, (Bool.and_eq_true_iff.mp joile).1]
      rfl
    exact State.linkCarries_of_formed joileV (formedV.trans formed) ((State.passed_admits 0x83 1 0x82 u).trans admits)
  clear_value v
  clear no run
  clear_value u
  refine ⟨idle, fun there => ?_, fun idle => timed (State.resyncTimer_of_idle idle),
    fun since early => timed (State.resyncTimer_of_early since early), fun since late active formed beat unequal copy => ?_⟩
  · refine ⟨fun out => shadowed there (State.takeShadow_of_out (by rw [formedV, twin]; exact out)), fun formed standby => ?_,
      fun out => resulted there (State.takeResult_of_out (by rw [formedV, twin]; exact out)), fun active formed checks asked waits => ?_,
      fun active formed other => ?_, fun barred => ?_, fun standby form ready free quiet inTime => ?_, ?_⟩
    · have form : v.formed = true := formedV.trans formed
      have role : v.twin.role = 2 := (congrArg (fun y => y.role) twin).trans standby
      have length : v.twin.inBytes.length = x.inBytes.length := congrArg (fun y => y.inBytes.length) twin
      have wholeV : exchange v.uid (contentCfg v.uid data) = whole :=
        congrArg (fun i => exchange i (contentCfg i data)) uid
      refine ⟨fun later gap => shadowed there (State.takeShadow_of_gap form role later (by rw [length]; exact gap)),
        fun first => by rw [first]; exact shadowed there (State.takeShadow_of_first form role),
        fun later next => shadowed there ((State.takeShadow_of_next form role later (next.trans length.symm)).trans
          (congrArg (fun y => v.holds (y.inBytes ++ data)) twin)), ?_,
        fun busy => ?_, fun free quiet => ?_⟩
      · have judged := State.takeShadow_of_whole (resync := false) (data := data) form role
        rw [if_neg Bool.false_ne_true, wholeV] at judged
        obtain ⟨bare, shadow, bytes, ready, answer⟩ := State.judgeShadow_spec whole (v.holds [])
        have same : (v.holds []).checkShadow whole (v.holds []).time = u.checkShadow whole u.time :=
          State.checkShadow_congr whole cfgV uid time
        refine ⟨_, shadowed there judged, State.eq_patch_of_bare (bare.trans ((State.holds_linkBlocks [] v).trans bareV)), shadow, bytes, ready.trans (congrArg _ same), fun admits => ?_⟩
        obtain ⟨n, l, out⟩ := answer (carries formed admits)
        exact ⟨n, l, out.trans (congrArg (fun y => y.out ++ _) twin)⟩
      · have judged := State.takeShadow_of_whole (resync := true) (data := data) form role
        rw [if_pos rfl, State.judgeResync_of_busy] at judged
        · exact shadowed there judged
        · exact busy.imp (fun h => (congrArg (fun c => c.state) cycle).trans_ne h) writes.trans
      · have judged := State.takeShadow_of_whole (resync := true) (data := data) form role
        rw [if_pos rfl, wholeV] at judged
        obtain ⟨bytes, cfg, good, bad⟩ := State.judgeResync_spec (c := whole) (s := v.holds [])
          ((congrArg (fun c => c.state) cycle).trans free) (writes.trans quiet) upV
        have faults : (v.holds []).resyncFaults whole = if whole = u.cfg then [] else Check.all { u := u.uid, c := whole, point := u.time } := by
          unfold State.resyncFaults
          rw [show (v.holds []).cfg = u.cfg from cfgV, show (v.holds []).uid = u.uid from uid, show (v.holds []).time = u.time from time]
        rw [faults] at good bad
        refine ⟨_, shadowed there judged, bytes, cfg.trans cfgV, fun none => ?_, fun some_ => ?_⟩
        · obtain ⟨state, shadow, all, gen, at_⟩ := good none
          exact ⟨state, shadow, all, gen.trans (congrArg (fun y => some y.peerGen) twin),
            at_.trans (congrArg (fun p => some (p + BitVec.ofNat 64 (msPos 10))) time)⟩
        · obtain ⟨kept, appts, alert⟩ := bad some_
          exact ⟨kept.trans cycle, appts.trans apptsV, alert⟩
    · have checked := State.takeResult_of_check (pass := pass) (count := count) (entries := entries) (s := v)
        ((congrArg (fun y => y.role) twin).trans active) (formedV.trans formed) ((congrArg (fun c => c.state) cycle).trans checks)
        ((congrArg (fun c => c.asked) cycle).trans asked) ((congrArg (fun c => c.twinPass) cycle).trans waits)
      refine ⟨fun none => resulted there ?_, fun own_ => ?_⟩
      · rw [checked, cycle, none]
        dsimp only [State.answered]
        rw [cycle]
      · rw [cycle, own_] at checked
        exact ⟨_, resulted there checked, State.report_spec own pass count entries v⟩
    · exact resulted there (State.takeResult_of_resync ((congrArg (fun y => y.role) twin).trans active) (formedV.trans formed) twin
        (congrArg (fun c => c.generation) cycle) ((congrArg (fun c => c.state) cycle).trans_ne other))
    · refine setted there (State.takeSet_of_barred ?_)
      rw [twin, formedV, cycle, writes, translated, time]
      exact barred
    · have set_ := State.takeSet_of_good (s := v) (point := point) (g := g) ((congrArg (fun y => y.role) twin).trans standby)
        (formedV.trans form) ((congrArg (fun y => y.inReady) twin).trans ready) ((congrArg (fun c => c.state) cycle).trans free)
        (writes.trans quiet) (by rw [translated, time]; exact inTime)
      rw [translated] at set_
      obtain ⟨state, pending, shadow, from_, at_, done, out, bare⟩ := State.acknowledged_spec sp g v
      refine ⟨_, setted there set_, state, pending, shadow.trans (congrArg (fun y => y.inShadow) twin), from_, at_, done,
        fun admits => (out (carries form admits)).trans (congrArg (fun y => y.out ++ _) twin), ?_⟩
      exact State.eq_patch_of_bare (bare.trans bareSet)
    · refine acked there ?_
      unfold State.takeAck
      rw [twin, cycle, formedV]
  · refine ⟨_, timed (State.resyncTimer_of_late since late active formed beat unequal copy),
      State.eq_patch_of_bare (State.sendJ_linkBlocks ..), fun admits => State.sendJ_out _ ?_, ?_⟩
    · exact State.linkCarries_of_formed joile formed admits
    · rw [State.sendJ_twin]
end

section
/-! PROOF. What the resume of a port touches (R316, R317): the queues of its listeners, what they count as sent, and the counters
that the peer has mirrored. -/

namespace Sys2Proof.Machine

open Sys2Proof

section

variable {F : Blocks} (s : State)

@[simp] theorem State.modLst_bare (bramble : F.bramble = true) (l : Nat) (f : Listener → Listener) : (s.modLst l f).bare F = s.bare F := by
  unfold State.bare State.patch
  rw [bramble]
  rfl

@[simp] theorem State.modSp_bare (serial : F.serial = true) (p : Nat) (f : SPort → SPort) : (s.modSp p f).bare F = s.bare F := by
  unfold State.bare State.patch
  rw [serial]
  rfl

@[simp] theorem State.regain_bare (fabric : F.fabric = true) (before : State) : (s.regain before).bare F = s.bare F := by
  unfold State.bare State.patch
  rw [fabric]
  rfl

variable (bramble : F.bramble = true) (stats : F.stats = true)

include bramble stats in
@[simp] theorem State.resumeQueue_bare (l : Nat) (m : Nat × WheelPos × Nat × Nat) : (s.resumeQueue l m).bare F = s.bare F := by
  unfold State.resumeQueue
  rw [State.stat_bare _ stats, State.modLst_bare _ bramble]

variable (eth : F.eth = true) (can : F.can = true)

include bramble eth can in
@[simp] theorem State.takeCounters_bare (l : Nat) : (s.takeCounters l).bare F = s.bare F := by
  unfold State.takeCounters
  split
  · rfl
  · dsimp only
    split
    · rw [State.modEp_bare _ eth, State.modLst_bare _ bramble]
    · rw [State.modCp_bare _ can, State.modLst_bare _ bramble]
    · exact State.modLst_bare s bramble ..

include bramble stats eth can

@[simp] theorem State.resumePort_bare (port : Nat) : (s.resumePort port).bare F = s.bare F := by
  refine s.foldl_bare (fun s l => ?_) (s.listenersOn port)
  refine (State.takeCounters_bare _ bramble eth can l).trans ?_
  exact s.foldl_bare (fun s m => State.resumeQueue_bare s bramble stats l m) _

@[simp] theorem State.resumePorts_bare (ports : List Nat) : (ports.foldl (fun s p => s.resumePort p) s).bare F = s.bare F :=
  s.foldl_bare (fun s p => State.resumePort_bare s bramble stats eth can p) ports

end

/-! ### A field that is not blotted out -/

section

variable {F : Blocks} {s t : State} (h : t.bare F = s.bare F)

include h

theorem State.now_of_bare (kept : F.now = false) : t.now = s.now := by
  have same := congrArg State.now h
  unfold State.bare State.patch at same
  dsimp only at same
  rwa [kept] at same

theorem State.fc_of_bare (kept : F.fc = false) : t.fc = s.fc := by
  have same := congrArg State.fc h
  unfold State.bare State.patch at same
  dsimp only at same
  rwa [kept] at same

theorem State.free_of_bare (kept : F.free = false) : t.free = s.free := by
  have same := congrArg State.free h
  unfold State.bare State.patch at same
  dsimp only at same
  rwa [kept] at same

theorem State.cfg_of_bare (kept : F.cfg = false) : t.cfg = s.cfg := by
  have same := congrArg State.cfg h
  unfold State.bare State.patch at same
  dsimp only at same
  rwa [kept] at same

theorem State.stats_of_bare (kept : F.stats = false) : t.stats = s.stats := by
  have same := congrArg State.stats h
  unfold State.bare State.patch at same
  dsimp only at same
  rwa [kept] at same

theorem State.wheels_of_bare (kept : F.wheels = false) : t.wheels = s.wheels := by
  have same := congrArg State.wheels h
  unfold State.bare State.patch at same
  dsimp only at same
  rwa [kept] at same

theorem State.appts_of_bare (kept : F.appts = false) : t.appts = s.appts := by
  have same := congrArg State.appts h
  unfold State.bare State.patch at same
  dsimp only at same
  rwa [kept] at same

theorem State.control_of_bare (kept : F.control = false) : t.control = s.control := by
  have same := congrArg State.control h
  unfold State.bare State.patch at same
  dsimp only at same
  rwa [kept] at same

theorem State.serial_of_bare (kept : F.serial = false) : t.serial = s.serial := by
  have same := congrArg State.serial h
  unfold State.bare State.patch at same
  dsimp only at same
  rwa [kept] at same

theorem State.health_of_bare (kept : F.health = false) : t.health = s.health := by
  have same := congrArg State.health h
  unfold State.bare State.patch at same
  dsimp only at same
  rwa [kept] at same

theorem State.twin_of_bare (kept : F.twin = false) : t.twin = s.twin := by
  have same := congrArg State.twin h
  unfold State.bare State.patch at same
  dsimp only at same
  rwa [kept] at same

theorem State.boot_of_bare (kept : F.boot = false) : t.boot = s.boot := by
  have same := congrArg State.boot h
  unfold State.bare State.patch at same
  dsimp only at same
  rwa [kept] at same

theorem State.power_of_bare (kept : F.power = false) : t.power = s.power := by
  have same := congrArg State.power h
  unfold State.bare State.patch at same
  dsimp only at same
  rwa [kept] at same

theorem State.cycle_of_bare (kept : F.cycle = false) : t.cycle = s.cycle := by
  have same := congrArg State.cycle h
  unfold State.bare State.patch at same
  dsimp only at same
  rwa [kept] at same

theorem State.dict_of_bare (kept : F.dict = false) : t.dict = s.dict := by
  have same := congrArg State.dict h
  unfold State.bare State.patch at same
  dsimp only at same
  rwa [kept] at same

end

/-- What the resume of a port touches. -/
@[reducible] def resumeBlocks : Blocks := { bramble := true, stats := true, eth := true, can := true }

theorem State.resumePort_resumeBlocks (port : Nat) (s : State) : (s.resumePort port).bare resumeBlocks = s.bare resumeBlocks :=
  State.resumePort_bare s rfl rfl rfl rfl port

/-- The mode of a port depends on its block and the configuration alone. -/
theorem State.portMode_congr {s t : State} (serial : t.serial = s.serial) (cfg : t.cfg = s.cfg) (uid : t.uid = s.uid) (p : Nat) :
    t.portMode p = s.portMode p := by
  unfold State.portMode State.modeOf State.sp State.portC
  rw [serial, cfg, uid]

/-- So does the overlap of a start-stop port. -/
theorem State.overlap_congr {s t : State} (serial : t.serial = s.serial) (cfg : t.cfg = s.cfg) (uid : t.uid = s.uid) (p : Nat) :
    t.overlap p = s.overlap p := by
  unfold State.overlap State.sp State.cn
  rw [serial, cfg, uid]

theorem State.uid_congr {s t : State} (boot : t.boot = s.boot) (unitSel : t.twin.unitSel = s.twin.unitSel) : t.uid = s.uid := by
  unfold State.uid
  rw [boot, unitSel]

end Sys2Proof.Machine
end

section
/-! PROOF. O54: what comes with a MIRROR, the ports that the outgoing unit of a handover releases, and the ends of the driver overlap
and of the delay of the incoming unit (R308, R320, R321). -/

namespace Sys2Proof.Machine

open Sys2Proof

/-! ### MIRROR -/

section

variable {s : State}

theorem State.mirrorReceived_of_unformed (items : List MirrorItem) (formed : s.formed = false) : s.mirrorReceived items = s :=
  if_neg (by rw [formed]; exact Bool.false_ne_true)

theorem State.takeItem_source (standby : s.twin.role = 2) (r sc hp : Nat) :
    s.takeItem (.source r sc hp) = s.modSrc r (fun y => { y with score := sc, health := hp }) := if_pos (beq_iff_eq.mpr standby)

theorem State.takeItem_tank (standby : s.twin.role = 2) (tk w : Nat) (a b : Rat) : s.takeItem (.tank tk w a b) =
    s.modTank tk (fun y => { y with weight := w, anchored := true, anchorSounding := a, anchorContribution := b }) :=
  if_pos (beq_iff_eq.mpr standby)

theorem State.takeItems_of_standby (standby : s.twin.role = 2) (r sc hp tk w : Nat) (a b : Rat) :
    [MirrorItem.source r sc hp, .tank tk w a b].foldl State.takeItem s =
      (s.modSrc r (fun y => { y with score := sc, health := hp })).modTank tk
        (fun y => { y with weight := w, anchored := true, anchorSounding := a, anchorContribution := b }) := by
  rw [List.foldl_cons, List.foldl_cons, List.foldl_nil, State.takeItem_source standby]
  exact State.takeItem_tank (s := s.modSrc r _) standby ..

/-- A standby takes the scores of a source and the anchor of a tank. -/
theorem State.mirrorReceived_of_standby (r sc hp tk w : Nat) (a b : Rat) (formed : s.formed = true) (standby : s.twin.role = 2) :
    s.mirrorReceived [.source r sc hp, .tank tk w a b] =
      (({ s with twin := { s.twin with mirrorAt := some s.now } } : State).modSrc r (fun y => { y with score := sc, health := hp })).modTank tk
        (fun y => { y with weight := w, anchored := true, anchorSounding := a, anchorContribution := b }) := by
  unfold State.mirrorReceived
  rw [if_pos formed, if_pos standby]
  exact State.takeItems_of_standby (s := { s with twin := { s.twin with mirrorAt := some s.now } }) standby ..

/-- An active unit that takes no handover takes no item. -/
theorem State.takeItem_of_active (active : s.twin.role = 4) (alone : s.twin.handIn = false) (m : MirrorItem) : s.takeItem m = s := by
  have standby : (s.twin.role == 2) = false := by rw [active]; rfl
  have incoming : (s.twin.role == 4 && s.twin.handIn) = false := by rw [alone, Bool.and_false]
  have outgoing : (s.twin.role == 5) = false := by rw [active]; rfl
  unfold State.takeItem
  simp only [standby, incoming, outgoing]
  cases m with
  | bnd => dsimp only; split <;> rfl
  | _ => rfl

theorem State.mirrorReceived_of_active (items : List MirrorItem) (active : s.twin.role = 4) (alone : s.twin.handIn = false) :
    s.mirrorReceived items = s := by
  unfold State.mirrorReceived
  split
  · rw [if_neg (by rw [active]; decide)]
    induction items with
    | nil => rfl
    | cons m items ih => rw [List.foldl_cons, State.takeItem_of_active active alone, ih]
  · rfl

end

/-! ### PORT_RELEASE -/

theorem State.takePort_of_barred {p : Nat} {items : List MirrorItem} {s : State} (barred : s.twin.role ≠ 4 ∨ s.twin.handIn = false ∨
    listenerPorts.contains p = false ∨ s.twin.released.contains p = true) : s.takePort p items = s := if_pos barred

theorem listenerPorts_contains_of_serial {p : Nat} (serial : p ≤ 23) : listenerPorts.contains p = true :=
  List.contains_iff_mem.mpr (List.mem_append_left _ (List.mem_range.mpr (Nat.lt_succ_of_le serial)))

/-- One serial port is not all listener ports. -/
theorem listenerPorts_not_all {p : Nat} (serial : p ≤ 23) : listenerPorts.all (fun q => [p].contains q) = false := by
  refine List.all_eq_false.mpr ⟨0x20, by decide, fun all => ?_⟩
  have same := List.mem_singleton.mp (List.contains_iff_mem.mp all)
  omega

/-- The start-stop port that the incoming unit takes waits for the overlap to end. -/
def State.awaits (p : Nat) (s : State) : State :=
  if p ≤ 23 ∧ s.portMode p = 1 then s.modSp p (fun x => { x with startAfter := some (s.fc + s.overlap p + 2 * cyclesPerUs) }) else s

/-- With the last port the handover has ended. -/
def State.allTaken (s : State) : State :=
  if listenerPorts.all (fun p => s.twin.released.contains p) then { s with twin := { s.twin with handIn := false, released := [] } } else s

/-- The unit has the port; its listeners have not resumed. -/
def State.holdsPort (p : Nat) (s : State) : State := { s with twin := { s.twin with released := s.twin.released ++ [p] } }

/-- The port is the incoming unit's, and its listeners resume. -/
def State.takesOver (p : Nat) (s : State) : State :=
  (s.holdsPort p).resumePort p

theorem State.awaits_bare {F : Blocks} (serial : F.serial = true) (p : Nat) (s : State) : (s.awaits p).bare F = s.bare F := by
  unfold State.awaits
  split
  · exact State.modSp_bare s serial ..
  · rfl

/-- What a port that is taken touches. -/
@[reducible] def takeBlocks : Blocks :=
  { twin := true, serial := true, bramble := true, stats := true, eth := true, can := true, fabric := true }

section

variable {p : Nat} {s : State}

theorem State.takesOver_resumeBlocks (p : Nat) (s : State) : (s.takesOver p).bare resumeBlocks = (s.holdsPort p).bare resumeBlocks :=
  State.resumePort_resumeBlocks p (s.holdsPort p)

theorem State.takesOver_serial : (s.takesOver p).serial = s.serial := State.serial_of_bare (s := s.holdsPort p) (State.takesOver_resumeBlocks p s) rfl

theorem State.takesOver_twin : (s.takesOver p).twin = { s.twin with released := s.twin.released ++ [p] } :=
  State.twin_of_bare (s := s.holdsPort p) (State.takesOver_resumeBlocks p s) rfl

theorem State.takesOver_uid : (s.takesOver p).uid = s.uid :=
  State.uid_congr (State.boot_of_bare (s := s.holdsPort p) (State.takesOver_resumeBlocks p s) rfl) (congrArg (fun y => y.unitSel) State.takesOver_twin)

theorem State.takesOver_cfg : (s.takesOver p).cfg = s.cfg := State.cfg_of_bare (s := s.holdsPort p) (State.takesOver_resumeBlocks p s) rfl

theorem State.takesOver_fc : (s.takesOver p).fc = s.fc := State.fc_of_bare (s := s.holdsPort p) (State.takesOver_resumeBlocks p s) rfl

theorem State.takesOver_bare : (s.takesOver p).bare takeBlocks = s.bare takeBlocks :=
  State.resumePort_bare (s.holdsPort p) rfl rfl rfl rfl p

theorem State.takesOver_portMode : (s.takesOver p).portMode p = s.portMode p :=
  State.portMode_congr State.takesOver_serial State.takesOver_cfg State.takesOver_uid p

theorem State.takesOver_overlap : (s.takesOver p).overlap p = s.overlap p :=
  State.overlap_congr State.takesOver_serial State.takesOver_cfg State.takesOver_uid p

theorem State.awaits_twin : (s.awaits p).twin = s.twin := by
  unfold State.awaits
  split <;> rfl

theorem State.awaits_startAfter (serial : p ≤ 23) (mode : s.portMode p = 1) :
    ((s.awaits p).sp p).startAfter = some (s.fc + s.overlap p + 2 * cyclesPerUs) := by
  unfold State.awaits
  rw [if_pos ⟨serial, mode⟩, State.sp_modSp, if_pos rfl]

theorem State.awaits_of_other (mode : s.portMode p ≠ 1) : s.awaits p = s := if_neg (fun h => mode h.2)

variable (active : s.twin.role = 4) (incoming : s.twin.handIn = true) (serial : p ≤ 23) (first : s.twin.released = [])

include active incoming serial first

theorem State.takePort_of_first : s.takePort p [] = ((s.takesOver p).awaits p).regain s := by
  have released : ((s.takesOver p).awaits p).twin.released = [p] := by
    rw [State.awaits_twin, State.takesOver_twin, first]
    rfl
  have some_ : listenerPorts.all (fun q => ((s.takesOver p).awaits p).twin.released.contains q) = false := by
    rw [released]
    exact listenerPorts_not_all serial
  have free : ¬ (s.twin.role ≠ 4 ∨ s.twin.handIn = false ∨ listenerPorts.contains p = false ∨ s.twin.released.contains p = true) := by
    rw [active, incoming, first, listenerPorts_contains_of_serial serial]
    simp
  have taken : s.takePort p [] = ((s.takesOver p).awaits p).allTaken.regain s := if_neg free
  rw [taken]
  unfold State.allTaken
  rw [if_neg (Bool.eq_false_iff.mp some_)]

/-- The first port that the outgoing unit releases is the incoming unit's: a start-stop port begins O + 2 µs later. -/
theorem State.takePort_spec :
    let t := s.takePort p []
    t.twin.released = [p] ∧ t.twin.handIn = true ∧
      (s.portMode p = 1 → (t.sp p).startAfter = some (s.fc + s.overlap p + 2 * cyclesPerUs)) ∧
      (s.portMode p ≠ 1 → t.serial = s.serial) ∧ t.bare takeBlocks = s.bare takeBlocks := by
  intro t
  let o := s.takesOver p
  have taken : t = (o.awaits p).regain s := State.takePort_of_first active incoming serial first
  have twin : t.twin = { s.twin with released := [p] } := by
    rw [taken]
    refine State.awaits_twin.trans ?_
    rw [State.takesOver_twin, first]
    rfl
  have ports : t.serial = (o.awaits p).serial := by rw [taken]; rfl
  refine ⟨congrArg (fun y => y.released) twin, (congrArg (fun y => y.handIn) twin).trans incoming, fun mode => ?_, fun mode => ?_, ?_⟩
  · have mine : t.sp p = (o.awaits p).sp p := congrArg (Tbl.get ({} : SPort) p) ports
    rw [mine, State.awaits_startAfter serial (State.takesOver_portMode.trans mode), State.takesOver_fc, State.takesOver_overlap]
  · rw [ports, State.awaits_of_other (State.takesOver_portMode.trans_ne mode), State.takesOver_serial]
  · rw [taken, State.regain_bare _ rfl, State.awaits_bare rfl, State.takesOver_bare]

end

/-! ### The overlap and the delay -/

section

variable {p e : Nat} {s : State}

theorem State.overlapExpiry_of_none (none : (s.sp p).overlapEnd = none) : s.overlapExpiry p = s := by
  unfold State.overlapExpiry
  rw [none]

theorem State.overlapExpiry_of_some (some_ : (s.sp p).overlapEnd = some e) : s.overlapExpiry p =
    if e ≤ s.fc then s.modSp p (fun y => { y with overlapEnd := none }) else s := by
  unfold State.overlapExpiry
  rw [some_]

theorem State.startDelay_of_none (none : (s.sp p).startAfter = none) : s.startDelay p = s := by
  unfold State.startDelay
  rw [none]

theorem State.startDelay_of_some (some_ : (s.sp p).startAfter = some e) : s.startDelay p =
    if e ≤ s.fc then s.modSp p (fun y => { y with startAfter := none }) else s := by
  unfold State.startDelay
  rw [some_]

end

end Sys2Proof.Machine

open Sys2Proof Sys2Proof.Machine

/-- Settles O54: `State.mirrorReceived` by the role of the unit, the port that the incoming unit takes (`State.takePort_spec`), and
the two timers of a serial port. -/
theorem mirrorAndPorts : Obligations.MirrorAndPorts := by
  intro s dt p r sc hp tk w e a b q port items u x v link
  have no {f : State → State} (none : ¬ link) : (.next (u.fromPeer f) : Host.Outcome State Fault Refusal) = .next u :=
    congrArg Host.Outcome.next (State.fromPeer_of_no_link none)
  have run {f : State → State} {t : State} (sup : u.works domSup = true) (joile : u.works domJoile = true) (there : link)
      (acts : f v = t) : (.next (u.fromPeer f) : Host.Outcome State Fault Refusal) = .next t :=
    congrArg Host.Outcome.next ((State.fromPeer_of_link sup joile there).trans acts)
  have apart (none : ¬ link) : exec (.mirrorReceived dt items) s = .next u ∧ exec (.portRelease dt q items) s = .next u :=
    ⟨no none, no none⟩
  have mirrored {i : List MirrorItem} {t : State} (sup : u.works domSup = true) (joile : u.works domJoile = true) (there : link)
      (acts : v.mirrorReceived i = t) : exec (.mirrorReceived dt i) s = .next t := run sup joile there acts
  have released {i : List MirrorItem} {t : State} (sup : u.works domSup = true) (joile : u.works domJoile = true) (there : link)
      (acts : v.takePort q.toNat i = t) : exec (.portRelease dt q i) s = .next t := run sup joile there acts
  have lapped {t : State} (serial : u.works domSerial = true) (acts : u.overlapExpiry port.val = t) :
      exec (.serialOverlapExpiry dt port) s = .next t := next_whenUp_eq serial acts
  have delayed {t : State} (serial : u.works domSerial = true) (acts : u.startDelay port.val = t) :
      exec (.incomingStartDelay dt port) s = .next t := next_whenUp_eq serial acts
  have eq : v = { u with stats := v.stats, fabric := v.fabric } := State.passed_eq 0x83 1 u
  have formedV : v.formed = u.formed := State.passed_formed 0x83 1 u
  clear_value v
  clear no run
  clear_value u
  have twin : v.twin = x := congrArg (fun t => t.twin) eq
  refine ⟨fun _ _ => apart, fun sup joile there => ⟨fun unformed => ?_, fun formed standby => ?_, fun formed active alone => ?_,
    fun barred => ?_, fun active incoming small same first => ?_⟩, fun serial => ⟨fun none => ?_, fun some_ => ?_, fun none => ?_,
    fun some_ => ?_⟩⟩
  · exact mirrored sup joile there (State.mirrorReceived_of_unformed items (formedV.trans unformed))
  · have now : v.now = u.now := congrArg (fun t => t.now) eq
    rw [← now]
    exact mirrored sup joile there (State.mirrorReceived_of_standby r sc hp tk w a b (formedV.trans formed)
      ((congrArg (fun y => y.role) twin).trans standby))
  · exact mirrored sup joile there (State.mirrorReceived_of_active items ((congrArg (fun y => y.role) twin).trans active)
      ((congrArg (fun y => y.handIn) twin).trans alone))
  · refine released sup joile there (State.takePort_of_barred ?_)
    rw [twin]
    exact barred
  · subst same
    obtain ⟨ports, hand, mode, other, frame⟩ := State.takePort_spec ((congrArg (fun y => y.role) twin).trans active)
      ((congrArg (fun y => y.handIn) twin).trans incoming) small ((congrArg (fun y => y.released) twin).trans first)
    have portMode : v.portMode q.toNat = u.portMode q.toNat := by rw [eq]; rfl
    have fc : v.fc = u.fc := congrArg (fun t => t.fc) eq
    have overlap : v.overlap q.toNat = u.overlap q.toNat := by rw [eq]; rfl
    rw [portMode, fc, overlap] at mode
    rw [portMode] at other
    have bare : v.bare takeBlocks = u.bare takeBlocks := by
      rw [eq]
      exact State.bare_counts u rfl rfl ..
    exact ⟨_, released sup joile there rfl, ports, hand, mode, fun m => (other m).trans (congrArg (fun t => t.serial) eq),
      State.eq_patch_of_bare (frame.trans bare)⟩
  · exact lapped serial (State.overlapExpiry_of_none none)
  · exact lapped serial (State.overlapExpiry_of_some some_)
  · exact delayed serial (State.startDelay_of_none none)
  · exact delayed serial (State.startDelay_of_some some_)
end

section
/-! PROOF. What a change of role touches (R127, R311): the end of entitlement, ARB_N, and the two roles. -/

namespace Sys2Proof.Machine

open Sys2Proof

section

variable {F : Blocks} (s : State)

/-- What each step of a fold over a list leaves alone, the fold leaves alone. -/
theorem State.foldl_bare_of_mem {α : Type} {f : State → α → State} (l : List α)
    (h : ∀ s, ∀ a ∈ l, (f s a).bare F = s.bare F) : (l.foldl f s).bare F = s.bare F :=
  List.foldlRecOn (motive := fun t => t.bare F = s.bare F) l f rfl fun _ kept a mem => (h _ a mem).trans kept

variable (bramble : F.bramble = true) (serial : F.serial = true) (eth : F.eth = true) (can : F.can = true) (fabric : F.fabric = true)
  (stats : F.stats = true)

include bramble fabric in
@[simp] theorem State.returnEntry_bare (l : Nat) (e : Entry) : (s.returnEntry l e).bare F = s.bare F := by
  unfold State.returnEntry State.returned
  rw [State.modQue_bare _ fabric, State.modLst_bare _ bramble]

include bramble fabric in
@[simp] theorem State.returnSlot_bare (l : Nat) : (s.returnSlot l).bare F = s.bare F := by
  unfold State.returnSlot
  split
  · rw [State.modLst_bare _ bramble, State.returnEntry_bare _ bramble fabric]
  · rfl

include serial stats fabric in
theorem State.clearTx_bare {p : Nat} (port : p < 24) : (s.clearTx p).bare F = s.bare F := by
  unfold State.clearTx
  split
  · rfl
  · unfold State.dropPackets State.without
    rw [State.popped_bare _ stats fabric]
    dsimp only
    rw [if_neg (by omega), if_pos (by omega)]
    exact State.modSp_bare s serial ..

include bramble serial stats fabric in
theorem State.cutSerial_bare {p : Nat} (port : p < 24) : (s.cutSerial p).bare F = s.bare F := by
  unfold State.cutSerial
  dsimp only
  rw [State.modSp_bare _ serial, State.clearTx_bare _ serial fabric stats port]
  split
  · split
    · rw [State.modLst_bare _ bramble, State.returnEntry_bare _ bramble fabric, State.returnSlot_bare _ bramble fabric]
    · exact State.returnSlot_bare s bramble fabric _
  · rfl

include bramble eth stats fabric in
@[simp] theorem State.returnDatagrams_bare (p : Nat) : (s.returnDatagrams p).bare F = s.bare F := by
  refine s.foldl_bare (fun s q => ?_) _
  unfold State.returnQueue
  refine (State.foldl_bare _ (fun s f => ?_) _).trans ?_
  · split
    · exact State.returnEntry_bare s bramble fabric ..
    · rfl
  · unfold State.trackWatchdog
    rw [State.withdrawn_bare _ stats fabric, State.modEp_bare _ eth, State.modEp_bare _ eth]

include bramble can stats fabric in
@[simp] theorem State.returnMessages_bare (p : Nat) (keep : Bool) : (s.returnMessages p keep).bare F = s.bare F := by
  unfold State.returnMessages
  refine (State.foldl_bare _ (fun s (x : Nat × Entry) => State.returnEntry_bare s bramble fabric x.1 x.2) _).trans ?_
  rw [State.canDropped_bare _ stats fabric, State.modCp_bare _ can]

include bramble serial eth can stats fabric in
@[simp] theorem State.endEntitlement_bare : s.endEntitlement.bare F = s.bare F := by
  unfold State.endEntitlement
  rw [State.foldl_bare _ (fun s p => State.returnMessages_bare s bramble can fabric stats p false),
    State.foldl_bare _ (fun s p => State.returnDatagrams_bare s bramble eth fabric stats p)]
  exact s.foldl_bare_of_mem _ fun s p mem => State.cutSerial_bare s bramble serial fabric stats (List.mem_range.mp mem)

end

/-! ### ARB_N -/

section

variable (low : Bool) (s : State)

/-- Of the whole state, the unit's own hold on ARB_N touches that hold and the moment of the last rise. -/
theorem State.driveArb_eq : s.driveArb low =
    { s with twin := { s.twin with arbOwn := low, arbSince := (s.driveArb low).twin.arbSince } } := by
  unfold State.driveArb
  dsimp only
  split
  · rfl
  · rfl

theorem State.driveArb_twin : (s.driveArb low).twin =
    { s.twin with arbOwn := low, arbSince := (s.driveArb low).twin.arbSince } := congrArg (fun t => t.twin) (s.driveArb_eq low)

@[simp] theorem State.driveArb_bare {F : Blocks} (twin : F.twin = true) : (s.driveArb low).bare F = s.bare F := by
  rw [State.driveArb_eq]
  unfold State.bare State.patch
  rw [twin]
  rfl

end

/-! ### The two roles -/

/-- The twin block as the unit becomes active, but for what ARB_N keeps. -/
def Twin.asActive (x : Twin) : Twin :=
  { x with role := 4, claimAt := none, released := [], handIn := false, mirrored := [], dirty := [], mirrorAt := none }

/-- The twin block as the unit becomes standby, but for what ARB_N keeps. -/
def Twin.asStandby (x : Twin) : Twin :=
  { x with role := 2, claimAt := none, released := [], handIn := false, mirrorAt := none, handover := none, handoverAsked := none }

section

variable (s : State)

theorem State.becomeActive_eq : s.becomeActive =
    { s with twin := { s.twin.asActive with arbOwn := true, arbSince := s.becomeActive.twin.arbSince } } :=
  State.driveArb_eq true { s with twin := s.twin.asActive }

theorem State.becomeActive_twin : s.becomeActive.twin =
    { s.twin.asActive with arbOwn := true, arbSince := s.becomeActive.twin.arbSince } := congrArg (fun t => t.twin) s.becomeActive_eq

@[simp] theorem State.becomeActive_bare {F : Blocks} (twin : F.twin = true) : s.becomeActive.bare F = s.bare F := by
  rw [State.becomeActive_eq]
  unfold State.bare State.patch
  rw [twin]
  rfl

/-- The cycle that an active unit loses with its role. -/
def State.loosed : State := if s.twin.role = 4 then s.loseCycle else s

/-- The handover is cancelled and the role taken, before the outputs end. -/
def State.stoodBy : State :=
  ({ s.loosed with twin := { s.loosed.twin with role := 2, claimAt := none, released := [], handIn := false, mirrorAt := none }
                   control := { s.loosed.control with persistence := none } } : State).cancelHandover

theorem State.becomeStandby_eq : s.becomeStandby =
    (if decide (s.twin.role = 3 ∨ s.twin.role = 4 ∨ s.twin.role = 5) then s.stoodBy.endEntitlement else s.stoodBy).driveArb false := rfl

theorem State.loosed_twin : s.loosed.twin = s.twin := by
  unfold State.loosed State.loseCycle
  split
  · split
    · rfl
    · rfl
  · rfl

theorem State.stoodBy_twin : s.stoodBy.twin = s.twin.asStandby := by
  have kept := s.loosed_twin
  unfold Twin.asStandby
  rw [← kept]
  rfl

/-- What the end of entitlement touches. -/
@[reducible] def endBlocks : Blocks := { bramble := true, serial := true, eth := true, can := true, stats := true, fabric := true }

theorem State.endEntitlement_endBlocks : s.endEntitlement.bare endBlocks = s.bare endBlocks :=
  State.endEntitlement_bare s rfl rfl rfl rfl rfl rfl

/-- What a standby gives up touches the ports, and ARB_N, beside what it stands by with. -/
theorem State.becomeStandby_twin : s.becomeStandby.twin =
    { s.twin.asStandby with arbOwn := false, arbSince := s.becomeStandby.twin.arbSince } := by
  rw [State.becomeStandby_eq]
  refine (State.driveArb_twin ..).trans ?_
  have kept : (if decide (s.twin.role = 3 ∨ s.twin.role = 4 ∨ s.twin.role = 5) then s.stoodBy.endEntitlement else s.stoodBy).twin =
      s.twin.asStandby := by
    split
    · exact (State.twin_of_bare s.stoodBy.endEntitlement_endBlocks rfl).trans s.stoodBy_twin
    · exact s.stoodBy_twin
  rw [kept]

theorem State.becomeStandby_bare {F : Blocks} (twin : F.twin = true) (bramble : F.bramble = true) (serial : F.serial = true)
    (eth : F.eth = true) (can : F.can = true) (fabric : F.fabric = true) (stats : F.stats = true) :
    s.becomeStandby.bare F = s.stoodBy.bare F := by
  rw [State.becomeStandby_eq, State.driveArb_bare _ _ twin]
  split
  · exact State.endEntitlement_bare s.stoodBy bramble serial eth can fabric stats
  · rfl

/-- A unit that was not active stands by with its cycle as it is. -/
theorem State.stoodBy_of_idle (idle : s.twin.role ≠ 4) : s.stoodBy =
    ({ s with twin := { s.twin with role := 2, claimAt := none, released := [], handIn := false, mirrorAt := none }
              control := { s.control with persistence := none } } : State).cancelHandover := by
  have kept : s.loosed = s := if_neg idle
  unfold State.stoodBy
  rw [kept]

end

end Sys2Proof.Machine
end

section
/-! PROOF. What an event that is raised while SUP runs leaves behind it (R292, R294): an entry at the end of those that wait, and
the alert that it begins or ends. -/

namespace Sys2Proof.Machine

open Sys2Proof

section

variable {s : State} (up : s.up domSup = true)

include up

theorem State.raiseKind_waiting (kind astate code a b : Nat) : ∃ e : Event,
    (s.raiseKind kind astate code a b).health.waiting = s.health.waiting ++ [e] ∧ e.code = code ∧ e.a = a ∧ e.b = b ∧ e.kind = kind := by
  unfold State.raiseKind
  extract_lets e
  have open_ : ¬ ((s.up domSup = false && decide (16 ≤
      (s.health.waiting.filter (fun x => x.code / 0x1000 == code / 0x1000)).length)) = true) := by
    rw [up]
    exact Bool.false_ne_true
  rw [if_neg open_]
  exact ⟨e, rfl, rfl, rfl, rfl, rfl⟩

theorem State.event_waiting (code a b : Nat) : ∃ e : Event,
    (s.event code a b).health.waiting = s.health.waiting ++ [e] ∧ e.code = code ∧ e.a = a ∧ e.b = b := by
  unfold State.event
  split
  · obtain ⟨e, waiting, hcode, ha, hb, -⟩ := State.raiseKind_waiting up 0 0 code a b
    exact ⟨e, waiting, hcode, ha, hb⟩
  · obtain ⟨e, waiting, hcode, ha, hb, -⟩ := State.raiseKind_waiting up 1 1 code a b
    exact ⟨e, waiting, hcode, ha, hb⟩

/-- What is raised waits for the log. -/
theorem State.event_mem (code a b : Nat) : ∃ e ∈ (s.event code a b).health.waiting, e.code = code ∧ e.a = a ∧ e.b = b := by
  obtain ⟨e, waiting, told⟩ := State.event_waiting up code a b
  exact ⟨e, by rw [waiting]; exact List.mem_concat_self, told⟩

/-- What waited for the log before still does. -/
theorem State.event_mem_of_mem {code a b : Nat} {e : Event} (mem : e ∈ s.health.waiting) : e ∈ (s.event code a b).health.waiting := by
  obtain ⟨f, waiting, -⟩ := State.event_waiting up code a b
  rw [waiting]
  exact List.mem_append_left _ mem

end

theorem State.raiseKind_alerts (kind astate code a b : Nat) (s : State) :
    (s.raiseKind kind astate code a b).health.alerts = s.health.alerts := by
  unfold State.raiseKind
  extract_lets e
  split
  · rfl
  · rfl

theorem State.event_alerts (code a b : Nat) (s : State) : (s.event code a b).health.alerts = s.health.alerts := by
  unfold State.event
  split
  · exact State.raiseKind_alerts ..
  · exact State.raiseKind_alerts ..

section

variable {s t : State} {e : Event} {code a : Nat}

/-- An entry of another code says nothing of an alert. -/
theorem State.alertOn_of_other (waiting : t.health.waiting = s.health.waiting ++ [e]) (alerts : t.health.alerts = s.health.alerts)
    (other : e.code ≠ code) : t.alertOn code a = s.alertOn code a := by
  have skips : (e.code == code) = false := beq_eq_false_iff_ne.mpr other
  unfold State.alertOn
  rw [waiting, alerts, List.reverse_append, List.reverse_singleton, List.singleton_append, List.find?_cons_of_neg]
  rw [skips]
  exact Bool.false_ne_true

/-- The last entry of an alert says that it has ended. -/
theorem State.alertOn_of_end (waiting : t.health.waiting = s.health.waiting ++ [e]) (same : e.code = code) (instance_ : e.a = a)
    (ended : e.kind = 3) : t.alertOn code a = false := by
  subst same instance_
  unfold State.alertOn
  rw [waiting, List.reverse_append, List.reverse_singleton, List.singleton_append, List.find?_cons_of_pos]
  · exact beq_eq_false_iff_ne.mpr (by rw [ended]; decide)
  · rw [beq_self_eq_true, beq_self_eq_true, ended]
    rfl

end

section

variable {s : State} (up : s.up domSup = true)

include up

theorem State.endOnce_alertOn (code a : Nat) : (s.endOnce code a).alertOn code a = false := by
  unfold State.endOnce
  split
  · obtain ⟨e, waiting, hcode, ha, -, ended⟩ := State.raiseKind_waiting up 3 0 code a 0
    exact State.alertOn_of_end waiting hcode ha ended
  · next off => exact Bool.eq_false_iff.mpr off

/-- To raise one alert leaves those of another code as they stand. -/
theorem State.raiseOnce_alertOn_of_other {code other a i b : Nat} (differ : other ≠ code) :
    (s.raiseOnce other i b).alertOn code a = s.alertOn code a := by
  unfold State.raiseOnce
  split
  · rfl
  · obtain ⟨e, waiting, hcode, -⟩ := State.event_waiting up other i b
    exact State.alertOn_of_other waiting (State.event_alerts ..) (by rw [hcode]; exact differ)

end

end Sys2Proof.Machine
end

section
/-! PROOF. O52: BEAT and ARB_N, the take-over of a standby and the claim of a unit that joins (R311 to R314). -/

namespace Sys2Proof.Machine

open Sys2Proof

section

variable (s : State)

/-! ### ARB_N -/

/-- The peer drives ARB_N low: a claim that ran has ended. -/
def State.arbTaken : State := { s with twin := { s.twin with arbPeer := true, claimAt := none } }

/-- The peer lets ARB_N go. -/
def State.arbFreed : State := { s with twin := { s.twin with arbPeer := false } }

variable {s}

theorem State.arbFall_of_other (joining : s.twin.role ≠ 1) (taking : s.twin.role ≠ 3) : s.arbFall = s.arbTaken :=
  if_neg (fun h => h.2.elim joining taking)

/-- What a unit that was not active touches as it becomes standby. -/
@[reducible] def standbyBlocks : Blocks :=
  { twin := true, appts := true, bramble := true, serial := true, eth := true, can := true, control := true, fabric := true, stats := true }

/-- A unit in JOINING or TAKING becomes standby. -/
theorem State.arbFall_spec (role : s.twin.role = 1 ∨ s.twin.role = 3) (up : s.up domSup = true) :
    let t := s.arbFall
    t.twin.role = 2 ∧ t.twin.arbPeer = true ∧ t.twin.arbOwn = false ∧ t.twin.claimAt = none ∧ t.appts.handRow = none ∧
      t.bare standbyBlocks = s.bare standbyBlocks := by
  intro t
  have falls : t = s.arbTaken.becomeStandby := if_pos ⟨up, role⟩
  have twin := s.arbTaken.becomeStandby_twin
  have idle : s.arbTaken.twin.role ≠ 4 := by
    rcases role with h | h
    · exact h.trans_ne (by decide)
    · exact h.trans_ne (by decide)
  have stood := State.stoodBy_of_idle s.arbTaken idle
  rw [falls]
  refine ⟨congrArg (fun y => y.role) twin, congrArg (fun y => y.arbPeer) twin, congrArg (fun y => y.arbOwn) twin,
    congrArg (fun y => y.claimAt) twin, ?_, ?_⟩
  · have kept := State.appts_of_bare (State.becomeStandby_bare (F := { endBlocks with twin := true }) s.arbTaken rfl rfl rfl rfl rfl rfl rfl) rfl
    rw [kept, stood]
    rfl
  · rw [State.becomeStandby_bare s.arbTaken rfl rfl rfl rfl rfl rfl rfl, stood]
    rfl

theorem State.arbFreed_arbHigh (own : s.twin.arbOwn = true) : s.arbFreed.arbHigh = false := by
  unfold State.arbFreed State.arbHigh
  rw [own]
  rfl

theorem State.arbHigh_of_free (own : s.twin.arbOwn = false) (peer : s.twin.arbPeer = false) : s.arbHigh = true := by
  unfold State.arbHigh
  rw [own, peer]
  rfl

theorem State.arbHigh_of_peer (peer : s.twin.arbPeer = true) : s.arbHigh = false := by
  unfold State.arbHigh
  rw [peer, Bool.or_true]
  rfl

/-- The line does not rise where this unit holds it, or where it was high. -/
theorem State.arb_not_rising (still : s.twin.arbOwn = true ∨ s.twin.arbPeer = false) :
    ¬ (s.arbHigh = false ∧ s.arbFreed.arbHigh = true) := by
  rintro ⟨low, high⟩
  cases own : s.twin.arbOwn with
  | true => exact Bool.false_ne_true ((State.arbFreed_arbHigh own).symm.trans high)
  | false =>
    have peer := still.resolve_left (by rw [own]; exact Bool.false_ne_true)
    exact Bool.false_ne_true (low.symm.trans (State.arbHigh_of_free own peer))

theorem State.arbRise_of_still (still : s.twin.arbOwn = true ∨ s.twin.arbPeer = false) : s.arbRise =
    if s.arbFreed.up domSup = true ∧ s.arbFreed.twin.role = 5 ∧ s.arbFreed.twin.lostAt.isSome = true then s.arbFreed.returnActive
    else s.arbFreed := if_neg (State.arb_not_rising still)

theorem State.returnActive_twin : s.returnActive.twin = s.becomeActive.twin :=
  State.twin_of_bare (F := { resumeBlocks with fabric := true }) (s := s.becomeActive)
    ((State.regain_bare _ rfl s).trans (State.resumePorts_bare s.becomeActive rfl rfl rfl rfl s.twin.released)) rfl

theorem State.claimDelay_at : s.now + s.claimDelay =
    s.now + 800000 + 600000 * s.rank + (if s.boot.mode = 2 ∨ s.boot.mode = 3 then 8000000 else 0) := by
  unfold State.claimDelay
  rw [Nat.add_assoc, Nat.add_assoc, Nat.add_assoc]

/-- Where the line rises, a unit in JOINING starts its claim timer. -/
theorem State.arbRise_of_rise (own : s.twin.arbOwn = false) (peer : s.twin.arbPeer = true) (up : s.up domSup = true) :
    s.arbRise = { s with twin := { s.twin with
      arbPeer := false, arbSince := s.now
      claimAt := if s.twin.role = 1 ∧ s.boot.mode ≠ 4 then
          some (s.now + 800000 + 600000 * s.rank + (if s.boot.mode = 2 ∨ s.boot.mode = 3 then 8000000 else 0))
        else none } } := by
  rw [← State.claimDelay_at]
  have high : s.arbFreed.arbHigh = true := State.arbHigh_of_free (s := s.arbFreed) own rfl
  have rises : s.arbRise = if s.arbFreed.up domSup then
      ({ s.arbFreed with twin := { s.arbFreed.twin with arbSince := s.now } } : State).startClaim
      else { s.arbFreed with twin := { s.arbFreed.twin with arbSince := s.now } } := if_pos ⟨State.arbHigh_of_peer peer, high⟩
  rw [rises, if_pos (show s.arbFreed.up domSup = true from up)]
  by_cases claims : s.twin.role = 1 ∧ s.boot.mode ≠ 4
  · rw [if_pos claims]
    exact if_pos ⟨claims.1, high, claims.2⟩
  · rw [if_neg claims]
    exact if_neg (fun h => claims ⟨h.1, h.2.2⟩)

/-! ### BEAT -/

theorem State.beatToggle_of_idle (idle : s.twin.role = 0 ∨ s.boot.supRunning = false ∨ s.now - s.twin.beatOutAt < 500 * cyclesPerUs) :
    s.beatToggle = s := if_pos idle

theorem State.beatToggle_of_due (twin : s.twin.role ≠ 0) (running : s.boot.supRunning = true)
    (due : 500 * cyclesPerUs ≤ s.now - s.twin.beatOutAt) :
    s.beatToggle = { s with twin := { s.twin with beatOut := !s.twin.beatOut, beatOutAt := s.now } } := by
  refine if_neg ?_
  rintro (h | h | h)
  · exact twin h
  · exact Bool.false_ne_true (h.symm.trans running)
  · exact Nat.not_lt.mpr due h

/-- An edge of BEAT_IN ends the alert of its absence. -/
theorem State.beatEdge_spec (twin : s.twin.role ≠ 0) (up : s.up domSup = true) :
    let t := s.beatEdge
    t.alertOn 0xC003 0 = false ∧ t = { s with twin := { s.twin with beatIn := true, beatInAt := s.now }, health := t.health } := by
  intro t
  let present : State := { s with twin := { s.twin with beatIn := true, beatInAt := s.now } }
  have edge : t = present.endOnce 0xC003 0 := if_neg twin
  rw [edge]
  exact ⟨State.endOnce_alertOn (s := present) up 0xC003 0,
    State.eq_patch_of_bare (State.endOnce_bare (F := { health := true }) rfl 0xC003 0 present)⟩

theorem State.beatAbsent_of_present (present : s.twin.beatIn = false ∨ s.now - s.twin.beatInAt < 1500 * cyclesPerUs) : s.beatAbsent = s :=
  if_pos present

/-- BEAT_IN is absent. -/
def State.unbeaten (s : State) : State := { s with twin := { s.twin with beatIn := false } }

theorem State.beatAbsent_of_late (was : s.twin.beatIn = true) (late : 1500 * cyclesPerUs ≤ s.now - s.twin.beatInAt) :
    s.beatAbsent = if s.twin.lostAt.isSome then s.unbeaten.lossAlerts else s.unbeaten := by
  refine if_neg ?_
  rintro (h | h)
  · exact Bool.false_ne_true (h.symm.trans was)
  · exact Nat.not_lt.mpr late h

/-- Without a beat the alert of Table 14.5 is 0xC003; a standby adds that of the link. -/
theorem State.lossAlerts_spec (absent : s.twin.beatIn = false) (up : s.up domSup = true) :
    let t := s.lossAlerts
    t.alertOn 0xC003 0 = true ∧ t.bare { health := true } = s.bare { health := true } := by
  intro t
  let once := s.raiseOnce 0xC003 0 0
  have alerts : t = if once.twin.role = 2 ∧ once.arbHigh = false then once.raiseOnce 0xC002 0 0 else once :=
    if_neg (by rw [absent]; exact Bool.false_ne_true)
  have on : once.alertOn 0xC003 0 = true := State.raiseOnce_alertOn (by decide) up
  have bare : once.bare { health := true } = s.bare { health := true } := State.raiseOnce_bare rfl ..
  have upOnce : once.up domSup = true := (State.up_congr (State.power_of_bare bare rfl) domSup).trans up
  rw [alerts]
  split
  · exact ⟨(State.raiseOnce_alertOn_of_other upOnce (by decide)).trans on, (State.raiseOnce_bare rfl ..).trans bare⟩
  · exact ⟨on, bare⟩

/-! ### TAKING -/

theorem State.takingEntry_of_not (no : s.mayTake = false) : s.takingEntry = s := if_neg (Bool.eq_false_iff.mp no)

/-- What a take-over touches. -/
@[reducible] def takingBlocks : Blocks :=
  { twin := true, stats := true, health := true, bramble := true, eth := true, can := true, fabric := true }

/-- The role that a take-over gives, and its moment. -/
def State.takes (t : Nat) (s : State) : State :=
  let began : State := { s with twin := { s.twin with takeover := t, handIn := false, released := [] } }
  if s.lateRise then began.becomeActive else { began with twin := { began.twin with role := 3 } }

/-- A take-over, with the ports that resume. -/
def State.takeOver (t : Nat) (s : State) : State :=
  (listenerPorts.foldl (fun s p => s.resumePort p) (((s.takes t).event 0xC001 0 1).stat 0x4880 0 6 1)).regain s

theorem State.takes_bare (t : Nat) : (s.takes t).bare { twin := true } = s.bare { twin := true } := by
  unfold State.takes
  dsimp only
  split
  · exact State.becomeActive_bare _ rfl
  · rfl

theorem State.takes_twin (t : Nat) : (s.takes t).twin.role = (if s.lateRise then 4 else 3) ∧
    (s.takes t).twin.arbOwn = (if s.lateRise then true else s.twin.arbOwn) := by
  unfold State.takes
  dsimp only
  split
  · exact ⟨congrArg (fun y => y.role) (State.becomeActive_twin _), congrArg (fun y => y.arbOwn) (State.becomeActive_twin _)⟩
  · exact ⟨rfl, rfl⟩

theorem State.takeOver_spec (n : Nat) (up : s.up domSup = true) :
    let t := s.takeOver n
    t.twin.role = (if s.lateRise then 4 else 3) ∧ t.twin.arbOwn = (if s.lateRise then true else s.twin.arbOwn) ∧
      (∃ e ∈ t.health.waiting, e.code = 0xC001 ∧ e.a = 0 ∧ e.b = 1) ∧ t.bare takingBlocks = s.bare takingBlocks := by
  intro t
  have resumed := State.resumePorts_bare (F := { resumeBlocks with fabric := true })
    (((s.takes n).event 0xC001 0 1).stat 0x4880 0 6 1) rfl rfl rfl rfl listenerPorts
  have bare : t.bare { resumeBlocks with fabric := true } =
      ((s.takes n).event 0xC001 0 1).bare { resumeBlocks with fabric := true } :=
    ((State.regain_bare _ rfl s).trans resumed).trans (State.stat_bare _ rfl ..)
  have upTakes : (s.takes n).up domSup = true := (State.up_congr (State.power_of_bare (s.takes_bare n) rfl) domSup).trans up
  have twin : t.twin = (s.takes n).twin := (State.twin_of_bare bare rfl).trans
    (State.twin_of_bare (State.event_bare (F := { health := true }) (s.takes n) rfl 0xC001 0 1) rfl)
  have health : t.health = ((s.takes n).event 0xC001 0 1).health := State.health_of_bare bare rfl
  obtain ⟨role, own⟩ := s.takes_twin n
  refine ⟨(congrArg (fun y => y.role) twin).trans role, (congrArg (fun y => y.arbOwn) twin).trans own, ?_, ?_⟩
  · rw [health]
    exact State.event_mem upTakes 0xC001 0 1
  · have end_ := State.resumePorts_bare (F := takingBlocks) (((s.takes n).event 0xC001 0 1).stat 0x4880 0 6 1) rfl rfl rfl rfl listenerPorts
    refine ((State.regain_bare _ rfl s).trans end_).trans ((State.stat_bare _ rfl ..).trans ((State.event_bare _ rfl ..).trans ?_))
    unfold State.takes
    dsimp only
    split
    · exact State.becomeActive_bare _ rfl
    · rfl

theorem State.takingEntry_of_may (may : s.mayTake = true) : ∃ n, s.takingEntry = s.takeOver n := ⟨_, if_pos may⟩

theorem State.takingConfirm_of_not (no : s.twin.role ≠ 3 ∨ s.arbHigh = false ∨ s.now - s.twin.arbSince < 2 * cyclesPerMs) :
    s.takingConfirm = s := by
  refine if_neg ?_
  rintro ⟨role, high, late⟩
  rcases no with h | h | h
  · exact h role
  · exact Bool.false_ne_true (h.symm.trans high)
  · exact Nat.not_lt.mpr late h

/-! ### The claim -/

theorem State.claimExpiry_of_idle (idle : s.twin.claimAt = none ∨ s.twin.role ≠ 1 ∨ s.arbHigh = false) : s.claimExpiry = s := by
  unfold State.claimExpiry
  split
  · next c claims =>
    refine if_neg ?_
    rintro ⟨role, -, high, -⟩
    rcases idle with h | h | h
    · exact nomatch h.symm.trans claims
    · exact h role
    · exact Bool.false_ne_true (h.symm.trans high)
  · rfl

variable {c : Nat} (claims : s.twin.claimAt = some c)

include claims

theorem State.claimExpiry_of_early (early : s.now < c) : s.claimExpiry = s := by
  unfold State.claimExpiry
  rw [claims]
  exact if_neg (fun h => Nat.not_le.mpr early h.2.1)

theorem State.claimExpiry_of_late (late : c ≤ s.now) (role : s.twin.role = 1) (high : s.arbHigh = true)
    (quiet : s.twin.lastBeat = none ∨ activeRole s.twin.peerRole = false) : s.claimExpiry = s.becomeActive.regain s := by
  unfold State.claimExpiry
  rw [claims]
  exact if_pos ⟨role, late, high, quiet.imp_left Option.isNone_iff_eq_none.mpr⟩

end

end Sys2Proof.Machine

open Sys2Proof Sys2Proof.Machine

/-- Settles O52: ARB_N as the peer takes it and lets it go (`State.arbFall_spec`, `State.arbRise_of_still`, `State.arbRise_of_rise`),
the beat, a take-over (`State.takeOver_spec`), and the claim. -/
theorem wiresAndRoles : Obligations.WiresAndRoles := by
  intro s dt c u x
  have falls {t : State} (acts : u.arbFall = t) : exec (.arbNFall dt) s = .next t := congrArg Host.Outcome.next acts
  have rises {t : State} (acts : u.arbRise = t) : exec (.arbNRise dt) s = .next t := congrArg Host.Outcome.next acts
  have toggles {t : State} (sup : u.works domSup = true) (acts : u.beatToggle = t) : exec (.beatOutToggle dt) s = .next t :=
    next_whenUp_eq sup acts
  have edges {t : State} (sup : u.works domSup = true) (acts : u.beatEdge = t) : exec (.beatInEdge dt) s = .next t :=
    next_whenUp_eq sup acts
  have misses {t : State} (sup : u.works domSup = true) (acts : u.beatAbsent = t) : exec (.beatInAbsent dt) s = .next t :=
    next_whenUp_eq sup acts
  have takes {t : State} (sup : u.works domSup = true) (acts : u.takingEntry = t) : exec (.takingEntry dt) s = .next t :=
    next_whenUp_eq sup acts
  have confirms {t : State} (sup : u.works domSup = true) (acts : u.takingConfirm = t) : exec (.takingConfirm dt) s = .next t :=
    next_whenUp_eq sup acts
  have expires {t : State} (sup : u.works domSup = true) (acts : u.claimExpiry = t) : exec (.claimTimerExpiry dt) s = .next t :=
    next_whenUp_eq sup acts
  clear_value u
  refine ⟨fun joining taking => falls (State.arbFall_of_other joining taking), fun role up => ?_, fun still none => rises ?_,
    fun own up role lost => ?_, fun own peer up => rises (State.arbRise_of_rise own peer up), fun sup => ?_⟩
  · obtain ⟨standby, peer, own, claim, row, bare⟩ := State.arbFall_spec role up
    exact ⟨_, falls rfl, standby, peer, own, claim, row, State.eq_patch_of_bare bare⟩
  · refine (State.arbRise_of_still still).trans (if_neg ?_)
    rintro ⟨up, role, lost⟩
    rcases none with h | h | h
    · exact Bool.false_ne_true (h.symm.trans up)
    · exact h role
    · exact Option.ne_none_iff_isSome.mpr lost h
  · have returns : u.arbRise = u.arbFreed.returnActive :=
      (State.arbRise_of_still (Or.inl own)).trans (if_pos ⟨up, role, lost⟩)
    have twin := u.arbFreed.returnActive_twin.trans u.arbFreed.becomeActive_twin
    exact ⟨_, rises returns, congrArg (fun y => y.role) twin, congrArg (fun y => y.arbPeer) twin⟩
  · have up : u.up domSup = true := (Bool.and_eq_true_iff.mp sup).1
    refine ⟨fun idle => toggles sup (State.beatToggle_of_idle idle),
      fun twin running due => toggles sup (State.beatToggle_of_due twin running due), fun solo => edges sup (if_pos solo),
      fun twin => ⟨_, edges sup rfl, State.beatEdge_spec twin up⟩, fun present => misses sup (State.beatAbsent_of_present present),
      fun was late => ⟨fun kept => misses sup ?_, fun lost => ?_⟩, fun no => takes sup (State.takingEntry_of_not no), fun may => ?_,
      fun no => confirms sup (State.takingConfirm_of_not no), fun role high late => ?_,
      fun idle => expires sup (State.claimExpiry_of_idle idle), fun claims early => expires sup (State.claimExpiry_of_early claims early),
      fun claims late role high quiet => ?_⟩
    · exact (State.beatAbsent_of_late was late).trans (if_neg (by rw [kept]; exact Bool.false_ne_true))
    · obtain ⟨on, bare⟩ := State.lossAlerts_spec (s := u.unbeaten) rfl up
      exact ⟨_, misses sup ((State.beatAbsent_of_late was late).trans (if_pos lost)), on, State.eq_patch_of_bare bare⟩
    · obtain ⟨n, taken⟩ := State.takingEntry_of_may may
      obtain ⟨role, own, told, bare⟩ := State.takeOver_spec n up
      exact ⟨_, takes sup taken, role, own, told, State.eq_patch_of_bare bare⟩
    · have active := u.becomeActive_twin
      exact ⟨_, confirms sup (if_pos ⟨role, high, late⟩), congrArg (fun y => y.role) active, congrArg (fun y => y.arbOwn) active,
        State.eq_patch_of_bare (F := { twin := true, appts := true, stats := true, fabric := true, free := true })
          (u.becomeActive_bare rfl)⟩
    · have active := u.becomeActive_twin
      exact ⟨_, expires sup (State.claimExpiry_of_late claims late role high quiet), congrArg (fun y => y.role) active,
        congrArg (fun y => y.arbOwn) active,
        State.eq_patch_of_bare (F := { twin := true, fabric := true, appts := true, stats := true, free := true })
          ((State.regain_bare _ rfl u).trans (u.becomeActive_bare rfl))⟩
end

section
/-! PROOF. O53: the network witness (R313, R315), and a planned handover from the request to its set point (R319, R320). -/

namespace Sys2Proof.Machine

open Sys2Proof

/-! ### The witness -/

section

variable {p : Nat} {s : State} {test : RxFrame → Bool} {g : RxFrame → State → State} {f : RxFrame} {rest : List RxFrame}

theorem State.withSup_of_shut (shut : s.yields (0x34 + p) = false) : s.withSup p test g = s := if_pos shut

theorem State.withSup_of_empty (open_ : s.yields (0x34 + p) = true) (none : (s.ep p).supIn = []) :
    s.withSup p test g = s.readEmpty (0x34 + p) := by
  unfold State.withSup
  rw [if_neg (by rw [open_]; decide), none]

theorem State.withSup_of_frame (open_ : s.yields (0x34 + p) = true) (head : (s.ep p).supIn = f :: rest) : s.withSup p test g =
    if test f then g f ((s.modEp p (fun e => { e with supIn := rest })).popped (0x34 + p) s) else s := by
  unfold State.withSup
  rw [if_neg (by rw [open_]; decide), head]

end

section

variable (s : State)

/-- A witness datagram has come. -/
def State.noted : State := ({ s with twin := { s.twin with witnessAt := some s.now } } : State).stat 0x4880 0 8 1

/-- The unit steps down. -/
def State.steppedBack : State :=
  { s.becomeStandby with twin := { s.becomeStandby.twin with steppedDown := true } }

variable {s}

theorem State.witnessed_of_first (first : s.twin.handAt = 0) : s.witnessed =
    if s.noted.twin.role = 3 ∨ s.noted.twin.role = 4 then
      (if s.noted.stepsDown then (s.noted.steppedBack.event 0xC004 0 0).event 0xC005 0 0 else s.noted.event 0xC004 0 0)
    else s.noted :=
  if_neg (fun late => (of_decide_eq_true late).1 first)

/-- What a unit touches that steps down. -/
@[reducible] def stepBlocks : Blocks := { standbyBlocks with cycle := true, dict := true }

theorem State.loosed_bare {F : Blocks} (dict : F.dict = true) (appts : F.appts = true) (cycle : F.cycle = true) :
    s.loosed.bare F = s.bare F := by
  unfold State.loosed
  split
  · exact State.loseCycle_bare s dict appts cycle
  · rfl

theorem State.stoodBy_stepBlocks : s.stoodBy.bare stepBlocks = s.bare stepBlocks :=
  (show s.stoodBy.bare stepBlocks = s.loosed.bare stepBlocks from rfl).trans (State.loosed_bare rfl rfl rfl)

theorem State.steppedBack_power : s.steppedBack.power = s.power :=
  State.power_of_bare (F := stepBlocks) ((State.becomeStandby_bare s rfl rfl rfl rfl rfl rfl rfl).trans State.stoodBy_stepBlocks) rfl

/-- Two states that have counted the same count the same. -/
theorem State.stat_stats {t : State} (same : t.stats = s.stats) (index sel sub n : Nat) :
    (t.stat index sel sub n).stats = (s.stat index sel sub n).stats := by
  unfold State.stat State.statOf
  rw [same]

/-- A unit of lower standing steps down before a witness; every unit with outputs tells of it. -/
theorem State.witnessed_spec (first : s.twin.handAt = 0) (role : s.twin.role = 3 ∨ s.twin.role = 4) (up : s.up domSup = true) :
    let t := s.witnessed
    t.twin.witnessAt = some s.now ∧ (∃ e ∈ t.health.waiting, e.code = 0xC004) ∧
      t.twin.role = (if s.stepsDown then 2 else s.twin.role) ∧
      (s.stepsDown = true → t.twin.steppedDown = true ∧ t.twin.arbOwn = false ∧ ∃ e ∈ t.health.waiting, e.code = 0xC005) := by
  intro t
  have taken : t = if s.stepsDown then (s.noted.steppedBack.event 0xC004 0 0).event 0xC005 0 0 else s.noted.event 0xC004 0 0 :=
    (State.witnessed_of_first first).trans (if_pos role)
  rw [taken]
  cases steps : s.stepsDown with
  | false =>
    rw [if_neg Bool.false_ne_true, if_neg Bool.false_ne_true, State.event_twin]
    obtain ⟨e, mem, code, -⟩ := State.event_mem (s := s.noted) up 0xC004 0 0
    exact ⟨rfl, ⟨e, mem, code⟩, rfl, fun h => absurd h Bool.false_ne_true⟩
  | true =>
    rw [if_pos rfl, if_pos rfl, State.event_twin, State.event_twin]
    have stood := s.noted.becomeStandby_twin
    have upBack : s.noted.steppedBack.up domSup = true := (State.up_congr State.steppedBack_power domSup).trans up
    have upEvent : (s.noted.steppedBack.event 0xC004 0 0).up domSup = true :=
      (State.up_congr (State.event_power 0xC004 0 0 s.noted.steppedBack) domSup).trans upBack
    obtain ⟨e, mem, code, -⟩ := State.event_mem upBack 0xC004 0 0
    obtain ⟨f, last, down, -⟩ := State.event_mem upEvent 0xC005 0 0
    exact ⟨congrArg (fun y => y.witnessAt) stood, ⟨e, State.event_mem_of_mem upEvent mem, code⟩, congrArg (fun y => y.role) stood,
      fun _ => ⟨rfl, congrArg (fun y => y.arbOwn) stood, f, last, down⟩⟩

theorem State.witnessHold_of_none (none : s.twin.witnessAt = none) : s.witnessHold = s := by
  unfold State.witnessHold
  rw [none]

theorem State.witnessHold_of_some {w : Nat} (some_ : s.twin.witnessAt = some w) : s.witnessHold =
    if msCycles (s.cn 0x4000 8 0) ≤ s.now - w then { s with twin := { s.twin with steppedDown := false } } else s := by
  unfold State.witnessHold
  rw [some_]

end

/-! ### The request -/

section

variable {s : State} {n : Nat}

theorem State.revertHold_of_idle (idle : s.twin.role ≠ 2 ∨ s.formed = false ∨ s.twin.heartbeat = false ∨ s.askReason = none) :
    s.revertHold = s := by
  unfold State.revertHold
  split
  · next asks =>
    obtain ⟨role, formed, beat, -⟩ := asks
    have none : s.askReason = none := by
      rcases idle with h | h | h | h
      · exact absurd role h
      · exact absurd (h.symm.trans formed) Bool.false_ne_true
      · exact absurd (h.symm.trans beat) Bool.false_ne_true
      · exact h
    rw [none]
  · rfl

/-- The reason with which the standby asks. -/
def State.asks (n : Nat) (s : State) : State := { s with twin := { s.twin with handoverAsked := some n } }

theorem State.revertHold_of_due (role : s.twin.role = 2) (formed : s.formed = true) (beat : s.twin.heartbeat = true)
    (asked : s.twin.handoverAsked = none) (free : s.twin.handover = none) (reason : s.askReason = some n) :
    s.revertHold = (s.asks n).sendJ (.handoverRequest n) := by
  unfold State.revertHold
  rw [if_pos ⟨role, formed, beat, Option.isNone_iff_eq_none.mpr asked, Option.isNone_iff_eq_none.mpr free⟩, reason]
  rfl

/-! ### The active unit is asked -/

/-- No cycle is open and no handover agreed. -/
def State.mayAgree (s : State) : Prop := s.cycle.state = 0 ∧ s.cycle.writing = none ∧ s.twin.handover = none

/-- What an agreement touches. -/
@[reducible] def agreeBlocks : Blocks := { twin := true, appts := true, stats := true, fabric := true, free := true }

/-- What an agreement touches that a client's command brings about. -/
@[reducible] def commandBlocks : Blocks := { agreeBlocks with dict := true }

theorem State.commandBlocks_of_agreeBlocks {s t : State} (bare : t.bare agreeBlocks = s.bare agreeBlocks) :
    t.bare commandBlocks = s.bare commandBlocks := by
  have twice : (t.bare agreeBlocks).bare commandBlocks = (s.bare agreeBlocks).bare commandBlocks := by rw [bare]
  exact twice

theorem State.accessed_commandBlocks (who : ClientId) (n : Nat) (s : State) :
    (s.accessed who n).bare commandBlocks = s.bare commandBlocks := rfl

/-- A handover whose set point is some milliseconds off. -/
def State.agreesOn (q : WheelPos) (s : State) : State := (s.enterHandover q).sendJ (.handoverAgree q)

theorem State.agreesOn_spec (q : WheelPos) (s : State) :
    let t := s.agreesOn q
    t.twin.handover = some q ∧ t.appts.handRow = some q ∧ t.twin.handoverAsked = none ∧ t.twin.role = s.twin.role ∧
      t.bare agreeBlocks = s.bare agreeBlocks := by
  intro t
  have twin := State.sendJ_twin (s.enterHandover q) (.handoverAgree q)
  have appts : t.appts = (s.enterHandover q).appts := State.appts_of_bare (State.sendJ_linkBlocks (.handoverAgree q) (s.enterHandover q)) rfl
  refine ⟨congrArg (fun y => y.handover) twin, ?_, congrArg (fun y => y.handoverAsked) twin, congrArg (fun y => y.role) twin, ?_⟩
  · rw [appts]
    rfl
  · exact (State.sendJ_bare _ rfl rfl rfl rfl _).trans (State.enterHandover_bare s rfl rfl q)

variable (active : s.twin.role = 4)

include active

theorem State.askHandover_of_free (free : s.mayAgree) :
    s.askHandover n = (s.asks n).agreesOn (s.time + BitVec.ofNat 64 (msPos (s.cn 0x4000 4 0))) := by
  obtain ⟨idle, writing, none⟩ := free
  exact if_pos ⟨active, rfl, idle, Option.isNone_iff_eq_none.mpr writing, Option.isNone_iff_eq_none.mpr none⟩

omit active in
theorem State.askHandover_of_busy (busy : ¬ s.mayAgree) : s.askHandover n = s.asks n :=
  if_neg (fun h => busy ⟨h.2.2.1, Option.isNone_iff_eq_none.mp h.2.2.2.1, Option.isNone_iff_eq_none.mp h.2.2.2.2⟩)

theorem State.askHandover_spec (free : s.mayAgree) :
    let t := s.askHandover n
    let q := s.time + BitVec.ofNat 64 (msPos (s.cn 0x4000 4 0))
    t.twin.handover = some q ∧ t.appts.handRow = some q ∧ t.twin.handoverAsked = none ∧ t.twin.role = 4 ∧
      t.bare agreeBlocks = s.bare agreeBlocks := by
  intro t q
  have agreed : t = (s.asks n).agreesOn q := State.askHandover_of_free active free
  obtain ⟨point, row, asked, role, bare⟩ := State.agreesOn_spec q (s.asks n)
  rw [agreed]
  exact ⟨point, row, asked, role.trans active, bare⟩

end

theorem State.handoverCommand_of_barred (n : Nat) {s : State} (barred : s.twin.role ≠ 4 ∨ 2 ≤ s.boot.mode ∨ s.twin.peerRole ≠ 2 ∨
    s.twin.heartbeat = false) : s.handoverCommand n = (.refused abState, s) := by
  refine if_neg ?_
  rintro ⟨role, mode, peer, beat⟩
  rcases barred with h | h | h | h
  · exact h role
  · omega
  · exact h peer
  · exact Bool.false_ne_true (h.symm.trans beat)

theorem State.handoverCommand_of_ready (n : Nat) {s : State} (role : s.twin.role = 4) (mode : s.boot.mode ≤ 1)
    (peer : s.twin.peerRole = 2) (beat : s.twin.heartbeat = true) : s.handoverCommand n = (.done [], s.askHandover 0) :=
  if_pos ⟨role, by omega, peer, beat⟩

theorem State.handoverRequest_of_barred {reason : Nat} {s : State} (barred : s.twin.role ≠ 4 ∨ s.formed = false ∨
    s.twin.handover.isSome = true) : s.handoverRequest reason = s := by
  refine if_neg ?_
  rintro ⟨role, formed, none⟩
  rcases barred with h | h | h
  · exact h role
  · exact Bool.false_ne_true (h.symm.trans formed)
  · exact Option.ne_none_iff_isSome.mpr h (Option.isNone_iff_eq_none.mp none)

theorem State.handoverAgree_of_barred {sp : WheelPos} {s : State} (barred : s.twin.role ≠ 2 ∨ s.formed = false) :
    s.handoverAgree sp = s := by
  refine if_neg ?_
  rintro ⟨role, formed⟩
  rcases barred with h | h
  · exact h role
  · exact Bool.false_ne_true (h.symm.trans formed)

theorem State.handoverAgree_of_standby {sp : WheelPos} {s : State} (role : s.twin.role = 2) (formed : s.formed = true) :
    s.handoverAgree sp = if sp = 0 then { s with twin := { s.twin with handoverAsked := none } } else s.enterHandover (s.translate sp) :=
  if_pos ⟨role, formed⟩

/-! ### The set point -/

/-- The handover leaves its row and the twin block. -/
def State.pointTaken (s : State) : State :=
  { s with appts := { s.appts with handRow := none }
           twin := { s.twin with handover := none, handoverAsked := none, handAt := s.now } }

/-- The incoming unit is active. -/
def State.comesIn (s : State) : State :=
  (({ s.becomeActive with twin := { s.becomeActive.twin with handIn := true } } : State).event 0xC001 0 2).stat 0x4880 0 7 1

/-- The outgoing unit hands over, before it releases ports. -/
def State.goesOut (s : State) : State :=
  ({ s with twin := { s.twin with role := 5, released := [], arbPeer := true } } : State).stat 0x4880 0 7 1

theorem State.handoverPoint_of_none (d : Dispatch) {s : State} (none : s.twin.handover = none) : s.handoverPoint d = s :=
  if_pos (Option.isNone_iff_eq_none.mpr none)

section

variable {s : State} {p : WheelPos} (agreed : s.twin.handover = some p)

include agreed

theorem State.handoverPoint_of_some (d : Dispatch) : s.handoverPoint d =
    if s.pointTaken.twin.role = 2 then s.pointTaken.comesIn
    else if s.pointTaken.twin.role = 4 then
      listenerPorts.foldl (fun s p => s.releaseIdle p) s.pointTaken.goesOut.returnUnbegun
    else s.pointTaken := if_neg (by rw [agreed]; exact Bool.false_ne_true)

theorem State.handoverPoint_of_standby (d : Dispatch) (role : s.twin.role = 2) : s.handoverPoint d = s.pointTaken.comesIn :=
  (State.handoverPoint_of_some agreed d).trans (if_pos role)

theorem State.handoverPoint_of_active (d : Dispatch) (role : s.twin.role = 4) : s.handoverPoint d =
    listenerPorts.foldl (fun s p => s.releaseIdle p) s.pointTaken.goesOut.returnUnbegun :=
  (State.handoverPoint_of_some agreed d).trans ((if_neg (role.trans_ne (by decide))).trans (if_pos role))

end

/-- The incoming unit is active, takes ports as they are released, and tells of it. -/
theorem State.comesIn_spec {s : State} (up : s.up domSup = true) :
    let t := s.comesIn
    t.twin.role = 4 ∧ t.twin.handIn = true ∧ t.twin.arbOwn = true ∧ t.twin.handover = s.twin.handover ∧
      (∃ e ∈ t.health.waiting, e.code = 0xC001 ∧ e.b = 2) ∧ t.stats = (s.stat 0x4880 0 7 1).stats ∧
      t.bare { twin := true, health := true, stats := true } = s.bare { twin := true, health := true, stats := true } := by
  intro t
  let came : State := { s.becomeActive with twin := { s.becomeActive.twin with handIn := true } }
  have twin : t.twin = came.twin := State.event_twin ..
  have active := s.becomeActive_twin
  have upCame : came.up domSup = true :=
    (State.up_congr (State.power_of_bare (s.becomeActive_bare (F := { twin := true }) rfl) rfl) domSup).trans up
  obtain ⟨e, mem, code, -, b⟩ := State.event_mem upCame 0xC001 0 2
  have stats : (came.event 0xC001 0 2).stats = s.stats :=
    (State.stats_of_bare (State.event_bare (F := { health := true }) came rfl 0xC001 0 2) rfl).trans
      (State.stats_of_bare (F := { twin := true }) (s.becomeActive_bare rfl) rfl)
  rw [twin]
  refine ⟨congrArg (fun y => y.role) active, rfl, congrArg (fun y => y.arbOwn) active, congrArg (fun y => y.handover) active,
    ⟨e, mem, code, b⟩, ?_, ?_⟩
  · exact State.stat_stats stats ..
  · exact (State.stat_bare _ rfl ..).trans ((State.event_bare _ rfl ..).trans (s.becomeActive_bare rfl))

/-- What an outgoing unit touches as it releases its ports. -/
@[reducible] def releasingBlocks : Blocks :=
  { twin := true, control := true, serial := true, bramble := true, eth := true, can := true, stats := true, fabric := true, free := true }

/-- The unit hands over, or has handed over. -/
def State.outgoing (s : State) : Prop :=
  (s.twin.role = 5 ∨ s.twin.role = 2) ∧ s.twin.arbPeer = true ∧ s.twin.handover = none

/-- A state that the release of ports leads to: it hands over, and the rest of it is as it was. -/
def State.releases (s t : State) : Prop := t.outgoing ∧ t.bare releasingBlocks = s.bare releasingBlocks

theorem State.handoverDone_releases {s : State} (out : s.outgoing) : s.releases s.handoverDone := by
  unfold State.handoverDone
  split
  · obtain ⟨-, peer, -⟩ := out
    exact ⟨⟨Or.inr rfl, peer, rfl⟩, rfl⟩
  · exact ⟨out, rfl⟩

/-- The port goes to the peer, with what its listeners have sent. -/
def State.givesPort (p : Nat) (s : State) : State :=
  (s.holdsPort p).sendJ (.portRelease p ((s.listenersOn p).map (fun l => s.finalItems l)).flatten)

/-- A serial port that is released keeps its driver for the overlap. -/
def State.overlaps (p : Nat) (s : State) : State :=
  if p ≤ 23 then
    s.modSp p (fun x => { x with
      aux := false, lagEnd := none
      overlapEnd := if s.portN p 1 = 1 then some (s.fc + s.overlap p) else none })
  else s

theorem State.overlaps_twin (p : Nat) (s : State) : (s.overlaps p).twin = s.twin := by
  unfold State.overlaps
  split
  · rfl
  · rfl

theorem State.releasePort_releases {s : State} (p : Nat) (out : s.outgoing) : s.releases (s.releasePort p) := by
  unfold State.releasePort
  split
  · exact ⟨out, rfl⟩
  · have twin := State.sendJ_twin (s.holdsPort p) (.portRelease p ((s.listenersOn p).map (fun l => s.finalItems l)).flatten)
    have kept : ((s.givesPort p).overlaps p).twin = (s.givesPort p).twin := State.overlaps_twin ..
    obtain ⟨role, peer, none⟩ := out
    have given : ((s.givesPort p).overlaps p).outgoing := by
      unfold State.outgoing
      rw [kept]
      exact ⟨role.imp ((congrArg (fun y => y.role) twin).trans ·) ((congrArg (fun y => y.role) twin).trans ·),
        (congrArg (fun y => y.arbPeer) twin).trans peer, (congrArg (fun y => y.handover) twin).trans none⟩
    obtain ⟨done, bare⟩ := State.handoverDone_releases given
    refine ⟨done, bare.trans ?_⟩
    have sent : (s.givesPort p).bare releasingBlocks = s.bare releasingBlocks := State.sendJ_bare (s.holdsPort p) rfl rfl rfl rfl _
    refine Eq.trans ?_ sent
    unfold State.overlaps
    split
    · exact State.modSp_bare _ rfl ..
    · rfl

theorem State.releaseIdle_releases {s : State} (p : Nat) (out : s.outgoing) : s.releases (s.releaseIdle p) := by
  unfold State.releaseIdle
  split
  · exact State.releasePort_releases p out
  · exact ⟨out, rfl⟩

theorem State.releasePorts_releases {s : State} (ports : List Nat) (out : s.outgoing) :
    s.releases (ports.foldl (fun s p => s.releaseIdle p) s) :=
  List.foldlRecOn (motive := s.releases) ports _ ⟨out, rfl⟩ fun _ kept p _ =>
    ⟨(State.releaseIdle_releases p kept.1).1, (State.releaseIdle_releases p kept.1).2.trans kept.2⟩

/-- What goes back to the queues at the set point touches none of the twin block. -/
theorem State.returnUnbegun_bare {F : Blocks} (bramble : F.bramble = true) (eth : F.eth = true) (can : F.can = true)
    (fabric : F.fabric = true) (stats : F.stats = true) (s : State) : s.returnUnbegun.bare F = s.bare F := by
  unfold State.returnUnbegun
  rw [State.returnMessages_bare _ bramble can fabric stats, State.returnMessages_bare _ bramble can fabric stats,
    State.returnDatagrams_bare _ bramble eth fabric stats, State.returnDatagrams_bare _ bramble eth fabric stats]
  exact s.foldl_bare (fun s (x : Nat × Listener) => State.returnSlot_bare s bramble fabric x.1) _

/-- The outgoing unit hands over; what it does with its ports leaves its cycle, its clients and its alerts alone. -/
theorem State.goesOut_spec {s : State} (none : s.twin.handover = none) :
    s.goesOut.releases (listenerPorts.foldl (fun s p => s.releaseIdle p) s.goesOut.returnUnbegun) := by
  have returned := State.returnUnbegun_bare (F := { resumeBlocks with fabric := true }) rfl rfl rfl rfl rfl s.goesOut
  have twin : s.goesOut.returnUnbegun.twin = s.goesOut.twin := State.twin_of_bare returned rfl
  have out : s.goesOut.returnUnbegun.outgoing := by
    unfold State.outgoing
    rw [twin]
    exact ⟨Or.inl rfl, rfl, none⟩
  obtain ⟨done, bare⟩ := State.releasePorts_releases listenerPorts out
  exact ⟨done, bare.trans (State.returnUnbegun_bare rfl rfl rfl rfl rfl s.goesOut)⟩

end Sys2Proof.Machine

open Sys2Proof Sys2Proof.Machine

/-- Settles O53: a witness datagram where the frame at the head is one (`State.witnessed_spec`), the request of a standby, the
agreement of the active unit (`State.askHandover_spec`), and the set point on either side (`State.comesIn_spec`,
`State.goesOut_spec`). -/
theorem witnessAndHandover : Obligations.WitnessAndHandover := by
  intro s dt n w port f rest reason sp p who d line u x shut v link agrees free sup
  have witness {t : State} (acts : u.witnessDatagram port.val = t) : exec (.witnessDatagram dt port) s = .next t :=
    next_whenUp_eq sup acts
  have taken {t : State} (open_ : u.yields (0x34 + port.val) = true) (head : (u.ep port.val).supIn = f :: rest)
      (acts : (if f.witness then (if shut.isWitness f then shut.witnessed else shut) else u) = t) :
      exec (.witnessDatagram dt port) s = .next t := witness ((State.withSup_of_frame open_ head).trans acts)
  have hold {t : State} (acts : u.witnessHold = t) : exec (.witnessHoldExpiry dt) s = .next t := next_whenUp_eq sup acts
  have revert {t : State} (acts : u.revertHold = t) : exec (.revertHoldExpiry dt) s = .next t := next_whenUp_eq sup acts
  have command {r : Reply} {t : State} (admitted : Admitted who n 0x4000 u) (acts : (u.accessed who n).handoverCommand n = (r, t)) :
      exec (.handoverCommand dt who) s = .next (t.answer who r) := next_access_of_admitted admitted acts
  have no {f : State → State} (none : ¬ link) : (.next (u.fromPeer f) : Host.Outcome State Fault Refusal) = .next u :=
    congrArg Host.Outcome.next (State.fromPeer_of_no_link none)
  have apart (none : ¬ link) : exec (.handoverRequest dt reason) s = .next u ∧ exec (.handoverAgree dt sp) s = .next u :=
    ⟨no none, no none⟩
  have run {f : State → State} {t : State} (joile : u.works domJoile = true) (there : link)
      (acts : f v = t) : (.next (u.fromPeer f) : Host.Outcome State Fault Refusal) = .next t :=
    congrArg Host.Outcome.next ((State.fromPeer_of_link sup joile there).trans acts)
  have requested {t : State} (joile : u.works domJoile = true) (there : link) (acts : v.handoverRequest reason.toNat = t) :
      exec (.handoverRequest dt reason) s = .next t := run joile there acts
  have agreed {q : WheelPos} {t : State} (joile : u.works domJoile = true) (there : link) (acts : v.handoverAgree q = t) :
      exec (.handoverAgree dt q) s = .next t := run joile there acts
  have pointed {t : State} (fabric : u.works domFabric = true) (acts : u.withDispatch 0x0900 State.handoverPoint = t) :
      exec (.handoverSetPoint dt) s = .next t := next_whenUp_eq fabric acts
  have eq : v = { u with stats := v.stats, fabric := v.fabric } := State.passed_eq 0x83 1 u
  have formedV : v.formed = u.formed := State.passed_formed 0x83 1 u
  have timeV : v.time = u.time := State.passed_time 0x83 1 u
  have translated : v.translate sp = u.translate sp := State.passed_translate 0x83 1 u sp
  have shutEq : shut = { u.modEp port.val (fun e => { e with supIn := rest }) with stats := shut.stats, fabric := shut.fabric } :=
    State.popped_eq ..
  clear_value v shut
  clear no run
  clear_value u
  have up : u.up domSup = true := (Bool.and_eq_true_iff.mp sup).1
  have twinV : v.twin = x := congrArg (fun t => t.twin) eq
  have cycleV : v.cycle = u.cycle := congrArg (fun t => t.cycle) eq
  have roleV : v.twin.role = x.role := congrArg (fun y => y.role) twinV
  have askV : v.time + BitVec.ofNat 64 (msPos (v.cn 0x4000 4 0)) = u.time + BitVec.ofNat 64 (msPos (u.cn 0x4000 4 0)) := by
    rw [timeV, show v.cn 0x4000 4 0 = u.cn 0x4000 4 0 by rw [eq]; rfl]
  refine ⟨fun closed => witness (State.withSup_of_shut closed), fun open_ none => witness (State.withSup_of_empty open_ none),
    fun open_ head => ⟨fun other => taken open_ head ?_, fun mine => ⟨fun own => taken open_ head ?_, fun foreign first =>
      ⟨fun taking active => taken open_ head ?_, fun role => ?_⟩⟩⟩, fun none => hold (State.witnessHold_of_none none),
    fun some_ => hold (State.witnessHold_of_some some_),
    fun idle => revert (State.revertHold_of_idle idle), fun role formed beat asked none due => ?_, fun admitted => ⟨fun barred => ?_,
      fun role mode peer beat => ?_⟩, fun _ none => apart none, fun joile there => ⟨fun barred => requested joile there ?_,
      fun role formed none => ?_, fun barred => agreed joile there ?_, fun role formed => ?_⟩, fun fabric => ⟨fun none => ?_,
      fun delivered => ⟨fun none => ?_, fun point role => ?_, fun point role => ?_⟩⟩⟩
  · exact if_neg (Bool.eq_false_iff.mp other)
  · exact (if_pos mine).trans (if_neg (Bool.eq_false_iff.mp own))
  · have twin : shut.twin = x := congrArg (fun t => t.twin) shutEq
    have now : shut.now = u.now := congrArg (fun t => t.now) shutEq
    rw [if_pos mine, if_pos foreign, State.witnessed_of_first ((congrArg (fun y => y.handAt) twin).trans first), if_neg]
    · unfold State.noted
      rw [now]
    · exact fun h => h.elim ((congrArg (fun y => y.role) twin).trans_ne taking) ((congrArg (fun y => y.role) twin).trans_ne active)
  · have twin : shut.twin = x := congrArg (fun t => t.twin) shutEq
    have now : shut.now = u.now := congrArg (fun t => t.now) shutEq
    have roleS : shut.twin.role = x.role := congrArg (fun y => y.role) twin
    have steps : shut.stepsDown = u.stepsDown := by
      unfold State.stepsDown
      rw [twin]
    have upS : shut.up domSup = true := (State.up_congr (congrArg (fun t => t.power) shutEq) domSup).trans up
    obtain ⟨at_, told, stands, down⟩ := State.witnessed_spec ((congrArg (fun y => y.handAt) twin).trans first)
      (role.imp roleS.trans roleS.trans) upS
    rw [now] at at_
    rw [steps, roleS] at stands
    rw [steps] at down
    exact ⟨_, taken open_ head ((if_pos mine).trans (if_pos foreign)), at_, told, stands, down⟩
  · refine ⟨_, revert (State.revertHold_of_due role formed beat asked none due),
      congrArg (fun y => y.handoverAsked) (State.sendJ_twin (u.asks n) (.handoverRequest n)),
      State.eq_patch_of_bare (State.sendJ_linkBlocks (.handoverRequest n) (u.asks n)), fun joile admits => ?_⟩
    exact State.sendJ_out (s := u.asks n) _ (State.linkCarries_of_formed (s := u.asks n) (Bool.and_eq_true_iff.mpr ⟨joile, rfl⟩) formed admits)
  · exact command admitted (State.handoverCommand_of_barred n (s := u.accessed who n) barred)
  · refine ⟨_, command admitted (State.handoverCommand_of_ready n (s := u.accessed who n) role mode peer beat), rfl, fun may => ?_,
      fun busy => ?_⟩
    · obtain ⟨point, row, asked, stays, bare⟩ := State.askHandover_spec (n := 0) (s := u.accessed who n) role may
      exact ⟨point, row, asked, stays, State.eq_patch_of_bare (F := commandBlocks) (s := u)
        ((State.commandBlocks_of_agreeBlocks bare).trans (State.accessed_commandBlocks who n u))⟩
    · exact congrArg (fun t => t.twin) (State.askHandover_of_busy (n := 0) (s := u.accessed who n) busy)
  · refine State.handoverRequest_of_barred ?_
    rw [twinV, formedV]
    exact barred
  · have active : v.twin.role = 4 := roleV.trans role
    have request : v.handoverRequest reason.toNat = v.askHandover reason.toNat :=
      if_pos ⟨active, formedV.trans formed, Option.isNone_iff_eq_none.mpr ((congrArg (fun y => y.handover) twinV).trans none)⟩
    have same : v.mayAgree ↔ free := by
      unfold State.mayAgree
      rw [twinV, cycleV]
    refine ⟨_, requested joile there request, fun may => ?_, fun busy => ?_⟩
    · obtain ⟨point, row, asked, stays, bare⟩ := State.askHandover_spec (n := reason.toNat) active (same.mpr may)
      rw [askV] at point row
      exact ⟨point, row, asked, stays, State.eq_patch_of_bare (F := commandBlocks) (State.commandBlocks_of_agreeBlocks bare)⟩
    · exact State.askHandover_of_busy (fun may => busy (same.mp may))
  · refine State.handoverAgree_of_barred ?_
    rw [twinV, formedV]
    exact barred
  · have standby {q : WheelPos} := State.handoverAgree_of_standby (sp := q) (s := v) (roleV.trans role) (formedV.trans formed)
    refine ⟨agreed joile there (standby.trans (if_pos rfl)), fun some_ => ⟨_, agreed joile there (standby.trans (if_neg some_)), ?_⟩⟩
    rw [translated]
    exact ⟨rfl, rfl, rfl⟩
  · refine pointed fabric ?_
    unfold State.withDispatch
    rw [none]
  · refine pointed fabric ((State.withDispatch_of _ _ u d line delivered).trans ?_)
    exact State.handoverPoint_of_none d none
  · let due : State := { u with appts := { u.appts with line := line } }
    obtain ⟨active, incoming, own, kept, told, stats, bare⟩ := State.comesIn_spec (s := due.pointTaken) up
    exact ⟨_, pointed fabric ((State.withDispatch_of _ _ u d line delivered).trans (State.handoverPoint_of_standby (s := due) point d role)),
      active, incoming, own, kept, told, stats, (State.eq_patch_of_bare bare)⟩
  · let due : State := { u with appts := { u.appts with line := line } }
    obtain ⟨⟨out, peer, kept⟩, bare⟩ := State.goesOut_spec (s := due.pointTaken) rfl
    exact ⟨_, pointed fabric ((State.withDispatch_of _ _ u d line delivered).trans (State.handoverPoint_of_active (s := due) point d role)),
      out, peer, kept, State.health_of_bare (s := due.pointTaken.goesOut) bare rfl,
      State.cycle_of_bare (s := due.pointTaken.goesOut) bare rfl, State.dict_of_bare (s := due.pointTaken.goesOut) bare rfl⟩
end

section
/-! PROOF. What stays of a device on its way into a low power state (R346 to R348): its configuration and copies, the log and the
alerts, the power state, and the role of the unit. -/

namespace Sys2Proof.Machine

open Sys2Proof

/-- The log, ALARM_N as it is held, the alerts, and the flag of a reset of SUP. -/
def Health.kept (h : Health) : List LogRec × Bool × Tbl Alert × Bool := (h.log, h.alarm, h.alerts, h.supReset)

@[simp] theorem Health.kept_mk (a b c d e f g h i j k l m n o p) : (Health.mk a b c d e f g h i j k l m n o p).kept = (c, h, g, n) := (rfl)

@[simp] theorem Health.kept_eta (h : Health) : (h.log, h.alarm, h.alerts, h.supReset) = h.kept := (rfl)

/-- What is raised leaves the log and the alerts to SUP. -/
@[simp] theorem State.raiseKind_kept (kind astate code a b : Nat) (s : State) :
    (s.raiseKind kind astate code a b).health.kept = s.health.kept := by
  unfold State.raiseKind
  extract_lets e
  split
  · rfl
  · rfl

@[simp] theorem State.event_kept (code a b : Nat) (s : State) : (s.event code a b).health.kept = s.health.kept := by
  unfold State.event
  split
  · exact State.raiseKind_kept ..
  · exact State.raiseKind_kept ..

@[simp] theorem State.endAlert_kept (code a : Nat) (s : State) : (s.endAlert code a).health.kept = s.health.kept :=
  State.raiseKind_kept ..

/-- What the end of a port's output, and what the loss of a domain, leave as it is. -/
structure Rest where
  cfg : Cfg
  cause : Nat
  bootSlot : Nat
  copies : Tbl Copy
  resetN : Bool
  internal : Bool
  bootRom : Bool
  health : List LogRec × Bool × Tbl Alert × Bool
  power : Power
  now : Nat
  beatOut : Bool
  role : Nat

/-- That part of a state. -/
def State.rest (s : State) : Rest :=
  ⟨s.cfg, s.boot.cause, s.boot.bootSlot, s.boot.copies, s.boot.resetN, s.boot.internal, s.boot.bootRom, s.health.kept,
    s.power, s.now, s.twin.beatOut, s.twin.role⟩

@[simp] theorem State.rest_mk (a b c d e f g h i j k l m n o p q r s t u v w x y) :
    (State.mk a b c d e f g h i j k l m n o p q r s t u v w x y).rest =
      ⟨e, w.cause, w.bootSlot, w.copies, w.resetN, w.internal, w.bootRom, u.kept, x, a, v.beatOut, v.role⟩ := (rfl)

@[simp] theorem State.rest_eta (s : State) :
    (⟨s.cfg, s.boot.cause, s.boot.bootSlot, s.boot.copies, s.boot.resetN, s.boot.internal, s.boot.bootRom, s.health.kept, s.power, s.now, s.twin.beatOut, s.twin.role⟩ : Rest) = s.rest := (rfl)

theorem State.rest_role (s : State) : s.rest.role = s.twin.role := (rfl)

@[simp] theorem State.rest_ite (c : Prop) [Decidable c] (s t : State) : (if c then s else t).rest = if c then s.rest else t.rest :=
  apply_ite State.rest c s t

@[simp] theorem foldl_rest {α : Type} (f : State → α → State) (h : ∀ s a, (f s a).rest = s.rest) (l : List α) (s : State) :
    (l.foldl f s).rest = s.rest := foldl_keeps State.rest f h l s

/-- The same of steps that a unit takes which does not hand over. -/
theorem foldl_rest_of_calm {α : Type} {f : State → α → State} (h : ∀ s a, s.rest.role ≠ 5 → (f s a).rest = s.rest) (l : List α) {s : State}
    (calm : s.rest.role ≠ 5) : (l.foldl f s).rest = s.rest :=
  List.foldlRecOn (motive := fun t => t.rest = s.rest) l f rfl fun _ kept a _ => (h _ a (by rw [kept]; exact calm)).trans kept

@[simp] theorem State.stat_rest (p : Nat) (q : Nat) (k : Nat) (m : Nat) (s : State) : (State.stat p q k m s).rest = s.rest := by
  simp [State.stat]

@[simp] theorem State.raiseKind_rest (p : Nat) (q : Nat) (k : Nat) (m : Nat) (n : Nat) (s : State) : (State.raiseKind p q k m n s).rest = s.rest := by
  simp [State.raiseKind]

@[simp] theorem State.event_rest (p : Nat) (q : Nat) (k : Nat) (s : State) : (State.event p q k s).rest = s.rest := by
  unfold State.event; split <;> simp

@[simp] theorem State.endAlert_rest (p : Nat) (q : Nat) (s : State) : (State.endAlert p q s).rest = s.rest := by
  simp [State.endAlert]

@[simp] theorem State.modAppt_rest (p : Nat) (q : ApptRow → ApptRow) (s : State) : (State.modAppt p q s).rest = s.rest := by
  simp [State.modAppt]

@[simp] theorem State.setInc_rest (p : Nat) (q : Int) (s : State) : (State.setInc p q s).rest = s.rest := by
  simp [State.setInc]

@[simp] theorem State.setWheel_rest (w : Nat) (st : WState) (s : State) : (s.setWheel w st).rest = s.rest := by
  unfold State.setWheel; dsimp only; (repeat' split) <;> simp

@[simp] theorem State.trackQualified_rest (s : State) : (State.trackQualified s).rest = s.rest := by
  simp [State.trackQualified]

@[simp] theorem State.noteLeap_rest (p : Int) (q : WheelPos) (s : State) : (State.noteLeap p q s).rest = s.rest := by
  simp [State.noteLeap]

@[simp] theorem State.keepLeap_rest (p : State → State) (s : State) (h : ∀ s, (p s).rest = s.rest) :
    (State.keepLeap p s).rest = s.rest := by
  simp [State.keepLeap, h]

@[simp] theorem State.applyC_rest (s : State) : (State.applyC s).rest = s.rest := by
  simp [State.applyC]

@[simp] theorem State.setLoop_rest (p : Loop → Loop) (s : State) : (State.setLoop p s).rest = s.rest := by
  simp [State.setLoop]

@[simp] theorem State.followSource_rest (p : Nat) (s : State) : (State.followSource p s).rest = s.rest := by
  simp [State.followSource]

@[simp] theorem State.acquire_rest (p : Nat) (s : State) : (State.acquire p s).rest = s.rest := by
  simp [State.acquire]

@[simp] theorem State.coastTime_rest (s : State) : (State.coastTime s).rest = s.rest := by
  simp [State.coastTime]

@[simp] theorem State.takeSource_rest (p : Nat) (s : State) : (State.takeSource p s).rest = s.rest := by
  simp [State.takeSource]

@[simp] theorem State.chooseSource_rest (s : State) : (State.chooseSource s).rest = s.rest := by
  unfold State.chooseSource; dsimp only; (repeat' split) <;> simp

@[simp] theorem State.lockTime_rest (s : State) : (State.lockTime s).rest = s.rest := by
  simp [State.lockTime]

@[simp] theorem State.judgeSources_rest (s : State) : (State.judgeSources s).rest = s.rest := by
  simp [State.judgeSources]

@[simp] theorem State.sourceChanged_rest (s : State) : (State.sourceChanged s).rest = s.rest := by
  simp [State.sourceChanged]

@[simp] theorem State.modQue_rest (p : Nat) (q : Queue → Queue) (s : State) : (State.modQue p q s).rest = s.rest := by
  simp [State.modQue]

@[simp] theorem State.rewatch_rest (p : List Nat) (s : State) : (State.rewatch p s).rest = s.rest := by
  simp [State.rewatch]

@[simp] theorem State.notices_rest (p : Nat) (q : Nat) (s : State) : (State.notices p q s).rest = s.rest := by
  simp [State.notices]

@[simp] theorem State.pushed_rest (p : Nat) (s : State) : (State.pushed p s).rest = s.rest := by
  simp [State.pushed]

@[simp] theorem State.released_rest (p : Nat) (q : State) (s : State) : (State.released p s q).rest = s.rest := by
  simp [State.released]

@[simp] theorem State.popped_rest (p : Nat) (q : State) (s : State) : (State.popped p s q).rest = s.rest := by
  simp [State.popped]

@[simp] theorem State.returned_rest (p : Nat) (q : State) (s : State) : (State.returned p s q).rest = s.rest := by
  simp [State.returned]

@[simp] theorem State.passed_rest (p : Nat) (q : Nat) (s : State) : (State.passed p q s).rest = s.rest := by
  simp [State.passed]

@[simp] theorem State.without_rest (p : Nat) (q : Nat) (s : State) : (State.without p q s).rest = s.rest := by
  simp [State.without]

@[simp] theorem State.dropPackets_rest (p : Nat) (q : Nat) (s : State) : (State.dropPackets p q s).rest = s.rest := by
  simp [State.dropPackets]

@[simp] theorem State.modEp_rest (p : Nat) (q : EPort → EPort) (s : State) : (State.modEp p q s).rest = s.rest := by
  simp [State.modEp]

@[simp] theorem State.macCount_rest (p : Nat) (q : Nat) (k : Nat) (s : State) : (State.macCount p q k s).rest = s.rest := by
  simp [State.macCount]

@[simp] theorem State.trackWatchdog_rest (p : Nat) (s : State) : (State.trackWatchdog p s).rest = s.rest := by
  simp [State.trackWatchdog]

@[simp] theorem State.enterFrame_rest (p : Nat) (q : Nat) (k : TxFrame) (s : State) : (State.enterFrame p q k s).rest = s.rest := by
  simp [State.enterFrame]

@[simp] theorem State.placeFrame_rest (p : Nat) (q : Nat) (k : TxFrame) (s : State) : (State.placeFrame p q k s).rest = s.rest := by
  simp [State.placeFrame]

@[simp] theorem State.letFramesIn_rest (p : Nat) (s : State) : (State.letFramesIn p s).rest = s.rest := by
  simp [State.letFramesIn]

@[simp] theorem State.queueFrame_rest (p : Nat) (q : Nat) (k : TxKind) (m : List Byte) (s : State) : (State.queueFrame p q k m s).rest = s.rest := by
  unfold State.queueFrame; split <;> simp

@[simp] theorem State.nextIpId_rest (p : Nat) (s : State) : (State.nextIpId p s).rest = s.rest := by
  simp [State.nextIpId]

@[simp] theorem State.modSp_rest (p : Nat) (q : SPort → SPort) (s : State) : (State.modSp p q s).rest = s.rest := by
  simp [State.modSp]

@[simp] theorem State.modLst_rest (p : Nat) (q : Listener → Listener) (s : State) : (State.modLst p q s).rest = s.rest := by
  simp [State.modLst]

@[simp] theorem State.returnEntry_rest (p : Nat) (q : Entry) (s : State) : (State.returnEntry p q s).rest = s.rest := by
  simp [State.returnEntry]

@[simp] theorem State.returnSlot_rest (p : Nat) (s : State) : (State.returnSlot p s).rest = s.rest := by
  unfold State.returnSlot; split <;> simp

@[simp] theorem State.countShaper_rest (p : Nat) (q : Nat) (s : State) : (State.countShaper p q s).rest = s.rest := by
  simp [State.countShaper]

@[simp] theorem State.countShaped_rest (p : Nat) (q : Nat) (s : State) : (State.countShaped p q s).rest = s.rest := by
  simp [State.countShaped]

@[simp] theorem State.modCp_rest (p : Nat) (q : CPort → CPort) (s : State) : (State.modCp p q s).rest = s.rest := by
  simp [State.modCp]

@[simp] theorem State.withdrawn_rest (qs : List Nat) (s b : State) : (State.withdrawn qs s b).rest = s.rest := by
  exact foldl_rest _ (fun s q => by split <;> simp) _ _

@[simp] theorem State.loadCan_rest (p : Nat) (s : State) : (State.loadCan p s).rest = s.rest := by
  unfold State.loadCan; dsimp only
  repeat' split
  all_goals simp

@[simp] theorem State.sendCan_rest (p : Nat) (q : CanTx) (s : State) : (State.sendCan p q s).rest = s.rest := by
  simp [State.sendCan]

@[simp] theorem State.queueCan_rest (p : Nat) (q : CanTx) (s : State) : (State.queueCan p q s).rest = s.rest := by
  simp [State.queueCan]

@[simp] theorem State.fillCan_rest (p : Nat) (s : State) : (State.fillCan p s).rest = s.rest := by
  simp [State.fillCan]

@[simp] theorem State.canDropped_rest (p : Nat) (s b : State) : (State.canDropped p s b).rest = s.rest := by
  simp [State.canDropped]

@[simp] theorem State.regain_rest (s b : State) : (State.regain s b).rest = s.rest := by
  simp [State.regain]

@[simp] theorem State.modTank_rest (p : Nat) (q : Tank → Tank) (s : State) : (State.modTank p q s).rest = s.rest := by
  simp [State.modTank]

@[simp] theorem State.entrySent_rest (p : Nat) (q : Entry) (s : State) : (State.entrySent p q s).rest = s.rest := by
  simp [State.entrySent]

@[simp] theorem State.clearTx_rest (p : Nat) (s : State) : (State.clearTx p s).rest = s.rest := by
  simp [State.clearTx]

@[simp] theorem State.returnQueue_rest (p : Nat) (q : Nat) (s : State) : (State.returnQueue p q s).rest = s.rest := by
  exact (foldl_rest _ (fun s f => by split <;> simp) _ _).trans (by simp)

@[simp] theorem State.returnDatagrams_rest (p : Nat) (s : State) : (State.returnDatagrams p s).rest = s.rest := by
  simp [State.returnDatagrams]

@[simp] theorem State.returnMessages_rest (p : Nat) (q : Bool) (s : State) : (State.returnMessages p q s).rest = s.rest := by
  unfold State.returnMessages
  extract_lets c head stays back s1
  rw [foldl_rest _ (fun s x => State.returnEntry_rest ..)]
  simp [s1]

@[simp] theorem State.releaseIdle_rest (p : Nat) (s : State) (calm : s.rest.role ≠ 5) : (State.releaseIdle p s).rest = s.rest := by
  have role : s.twin.role ≠ 5 := calm
  simp [State.releaseIdle, role]

@[simp] theorem State.linkDown_rest (s : State) : (State.linkDown s).rest = s.rest := by
  simp [State.linkDown]

@[simp] theorem State.dropLanes_rest (s : State) : (State.dropLanes s).rest = s.rest := by
  simp [State.dropLanes]

@[simp] theorem State.refillSup_rest (s : State) : (State.refillSup s).rest = s.rest := by
  simp [State.refillSup]

@[simp] theorem State.letCanIn_rest (p : Nat) (s : State) : (State.letCanIn p s).rest = s.rest := by
  simp [State.letCanIn]

@[simp] theorem State.supSend_rest (p : CanTx) (s : State) : (State.supSend p s).rest = s.rest := by
  simp [State.supSend]

@[simp] theorem State.emcy_rest (p : Nat) (q : Nat) (s : State) : (State.emcy p q s).rest = s.rest := by
  simp [State.emcy]

@[simp] theorem State.trackErrors_rest (s : State) : (State.trackErrors s).rest = s.rest := by
  simp [State.trackErrors]

@[simp] theorem State.errorState_rest (p : Nat) (s : State) : (State.errorState p s).rest = s.rest := by
  simp [State.errorState]

@[simp] theorem State.canSent_rest (p : Nat) (s : State) (calm : s.rest.role ≠ 5) : (State.canSent p s).rest = s.rest := by
  unfold State.canSent; dsimp only
  repeat' split
  all_goals simp [calm]

@[simp] theorem State.setJournal_rest (p : Nat) (s : State) : (State.setJournal p s).rest = s.rest := by
  unfold State.setJournal; simp only [State.rest_ite]; (repeat' split) <;> simp

@[simp] theorem State.startPage_rest (s : State) : (State.startPage s).rest = s.rest := by
  unfold State.startPage; simp only [State.rest_ite]; (repeat' split) <;> simp

@[simp] theorem State.flushAll_rest (s : State) : (State.flushAll s).rest = s.rest := by
  simp [State.flushAll]

@[simp] theorem State.advanceBlock_rest (s : State) : (State.advanceBlock s).rest = s.rest := by
  simp [State.advanceBlock]

@[simp] theorem State.eraseAhead_rest (s : State) : (State.eraseAhead s).rest = s.rest := by
  unfold State.eraseAhead; dsimp only; (repeat' split) <;> simp

@[simp] theorem State.countWear_rest (s : State) : (State.countWear s).rest = s.rest := by
  simp [State.countWear]

@[simp] theorem State.pageDone_rest (s : State) : (State.pageDone true s).rest = s.rest := by
  unfold State.pageDone; split <;> simp

@[simp] theorem State.blockDone_rest (s : State) : (State.blockDone true s).rest = s.rest := by
  unfold State.blockDone; split <;> simp

@[simp] theorem State.sendIgmp_rest (p : Nat) (q : Nat) (k : Nat) (m : Nat) (s : State) : (State.sendIgmp p q k m s).rest = s.rest := by
  simp [State.sendIgmp]

@[simp] theorem State.sendReport_rest (p : Nat) (q : Nat) (s : State) : (State.sendReport p s q).rest = s.rest := by
  simp [State.sendReport]

@[simp] theorem State.sendArp_rest (p : Nat) (q : Nat) (k : Nat) (m : Nat) (n : Nat) (s : State) : (State.sendArp p q k m n s).rest = s.rest := by
  simp [State.sendArp]

@[simp] theorem State.dropQueues_rest (p : Nat) (s : State) : (State.dropQueues p s).rest = s.rest := by
  simp [State.dropQueues]

@[simp] theorem State.portEnabled_rest (p : Nat) (s : State) : (State.portEnabled p s).rest = s.rest := by
  simp [State.portEnabled]

@[simp] theorem State.takeSetting_rest (p : Nat) (s : State) : (State.takeSetting p s).rest = s.rest := by
  simp [State.takeSetting]

@[simp] theorem State.setLink_rest (p : Nat) (q : Nat) (s : State) (calm : s.rest.role ≠ 5) : (State.setLink p q s).rest = s.rest := by
  simp [State.setLink, calm]

@[simp] theorem State.restartPort_rest (p : Nat) (s : State) (calm : s.rest.role ≠ 5) : (State.restartPort p s).rest = s.rest := by
  simp [State.restartPort, calm]

@[simp] theorem State.frameBoundary_rest (p : Nat) (s : State) (calm : s.rest.role ≠ 5) : (State.frameBoundary p s).rest = s.rest := by
  simp [State.frameBoundary, calm]

@[simp] theorem State.cleanFrame_rest (p : Nat) (s : State) : (State.cleanFrame p s).rest = s.rest := by
  simp [State.cleanFrame]

@[simp] theorem State.macEnd_rest (p : Nat) (s : State) (calm : s.rest.role ≠ 5) : (State.macEnd p s).rest = s.rest := by
  unfold State.macEnd; dsimp only; (repeat' split) <;> simp [calm]

@[simp] theorem State.sampleCounter_rest (p : Nat) (q : Nat) (s : State) : (State.sampleCounter p s q).rest = s.rest := by
  simp [State.sampleCounter]

@[simp] theorem State.sampleCounters_rest (p : Nat) (s : State) : (State.sampleCounters p s).rest = s.rest := by
  simp [State.sampleCounters]

@[simp] theorem State.markEnd_rest (p : Nat) (q : Side) (s : State) : (State.markEnd p q s).rest = s.rest := by
  simp [State.markEnd]

@[simp] theorem State.markEnds_rest (p : Nat) (s : State) : (State.markEnds p s).rest = s.rest := by
  exact foldl_rest _ (fun s q => by (repeat' split) <;> simp) _ _

@[simp] theorem State.restartShapers_rest (s : State) : (State.restartShapers s).rest = s.rest := by
  simp [State.restartShapers]

@[simp] theorem State.emptyQueues_rest (s : State) : (State.emptyQueues s).rest = s.rest := by
  simp [State.emptyQueues]

@[simp] theorem State.fabricEnter_rest (s : State) : (State.fabricEnter s).rest = s.rest := by
  simp [State.fabricEnter]

@[simp] theorem State.cardEnter_rest (p : Nat) (s : State) : (State.cardEnter p s).rest = s.rest := by
  simp [State.cardEnter]

@[simp] theorem State.fullEnter_rest (s : State) : (State.fullEnter s).rest = s.rest := by
  simp [State.fullEnter]

@[simp] theorem State.ctrlEnter_rest (s : State) : (State.ctrlEnter s).rest = s.rest := by
  simp [State.ctrlEnter]

@[simp] theorem State.ethEnter_rest (p : Nat) (s : State) (calm : s.rest.role ≠ 5) : (State.ethEnter p s).rest = s.rest := by
  simp [State.ethEnter, calm]

@[simp] theorem State.serialEnter_rest (s : State) : (State.serialEnter s).rest = s.rest := by
  simp [State.serialEnter]

@[simp] theorem State.canEnter_rest (s : State) : (State.canEnter s).rest = s.rest := by
  simp [State.canEnter]

@[simp] theorem State.afeEnter_rest (s : State) : (State.afeEnter s).rest = s.rest := by
  simp [State.afeEnter]

@[simp] theorem State.dramEnter_rest (s : State) : (State.dramEnter s).rest = s.rest := by
  simp [State.dramEnter]

@[simp] theorem State.finishSerial_rest (p : Nat) (s : State) : (State.finishSerial p s).rest = s.rest := by
  unfold State.finishSerial; dsimp only; (repeat' split) <;> simp

@[simp] theorem State.discardQueues_rest (s : State) : (State.discardQueues s).rest = s.rest := by
  simp [State.discardQueues]

@[simp] theorem State.quiesce_rest (s : State) (calm : s.rest.role ≠ 5) : s.quiesce.rest = s.rest := by
  unfold State.quiesce
  dsimp only
  refine (State.discardQueues_rest ..).trans ((foldl_rest_of_calm (fun s p calm => ?_) _ ?_).trans
    ((foldl_rest_of_calm (fun s p calm => ?_) _ ?_).trans (foldl_rest _ (fun s p => State.finishSerial_rest p s) _ s)))
  · refine (State.returnMessages_rest ..).trans ?_
    split
    · exact State.canSent_rest p s calm
    · rfl
  · rw [foldl_rest_of_calm (fun s p calm => (State.returnDatagrams_rest ..).trans (State.macEnd_rest p s calm)),
      foldl_rest _ (fun s p => State.finishSerial_rest p s)]
    · exact calm
    · rw [foldl_rest _ (fun s p => State.finishSerial_rest p s)]
      exact calm
  · exact (State.returnDatagrams_rest ..).trans (State.macEnd_rest p s calm)
  · rw [foldl_rest _ (fun s p => State.finishSerial_rest p s)]
    exact calm

@[simp] theorem State.completeFlush_rest (n : Nat) (s : State) : (s.completeFlush n).rest = s.rest := by
  induction n generalizing s with
  | zero => rfl
  | succ n ih => unfold State.completeFlush; (repeat' split) <;> simp [ih]

end Sys2Proof.Machine
end

section
/-! PROOF. How domains are switched off on the way into a low power state (R344, R346): what they lose, what stays of the device,
and which domains run in the end. -/

namespace Sys2Proof.Machine

open Sys2Proof

/-! ### Queues of listeners -/

/-- No entry waits for listeners 0 to 61. -/
def State.drained (s : State) : Prop := ∀ l < 62, (s.lst l).queue = []

/-- A unit that neither takes, holds nor hands over the active role. -/
def State.idleRole (s : State) : Prop := ¬ (3 ≤ s.twin.role ∧ s.twin.role ≤ 5)

theorem State.idleRole.calm {s : State} (idle : s.idleRole) : s.rest.role ≠ 5 := fun out => idle (by rw [show s.twin.role = 5 from out]; decide)

theorem State.lst_congr {s t : State} (same : t.bramble = s.bramble) (l : Nat) : t.lst l = s.lst l := by
  unfold State.lst
  rw [same]

theorem State.drained_of_bramble {s t : State} (same : t.bramble = s.bramble) (drained : s.drained) : t.drained := fun l lt =>
  (congrArg Listener.queue (State.lst_congr same l)).trans (drained l lt)

/-- The queue of one listener is discarded, with the entry in its slot. -/
def State.discardsOf (s : State) (l : Nat) : State :=
  let s := s.returnSlot l
  let s := (s.lst l).queue.foldl (fun s e => s.stat 0x4820 l (6 + e.cls) 1) s
  s.modLst l (fun x => { x with queue := [] })

theorem State.lst_returnSlot {k l : Nat} (other : k ≠ l) (s : State) : (s.returnSlot l).lst k = s.lst k := by
  unfold State.returnSlot
  split
  · rw [State.lst_modLst, if_neg other]
    exact (State.lst_modLst ..).trans (if_neg other)
  · rfl

theorem State.lst_discardsOf (k l : Nat) (s : State) : ((s.discardsOf l).lst k).queue = if k = l then [] else (s.lst k).queue := by
  unfold State.discardsOf
  dsimp only
  rw [State.lst_modLst]
  split
  · rfl
  · next other =>
    have counted : ∀ (es : List Entry) (t : State), (es.foldl (fun s e => s.stat 0x4820 l (6 + e.cls) 1) t).bramble = t.bramble :=
      fun es t =>
      foldl_keeps State.bramble (fun s (e : Entry) => s.stat 0x4820 l (6 + e.cls) 1) (fun _ _ => rfl) es t
    rw [State.lst_congr (counted ..), State.lst_returnSlot other]

/-- What is left in the queues of listeners 0 to 61 is discarded. -/
theorem State.discardQueues_drained (s : State) : s.discardQueues.drained := by
  have first : ∀ n k, k < n → (((List.range n).foldl State.discardsOf s).lst k).queue = [] := by
    intro n
    induction n with
    | zero => exact fun k lt => absurd lt (Nat.not_lt_zero k)
    | succ n ih =>
      intro k lt
      rw [List.range_succ, List.foldl_append, List.foldl_cons, List.foldl_nil, State.lst_discardsOf]
      split
      · rfl
      · next other => exact ih k (by omega)
  exact first 62

theorem State.quiesce_drained (s : State) : s.quiesce.drained := State.discardQueues_drained _

/-! ### What the blocks of listeners lose -/

theorem State.fullEnter_drained {s : State} (drained : s.drained) : s.fullEnter.drained := fun l lt =>
  (Tbl.get_map_keeps Listener.queue {} (fun x => (x.1, { x.2 with slot := none, inFlight := none })) l s.bramble.listeners
    (fun _ => rfl) (fun _ => rfl)).trans (drained l lt)

theorem State.serialEnter_drained {s : State} (drained : s.drained) : s.serialEnter.drained := fun l lt =>
  (Tbl.get_map_keeps Listener.queue {} _ l s.bramble.listeners
    (fun e => by dsimp only; split <;> rfl) (fun e => by dsimp only; split <;> rfl)).trans (drained l lt)

/-- A queue of a table of listeners that have restarted is empty. -/
theorem queue_get_restart (l : Nat) (t : Tbl Listener) :
    (Tbl.get {} l (t.map (fun x : Nat × Listener => (x.1, x.2.restart)))).queue = [] := by
  induction t with
  | nil => rfl
  | cons e t ih =>
    change (Tbl.get {} l ((e.1, e.2.restart) :: t.map (fun x => (x.1, x.2.restart)))).queue = []
    unfold Tbl.get
    split
    · rfl
    · split
      · rfl
      · exact ih

theorem State.fabricEnter_drained (s : State) : s.fabricEnter.drained := by
  intro l _
  unfold State.fabricEnter
  refine (congrArg Listener.queue (State.lst_congr (State.event_bramble ..) l)).trans ?_
  exact queue_get_restart l s.restartShapers.bramble.listeners

/-! ### What the other blocks lose -/

section

variable (s : State)

theorem State.releaseIdle_of_calm {s : State} (calm : s.rest.role ≠ 5) (p : Nat) : s.releaseIdle p = s := if_neg fun h => calm h.1

theorem State.sampleCounters_bramble (p : Nat) : (s.sampleCounters p).bramble = s.bramble := by
  unfold State.sampleCounters
  rw [State.modEp_bramble]
  refine foldl_keeps State.bramble _ (fun s n => ?_) _ s
  unfold State.sampleCounter
  rw [State.modEp_bramble, State.stat_bramble]

theorem State.ethEnter_bramble {s : State} (calm : s.rest.role ≠ 5) (p : Nat) : (s.ethEnter p).bramble = s.bramble := by
  unfold State.ethEnter
  dsimp only
  rw [State.releaseIdle_of_calm]
  · rw [State.modEp_bramble]
    split
    · exact s.sampleCounters_bramble p
    · rw [State.event_bramble, State.sampleCounters_bramble]
  · rw [State.modEp_rest, State.rest_ite, State.event_rest, ite_self, State.sampleCounters_rest]
    exact calm

theorem State.bramble_of_bare {F : Blocks} {s t : State} (h : t.bare F = s.bare F) (kept : F.bramble = false) : t.bramble = s.bramble := by
  have same := congrArg State.bramble h
  unfold State.bare State.patch at same
  dsimp only at same
  rwa [kept] at same

theorem State.canEnter_bramble : s.canEnter.bramble = s.bramble := by
  unfold State.canEnter
  exact State.bramble_of_bare (F := { stats := true, fabric := true, can := true, canOpen := true }) (s := { s with can := _, canOpen := _ })
    (State.trackErrors_bare _ rfl rfl rfl rfl) rfl

theorem State.afeEnter_bramble : s.afeEnter.bramble = s.bramble := by
  unfold State.afeEnter
  refine foldl_keeps State.bramble _ (fun s t => ?_) s.tanksOn s
  dsimp only
  split
  · exact State.event_bramble ..
  · rfl

/-- SUP gives up no output where the unit has none. -/
theorem State.supEnter_bramble {s : State} (idle : s.idleRole) : s.supEnter.bramble = s.bramble := by
  have was : decide (s.twin.role = 3 ∨ s.twin.role = 4 ∨ s.twin.role = 5) = false :=
    decide_eq_false (fun h => idle (by omega))
  unfold State.supEnter
  dsimp only
  rw [was, if_neg Bool.false_ne_true]
  unfold State.cancelHandover State.forgetPeer State.linkDown
  rw [State.driveArb_eq]
  split
  · rfl
  · rfl

theorem State.startPage_bramble : s.startPage.bramble = s.bramble := by
  unfold State.startPage
  dsimp only
  split
  · rfl
  · split
    · rfl
    · split <;> rfl

theorem State.setJournal_bramble (n : Nat) : (s.setJournal n).bramble = s.bramble := by
  unfold State.setJournal
  dsimp only
  split
  · rfl
  · split
    · rw [State.event_bramble]
      split
      · exact State.endAlert_bramble ..
      · rfl
    · split
      · exact State.endAlert_bramble ..
      · rfl

theorem State.eraseAhead_bramble : s.eraseAhead.bramble = s.bramble := by
  unfold State.eraseAhead
  dsimp only
  split
  · rfl
  · split
    · rfl
    · split
      · exact State.setJournal_bramble s 4
      · rfl

theorem State.countWear_bramble : s.countWear.bramble = s.bramble := by
  unfold State.countWear
  dsimp only
  split
  · exact State.event_bramble ..
  · rfl

theorem State.pageDone_bramble : (s.pageDone true).bramble = s.bramble := by
  unfold State.pageDone
  split
  · rfl
  · dsimp only
    rw [if_pos rfl, State.startPage_bramble]
    split
    · rw [State.eraseAhead_bramble]
      exact State.countWear_bramble _
    · exact State.countWear_bramble _

theorem State.blockDone_bramble : (s.blockDone true).bramble = s.bramble := by
  unfold State.blockDone
  split
  · rfl
  · dsimp only
    rw [if_pos rfl, State.startPage_bramble, State.eraseAhead_bramble]

theorem State.completeFlush_bramble (n : Nat) : (s.completeFlush n).bramble = s.bramble := by
  induction n generalizing s with
  | zero => rfl
  | succ n ih =>
    unfold State.completeFlush
    split
    · rw [ih, State.blockDone_bramble]
    · split
      · rw [ih, State.pageDone_bramble]
      · rfl

theorem State.flushAll_bramble : s.flushAll.bramble = s.bramble := by
  unfold State.flushAll
  split
  · exact State.startPage_bramble _
  · rfl

end

/-- No domain but those of SUP, FULL, SERIAL and FABRIC touches the listeners as it is lost. -/
theorem State.domainLoses_drained {s : State} (idle : s.idleRole) (drained : s.drained) (d : Nat) : (s.domainLoses d).drained := by
  unfold State.domainLoses
  split
  case h_1 => exact s.fabricEnter_drained
  case h_2 | h_3 =>
    unfold State.cardEnter
    dsimp only
    split <;> exact drained
  case h_4 => exact State.fullEnter_drained drained
  case h_5 => exact drained
  case h_6 => exact State.drained_of_bramble (State.supEnter_bramble idle) drained
  case h_7 | h_8 => exact State.drained_of_bramble (State.ethEnter_bramble idle.calm _) drained
  case h_9 => exact State.serialEnter_drained drained
  case h_10 => exact State.drained_of_bramble s.canEnter_bramble drained
  case h_11 => exact State.drained_of_bramble s.afeEnter_bramble drained
  all_goals exact drained

end Sys2Proof.Machine
end

section
/-! PROOF. The domains of a device that is on its way into a low power state (R346 to R348), as they are switched off one after the
other, and as they stop their clocks. -/

namespace Sys2Proof.Machine

open Sys2Proof

/-- What stays of a device while its domains go: not BEAT_OUT and the role, and of the power state not the domains. -/
def Rest.bare (r : Rest) : Rest := { r with power := { r.power with doms := [] }, beatOut := false, role := 0 }

/-- From `m` to `t` nothing has gone but domains; the unit is idle, and its queues are empty. -/
structure State.Sunk (m t : State) : Prop where
  rest : t.rest.bare = m.rest.bare
  silent : t.twin.beatOut = false
  idle : t.idleRole
  drained : t.drained

theorem State.power_of_rest {s t : State} (same : t.rest = s.rest) : t.power = s.power := congrArg Rest.power same

/-! ### The loss of a domain -/

theorem State.supEnter_rest {s : State} (idle : s.idleRole) :
    s.supEnter.rest = { s.rest with beatOut := false, role := if s.twin.role = 0 then s.twin.role else 1 } := by
  have was : decide (s.twin.role = 3 ∨ s.twin.role = 4 ∨ s.twin.role = 5) = false :=
    decide_eq_false (fun h => idle (by omega))
  unfold State.supEnter
  dsimp only
  rw [was, if_neg Bool.false_ne_true]
  unfold State.cancelHandover State.forgetPeer State.linkDown
  rw [State.driveArb_eq]
  split
  · rfl
  · rfl

theorem State.domainLoses_rest {s : State} (idle : s.idleRole) {d : Nat} (other : d ≠ 7) : (s.domainLoses d).rest = s.rest := by
  unfold State.domainLoses
  split
  case h_6 => exact absurd rfl other
  case h_1 => exact s.fabricEnter_rest
  case h_2 | h_3 => exact State.cardEnter_rest ..
  case h_4 => exact s.fullEnter_rest
  case h_5 => exact s.ctrlEnter_rest
  case h_7 | h_8 => exact State.ethEnter_rest _ s idle.calm
  case h_9 => exact s.serialEnter_rest
  case h_10 => exact s.canEnter_rest
  case h_11 => exact s.afeEnter_rest
  case h_12 => exact s.dramEnter_rest
  case h_13 => exact s.dropLanes_rest
  case h_14 => rfl

theorem State.domainLoses_power {s : State} (idle : s.idleRole) (d : Nat) : (s.domainLoses d).power = s.power := by
  by_cases sup : d = 7
  · subst sup
    exact congrArg Rest.power (State.supEnter_rest idle)
  · exact State.power_of_rest (State.domainLoses_rest idle sup)

section

variable {m s t : State}

theorem State.Sunk.of_rest (sunk : m.Sunk s) (rest : t.rest = s.rest) (drained : t.drained) : m.Sunk t where
  rest := (congrArg Rest.bare rest).trans sunk.rest
  silent := (congrArg Rest.beatOut rest).trans sunk.silent
  idle := by
    have role : t.twin.role = s.twin.role := congrArg Rest.role rest
    unfold State.idleRole
    rw [role]
    exact sunk.idle
  drained := drained

theorem State.Sunk.modDom (sunk : m.Sunk s) (d : Nat) (f : Dom → Dom) : m.Sunk (s.modDom d f) where
  rest := sunk.rest
  silent := sunk.silent
  idle := sunk.idle
  drained := sunk.drained

theorem State.Sunk.domainLoses (sunk : m.Sunk s) (d : Nat) : m.Sunk (s.domainLoses d) := by
  have drained := State.domainLoses_drained sunk.idle sunk.drained d
  by_cases sup : d = 7
  · subst sup
    have rest : (s.domainLoses 7).rest = _ := State.supEnter_rest sunk.idle
    refine ⟨(congrArg Rest.bare rest).trans sunk.rest, congrArg Rest.beatOut rest, ?_, drained⟩
    have role : (s.domainLoses 7).twin.role = _ := congrArg Rest.role rest
    unfold State.idleRole
    rw [role]
    dsimp only
    split
    · exact sunk.idle
    · decide
  · exact sunk.of_rest (State.domainLoses_rest sunk.idle sup) drained

theorem State.markEnds_bramble (d : Nat) (s : State) : (s.markEnds d).bramble = s.bramble :=
  congrArg (fun t => t.bramble) (State.Marks.markEnds d s).rest

theorem State.Sunk.markEnds (sunk : m.Sunk s) (d : Nat) : m.Sunk (s.markEnds d) :=
  sunk.of_rest (State.markEnds_rest d s) (State.drained_of_bramble (s.markEnds_bramble d) sunk.drained)

theorem State.Sunk.switchOff (sunk : m.Sunk s) (d : Nat) : m.Sunk (s.switchOff d) := by
  unfold State.switchOff
  split
  · exact sunk
  · exact ((sunk.domainLoses d).modDom d _).markEnds d

theorem State.switchOff_dom (idle : s.idleRole) (d k : Nat) : (s.switchOff d).dom k = if k = d then 0 else s.dom k := by
  unfold State.switchOff
  split
  · next off =>
    split
    · next same => rw [same, off]
    · rfl
  · have marked : ∀ t : State, (t.markEnds d).dom k = t.dom k :=
      fun t => State.dom_congr k (State.power_of_rest (State.markEnds_rest d t))
    rw [marked, State.dom_modDom]
    split
    · rfl
    · exact State.dom_congr k (State.domainLoses_power idle d)

/-- Domains that are switched off one after the other are off, the others as they were. -/
theorem State.switchOffs (sunk : m.Sunk s) (l : List Nat) :
    m.Sunk (l.foldl (fun s d => s.switchOff d) s) ∧
      ∀ k, (l.foldl (fun s d => s.switchOff d) s).dom k = if k ∈ l then 0 else s.dom k := by
  induction l generalizing s with
  | nil => exact ⟨sunk, fun k => rfl⟩
  | cons d l ih =>
    obtain ⟨kept, doms⟩ := ih (sunk.switchOff d)
    refine ⟨kept, fun k => (doms k).trans ?_⟩
    rw [State.switchOff_dom sunk.idle]
    simp only [List.mem_cons]
    by_cases last : k ∈ l
    · rw [if_pos last, if_pos (Or.inr last)]
    · rw [if_neg last]
      exact if_congr ⟨Or.inl, fun h => h.resolve_right last⟩ rfl rfl

/-- DRAMIF's last flush leaves everything else alone. -/
theorem State.Sunk.flushed (sunk : m.Sunk s) (n : Nat) : m.Sunk (s.flushAll.completeFlush n) :=
  sunk.of_rest ((State.completeFlush_rest ..).trans s.flushAll_rest)
    (State.drained_of_bramble ((State.completeFlush_bramble ..).trans s.flushAll_bramble) sunk.drained)

theorem State.flushed_dom (n k : Nat) : (s.flushAll.completeFlush n).dom k = s.dom k :=
  State.dom_congr k (State.power_of_rest ((State.completeFlush_rest ..).trans s.flushAll_rest))

/-- The statistics outlast SUP. -/
def State.recounted (stats : Tbl Nat) (s : State) : State := { s with stats := stats }

theorem State.Sunk.recounted (sunk : m.Sunk s) (stats : Tbl Nat) : m.Sunk (s.recounted stats) := sunk.of_rest rfl sunk.drained

theorem State.Sunk.supOff (sunk : m.Sunk s) : m.Sunk s.supOff := (sunk.switchOff domSup).recounted s.stats

/-- The domains that Listen switches off before the last flush, and after it. -/
def State.offFirst (s : State) : State := [10, 11, 12, 8, 9, 14, 3, 4, 6, 5].foldl (fun s d => s.switchOff d) s

def State.offLast (s : State) : State := ((s.switchOff domDram).supOff).switchOff domFabric

theorem State.Sunk.offLast (sunk : m.Sunk s) : m.Sunk s.offLast := ((sunk.switchOff domDram).supOff).switchOff domFabric

theorem State.offLast_dom (sunk : m.Sunk s) (k : Nat) :
    s.offLast.dom k = if k = domFabric ∨ k = domSup ∨ k = domDram then 0 else s.dom k := by
  have dram := sunk.switchOff domDram
  unfold State.offLast
  rw [State.switchOff_dom dram.supOff.idle]
  have sup : (s.switchOff domDram).supOff.dom k = ((s.switchOff domDram).switchOff domSup).dom k := rfl
  rw [sup, State.switchOff_dom dram.idle, State.switchOff_dom sunk.idle]
  by_cases fabric : k = domFabric
  · rw [if_pos fabric, if_pos (Or.inl fabric)]
  · rw [if_neg fabric]
    by_cases off : k = domSup
    · rw [if_pos off, if_pos (Or.inr (Or.inl off))]
    · rw [if_neg off]
      exact if_congr ⟨fun h => Or.inr (Or.inr h), fun h => (h.resolve_left fabric).resolve_left off⟩ rfl rfl

/-- What the last flush leaves of the domains that are still on. -/
def State.offTail (deep : Bool) (s : State) : State :=
  let t := (s.flushAll.completeFlush (2 * s.journal.ring.length + 8)).offLast
  if deep then t.switchOff domWake else t

theorem State.offDomains_eq (deep : Bool) (s : State) : s.offDomains deep = s.offFirst.offTail deep := by
  unfold State.offDomains State.offTail State.offLast State.offFirst
  rfl

/-- Every domain but AO is off in Deep Standby; Listen leaves WAKE on. -/
theorem State.offDomains_spec (sunk : m.Sunk s) (deep : Bool) :
    m.Sunk (s.offDomains deep) ∧ (s.offDomains deep).dom domAo = s.dom domAo ∧
      (s.offDomains deep).dom domWake = (if deep then 0 else s.dom domWake) ∧ ∀ i < 15, 2 ≤ i → (s.offDomains deep).dom i = 0 := by
  obtain ⟨first, doms⟩ : m.Sunk s.offFirst ∧ ∀ k, s.offFirst.dom k = if k ∈ [10, 11, 12, 8, 9, 14, 3, 4, 6, 5] then 0 else s.dom k :=
    State.switchOffs sunk [10, 11, 12, 8, 9, 14, 3, 4, 6, 5]
  rw [State.offDomains_eq]
  generalize s.offFirst = f at first doms ⊢
  unfold State.offTail
  have flushed := first.flushed (2 * f.journal.ring.length + 8)
  have rest (k : Nat) := State.flushed_dom (s := f) (2 * f.journal.ring.length + 8) k
  generalize f.flushAll.completeFlush (2 * f.journal.ring.length + 8) = g at flushed rest ⊢
  have last := flushed.offLast
  have off (k : Nat) : g.offLast.dom k =
      if k = domFabric ∨ k = domSup ∨ k = domDram then 0 else if k ∈ [10, 11, 12, 8, 9, 14, 3, 4, 6, 5] then 0 else s.dom k := by
    rw [State.offLast_dom flushed, rest, doms]
  have gone (i : Nat) (small : i < 15) (big : 2 ≤ i) : g.offLast.dom i = 0 := by
    rw [off]
    have listed : (i = domFabric ∨ i = domSup ∨ i = domDram) ∨ i ∈ [10, 11, 12, 8, 9, 14, 3, 4, 6, 5] := by
      revert i
      decide
    rcases listed with h | h
    · exact if_pos h
    · rw [if_pos h]
      exact ite_self 0
  have spared (i : Nat) (here : ¬ (i = domFabric ∨ i = domSup ∨ i = domDram)) (there : i ∉ [10, 11, 12, 8, 9, 14, 3, 4, 6, 5]) :
      g.offLast.dom i = s.dom i := by rw [off, if_neg here, if_neg there]
  have ao := spared domAo (by decide) (by decide)
  cases deep with
  | false => exact ⟨last, ao, spared domWake (by decide) (by decide), gone⟩
  | true =>
    have awake (i : Nat) : (g.offLast.switchOff domWake).dom i = if i = domWake then 0 else g.offLast.dom i :=
      State.switchOff_dom last.idle domWake i
    rw [if_pos rfl, if_pos rfl]
    refine ⟨last.switchOff domWake, ?_, ?_, fun i small big => ?_⟩
    · exact (awake domAo).trans ((if_neg (by decide)).trans ao)
    · exact (awake domWake).trans (if_pos rfl)
    · refine (awake i).trans ?_
      rw [gone i small big]
      exact ite_self 0

end

/-! ### Clocks that stop and go on -/

/-- The domains of a list that are in one state come into another. -/
theorem State.foldl_dom (p : Nat → Nat → Prop) [∀ d x, Decidable (p d x)] (k : Nat) (s : State) (n i : Nat) :
    ((List.range n).foldl (fun s d => if p d (s.dom d) then s.modDom d (fun x => { x with state := k }) else s) s).dom i =
      if i < n ∧ p i (s.dom i) then k else s.dom i := by
  induction n with
  | zero => exact (if_neg (fun h => Nat.not_lt_zero i h.1)).symm
  | succ n ih =>
    rw [List.range_succ, List.foldl_append, List.foldl_cons, List.foldl_nil]
    generalize (List.range n).foldl _ s = t at ih ⊢
    by_cases last : i = n
    · subst last
      rw [if_neg (fun h => Nat.lt_irrefl i h.1)] at ih
      split
      · next meets => rw [State.dom_modDom, if_pos rfl, if_pos ⟨Nat.lt_succ_self i, by rw [← ih]; exact meets⟩]
      · next fails =>
        rw [ih, if_neg (fun h => fails (by rw [ih]; exact h.2))]
    · have stays : (if p n (t.dom n) then t.modDom n (fun x => { x with state := k }) else t).dom i = t.dom i := by
        split
        · rw [State.dom_modDom, if_neg last]
        · rfl
      rw [stays, ih]
      exact if_congr ⟨fun h => ⟨Nat.lt_succ_of_lt h.1, h.2⟩, fun h => ⟨by omega, h.2⟩⟩ rfl rfl

theorem State.Sunk.retainDomains {m s : State} (sunk : m.Sunk s) : m.Sunk s.retainDomains :=
  List.foldlRecOn (motive := m.Sunk) _ _ sunk fun t kept d _ => by
    split
    · exact kept.modDom d _
    · exact kept

theorem State.retainDomains_dom (s : State) (i : Nat) :
    s.retainDomains.dom i = if i < 15 ∧ 2 ≤ i ∧ s.dom i = 3 then 1 else s.dom i :=
  State.foldl_dom (fun d x => 2 ≤ d ∧ x = 3) 1 s 15 i

end Sys2Proof.Machine
end

section
/-! PROOF. O59: the requests for a low power state, and what wakes the device from Doze (R344, R347 to R350). -/

namespace Sys2Proof.Machine

open Sys2Proof

/-! ### Into a low power state -/

/-- The level of ALARM_N, by what stays of a device (R295). -/
def Rest.alarmLow (r : Rest) : Bool :=
  if 2 ≤ r.power.state then r.health.2.1
  else (!r.resetN || !r.internal || r.bootRom || r.power.shutdownAt.isSome || (Tbl.get {} domAo r.power.doms).state != 3) ||
    r.health.2.2.2 || r.health.2.2.1.any (fun x => evPriority x.2.code == 1)

theorem State.alarmLow_eq (s : State) : s.alarmLow = s.rest.alarmLow := rfl

theorem State.leaveSurge_state {s : State} (runs : s.power.state < 2) : s.leaveSurge.power.state = 0 := by
  change (if s.power.state = 1 then 0 else s.power.state) = 0
  split
  · rfl
  · omega

/-- The level does not change as Surge is left. -/
theorem State.leaveSurge_alarmLow {s : State} (runs : s.power.state < 2) : s.leaveSurge.alarmLow = s.alarmLow := by
  unfold State.alarmLow
  rw [if_neg (by rw [State.leaveSurge_state runs]; decide), if_neg (by omega)]
  rfl

/-- The device as its domains are about to go: outputs done, and the time of the entry kept. -/
def State.settles (q : State) : State :=
  { q with
    appts := { q.appts with
      ppsOut := false, ppsEnd := none, evt := q.appts.evt.map (fun x => (x.1, { x.2 with level := false, pulseEnd := none })) }
    health := { q.health with alarm := q.alarmLow }, twin := { q.twin with beatOut := false }
    wheels := { q.wheels with supPos := q.time, supAt := q.now }, power := { q.power with enteredAt := q.now } }

/-- The same once Surge has been left. -/
def State.settled (s : State) : State := s.leaveSurge.quiesce.settles

theorem State.enterLow_eq (n : Nat) (s : State) : s.enterLow n =
    let t := if n = 2 then s.settled.retainDomains else s.settled.offDomains (n == 4)
    { t with power := { t.power with state := n } } := by
  unfold State.enterLow State.settled State.settles
  rfl

section

variable {s t q : State}

theorem State.settles_sunk (idle : q.idleRole) (drained : q.drained) : q.settles.Sunk q.settles := ⟨rfl, rfl, idle, drained⟩

/-- What a device keeps that settles. -/
structure State.Settled (s t : State) : Prop where
  cfg : t.cfg = s.cfg
  copies : t.boot.copies = s.boot.copies
  log : t.health.log = s.health.log
  alarm : t.health.alarm = s.alarmLow
  core : t.power.coreVsel = false
  entered : t.power.enteredAt = s.now
  doms : ∀ i, t.dom i = s.dom i

theorem State.settles_keeps (rest : q.rest = s.rest) (core : s.power.coreVsel = false) : s.Settled q.settles where
  cfg := congrArg Rest.cfg rest
  copies := congrArg Rest.copies rest
  log := congrArg (fun r => r.health.1) rest
  alarm := congrArg Rest.alarmLow rest
  core := (congrArg (fun r => r.power.coreVsel) rest).trans core
  entered := congrArg Rest.now rest
  doms := fun i => congrArg (fun r => (Tbl.get {} i r.power.doms).state) rest

theorem State.Settled.of_surge (settled : s.leaveSurge.Settled t) (runs : s.power.state < 2) : s.Settled t :=
  { settled with alarm := settled.alarm.trans (State.leaveSurge_alarmLow runs) }

variable (idle : s.idleRole)

include idle

theorem State.quiesced_rest : s.leaveSurge.quiesce.rest = s.leaveSurge.rest := State.quiesce_rest _ (State.idleRole.calm (s := s.leaveSurge) idle)

theorem State.settled_sunk : s.settled.Sunk s.settled := by
  have rest := State.quiesced_rest idle
  have drained := State.quiesce_drained s.leaveSurge
  unfold State.settled
  generalize s.leaveSurge.quiesce = q at rest drained ⊢
  have role : q.twin.role = s.twin.role := congrArg Rest.role rest
  have still : q.idleRole := by
    unfold State.idleRole
    rw [role]
    exact idle
  exact State.settles_sunk still drained

theorem State.settled_keeps (runs : s.power.state < 2) : s.Settled s.settled :=
  (State.settles_keeps (State.quiesced_rest idle) rfl).of_surge runs

end

/-- What the entry of a low power state says of the device, apart from its domains. -/
structure State.Low (s : State) (n : Nat) (t : State) : Prop where
  state : t.power.state = n
  core : t.power.coreVsel = false
  entered : t.power.enteredAt = s.now
  silent : t.twin.beatOut = false
  cfg : t.cfg = s.cfg
  alarm : t.health.alarm = s.alarmLow
  copies : t.boot.copies = s.boot.copies
  log : t.health.log = s.health.log
  drained : t.drained

theorem State.Sunk.low {s m t : State} (sunk : m.Sunk t) (settled : s.Settled m) (n : Nat) :
    s.Low n { t with power := { t.power with state := n } } where
  state := rfl
  core := (congrArg (fun r => r.power.coreVsel) sunk.rest).trans settled.core
  entered := (congrArg (fun r => r.power.enteredAt) sunk.rest).trans settled.entered
  silent := sunk.silent
  cfg := (congrArg Rest.cfg sunk.rest).trans settled.cfg
  alarm := (congrArg (fun r => r.health.2.1) sunk.rest).trans settled.alarm
  copies := (congrArg Rest.copies sunk.rest).trans settled.copies
  log := (congrArg (fun r => r.health.1) sunk.rest).trans settled.log
  drained := sunk.drained

section

variable {s : State} (idle : s.idleRole) (runs : s.power.state < 2)

include idle runs

/-- Doze stops the clock of every domain that runs, but AO and WAKE. -/
theorem State.enterLow_doze : s.Low 2 (s.enterLow 2) ∧ (s.enterLow 2).dom domAo = s.dom domAo ∧
    ∀ i < 15, (s.enterLow 2).dom i = if 2 ≤ i ∧ s.dom i = 3 then 1 else s.dom i := by
  have settled := State.settled_keeps idle runs
  have off (i : Nat) : s.settled.retainDomains.dom i = if i < 15 ∧ 2 ≤ i ∧ s.dom i = 3 then 1 else s.dom i := by
    rw [State.retainDomains_dom, settled.doms]
  have sunk := (State.settled_sunk idle).retainDomains
  rw [State.enterLow_eq]
  generalize s.settled.retainDomains = t at off sunk
  refine ⟨sunk.low settled 2, off domAo, fun i small => (off i).trans (if_congr ⟨And.right, fun h => ⟨small, h⟩⟩ rfl rfl)⟩

/-- Listen and Deep Standby switch domains off. -/
theorem State.enterLow_off {n : Nat} (other : n ≠ 2) : s.Low n (s.enterLow n) ∧ (s.enterLow n).dom domAo = s.dom domAo ∧
    (s.enterLow n).dom domWake = (if n == 4 then 0 else s.dom domWake) ∧ ∀ i < 15, 2 ≤ i → (s.enterLow n).dom i = 0 := by
  have settled := State.settled_keeps idle runs
  obtain ⟨sunk, ao, wake, gone⟩ := State.offDomains_spec (State.settled_sunk idle) (n == 4)
  rw [State.enterLow_eq, if_neg other]
  rw [settled.doms] at ao wake
  generalize s.settled.offDomains (n == 4) = t at sunk ao wake gone
  exact ⟨sunk.low settled n, ao, wake, gone⟩

end

/-- What bars a low power state: an active role, a cascade that is not off, a blocking cycle or an image update open. -/
def State.busy (s : State) : Prop :=
  3 ≤ s.twin.role ∧ s.twin.role ≤ 5 ∨ s.control.cascades.any (fun c => c.2.state != 0) = true ∨ s.cycle.state ≠ 0 ∨ s.updateOpen = true

theorem State.lowRequest_of_barred {n : Nat} {s : State} (barred : s.busy ∨ s.wakeable n = false) : s.lowRequest n = (.refused abState, s) := by
  unfold State.lowRequest
  split
  · rfl
  · next role =>
    refine if_pos ?_
    rcases barred with (h | h | h | h) | h
    · exact absurd h (by omega)
    · exact Or.inl h
    · exact Or.inr (Or.inl h)
    · exact Or.inr (Or.inr (Or.inl h))
    · exact Or.inr (Or.inr (Or.inr h))

theorem State.lowRequest_of_free {n : Nat} {s : State} (free : ¬ s.busy) (wakes : s.wakeable n = true) :
    s.lowRequest n = (.done [], s.enterLow n) := by
  unfold State.lowRequest
  rw [if_neg (fun h => free (Or.inl (by omega))), if_neg]
  · rfl
  · rintro (h | h | h | h)
    · exact free (Or.inr (Or.inl h))
    · exact free (Or.inr (Or.inr (Or.inl h)))
    · exact free (Or.inr (Or.inr (Or.inr h)))
    · exact Bool.false_ne_true (h.symm.trans wakes)

theorem State.dom_granted (who : ClientId) (d : Nat) (s : State) : (s.answer who (.done [])).dom d = s.dom d := rfl

/-! ### Out of Doze -/

section

variable {F : Blocks} (s : State)

@[simp] theorem State.modAppt_bare (appts : F.appts = true) (r : Nat) (f : ApptRow → ApptRow) : (s.modAppt r f).bare F = s.bare F := by
  unfold State.bare State.patch
  rw [appts]
  rfl

@[simp] theorem State.dispatch_bare (appts : F.appts = true) (r c : Nat) (due : WheelPos) (late : Bool) :
    (s.dispatch r c due late).bare F = s.bare F := by
  unfold State.dispatch
  split
  · exact State.modAppt_bare s appts ..
  · unfold State.bare State.patch
    rw [appts]
    rfl

@[simp] theorem State.rephaseRow_bare (appts : F.appts = true) (wheel : Nat) (new : WheelPos) (forward : Bool) (r : Nat) :
    (State.rephaseRow wheel new forward s r).bare F = s.bare F := by
  unfold State.rephaseRow
  extract_lets c a passed
  clear_value passed
  split
  · rfl
  · cases passed with
    | none => exact State.modAppt_bare s appts ..
    | some n => exact (State.dispatch_bare _ appts ..).trans (State.modAppt_bare s appts ..)

/-- What a jump of a wheel touches. -/
@[reducible] def jumpBlocks : Blocks := { wheels := true, appts := true, serial := true, analog := true, health := true }

theorem State.skipSlots_bare (old new : WheelPos) : (s.skipSlots old new).bare jumpBlocks = s.bare jumpBlocks :=
  s.foldl_bare (fun s p => by dsimp only; split <;> rfl) _

theorem State.skipSamples_bare (new : WheelPos) : (s.skipSamples new).bare jumpBlocks = s.bare jumpBlocks := rfl

theorem State.rephaseRows_bare (wheel : Nat) (new : WheelPos) (forward : Bool) (l : List Nat) :
    (l.foldl (State.rephaseRow wheel new forward) s).bare jumpBlocks = s.bare jumpBlocks :=
  s.foldl_bare (fun t r => State.rephaseRow_bare t rfl wheel new forward r) l

/-- The wheel has jumped, and no row has met it. -/
def State.leapt (wheel : Nat) (s : State) : State := { s with wheels := s.wheels.mod wheel (fun w => { w with steps := w.steps + 1 }) }

theorem State.leapt_bare (wheel : Nat) : (s.leapt wheel).bare jumpBlocks = s.bare jumpBlocks := rfl

theorem State.jumped_bare (wheel : Nat) (old new : WheelPos) : (s.jumped wheel old new).bare jumpBlocks = s.bare jumpBlocks := by
  have eq : s.jumped wheel old new =
      let t := (s.leapt wheel).apptRows.foldl (State.rephaseRow wheel new (decide (0 < posDiff new old))) (s.leapt wheel)
      (if wheel = 0 then (t.skipSlots old new).skipSamples new else t).event 0x1002 wheel (sat31 (posDiff new old)) := rfl
  rw [eq]
  dsimp only
  rw [State.event_bare _ rfl, apply_ite (State.bare jumpBlocks), State.skipSamples_bare, State.skipSlots_bare, ite_self,
    State.rephaseRows_bare, State.leapt_bare]

/-- What the wheels after Doze touch. -/
@[reducible] def wakeBlocks : Blocks := { jumpBlocks with eth := true }

theorem State.wakeBlocks_of_jumpBlocks {s t : State} (bare : t.bare jumpBlocks = s.bare jumpBlocks) : t.bare wakeBlocks = s.bare wakeBlocks := by
  have twice : (t.bare jumpBlocks).bare wakeBlocks = (s.bare jumpBlocks).bare wakeBlocks := by rw [bare]
  exact twice

/-- The wheels as they stood still go on, before the time wheel jumps. -/
def State.resumed (s : State) : State :=
  let w := s.wheels
  { s with
    wheels := { w with
      time := { freshWheel s.resumePos nominalInc with steps := w.time.steps }
      shaft := w.shaft.resume 0, mains := w.mains.resume (s.fixedInc 2), sea := w.sea.resume (s.fixedInc 3)
      pps := {}, loop := {}, enc := { w.enc with lastEdge := none, interval := none, legalSince := none, standstill := false }
      mns := {}, est := {}, zdaIn := [], disagreeing := false }
    eth := s.eth.map (fun x => (x.1, { x.2 with ptp := { x.2.ptp with exchs := [], good := 0, qualifiedSince := none } })) }

theorem State.wakeWheels_eq : s.wakeWheels = s.resumed.jumped 0 s.time s.resumePos := by
  unfold State.wakeWheels State.resumed
  rfl

theorem State.bare_resumed (w : Wheels) (e : Tbl EPort) : ({ s with wheels := w, eth := e } : State).bare wakeBlocks = s.bare wakeBlocks := by
  unfold State.bare State.patch
  rfl

theorem State.wakeWheels_bare : s.wakeWheels.bare wakeBlocks = s.bare wakeBlocks := by
  rw [State.wakeWheels_eq]
  exact (State.wakeBlocks_of_jumpBlocks (State.jumped_bare ..)).trans (s.bare_resumed _ _)

end

/-- Retained domains as they get their clocks back. -/
def State.clocked (s : State) : State :=
  (List.range 15).foldl (fun s d => if s.dom d = 1 then s.modDom d (fun x => { x with state := 3 }) else s) s

theorem State.clocked_bare (s : State) : s.clocked.bare { power := true } = s.bare { power := true } :=
  s.foldl_bare (fun s d => by split <;> rfl) _

theorem State.clocked_dom (s : State) (i : Nat) : s.clocked.dom i = if i < 15 ∧ s.dom i = 1 then 3 else s.dom i :=
  State.foldl_dom (fun _ x => x = 1) 3 s 15 i

/-- What a device keeps that gets its clocks back, and that they run. -/
theorem State.releaseDomains_spec (s : State) : s.releaseDomains.dict = s.dict ∧ s.releaseDomains.cfg = s.cfg ∧
    ((∀ i < 15, s.dom i = 1 ∨ s.dom i = 3) → ∀ i < 15, s.releaseDomains.dom i = 3) := by
  have eq : s.releaseDomains = s.clocked.wakeWheels := rfl
  have wheels := s.clocked.wakeWheels_bare
  have clocks := s.clocked_bare
  rw [eq]
  refine ⟨(State.dict_of_bare wheels rfl).trans (State.dict_of_bare clocks rfl),
    (State.cfg_of_bare wheels rfl).trans (State.cfg_of_bare clocks rfl), fun ran i small => ?_⟩
  rw [State.dom_congr i (State.power_of_bare wheels rfl), State.clocked_dom]
  rcases ran i small with h | h
  · exact if_pos ⟨small, h⟩
  · rw [h]
    exact ite_self 3

/-- A source has woken the device from Doze. -/
def State.wokenBy (source detail : Nat) (s : State) : State :=
  { s with power := { s.power with state := 0, wakeSource := source, wakeDetail := detail, wakes := s.power.wakes + 1 } }

theorem State.wake_of_doze (source detail : Nat) {s : State} (doze : s.power.state = 2) :
    s.wake source detail = (s.wokenBy source detail).releaseDomains := by
  unfold State.wake
  dsimp only
  rw [if_neg (by omega), if_pos doze]
  rfl

theorem State.wake_of_quiet (source detail : Nat) {s : State} (quiet : s.power.state < 2) : s.wake source detail = s := if_pos quiet

theorem State.wake_spec (source detail : Nat) {s : State} (doze : s.power.state = 2) :
    let t := s.wake source detail
    t.power.state = 0 ∧ t.power.wakeSource = source ∧ t.power.wakeDetail = detail ∧ t.power.wakes = s.power.wakes + 1 ∧
      t.dict.startCount = s.dict.startCount ∧ t.cfg = s.cfg ∧
      ((∀ i < 15, s.dom i = 1 ∨ s.dom i = 3) → ∀ i < 15, t.dom i = 3) := by
  intro t
  have woken := State.wake_record source detail s (Or.inl doze)
  obtain ⟨dict, cfg, runs⟩ := State.releaseDomains_spec (s.wokenBy source detail)
  rw [← State.wake_of_doze source detail doze] at dict cfg runs
  exact ⟨congrArg (fun r => r.1) woken, congrArg (fun r => r.2.1) woken, congrArg (fun r => r.2.2.1) woken,
    congrArg (fun r => r.2.2.2) woken, congrArg (fun d => d.startCount) dict, cfg, runs⟩

end Sys2Proof.Machine

open Sys2Proof Sys2Proof.Machine

/-- Settles O59: a request that is barred, the entry of each low power state (`State.enterLow_doze`, `State.enterLow_off`), and the
two sources of WAKE that need no port (`State.wake_spec`). -/
theorem lowPowerAndWake : Obligations.LowPowerAndWake := by
  intro s dt n who pin level u w en refused barred free low woken quiet
  have doze {r : Reply} {t : State} (admitted : Admitted who n 0x5820 u) (acts : w.lowRequest 2 = (r, t)) :
      exec (.dozeRequest dt who) s = .next (t.answer who r) := next_access_of_admitted admitted acts
  have listen {r : Reply} {t : State} (admitted : Admitted who n 0x5820 u) (acts : w.lowRequest 3 = (r, t)) :
      exec (.listenRequest dt who) s = .next (t.answer who r) := next_access_of_admitted admitted acts
  have deep {r : Reply} {t : State} (admitted : Admitted who n 0x5820 u) (acts : w.lowRequest 4 = (r, t)) :
      exec (.deepStandbyRequest dt who) s = .next (t.answer who r) := next_access_of_admitted admitted acts
  have pinned {t : State} (acts : u.wakeInput pin.val level = t) : exec (.wakeIn dt pin level) s = .next t :=
    congrArg Host.Outcome.next acts
  have timed {t : State} (acts : u.wakeTimer = t) : exec (.wakeTimer dt) s = .next t := congrArg Host.Outcome.next acts
  clear_value u
  have entered {k : Nat} {t : State} (at_ : w.Low k t) (ao : t.dom domAo = u.dom domAo) : low k (t.answer who (.done [])) :=
    ⟨rfl, at_.state, at_.core, at_.entered, at_.silent, at_.cfg, at_.alarm, at_.copies, at_.log, at_.drained, ao⟩
  refine ⟨fun admitted runs => ⟨fun bars => ?_, fun _ deaf => ?_, fun _ deaf => ?_, fun _ deaf => ?_, fun may hears => ?_,
    fun may hears => ?_, fun may hears => ?_⟩, fun not => pinned ?_, fun sleeps on mine meets => ?_, fun not => timed ?_,
    fun sleeps on counts late => ?_⟩
  · have busy : w.busy := bars
    exact ⟨doze admitted (State.lowRequest_of_barred (Or.inl busy)), listen admitted (State.lowRequest_of_barred (Or.inl busy)),
      deep admitted (State.lowRequest_of_barred (Or.inl busy))⟩
  · exact doze admitted (State.lowRequest_of_barred (Or.inr deaf))
  · exact listen admitted (State.lowRequest_of_barred (Or.inr deaf))
  · exact deep admitted (State.lowRequest_of_barred (Or.inr deaf))
  · have idle : w.idleRole := fun role => may (Or.inl role)
    obtain ⟨at_, ao, doms⟩ := State.enterLow_doze idle runs
    exact ⟨_, doze admitted (State.lowRequest_of_free may hears), entered at_ ao, fun i small => (State.dom_granted ..).trans (doms i small)⟩
  · have idle : w.idleRole := fun role => may (Or.inl role)
    obtain ⟨at_, ao, wake, gone⟩ := State.enterLow_off (n := 3) idle runs (by decide)
    exact ⟨_, listen admitted (State.lowRequest_of_free may hears), entered at_ ao, (State.dom_granted ..).trans wake,
      fun i small big => (State.dom_granted ..).trans (gone i small big)⟩
  · have idle : w.idleRole := fun role => may (Or.inl role)
    obtain ⟨at_, ao, wake, gone⟩ := State.enterLow_off (n := 4) idle runs (by decide)
    refine ⟨_, deep admitted (State.lowRequest_of_free may hears), entered at_ ao, fun i small big => (State.dom_granted ..).trans ?_⟩
    by_cases first : i = 1
    · rw [first]
      exact wake
    · exact gone i small (by omega)
  · unfold State.wakeInput
    split
    · next meets =>
      rcases not with h | h | h | h
      · exact State.wake_of_quiet 1 pin.val h
      · exact absurd (h.symm.trans meets.1) Bool.false_ne_true
      · exact absurd (h.symm.trans meets.2.1) Bool.false_ne_true
      · exact absurd meets.2.2 h
    · rfl
  · exact ⟨_, pinned (if_pos ⟨on, mine, meets⟩), sleeps, State.wake_spec 1 pin.val sleeps⟩
  · unfold State.wakeTimer
    dsimp only
    split
    · next due =>
      rcases not with h | h | h | h
      · exact State.wake_of_quiet 4 0xFF h
      · exact absurd (h.symm.trans due.1) Bool.false_ne_true
      · exact absurd h due.2.1
      · exact absurd due.2.2 (Nat.not_le.mpr h)
    · rfl
  · exact ⟨_, timed (if_pos ⟨on, counts, late⟩), sleeps, State.wake_spec 4 0xFF sleeps⟩
end

section
/-! PROOF. A start (R328, R333): what it leaves of the AO domain's record of it, of the log, the copies and the boot slot. -/

namespace Sys2Proof.Machine

open Sys2Proof

/-! ### The blocks as they begin -/

@[simp] theorem State.armAll_rest (s : State) : (State.armAll s).rest = s.rest := by
  simp [State.armAll]

@[simp] theorem State.modSrc_rest (p : Nat) (q : SrcRow → SrcRow) (s : State) : (State.modSrc p q s).rest = s.rest := by
  simp [State.modSrc]

@[simp] theorem State.restartSrc_rest (p : Cfg) (q : Nat) (s : State) : (State.restartSrc p q s).rest = s.rest := by
  simp [State.restartSrc]

@[simp] theorem State.modChan_rest (p : Nat) (q : Chan → Chan) (s : State) : (State.modChan p q s).rest = s.rest := by
  simp [State.modChan]

@[simp] theorem State.refChange_rest (p : Bool) (s : State) : (State.refChange p s).rest = s.rest := by
  simp [State.refChange]

@[simp] theorem State.putLoopCode_rest (p : Nat) (q : Nat) (s : State) : (State.putLoopCode p q s).rest = s.rest := by
  simp [State.putLoopCode]

@[simp] theorem State.notReady_rest (p : Nat) (s : State) : (State.notReady p s).rest = s.rest := by
  simp [State.notReady]

@[simp] theorem State.beginLoading_rest (s : State) : (State.beginLoading s).rest = s.rest := by
  simp [State.beginLoading]

@[simp] theorem State.modCasc_rest (p : Nat) (q : Cascade → Cascade) (s : State) : (State.modCasc p q s).rest = s.rest := by
  simp [State.modCasc]

@[simp] theorem State.modStg_rest (p : Nat) (q : Stage → Stage) (s : State) : (State.modStg p q s).rest = s.rest := by
  simp [State.modStg]

@[simp] theorem State.copyCasc_rest (p : Nat) (s : State) : (State.copyCasc p s).rest = s.rest := by
  simp [State.copyCasc]

@[simp] theorem State.holdCasc_rest (p : Nat) (q : Nat) (s : State) : (State.holdCasc p q s).rest = s.rest := by
  simp [State.holdCasc]

@[simp] theorem State.enterPreOp_rest (s : State) : (State.enterPreOp s).rest = s.rest := by
  simp [State.enterPreOp]

@[simp] theorem State.nmtInit_rest (s : State) : (State.nmtInit s).rest = s.rest := by
  have emptied : ∀ (c : CanOpen) (t : State), ({ t with canOpen := c } : State).rest = t.rest := fun _ _ => rfl
  unfold State.nmtInit
  dsimp only
  rw [State.enterPreOp_rest, State.supSend_rest, emptied, State.canDropped_rest, State.modCp_rest]

@[simp] theorem State.claim_rest (p : Nat) (q : Nat) (s : State) : (State.claim p q s).rest = s.rest := by
  simp [State.claim]

@[simp] theorem State.claimStart_rest (p : Nat) (q : Bool) (s : State) : (State.claimStart p q s).rest = s.rest := by
  simp [State.claimStart]

@[simp] theorem State.canStart_rest (p : Nat) (s : State) : (State.canStart p s).rest = s.rest := by
  simp [State.canStart]

@[simp] theorem State.journalEnable_rest (s : State) : (State.journalEnable s).rest = s.rest := by
  have set : ∀ n : Nat, (s.setJournal n).rest = s.rest := fun n => State.setJournal_rest n s
  unfold State.journalEnable
  split
  · exact set 0
  · split
    · exact set 1
    · rfl

@[simp] theorem State.enterAutobaud_rest (p : Nat) (s : State) : (State.enterAutobaud p s).rest = s.rest := by
  simp [State.enterAutobaud]

@[simp] theorem State.startPort_rest (p : Nat) (s : State) : (State.startPort p s).rest = s.rest := by
  simp [State.startPort]

@[simp] theorem State.canExit_rest (s : State) : (State.canExit s).rest = s.rest := by
  simp [State.canExit]

@[simp] theorem State.afeExit_rest (s : State) : (State.afeExit s).rest = s.rest := by
  simp [State.afeExit]

@[simp] theorem State.startCasc_rest (p : Nat) (s : State) : (State.startCasc p s).rest = s.rest := by
  simp [State.startCasc]

@[simp] theorem State.endCasc_rest (p : Nat) (s : State) : (State.endCasc p s).rest = s.rest := by
  simp [State.endCasc]

@[simp] theorem State.reseatStage_rest (p : Nat) (s : State) : (State.reseatStage p s).rest = s.rest := by
  simp [State.reseatStage]

@[simp] theorem State.setCascade_rest (p : Cfg) (q : Nat) (s : State) : (State.setCascade p s q).rest = s.rest := by
  simp [State.setCascade]
@[simp] theorem State.recordAo_rest (code a b : Nat) (s : State) : (s.recordAo code a b).rest = s.rest := (rfl)

@[simp] theorem State.modSlot_rest (n : Nat) (f : Slot15 → Slot15) (s : State) : (s.modSlot n f).rest = s.rest := by
  unfold State.modSlot
  split
  · rfl
  · split <;> rfl

@[simp] theorem State.rejectSlot_rest (n : Nat) (s : State) : (s.rejectSlot n).rest = s.rest := by
  simp [State.rejectSlot]

/-! ### What a start keeps -/

/-- The cause of the start, the boot slot, the copies and the log. -/
def Rest.seed (r : Rest) : Nat × Nat × Tbl Copy × List LogRec := (r.cause, r.bootSlot, r.copies, r.health.1)

@[simp] theorem State.runDomains_seed (on : Nat → Bool) (s : State) : (s.runDomains on).rest.seed = s.rest.seed := (rfl)

@[simp] theorem State.startWheels_rest (s : State) : s.startWheels.rest = s.rest := (rfl)

@[simp] theorem State.useFree_rest (s : State) : s.useFree.rest = s.rest := (rfl)

@[simp] theorem State.tryImages_seed (l : List Nat) (s : State) : (State.tryImages l s).rest.seed = s.rest.seed := by
  induction l generalizing s with
  | nil => rfl
  | cons n l ih =>
    unfold State.tryImages
    split
    · exact congrArg Rest.seed (State.modSlot_rest ..)
    · rw [ih, State.rejectSlot_rest]

@[simp] theorem State.pickImage_seed (s : State) : s.pickImage.rest.seed = s.rest.seed := by
  unfold State.pickImage
  rw [State.tryImages_seed, foldl_rest]
  intro s n
  split
  · exact State.rejectSlot_rest ..
  · rfl

@[simp] theorem State.judgeCopies_seed (s : State) : s.judgeCopies.rest.seed = s.rest.seed := by
  unfold State.judgeCopies
  split
  · rfl
  · split <;> rfl

@[simp] theorem State.decideMode_seed (s : State) : s.decideMode.rest.seed = s.rest.seed := by
  unfold State.decideMode
  repeat' split
  all_goals simp

@[simp] theorem State.releaseEvents_seed (s : State) : s.releaseEvents.rest.seed = s.rest.seed := by
  unfold State.releaseEvents
  dsimp only
  split
  · rfl
  · rw [State.event_rest]; rfl

@[simp] theorem State.withheld_seed (s : State) : s.withheld.rest.seed = s.rest.seed := by
  unfold State.withheld
  split
  · rw [State.event_rest]; rfl
  · rfl

/-! ### The domains without a function are switched off -/

/-- What a start has to keep is kept, and the unit has no active role. -/
structure State.Seeded (m t : State) : Prop where
  seed : t.rest.seed = m.rest.seed
  idle : t.idleRole

theorem State.idleRole_of_rest {s t : State} (same : t.rest = s.rest) (idle : s.idleRole) : t.idleRole := by
  have role : t.twin.role = s.twin.role := congrArg Rest.role same
  unfold State.idleRole
  rw [role]
  exact idle

theorem State.Seeded.of_rest {m s t : State} (kept : m.Seeded s) (same : t.rest = s.rest) : m.Seeded t where
  seed := (congrArg Rest.seed same).trans kept.seed
  idle := State.idleRole_of_rest same kept.idle

theorem State.Seeded.modDom {m s : State} (kept : m.Seeded s) (d : Nat) (f : Dom → Dom) : m.Seeded (s.modDom d f) where
  seed := kept.seed
  idle := kept.idle

theorem State.startClaim_rest (s : State) : s.startClaim.rest = s.rest := by
  unfold State.startClaim
  split <;> rfl

theorem State.driveArb_rest (low : Bool) (s : State) : (s.driveArb low).rest = s.rest := by
  unfold State.driveArb
  dsimp only
  split <;> rfl

/-- Of a state in role `k`, out of the active ones. -/
theorem State.Seeded.of_role {m t : State} (k : Nat) (seed : t.rest.seed = m.rest.seed) (role : t.rest.role = k)
    (idle : ¬ (3 ≤ k ∧ k ≤ 5) := by decide) : m.Seeded t := ⟨seed, fun h => idle (role ▸ h)⟩

/-- A unit that joins is single, joining or standby. -/
theorem State.join_seeded (s : State) : s.Seeded s.join := by
  unfold State.join
  extract_lets _ m t
  have kept : t.rest.seed = s.rest.seed := congrArg Rest.seed (State.driveArb_rest false m)
  clear_value t
  split
  · exact .of_role 0 kept rfl
  · split
    · exact .of_role 1 ((congrArg Rest.seed (State.startClaim_rest _)).trans kept)
        (congrArg Rest.role (State.startClaim_rest _))
    · exact .of_role 2 kept rfl

/-- The domains that R344 switches. -/
theorem State.Seeded.switchOff {m s : State} (kept : m.Seeded s) {d : Nat} (other : d ≠ 7) : m.Seeded (s.switchOff d) := by
  unfold State.switchOff
  split
  · exact kept
  · exact ((kept.of_rest (State.domainLoses_rest kept.idle other)).modDom d _).of_rest (State.markEnds_rest d _)

theorem State.domainRestores_rest {d : Nat} (among : d ∈ [14, 8, 9, 11, 12]) (s : State) : (s.domainRestores d).rest = s.rest := by
  simp only [List.mem_cons, List.not_mem_nil, or_false] at among
  rcases among with rfl | rfl | rfl | rfl | rfl
  · rfl
  · exact State.portEnabled_rest 0 s
  · exact State.portEnabled_rest 1 s
  · exact State.canExit_rest s
  · exact State.afeExit_rest s

theorem State.Seeded.switchOn {m s : State} (kept : m.Seeded s) {d : Nat} (among : d ∈ [14, 8, 9, 11, 12]) : m.Seeded (s.switchOn d) := by
  unfold State.switchOn
  split
  · exact kept
  · exact ((kept.modDom d _).of_rest (State.domainRestores_rest among _)).of_rest (State.regain_rest ..)

theorem State.Seeded.powerDomains {m s : State} (kept : m.Seeded s) : m.Seeded s.powerDomains := by
  unfold State.powerDomains
  refine List.foldlRecOn (motive := m.Seeded) _ _ (List.foldlRecOn (motive := m.Seeded) _ _ kept ?_) ?_
  · intro t kept d among
    split
    · exact kept.switchOff (by rintro rfl; exact absurd among (by decide))
    · exact kept
  · intro t kept d among
    split
    · exact kept
    · exact kept.switchOn among

/-! ### The start -/

theorem State.beginBlocks_seed (s : State) : s.beginBlocks.rest.seed = s.rest.seed := by
  unfold State.beginBlocks
  refine (State.join_seeded _).powerDomains.seed.trans ?_
  simp

/-- SUP firmware starts, counted. -/
theorem State.supStarted_seed (time : Nat) (s : State) :
    ({ s with boot.startTime := time, boot.supRunning := true, boot.startedAt := s.now, boot.confirmFrom := s.now
              dict.startCount := s.dict.startCount + 1 } : State).rest.seed = s.rest.seed := (rfl)

theorem State.start_seed (s : State) : s.start.rest.seed = s.rest.seed := by
  unfold State.start
  extract_lets _ a b c _ _ d e
  have emptied : a.rest.seed = s.rest.seed := by
    unfold a
    split <;> rfl
  have picked : b.rest.seed = s.rest.seed := by
    rw [State.pickImage_seed, State.startWheels_rest, State.runDomains_seed, emptied]
  split
  · rw [State.canStart_rest, State.decideMode_seed, State.runDomains_seed, picked]
  · have sealed : c.rest.seed = s.rest.seed := by
      rw [State.useFree_rest, State.startWheels_rest, State.judgeCopies_seed, picked]
    have ready : e.rest.seed = s.rest.seed := by
      rw [State.withheld_seed, State.releaseEvents_seed, State.decideMode_seed]
      exact (State.supStarted_seed _ c).trans sealed
    split
    · rw [State.beginBlocks_seed, ready]
    · exact ready

/-- A start from whatever the device was doing keeps log, copies and boot slot, and its cause is recorded. -/
theorem State.startWith_seed (cause : Nat) (s : State) :
    (s.startWith cause).rest.seed = (cause, s.boot.bootSlot, s.boot.copies, s.health.log) := by
  unfold State.startWith
  dsimp only
  rw [State.start_seed]
  unfold State.blank
  dsimp only
  have held := State.driveArb_rest false s
  have log : (s.driveArb false).health.log = s.health.log := congrArg (fun r : Rest => r.health.1) held
  have boot : (s.driveArb false).boot.bootSlot = s.boot.bootSlot := congrArg Rest.bootSlot held
  have copies : (s.driveArb false).boot.copies = s.boot.copies := congrArg Rest.copies held
  generalize s.driveArb false = t at *
  rw [← log, ← boot, ← copies]
  rfl

end Sys2Proof.Machine
end

section
/-! PROOF. What the commands of an image update do to its slots, and COPY_REWRITE to the copies (R333 to R336, R339). -/

namespace Sys2Proof.Machine

open Sys2Proof

/-! ### One slot changes -/

theorem State.slot_lt_of_state {s : State} {n k : Nat} (used : (s.slot15 n).state = k + 1) : n < 2 := by
  match n with
  | 0 | 1 => decide
  | _ + 2 => exact absurd used (Nat.succ_ne_zero k).symm

/-- A change of slot `n` reads back from it, and leaves the other slot and the rest of the device alone. -/
theorem State.modSlot_spec {n : Nat} (f : Slot15 → Slot15) (s : State) (lt : n < 2) : ∃ a b : Slot15,
    s.modSlot n f = { s with boot := { s.boot with slotA := a, slotB := b } } ∧
      ∀ t : State, t.boot.slotA = a → t.boot.slotB = b → t.slot15 n = f (s.slot15 n) ∧ ∀ k, k ≠ n → t.slot15 k = s.slot15 k := by
  have first (t : State) (k : Nat) : t.slot15 k = if k = 0 then t.boot.slotA else if k = 1 then t.boot.slotB else {} := by
    match k with
    | 0 | 1 | _ + 2 => rfl
  match n with
  | 0 =>
    refine ⟨f s.boot.slotA, s.boot.slotB, rfl, fun t atA atB => ⟨atA, fun k other => ?_⟩⟩
    rw [first, first, if_neg other, if_neg other, atB]
  | 1 =>
    refine ⟨s.boot.slotA, f s.boot.slotB, rfl, fun t atA atB => ⟨atB, fun k other => ?_⟩⟩
    rw [first, first, if_neg other, if_neg other, atA]

theorem State.modSlot_running (n : Nat) (f : Slot15 → Slot15) (s : State) : (s.modSlot n f).boot.running = s.boot.running := by
  unfold State.modSlot
  split
  · rfl
  · split <;> rfl

theorem State.boot_modSlot_congr {s t : State} (same : t.boot = s.boot) (n : Nat) (f : Slot15 → Slot15) :
    (t.modSlot n f).boot = (s.modSlot n f).boot := by
  unfold State.modSlot
  split
  · change ({ t.boot with slotA := _ } : Boot) = _
    rw [same]
  · split
    · change ({ t.boot with slotB := _ } : Boot) = _
      rw [same]
    · exact same

theorem State.runningIn_iff (s : State) (k : Nat) : s.runningIn k = true ↔ (s.slot15 s.boot.running).state = k := beq_iff_eq

theorem State.updateOpen_iff (s : State) : s.updateOpen = true ↔ (s.slot15 s.boot.target).state = 1 := beq_iff_eq

/-! ### The commands -/

section

variable {w : State}

/-- The slot that does not run. -/
def State.otherSlot (s : State) : Nat := if s.boot.running = 0 then 1 else 0

theorem State.otherSlot_lt (s : State) : s.otherSlot < 2 := by
  unfold State.otherSlot
  split <;> decide

theorem State.imageOpen_of_barred (n : Nat) (bars : w.updateOpen = true ∨ (w.slot15 w.boot.running).state = 3) :
    w.imageOpen n = refuse abState w := if_pos (bars.imp_right (State.runningIn_iff w 3).mpr)

theorem State.imageOpen_of_free (n : Nat) (shut : w.updateOpen = false) (settled : (w.slot15 w.boot.running).state ≠ 3) :
    w.imageOpen n = granted { w.modSlot w.otherSlot (fun _ => { state := 1 }) with
      boot := { (w.modSlot w.otherSlot (fun _ => { state := 1 })).boot with target := w.otherSlot, owner := some n, status := 0x01 }
      dict := { (w.modSlot w.otherSlot (fun _ => { state := 1 })).dict with
        imm := Cfg.del ⟨0x5F11, 2, 0⟩ (w.modSlot w.otherSlot (fun _ => { state := 1 })).dict.imm } } :=
  if_neg (not_or.mpr ⟨Bool.eq_false_iff.mp shut, fun trial => settled ((State.runningIn_iff w 3).mp trial)⟩)

theorem State.imageData_of_shut {n : Nat} (b : List Byte) (bars : w.mayFill n = false) : w.imageData n b = refuse abState w := if_pos bars

theorem State.imageData_of_full {n : Nat} {b : List Byte} (may : w.mayFill n = true) (full : slotSize < w.imageOffset + b.length) :
    w.imageData n b = refuse abHigh w :=
  (if_neg (ne_false_of_eq_true may)).trans (if_pos full)

/-- The bytes of a segment in the target. -/
def State.filled (b : List Byte) (w : State) : State :=
  w.modSlot w.boot.target (fun x => { x with data := storeBytes w.imageOffset b x.data })

theorem State.imageData_of_room {n : Nat} {b : List Byte} (may : w.mayFill n = true) (fits : w.imageOffset + b.length ≤ slotSize) :
    w.imageData n b = granted { w.filled b with dict := { (w.filled b).dict with
      imm := Cfg.set (w.filled b).uid ⟨0x5F11, 2, 0⟩ (.num (w.imageOffset + b.length : Nat)) (w.filled b).dict.imm } } :=
  (if_neg (ne_false_of_eq_true may)).trans (if_neg (Nat.not_lt.mpr fits))

theorem State.mayFill_target {n : Nat} (may : w.mayFill n = true) : w.boot.target < 2 := by
  unfold State.mayFill at may
  simp only [Bool.and_eq_true] at may
  exact State.slot_lt_of_state ((State.updateOpen_iff w).mp may.1.2)

theorem State.imageVerify_of_barred (bars : w.updateOpen = false ∨ w.boot.status = 2) : w.imageVerify = refuse abState w := by
  refine if_neg (fun h => ?_)
  rcases bars with shut | verifying
  · exact Bool.eq_false_iff.mp shut h.1
  · exact h.2 verifying

theorem State.imageActivate_of_barred (bars : (w.slot15 w.boot.target).state ≠ 2 ∨ w.cycle.state = 5 ∨ w.mustHandOver = true) :
    w.imageActivate = refuse abState w := if_pos bars

/-- The verified target is a trial not yet started. -/
def State.tried (w : State) : State := w.modSlot w.boot.target (fun x => { x with state := 3, trialMade := false })

theorem State.imageActivate_of_free (sound : (w.slot15 w.boot.target).state = 2) (uncommitted : w.cycle.state ≠ 5)
    (may : w.mustHandOver = false) :
    w.imageActivate = granted { w.tried with boot := { w.tried.boot with activateAt := some (w.tried.now + 10 * cyclesPerMs) } } :=
  if_neg (fun h => h.elim (fun o => o sound) (fun o => o.elim uncommitted (Bool.eq_false_iff.mp may)))

theorem State.confirmImage_eq (w : State) : w.confirmImage =
    { w.modSlot w.boot.running (fun z => { z with state := 4 }) with
      boot := { (w.modSlot w.boot.running (fun z => { z with state := 4 })).boot with bootSlot := w.boot.running } } := by
  have same := State.modSlot_running w.boot.running (fun z => { z with state := 4 }) w
  unfold State.confirmImage
  dsimp only
  rw [same]

theorem State.imageConfirm_of_trial (trial : (w.slot15 w.boot.running).state = 3) : w.imageConfirm = granted w.confirmImage :=
  if_pos ((State.runningIn_iff w 3).mpr trial)

theorem State.imageConfirm_of_other (other : (w.slot15 w.boot.running).state ≠ 3) : w.imageConfirm = refuse abState w :=
  if_neg (fun h => other ((State.runningIn_iff w 3).mp h))

theorem State.raiseFloor_of_barred (bars : (w.slot15 w.boot.running).state ≠ 4 ∨ (w.slot15 w.boot.running).facts = none) :
    w.raiseFloor = refuse abState w := by
  unfold State.raiseFloor
  split
  · next f found =>
    exact if_neg (fun h => bars.elim (fun o => o ((State.runningIn_iff w 4).mp h)) (fun none => nomatch found.symm.trans none))
  · rfl

theorem State.raiseFloor_of_confirmed {f : ImageFacts} (runs : (w.slot15 w.boot.running).state = 4)
    (found : (w.slot15 w.boot.running).facts = some f) :
    w.raiseFloor = granted { w with boot := { w.boot with floor := Nat.max w.boot.floor (Nat.min f.security 64) } } := by
  unfold State.raiseFloor
  rw [found]
  exact if_pos ((State.runningIn_iff w 4).mpr runs)

/-- The customer key hash that has been written. -/
def State.keyText (w : State) : Nat := (Cfg.text w.uid w.dict.imm 0x5F21 4 0).foldl (fun (x : Nat) y => 256 * x + y.toNat) 0

theorem State.burnHash_of_other {v : Nat} (other : v ≠ 0x4A) : w.burnHash v = refuse (spanRefusal [(0x4A, 0x4A)] v) w := if_pos other

theorem State.burnHash_of_barred (bars : w.boot.mode ≠ 0 ∨ w.boot.customerHash ≠ 0 ∨ w.customerSigned w.keyText 0 = false ∨
    w.customerSigned w.keyText 1 = false) : w.burnHash 0x4A = refuse abState w := by
  unfold State.burnHash
  refine (if_neg (not_not.mpr (Eq.refl 0x4A))).trans (if_neg fun h => ?_)
  obtain ⟨mode, unburned, -, signed, also⟩ := h
  rcases bars with o | o | o | o
  · exact o mode
  · exact o unburned
  · exact Bool.eq_false_iff.mp o signed
  · exact Bool.eq_false_iff.mp o also

theorem State.burnHash_of_free (mode : w.boot.mode = 0) (unburned : w.boot.customerHash = 0) (there : w.keyText ≠ 0)
    (signed : w.customerSigned w.keyText 0 = true) (also : w.customerSigned w.keyText 1 = true) :
    w.burnHash 0x4A = granted { w with boot := { w.boot with customerHash := w.keyText } } := by
  unfold State.burnHash
  exact (if_neg (not_not.mpr (Eq.refl 0x4A))).trans (if_pos ⟨mode, unburned, there, signed, also⟩)

/-! ### What comes of itself -/

theorem State.verifyComplete_of_shut (f : ImageFacts) (shut : w.boot.status ≠ 2 ∨ w.updateOpen = false) : w.verifyComplete f = w := if_pos shut

theorem State.verifyComplete_of_open (f : ImageFacts) (verifying : w.boot.status = 2) (opened : w.updateOpen = true) :
    let g := (w.slot15 w.boot.target).judged f
    let t := w.modSlot w.boot.target (fun x => { x with state := if judgeImage w.boot g = 0x03 then 2 else 5, facts := some g })
    w.verifyComplete f = { t with boot := { t.boot with status := judgeImage w.boot g } } :=
  if_neg (not_or.mpr ⟨not_not.mpr verifying, ne_false_of_eq_true opened⟩)

theorem State.confirmDue_of_early (early : w.cn 0x5F11 6 0 = 0 ∨ (w.slot15 w.boot.running).state ≠ 3 ∨ 2 ≤ w.boot.mode ∨
    w.now < w.boot.confirmFrom + w.cn 0x5F11 6 0 * cyclesPerSec) : w.confirmDue = w := by
  refine if_neg (fun h => ?_)
  obtain ⟨timed, trial, mode, late⟩ := h
  rcases early with o | o | o | o
  · exact timed o
  · exact o ((State.runningIn_iff w 3).mp trial)
  · omega
  · omega

theorem State.confirmDue_of_late (timed : w.cn 0x5F11 6 0 ≠ 0) (trial : (w.slot15 w.boot.running).state = 3) (mode : w.boot.mode ≤ 1)
    (late : w.boot.confirmFrom + w.cn 0x5F11 6 0 * cyclesPerSec ≤ w.now) : w.confirmDue = w.confirmImage :=
  if_pos ⟨timed, (State.runningIn_iff w 3).mpr trial, mode, late⟩

/-! ### Copies -/

theorem State.copyRewrite_of_rest (rests : w.boot.copyInForce = none ∨
    w.boot.rewriting = none ∧ (w.boot.mode = 3 ∨ w.cycle.state ≠ 0 ∨ w.cycle.writing.isSome = true)) : w.copyRewrite = w := by
  unfold State.copyRewrite
  split
  · rfl
  · next f n force rewriting =>
    rcases rests with none | ⟨none, -⟩
    · exact nomatch force.symm.trans none
    · exact nomatch rewriting.symm.trans none
  · next f force _ =>
    rcases rests with none | ⟨-, busy⟩
    · exact nomatch force.symm.trans none
    · refine if_pos ?_
      rcases busy with h | h | h
      · exact Or.inl h
      · exact Or.inr (Or.inl h)
      · exact Or.inr (Or.inr (Or.inl h))

/-- Of the copies 1 and 2 the first that is unsealed is rewritten from copy 0. -/
theorem State.staleCopy_zero {c : Nat} (among : c = 1 ∨ c = 2) (unsealed : (w.copy c).sealed = false)
    (first : c = 2 → (w.copy 1).sealed = true ∧ (w.copy 0).generation ≤ (w.copy 1).generation) : w.staleCopy 0 = some c := by
  unfold State.staleCopy
  rw [show List.range 3 = [0, 1, 2] from rfl, List.find?_cons_of_neg (by simp)]
  rcases among with rfl | rfl
  · exact List.find?_cons_of_pos (by simp [unsealed])
  · obtain ⟨sealed, fresh⟩ := first rfl
    rw [List.find?_cons_of_neg (by simp [sealed, fresh])]
    exact List.find?_cons_of_pos (by simp [unsealed])

theorem State.copyRewrite_begins {c : Nat} (force : w.boot.copyInForce = some 0) (idle : w.boot.rewriting = none) (mode : w.boot.mode ≠ 3)
    (uncommitted : w.cycle.state = 0) (unwritten : w.cycle.writing = none) (sealed : (w.copy 0).sealed = true)
    (stale : w.staleCopy 0 = some c) :
    w.copyRewrite = { w.modCopy c (fun _ => { w.copy 0 with sealed := false }) with
      boot := { (w.modCopy c (fun _ => { w.copy 0 with sealed := false })).boot with rewriting := some c } } := by
  unfold State.copyRewrite
  rw [force, idle]
  dsimp only
  rw [stale]
  refine if_neg (fun h => ?_)
  rw [uncommitted, unwritten, sealed] at h
  rcases h with h | h | h | h
  · exact mode h
  · exact h rfl
  · exact absurd h (by decide)
  · exact absurd h (by decide)

theorem State.copyRewrite_ends {c : Nat} (force : w.boot.copyInForce = some 0) (rewriting : w.boot.rewriting = some c) :
    w.copyRewrite = ({ w.modCopy c (fun _ => w.copy 0) with
      boot := { (w.modCopy c (fun _ => w.copy 0)).boot with rewriting := none } } : State).event 0xB103 c (w.copy 0).generation := by
  unfold State.copyRewrite
  rw [force, rewriting]

end

end Sys2Proof.Machine
end

section
/-! PROOF. O57: the image update, the fuses, and the rewriting of copies (R332 to R336, R339). -/

namespace Sys2Proof.Machine

open Sys2Proof

/-- A state that differs from another in the start-up block, the dictionary and the statistics. -/
def State.UpdatesFrom (u t : State) : Prop := t = { u with boot := t.boot, dict := t.dict, stats := t.stats }

section

variable {u w : State} (who : ClientId)

theorem State.imageOpen_spec (n : Nat) (started : u.UpdatesFrom w) (boot : w.boot = u.boot) (shut : u.updateOpen = false)
    (settled : (u.slot15 u.boot.running).state ≠ 3) : ∃ x, w.imageOpen n = granted x ∧ x.slot15 u.otherSlot = { state := 1 } ∧
      x.slot15 (1 - u.otherSlot) = u.slot15 (1 - u.otherSlot) ∧ x.boot.target = u.otherSlot ∧ x.boot.owner = some n ∧
      x.boot.status = 1 ∧ u.UpdatesFrom x := by
  unfold State.UpdatesFrom at started
  rw [started, boot]
  obtain ⟨a, b, eq, slots⟩ := State.modSlot_spec (fun _ => { state := 1 })
    { u with boot := u.boot, dict := w.dict, stats := w.stats } u.otherSlot_lt
  have free := State.imageOpen_of_free (w := { u with boot := u.boot, dict := w.dict, stats := w.stats }) n shut settled
  have same : State.otherSlot { u with boot := u.boot, dict := w.dict, stats := w.stats } = u.otherSlot := rfl
  rw [same, eq] at free
  have other : 1 - u.otherSlot ≠ u.otherSlot := by
    have := u.otherSlot_lt
    omega
  exact ⟨_, free, (slots _ rfl rfl).1, (slots _ rfl rfl).2 _ other, rfl, rfl, rfl, rfl⟩

theorem State.imageData_spec {n : Nat} {b : List Byte} (started : u.UpdatesFrom w) (boot : w.boot = u.boot) (imm : w.dict.imm = u.dict.imm)
    (may : u.mayFill n = true) (fits : u.imageOffset + b.length ≤ slotSize) : ∃ x, w.imageData n b = granted x ∧
      x.dict.imm = Cfg.set u.uid ⟨0x5F11, 2, 0⟩ (.num (u.imageOffset + b.length : Nat)) u.dict.imm ∧
      x.boot = (u.modSlot u.boot.target (fun z => { z with data := storeBytes u.imageOffset b z.data })).boot ∧ u.UpdatesFrom x := by
  unfold State.UpdatesFrom at started
  have uid : w.uid = u.uid := by
    rw [started, boot]
    rfl
  have offset : w.imageOffset = u.imageOffset := by
    unfold State.imageOffset
    rw [uid, imm]
  have mine : w.mayFill n = true := by
    unfold State.mayFill State.updateOpen State.slot15 at may ⊢
    rw [boot]
    exact may
  have filled := State.imageData_of_room mine (by rw [offset]; exact fits)
  have same : (w.filled b).boot = (u.modSlot u.boot.target (fun z => { z with data := storeBytes u.imageOffset b z.data })).boot := by
    unfold State.filled
    rw [offset, boot]
    exact State.boot_modSlot_congr boot _ _
  obtain ⟨x, y, eq, -⟩ := State.modSlot_spec (fun z => { z with data := storeBytes w.imageOffset b z.data }) w (State.mayFill_target mine)
  have eq : w.filled b = { w with boot := { w.boot with slotA := x, slotB := y } } := eq
  refine ⟨_, filled, ?_, same, ?_⟩
  · rw [eq, offset, ← uid, ← imm]
    rfl
  · unfold State.UpdatesFrom
    rw [eq, started]

theorem State.imageActivate_spec (started : u.UpdatesFrom w) (boot : w.boot = u.boot) (sound : (u.slot15 u.boot.target).state = 2)
    (uncommitted : u.cycle.state ≠ 5) (may : u.mustHandOver = false) : ∃ x, w.imageActivate = granted x ∧
      x.boot.activateAt = some (u.now + 10 * cyclesPerMs) ∧ (x.slot15 u.boot.target).state = 3 ∧
      (x.slot15 u.boot.target).trialMade = false ∧ u.UpdatesFrom x := by
  unfold State.UpdatesFrom at started
  rw [started, boot]
  obtain ⟨a, b, eq, slots⟩ := State.modSlot_spec (fun z => { z with state := 3, trialMade := false })
    { u with boot := u.boot, dict := w.dict, stats := w.stats } (State.slot_lt_of_state sound)
  have free := State.imageActivate_of_free (w := { u with boot := u.boot, dict := w.dict, stats := w.stats }) sound uncommitted may
  have eq : State.tried { u with boot := u.boot, dict := w.dict, stats := w.stats } = _ := eq
  rw [eq] at free
  have there := fun t atA atB => (slots t atA atB).1
  exact ⟨_, free, rfl, congrArg Slot15.state (there _ rfl rfl), congrArg Slot15.trialMade (there _ rfl rfl), rfl⟩

theorem State.imagePrevious_spec (boot : w.boot = u.boot) (log : w.health.log = u.health.log) (sound : (u.slot15 u.otherSlot).state = 4) :
    ∃ x, w.imagePrevious = granted x ∧ x.boot.cause = 3 ∧ x.boot.bootSlot = u.otherSlot ∧ x.health.log = u.health.log ∧
      x.boot.copies = u.boot.copies := by
  have other : w.otherSlot = u.otherSlot := by
    unfold State.otherSlot
    rw [boot]
  have free : w.imagePrevious = granted (({ w with boot := { w.boot with bootSlot := w.otherSlot } } : State).startWith 3) := by
    refine if_pos ?_
    change (w.slot15 w.otherSlot).state = 4
    unfold State.slot15 at sound ⊢
    rw [other, boot]
    exact sound
  have seed := State.startWith_seed 3 { w with boot := { w.boot with bootSlot := w.otherSlot } }
  refine ⟨_, free, ?_⟩
  generalize State.startWith 3 { w with boot := { w.boot with bootSlot := w.otherSlot } } = x at seed ⊢
  obtain ⟨cause, slot, copies, kept⟩ : x.boot.cause = 3 ∧ x.boot.bootSlot = w.otherSlot ∧ x.boot.copies = w.boot.copies ∧
      x.health.log = w.health.log := by
    unfold Rest.seed at seed
    simp only [Prod.mk.injEq] at seed
    exact seed
  exact ⟨cause, slot.trans other, kept.trans log, copies.trans (congrArg Boot.copies boot)⟩

theorem State.verifyComplete_spec (f : ImageFacts) (verifying : u.boot.status = 2) (opened : u.updateOpen = true) :
    let g := (u.slot15 u.boot.target).judged f
    (u.verifyComplete f).boot.status = judgeImage u.boot g ∧
      ((u.verifyComplete f).slot15 u.boot.target).state = (if judgeImage u.boot g = 3 then 2 else 5) ∧
      ((u.verifyComplete f).slot15 u.boot.target).facts = some g ∧
      u.verifyComplete f = { u with boot := (u.verifyComplete f).boot } := by
  intro g
  rw [State.verifyComplete_of_open f verifying opened]
  obtain ⟨a, b, eq, slots⟩ := State.modSlot_spec (fun x => { x with state := if judgeImage u.boot g = 0x03 then 2 else 5, facts := some g }) u
    (State.slot_lt_of_state ((State.updateOpen_iff u).mp opened))
  dsimp only
  have eq : u.modSlot u.boot.target (fun x => { x with
      state := if judgeImage u.boot ((u.slot15 u.boot.target).judged f) = 0x03 then 2 else 5
      facts := some ((u.slot15 u.boot.target).judged f) }) = _ := eq
  rw [eq]
  have there := fun t atA atB => (slots t atA atB).1
  exact ⟨rfl, congrArg Slot15.state (there _ rfl rfl), congrArg Slot15.facts (there _ rfl rfl), rfl⟩

theorem State.copyRewrite_ended {c : Nat} (up : u.up domSup = true) (force : u.boot.copyInForce = some 0) (rewriting : u.boot.rewriting = some c) :
    u.copyRewrite.boot.rewriting = none ∧ u.copyRewrite.copy c = u.copy 0 ∧ (∀ j, j ≠ c → u.copyRewrite.copy j = u.copy j) ∧
      (∃ e ∈ u.copyRewrite.health.waiting, e.code = 0xB103 ∧ e.a = c) ∧
      u.copyRewrite = { u with boot := u.copyRewrite.boot, health := u.copyRewrite.health } := by
  rw [State.copyRewrite_ends force rewriting]
  have copies (j : Nat) : (u.modCopy c (fun _ => u.copy 0)).copy j = if j = c then u.copy 0 else u.copy j := State.copy_modCopy ..
  have rest : ({ u.modCopy c (fun _ => u.copy 0) with
      boot := { (u.modCopy c (fun _ => u.copy 0)).boot with rewriting := none } } : State) =
      { u with boot := { (u.modCopy c (fun _ => u.copy 0)).boot with rewriting := none } } := rfl
  have kept (x : State) (j k : Nat) : (x.event 0xB103 c k).copy j = x.copy j := by
    rw [State.event_eq]
    rfl
  obtain ⟨e, mem, code, a, -⟩ := State.event_mem
    (s := { u with boot := { (u.modCopy c (fun _ => u.copy 0)).boot with rewriting := none } }) up 0xB103 c (u.copy 0).generation
  refine ⟨?_, (kept ..).trans ((copies c).trans (if_pos rfl)), fun j other => (kept ..).trans ((copies j).trans (if_neg other)),
    ⟨e, mem, code, a⟩, ?_⟩
  · rw [State.event_eq]
  · rw [rest, State.event_eq]

theorem State.copyRewrite_begun {c : Nat} (force : u.boot.copyInForce = some 0) (idle : u.boot.rewriting = none) (mode : u.boot.mode ≠ 3)
    (uncommitted : u.cycle.state = 0) (unwritten : u.cycle.writing = none) (sealed : (u.copy 0).sealed = true)
    (stale : u.staleCopy 0 = some c) :
    u.copyRewrite.boot.rewriting = some c ∧ (u.copyRewrite.copy c).sealed = false ∧ (∀ j, j ≠ c → u.copyRewrite.copy j = u.copy j) ∧
      u.copyRewrite = { u with boot := u.copyRewrite.boot } := by
  rw [State.copyRewrite_begins force idle mode uncommitted unwritten sealed stale]
  have copies (j : Nat) : (u.modCopy c (fun _ => { u.copy 0 with sealed := false })).copy j =
      if j = c then { u.copy 0 with sealed := false } else u.copy j := State.copy_modCopy ..
  exact ⟨rfl, congrArg Copy.sealed ((copies c).trans (if_pos rfl)), fun j other => (copies j).trans (if_neg other), rfl⟩

end

end Sys2Proof.Machine

open Sys2Proof Sys2Proof.Machine

/-- Settles O57: each command by what its operation does where its condition is met and where it is not. -/
theorem imageUpdate : Obligations.ImageUpdate := by
  intro s dt n c who v data f u w b refused other run confirmed
  have opens : exec (.imageOpen dt who) s = .next (u.access who 0x5F11 State.imageOpen) := rfl
  have writes : exec (.imageDataWrite dt who data) s = .next (u.access who 0x5F11 (fun n s =>
    if pathLimit who < data.length then refuse abTooLong s else s.imageData n data)) := rfl
  have verifies : exec (.imageVerify dt who) s = .next (u.access who 0x5F11 (fun _ s => s.imageVerify)) := rfl
  have activates : exec (.imageActivate dt who) s = .next (u.access who 0x5F11 (fun _ s => s.imageActivate)) := rfl
  have confirms : exec (.imageConfirm dt who) s = .next (u.access who 0x5F11 (fun _ s => s.imageConfirm)) := rfl
  have reverts : exec (.imagePrevious dt who) s = .next (u.access who 0x5F11 (fun _ s => s.imagePrevious)) := rfl
  have raises : exec (.raiseFloor dt who) s = .next (u.access who 0x5F11 (fun _ s => s.raiseFloor)) := rfl
  have burns : ∀ v, exec (.burnCustomerHash dt who v) s = .next (u.access who 0x5F21 (fun _ s => s.burnHash v.toNat)) := fun _ => rfl
  have judges : exec (.verifyComplete dt f) s = .next (if u.serves then u.verifyComplete f else u) := rfl
  have expires : exec (.confirmTimeExpiry dt) s = .next (u.whenUp domSup State.confirmDue) := rfl
  have clears : exec (.startFailuresClear dt) s = .next (u.whenUp domSup State.clearFailures) := rfl
  have rewrites : exec (.copyRewrite dt) s = .next (u.whenUp domSup State.copyRewrite) := rfl
  clear_value u
  have started : u.UpdatesFrom w := rfl
  refine ⟨fun admitted => ⟨fun bars => ?_, fun shut settled => ?_, fun fits bars => ?_, fun fits may full => ?_, fun fits may room => ?_,
      fun bars => ?_, fun opened idle => ?_, fun bars => ?_, fun sound uncommitted may => ?_, fun bars => ?_, fun trial => ?_, fun bars => ?_,
      fun sound => ?_, fun bars => ?_, fun runs found => ?_⟩,
    fun admitted => ?_, fun bars => ?_, fun serves verifying opened => ?_, fun works => ?_⟩
  · exact opens.trans (next_access_of_admitted admitted (State.imageOpen_of_barred n bars))
  · obtain ⟨x, eq, opened, spared, target, owner, status, rest⟩ := State.imageOpen_spec n started rfl shut settled
    exact ⟨_, opens.trans (next_access_of_admitted admitted eq), rfl, opened, spared, target, owner, status,
      congrArg (fun y : State => { y with dict := { y.dict with reply := some (who, .done []) } }) rest⟩
  · exact writes.trans (next_access_of_admitted admitted ((if_neg (Nat.not_lt.mpr fits)).trans (State.imageData_of_shut data bars)))
  · exact writes.trans (next_access_of_admitted admitted ((if_neg (Nat.not_lt.mpr fits)).trans (State.imageData_of_full may full)))
  · obtain ⟨x, eq, imm, boot, rest⟩ := State.imageData_spec started rfl rfl may room
    exact ⟨_, writes.trans (next_access_of_admitted admitted ((if_neg (Nat.not_lt.mpr fits)).trans eq)), rfl, imm, boot,
      congrArg (fun y : State => { y with dict := { y.dict with reply := some (who, .done []) } }) rest⟩
  · exact verifies.trans (next_access_of_admitted admitted (State.imageVerify_of_barred bars))
  · exact verifies.trans (next_access_of_admitted admitted (if_pos ⟨opened, idle⟩))
  · exact activates.trans (next_access_of_admitted admitted (State.imageActivate_of_barred bars))
  · obtain ⟨x, eq, due, state, made, rest⟩ := State.imageActivate_spec started rfl sound uncommitted may
    exact ⟨_, activates.trans (next_access_of_admitted admitted eq), rfl, due, state, made,
      congrArg (fun y : State => { y with dict := { y.dict with reply := some (who, .done []) } }) rest⟩
  · exact confirms.trans (next_access_of_admitted admitted (State.imageConfirm_of_other bars))
  · exact confirms.trans (next_access_of_admitted admitted
      ((State.imageConfirm_of_trial (w := w) trial).trans (congrArg granted (State.confirmImage_eq w))))
  · exact reverts.trans (next_access_of_admitted admitted (if_neg bars))
  · obtain ⟨x, eq, cause, slot, log, copies⟩ := State.imagePrevious_spec (u := u) (w := w) rfl rfl sound
    exact ⟨_, reverts.trans (next_access_of_admitted admitted eq), rfl, cause, slot, log, copies⟩
  · exact raises.trans (next_access_of_admitted admitted (State.raiseFloor_of_barred bars))
  · exact raises.trans (next_access_of_admitted admitted (State.raiseFloor_of_confirmed runs found))
  · intro hash
    refine ⟨fun wrong => ?_, fun bars => ?_, fun mode unburned there signed also => ?_⟩
    · have other : v.toNat ≠ 0x4A := fun same => wrong (BitVec.eq_of_toNat_eq same)
      exact ⟨_, (burns v).trans (next_access_of_admitted admitted (State.burnHash_of_other other))⟩
    · exact (burns 0x4A).trans (next_access_of_admitted admitted (State.burnHash_of_barred (w := w) bars))
    · exact (burns 0x4A).trans (next_access_of_admitted admitted (State.burnHash_of_free (w := w) mode unburned there signed also))
  · refine judges.trans (congrArg Host.Outcome.next ?_)
    split
    · next serves =>
      exact State.verifyComplete_of_shut f (bars.resolve_left (ne_false_of_eq_true serves))
    · rfl
  · exact ⟨_, judges.trans (congrArg Host.Outcome.next (if_pos serves)), State.verifyComplete_spec f verifying opened⟩
  · intro m
    refine ⟨fun early => ?_, fun timed trial mode late => ?_, fun early => ?_, fun late => ?_, fun rests => ?_,
      fun force idle mode uncommitted unwritten sealed among unsealed first => ?_, fun force rewriting => ?_⟩
    · exact expires.trans (next_whenUp_eq works (State.confirmDue_of_early early))
    · exact expires.trans (next_whenUp_eq works ((State.confirmDue_of_late timed trial mode late).trans (State.confirmImage_eq u)))
    · exact clears.trans (next_whenUp_eq works (if_neg (Nat.not_le.mpr early)))
    · exact clears.trans (next_whenUp_eq works (if_pos late))
    · exact rewrites.trans (next_whenUp_eq works (State.copyRewrite_of_rest rests))
    · exact ⟨_, rewrites.trans (next_whenUp_eq works rfl),
        State.copyRewrite_begun force idle mode uncommitted unwritten sealed (State.staleCopy_zero among unsealed first)⟩
    · have up : u.up domSup = true := (Bool.and_eq_true_iff.mp works).1
      exact ⟨_, rewrites.trans (next_whenUp_eq works rfl), State.copyRewrite_ended up force rewriting⟩
end

section
/-! PROOF. One write or one read of an object, step by step as the dictionary judges it (R264 to R268, R291), and the release of a
client (R269, R284). -/

namespace Sys2Proof.Machine

open Sys2Proof

/-! ### An access that is not admitted -/

theorem State.access_of_down {u : State} (who : ClientId) (index : Nat) (act : Nat → State → Reply × State) (down : u.serves = false) :
    u.access who index act = u := if_neg (Bool.eq_false_iff.mp down)

theorem State.access_of_full {u : State} {who : ClientId} (index : Nat) (act : Nat → State → Reply × State) (serves : u.serves = true)
    (stranger : u.slotOf who = none) (full : u.freeSlot = none) : u.access who index act =
      ((u.stat 0x4870 (pathOf who) 2 1).stat 0x4870 (pathOf who) 6 1).answer who (.refused abClients) := by
  have slotless : (u.stat 0x4870 (pathOf who) 2 1).takeSlot who = none := by
    have stranger : (u.stat 0x4870 (pathOf who) 2 1).slotOf who = none := stranger
    have full : (u.stat 0x4870 (pathOf who) 2 1).freeSlot = none := full
    unfold State.takeSlot
    rw [stranger]
    dsimp only
    rw [full]
  unfold State.access
  dsimp only
  rw [if_pos serves, slotless]

/-! ### Writes -/

section

variable {s : State} {n i j : Nat} {b : List Byte} {g : Group} {o : Obj} {x : Val}

theorem State.writeBy_of_short {who : ClientId} (short : b.length ≤ pathLimit who) : s.writeBy who i j b n = s.writeObj n i j b :=
  if_neg (Nat.not_lt.mpr short)

theorem State.writeObj_of_no_group (nowhere : findGroup i = none) : s.writeObj n i j b = refuse abNoObject s := by
  unfold State.writeObj
  rw [nowhere]

theorem State.readObj_of_no_group {limit : Nat} {bad : List Nat} (nowhere : findGroup i = none) :
    s.readObj n i j limit bad = refuse abNoObject s := by
  unfold State.readObj
  rw [nowhere]

section

variable (found : findGroup i = some g) (counts : j ≠ 0)

include found counts

theorem State.writeObj_of_no_line (nowhere : g.line j = none) : s.writeObj n i j b = refuse abNoSub s := by
  unfold State.writeObj
  rw [found]
  dsimp only
  rw [if_neg (fun h => counts h.1), nowhere]

theorem State.readObj_of_no_line {limit : Nat} {bad : List Nat} (nowhere : g.line j = none) :
    s.readObj n i j limit bad = refuse abNoSub s := by
  unfold State.readObj
  rw [found]
  dsimp only
  rw [if_neg (fun h => counts h.1), nowhere]

variable (line : g.line j = some o)

include line

theorem State.writeObj_of_read_only (fixed : o.acc = .ro ∨ o.acc = .const) : s.writeObj n i j b = refuse abReadOnly s := by
  unfold State.writeObj
  rw [found]
  dsimp only
  rw [if_neg (fun h => counts h.1), line]
  exact if_pos (fixed.imp_right Or.inl)

theorem State.readObj_of_write_only {limit : Nat} {bad : List Nat} (hidden : o.acc = .wo) :
    s.readObj n i j limit bad = refuse abWriteOnly s := by
  unfold State.readObj
  rw [found]
  dsimp only
  rw [if_neg (fun h => counts h.1), line]
  exact if_pos hidden

end

/-- What a value does that has been judged, by the effect of its object. -/
def State.effectOf (n : Nat) (g : Group) (o : Obj) (k : Key) (v : Val) (s : State) : Reply × State :=
  match o.eff with
  | .stg => s.stage n k v
  | .bnd => s.writeBnd k v
  | _ => if perClient g k.sub then granted (s.holdFor n k.index k.sub v) else s.command n k.index k.sub k.row v

theorem State.writeObj_of_value (found : findGroup i = some g) (counts : j ≠ 0) (line : g.line j = some o)
    (writable : o.acc = .rw ∨ o.acc = .wo) (unlocked : lockedRow i j (s.rowOf n g i) = false) (judged : o.judge b = .ok x) :
    s.writeObj n i j b = s.effectOf n g o ⟨i, j, s.rowOf n g i⟩ x := by
  have open_ : ¬ (o.acc = .ro ∨ o.acc = .const ∨ lockedRow i j (s.rowOf n g i) = true) := by
    rintro (h | h | h)
    · rcases writable with w | w <;> exact nomatch h.symm.trans w
    · rcases writable with w | w <;> exact nomatch h.symm.trans w
    · exact Bool.eq_false_iff.mp unlocked h
  unfold State.writeObj
  rw [found]
  dsimp only
  rw [if_neg (fun h => counts h.1), line]
  dsimp only
  rw [if_neg open_, judged]
  rfl

theorem State.effectOf_stg (k : Key) (eff : o.eff = .stg) : s.effectOf n g o k x = s.stage n k x := by
  unfold State.effectOf
  rw [eff]

theorem State.effectOf_bnd (k : Key) (eff : o.eff = .bnd) : s.effectOf n g o k x = s.writeBnd k x := by
  unfold State.effectOf
  rw [eff]

theorem State.effectOf_held (k : Key) (eff : o.eff = .imm) (held : perClient g k.sub = true) :
    s.effectOf n g o k x = granted (s.holdFor n k.index k.sub x) := by
  unfold State.effectOf
  rw [eff]
  exact if_pos held

theorem State.effectOf_command (k : Key) (eff : o.eff = .imm) (shared : perClient g k.sub = false) :
    s.effectOf n g o k x = s.command n k.index k.sub k.row x := by
  unfold State.effectOf
  rw [eff]
  exact if_neg (Bool.eq_false_iff.mp shared)

/-- A staged value is refused with no cycle or to a stranger, and otherwise goes into the shadow. -/
theorem State.stage_of_owner (k : Key) (running : s.cycle.state ≠ 0) (own : s.cycle.owner = some n) (unchecked : s.cycle.state ≠ 2)
    (uncommitted : s.cycle.state ≠ 5) : s.stage n k x = granted { s with cycle := { s.cycle with
      state := 1, staged := s.cycle.staged + 1, shadow := Cfg.set s.uid k x s.cycle.shadow } } :=
  (if_neg running).trans ((if_neg (not_not.mpr own)).trans (if_neg (not_or.mpr ⟨unchecked, uncommitted⟩)))

/-- Of an object that is no serial port's a bound value takes effect at once, and is mirrored by the active unit. -/
theorem State.writeBnd_of_active (k : Key) (joined : s.twin.role ≠ 1) (standby : s.twin.role ≠ 2) (taking : s.twin.role ≠ 3)
    (other : k.index < 0x2100 ∨ 0x2117 < k.index) :
    ∃ t, s.writeBnd k x = granted t ∧ t = { s with cfg := Cfg.set s.uid k x s.cfg, twin := t.twin } := by
  have plain : s.putBnd k x = { s with cfg := Cfg.set s.uid k x s.cfg } := if_neg (by omega)
  have passed : s.writeBnd k x = granted (if (s.putBnd k x).mirrors then { s.putBnd k x with twin := { (s.putBnd k x).twin with
      dirty := (s.putBnd k x).twin.dirty ++ [.bnd k.index k.sub k.row (match findObj k.index k.sub with
        | some o => o.ty.encode x
        | none => [])] } } else s.putBnd k x) :=
    (if_neg (by omega)).trans ((if_neg (by omega)).trans (if_neg (by omega)))
  refine ⟨_, passed, ?_⟩
  rw [plain]
  split <;> rfl

/-! ### The flags of a serial port -/

/-- The flags of a serial port (Table 6.10). -/
def serialFlagsObj : Obj := ⟨0x21, 0x21, .uns 2, .rw, .imm, 0, .any, 0⟩

theorem serialFlagsObj_judge (mask : BitVec 16) : serialFlagsObj.judge (leBytes 2 mask.toNat) = .ok (.num mask.toNat) := by
  have decoded : serialFlagsObj.ty.decode (leBytes 2 mask.toNat) = .num mask.toNat := by
    change Val.num (leNat (leBytes 2 mask.toNat)) = _
    rw [leNat_leBytes_two]
  have length : ¬ (leBytes 2 mask.toNat).length ≠ 2 := not_not_intro rfl
  have real : ¬ (serialFlagsObj.ty = .real32 ∧ finite32 (leNat (leBytes 2 mask.toNat)) = false) := fun h => nomatch h.1
  have whole : serialFlagsObj.mask = 0 := rfl
  have size : serialFlagsObj.ty.size = some 2 := rfl
  have range : serialFlagsObj.rng = .any := rfl
  unfold Obj.judge
  rw [size]
  dsimp only
  rw [if_neg length, if_neg real, decoded, if_pos whole, range]
  rfl

theorem serialGroup_flags : serialGroup.line 0x21 = some serialFlagsObj := by decide

theorem maskBytes_serial (p : Fin 24) (mask : BitVec 16) : maskBytes (0x2100 + p.val) 0x21 mask = leBytes 2 mask.toNat := by
  unfold maskBytes findObj
  rw [findGroup_serial, Option.bind_some, serialGroup_flags]
  rfl

/-- A 1 clears each of the three flags that stay set. -/
theorem State.writeObj_serialFlags (p : Fin 24) (mask : BitVec 16) :
    s.writeObj n (0x2100 + p.val) 0x21 (maskBytes (0x2100 + p.val) 0x21 mask) =
      granted (s.modSp p.val (fun y => { y with flags := wipe y.flags 0x07 mask.toNat })) := by
  have unlocked : lockedRow (0x2100 + p.val) 0x21 (s.rowOf n serialGroup (0x2100 + p.val)) = false := by
    have shaft : (0x2100 + p.val == 0x2010) = false := beq_eq_false_iff_ne.mpr (by omega)
    have lists : (0x2100 + p.val == 0x2520) = false := beq_eq_false_iff_ne.mpr (by omega)
    unfold lockedRow
    rw [shaft, lists]
    rfl
  have flags : isFlags (0x2100 + p.val) 0x21 = true := by
    have among : decide (0x2100 ≤ 0x2100 + p.val ∧ 0x2100 + p.val ≤ 0x2117) = true := decide_eq_true (by omega)
    unfold isFlags
    rw [among]
    rfl
  have shared : perClient serialGroup 0x21 = false := by decide
  rw [maskBytes_serial, State.writeObj_of_value (findGroup_serial p) (by decide) serialGroup_flags (Or.inl rfl) unlocked
    (serialFlagsObj_judge mask), State.effectOf_command _ rfl shared]
  unfold State.command
  dsimp only
  rw [if_pos flags]
  unfold State.clearFlags
  rw [if_pos (by omega), Nat.add_sub_cancel_left]
  rfl

/-! ### Statistics -/

theorem State.fetchVal_statistic {k : Nat} (here : 0x4800 ≤ i ∧ i ≤ 0x48FF) (other : i ≠ 0x4830) (shared : perClient g j = false) :
    s.fetchVal n i j k g o = (.num (s.statOf i k j : Nat), { s with stats := Tbl.del (statKey i k j) s.stats }) := by
  unfold State.fetchVal
  rw [if_neg (Bool.eq_false_iff.mp shared), if_pos here]
  unfold State.takeStat
  dsimp only
  rw [if_neg other]

theorem State.readObj_statistic {limit : Nat} {bad : List Nat} (found : findGroup i = some g) (counts : j ≠ 0) (line : g.line j = some o)
    (readable : o.acc ≠ .wo) (here : 0x4800 ≤ i ∧ i ≤ 0x48FF) (other : i ≠ 0x4830) (shared : perClient g j = false)
    (short : (o.ty.encode (.num (s.statOf i (s.rowOf n g i) j : Nat))).length ≤ limit) :
    s.readObj n i j limit bad = (.done (o.ty.encode (.num (s.statOf i (s.rowOf n g i) j : Nat))),
      { s with stats := Tbl.del (statKey i (s.rowOf n g i) j) s.stats }) := by
  have free : s.phyRefuses i j = false := by
    have elsewhere : (i == 0x2230) = false := beq_eq_false_iff_ne.mpr (by omega)
    unfold State.phyRefuses
    rw [elsewhere]
    rfl
  unfold State.readObj
  rw [found]
  dsimp only
  rw [if_neg (fun h => counts h.1), line]
  dsimp only
  rw [if_neg readable, if_neg (Bool.eq_false_iff.mp free), if_neg (by omega), if_neg (by omega),
    State.fetchVal_statistic here other shared, if_neg (Nat.not_lt.mpr short)]

end

/-! ### The release of a client -/

/-- The client in a slot is gone. -/
structure State.Released (u : State) (k : Nat) (c : Client) (t : State) : Prop where
  clients : t.dict.clients = u.dict.clients.filter (fun x => x.1 != k)
  cfg : t.cfg = u.cfg
  transfer : c.id = .sdo → t.dict.transfer = none
  abandoned : u.cycle.owner = some k → u.cycle.state ≠ 0 → u.cycle.committed = false →
    t.cycle.state = 0 ∧ t.cycle.shadow = [] ∧ t.cycle.result = 4
  kept : u.cycle.owner ≠ some k → t.cycle = u.cycle

theorem State.releaseClient_released {u : State} {k : Nat} {c : Client} (there : u.clientAt k = some c) :
    u.Released k c (u.releaseClient k) := by
  obtain ⟨bare, -, -, dict, cycle⟩ := State.releaseClient_spec there
  have cfg : (u.releaseClient k).cfg = u.cfg := congrArg (fun t => t.cfg) (State.eq_patch_of_bare bare)
  refine ⟨congrArg (fun d => d.clients) dict, cfg, fun sdo => ?_, fun own running uncommitted => ?_, fun other => ?_⟩
  · rw [dict]
    exact if_pos sdo
  · rw [cycle]
    exact State.leaveCycle_of_owner own running uncommitted
  · rw [cycle, State.leaveCycle_of_other other]

theorem State.releaseClient_of_free {u : State} {k : Nat} (free : u.clientAt k = none) : u.releaseClient k = u := by
  unfold State.releaseClient
  rw [free]

theorem State.clientTimeout_of_free {u : State} {k : Nat} (free : u.clientAt k = none) : u.clientTimeout k = u := by
  unfold State.clientTimeout
  rw [free]

theorem State.clientTimeout_of_client {u : State} {k : Nat} {c : Client} (there : u.clientAt k = some c) :
    u.clientTimeout k = if u.now < c.last + u.cn 0x5040 1 0 * cyclesPerSec then u else u.releaseClient k := by
  unfold State.clientTimeout
  rw [there]

end Sys2Proof.Machine
end

section
/-! PROOF. O46: accesses to objects by their effect, and the release of clients (R264 to R269, R279, R284, R286, R291). -/

namespace Sys2Proof.Machine

open Sys2Proof

/-- What an admitted access does in the state that it finds, said of the outcome. -/
theorem next_access_of_acts {who : ClientId} {n i : Nat} {u t : State} {act : Nat → State → Reply × State} {r : Reply}
    {out : Host.Outcome State Fault Refusal} (run : out = .next (u.access who i act)) (admitted : Admitted who n i u)
    (acts : act n (u.accessed who n) = (r, t)) : out = .next (t.answer who r) := run.trans (next_access_of_admitted admitted acts)

/-- A bound value of an object that is no serial port's. -/
theorem State.accessed_bnd {u : State} {x : Val} (who : ClientId) (n : Nat) (k : Key) (joined : u.twin.role ≠ 1) (standby : u.twin.role ≠ 2)
    (taking : u.twin.role ≠ 3) (other : k.index < 0x2100 ∨ 0x2117 < k.index) :
    ∃ t, (u.accessed who n).writeBnd k x = granted t ∧ (t.answer who (.done [])).dict.reply = some (who, .done []) ∧
      (t.answer who (.done [])).cfg = Cfg.set u.uid k x u.cfg ∧
      t.answer who (.done []) = { u with
        cfg := (t.answer who (.done [])).cfg, dict := (t.answer who (.done [])).dict, stats := (t.answer who (.done [])).stats
        twin := (t.answer who (.done [])).twin } := by
  obtain ⟨t, written, rest⟩ := State.writeBnd_of_active (s := u.accessed who n) (x := x) k joined standby taking other
  refine ⟨t, written, rfl, ?_, ?_⟩
  · rw [rest]
    rfl
  · rw [rest]
    rfl

end Sys2Proof.Machine

open Sys2Proof Sys2Proof.Machine

/-- Settles O46: a write or a read is judged step by step, and a client that goes leaves its slot and its cycle. -/
theorem objectAccessAndClients : Obligations.ObjectAccessAndClients := by
  refine ⟨?_, ?_⟩
  · intro s dt n who index sub b mask g o x u v i j row refused writes
    have stg : exec (.stgWrite dt who index sub b) s = .next (u.access who i (State.writeBy who i j b)) := rfl
    have bnd : exec (.bndWrite dt who index sub b) s = .next (u.access who i (State.writeBy who i j b)) := rfl
    have reg : exec (.registerWrite dt who index sub b) s = .next (u.access who i (State.writeBy who i j b)) := rfl
    have clears : exec (.flagClear dt who index sub mask) s =
        .next (u.access who i (fun n s => s.writeObj n i j (maskBytes i j mask))) := rfl
    have reads : exec (.statisticRead dt who index sub) s = .next (u.access who i (fun n s => s.readObj n i j (pathLimit who) [])) := rfl
    clear_value u i j
    have all {r : Host.Outcome State Fault Refusal} (same : .next (u.access who i (State.writeBy who i j b)) = r) : writes r :=
      ⟨stg.trans same, bnd.trans same, reg.trans same⟩
    refine ⟨fun down => ?_, fun serves stranger full => ?_, fun admitted short => ?_⟩
    · exact ⟨all (congrArg _ (State.access_of_down who i _ down)), clears.trans (congrArg _ (State.access_of_down who i _ down)),
        reads.trans (congrArg _ (State.access_of_down who i _ down))⟩
    · exact all (congrArg _ (State.access_of_full i _ serves stranger full))
    · have written {r : Reply} {t : State} (acts : v.writeObj n i j b = (r, t)) :
          (.next (u.access who i (State.writeBy who i j b)) : Host.Outcome State Fault Refusal) = .next (t.answer who r) :=
        next_access_of_admitted admitted ((State.writeBy_of_short short).trans acts)
      have read {r : Reply} {t : State} (acts : v.readObj n i j (pathLimit who) [] = (r, t)) :
          exec (.statisticRead dt who index sub) s = .next (t.answer who r) := next_access_of_acts reads admitted acts
      refine ⟨fun nowhere => ?_, fun found counts => ⟨fun nowhere => ?_, fun line => ⟨fun fixed => ?_, fun hidden => ?_,
        fun writable unlocked judged => ⟨fun eff => ⟨fun closed => ?_, fun running other => ?_, fun running unchecked uncommitted own => ?_⟩,
          fun eff joined standby taking other => ?_, fun eff held => ?_⟩,
        fun readable above below other shared fits => ?_⟩⟩, fun p at_ flags => ?_⟩
      · exact ⟨all (written (State.writeObj_of_no_group nowhere)), read (State.readObj_of_no_group nowhere)⟩
      · exact ⟨all (written (State.writeObj_of_no_line found counts nowhere)), read (State.readObj_of_no_line found counts nowhere)⟩
      · exact all (written (State.writeObj_of_read_only found counts line fixed))
      · exact read (State.readObj_of_write_only found counts line hidden)
      · exact stg.trans (written ((State.writeObj_of_value found counts line writable unlocked judged).trans
          ((State.effectOf_stg _ eff).trans (if_pos closed))))
      · exact stg.trans (written ((State.writeObj_of_value found counts line writable unlocked judged).trans
          ((State.effectOf_stg _ eff).trans ((if_neg running).trans (if_pos other)))))
      · exact stg.trans (written ((State.writeObj_of_value found counts line writable unlocked judged).trans
          ((State.effectOf_stg _ eff).trans (State.stage_of_owner (s := v) _ running own unchecked uncommitted))))
      · obtain ⟨t, put, told⟩ := State.accessed_bnd (x := x) who n ⟨i, j, row⟩ joined standby taking other
        exact ⟨_, bnd.trans (written ((State.writeObj_of_value found counts line writable unlocked judged).trans
          ((State.effectOf_bnd _ eff).trans put))), told⟩
      · exact reg.trans (written ((State.writeObj_of_value found counts line writable unlocked judged).trans
          (State.effectOf_held _ eff held)))
      · exact read (State.readObj_statistic found counts line readable ⟨above, below⟩ other shared fits)
      · subst at_ flags
        exact next_access_of_acts clears admitted (State.writeObj_serialFlags p mask)
  · intro s dt k c u gone
    have leaves : exec (.clientRelease dt k) s = .next (if u.serves then u.releaseClient k.val else u) := rfl
    have expires : exec (.clientReleaseTimeout dt k) s = .next (if u.serves then u.clientTimeout k.val else u) := rfl
    clear_value u
    have parted (there : u.clientAt k.val = some c) : gone (u.releaseClient k.val) := by
      obtain ⟨clients, cfg, transfer, abandoned, kept⟩ := State.releaseClient_released there
      exact ⟨clients, cfg, transfer, abandoned, kept⟩
    refine ⟨fun idle => ?_, fun serves there => ⟨?_, fun early => ?_, fun late => ?_⟩⟩
    · rcases idle with down | free
      · have down := Bool.eq_false_iff.mp down
        exact ⟨leaves.trans (congrArg _ (if_neg down)), expires.trans (congrArg _ (if_neg down))⟩
      · rw [State.releaseClient_of_free free, ite_self] at leaves
        rw [State.clientTimeout_of_free free, ite_self] at expires
        exact ⟨leaves, expires⟩
    · exact ⟨_, leaves.trans (congrArg _ (if_pos serves)), parted there⟩
    · exact expires.trans (congrArg _ ((if_pos serves).trans ((State.clientTimeout_of_client there).trans (if_pos early))))
    · exact ⟨_, expires.trans (congrArg _ ((if_pos serves).trans ((State.clientTimeout_of_client there).trans (if_neg (Nat.not_lt.mpr late))))),
        parted there⟩
end
